-- ==== Sys2Proof/Word.lean ====
section
/-! DEFINITION. The word types and the shapes of data the whole model uses (R4, R5). -/

namespace Sys2Proof

/-- A 64-bit doubleword: the datum of the integer instructions, of queues and of messages. -/
abbrev Word := BitVec 64

/-- A byte, the smallest addressable unit (R5). -/
abbrev Byte := BitVec 8

/-- Sparse data by key: a list of key and value pairs, keys strictly rising. -/
abbrev SMap (α : Type) := List (Nat × α)

/-- `n` bits of `w` from bit `lo` upward, as a number. -/
def bits (w lo n : Nat) : Nat := w / 2 ^ lo % 2 ^ n

/-- One bit of `w`. -/
def bit (w i : Nat) : Bool := w / 2 ^ i % 2 == 1

/-- The number an `n`-bit two's-complement field `v` stands for (R213). -/
def sext (n v : Nat) : Int := if v < 2 ^ (n - 1) then (v : Int) else (v : Int) - 2 ^ n

/-- The `n`-bit two's-complement field of a number. -/
def toField (n : Nat) (x : Int) : Nat := (x % 2 ^ n).toNat

/-- Wrap an exact result to 64 bits (R4). -/
def wrap (x : Int) : Word := BitVec.ofInt 64 x

end Sys2Proof
end

