-- ==== Sys2Proof/Types.lean ====
section
/-! DEFINITION. Data that an instruction or a hardware event carries as an operand: a matrix command, a link packet,
a boot image (R160, R405, R415, R416). -/

namespace Sys2Proof

/-- A matrix sequencer command: eight doublewords, 64 bytes (R160). -/
structure Cmd where
  w0 : Word
  w1 : Word
  w2 : Word
  w3 : Word
  w4 : Word
  w5 : Word
  w6 : Word
  w7 : Word
  deriving DecidableEq, Repr, Inhabited

/-- The opcode of a command: word 0 bits [7:0] (R160). -/
def Cmd.op (c : Cmd) : Nat := bits c.w0.toNat 0 8

/-- A packet of the transaction layer, as it arrives on a link (R405): the header's fields, words 2 to 7, the data. -/
structure Packet where
  link : Nat
  tenant : Nat
  device : Nat
  status : Nat
  length : Nat
  tag : Nat
  requester : Nat
  physical : Bool
  acquire : Bool
  release : Bool
  poison : Bool
  atomicOp : Nat
  op : Nat
  address : Nat
  words : List Nat
  data : List Nat
  deriving DecidableEq, Repr, Inhabited

/-- The flits of a packet: its header flit and its data flits (R405). -/
def Packet.flits (p : Packet) : Nat := 1 + (p.data.length + 63) / 64

/-- What a link attaches (R395). -/
inductive LinkRole where
  | unused
  | host
  | peer
  deriving DecidableEq, Repr, Inhabited

/-- What the body of a configuration image declares (R416). The spec names the items and no byte layout, so they are
fields here (DESIGN CHOICE, log 4). Capacities count GiB. -/
structure ConfigBody where
  nearGiB : Nat
  farGiB : Nat
  roles : List LinkRole
  peerLinks : List (List Nat)
  hostLinks : List (List Nat)
  registers : List (Nat × Nat)
  powerLimit : Nat
  deriving DecidableEq, Repr, Inhabited

/-- The service entry block that firmware gives a keystone core (R417): the service code capability and the stack
capability of each context, as 128-bit numbers, the service domain and the service priority. -/
structure EntryBlock where
  code : Nat
  stackCaps : List Nat
  domain : Nat
  prio : Nat
  deriving DecidableEq, Repr, Inhabited

/-- A signed image (R415): its bytes as R415 lays them out, with what its body declares (configuration image) or holds for the
keystones (firmware image); the body's own layout is not in the spec (log 4). -/
structure Image where
  bytes : List Byte
  config : ConfigBody
  entry : EntryBlock
  deriving DecidableEq, Repr, Inhabited

end Sys2Proof
end

