-- ==== Sys2Proof/Syntax.lean ====
section
/-! DEFINITION. The instructions: one constructor per row of spec/opcode_table.json (core instructions with
operands first: Lean runs only the first 244 constructors that have fields, log 7). Register numbers and unsigned
fields are numbers, signed immediates integers; a branch or jump offset counts halfwords (core) or words (engine). -/

namespace Sys2Proof

/-- Core instructions (R211 to R232), compact instructions (R230), engine instructions (R66), matrix commands (R160), and
the hardware events of the opcode table, which have no encoding. -/
inductive Instr where
  /-- ADD (R238). -/
  | add (d a b : Nat)
  /-- SUB (R238). -/
  | sub (d a b : Nat)
  /-- MUL (R238). -/
  | mul (d a b : Nat)
  /-- MULH (R238). -/
  | mulh (d a b : Nat)
  /-- MULHU (R238). -/
  | mulhu (d a b : Nat)
  /-- DIV (R239). -/
  | div (d a b : Nat)
  /-- DIVU (R239). -/
  | divu (d a b : Nat)
  /-- REM (R239). -/
  | rem (d a b : Nat)
  /-- REMU (R239). -/
  | remu (d a b : Nat)
  /-- AND (R238). -/
  | and (d a b : Nat)
  /-- OR (R238). -/
  | or (d a b : Nat)
  /-- XOR (R238). -/
  | xor (d a b : Nat)
  /-- ANDN (R238). -/
  | andn (d a b : Nat)
  /-- SLL (R238). -/
  | sll (d a b : Nat)
  /-- SRL (R238). -/
  | srl (d a b : Nat)
  /-- SRA (R238). -/
  | sra (d a b : Nat)
  /-- ROL (R238). -/
  | rol (d a b : Nat)
  /-- ROR (R238). -/
  | ror (d a b : Nat)
  /-- SLT (R238). -/
  | slt (d a b : Nat)
  /-- SLTU (R238). -/
  | sltu (d a b : Nat)
  /-- MIN (R238). -/
  | min (d a b : Nat)
  /-- MAX (R238). -/
  | max (d a b : Nat)
  /-- MINU (R238). -/
  | minu (d a b : Nat)
  /-- MAXU (R238). -/
  | maxu (d a b : Nat)
  /-- CLZ (R238). -/
  | clz (d a : Nat)
  /-- CTZ (R238). -/
  | ctz (d a : Nat)
  /-- POPC (R238). -/
  | popc (d a : Nat)
  /-- SEL (R240). -/
  | sel (d a b g : Nat)
  /-- ADDI (R241). -/
  | addi (d a : Nat) (imm : Int)
  /-- SLLI (R241). -/
  | slli (d a amt : Nat)
  /-- SRLI (R241). -/
  | srli (d a amt : Nat)
  /-- SRAI (R241). -/
  | srai (d a amt : Nat)
  /-- ANDI (R241). -/
  | andi (d a : Nat) (imm : Int)
  /-- ORI (R241). -/
  | ori (d a : Nat) (imm : Int)
  /-- XORI (R241). -/
  | xori (d a : Nat) (imm : Int)
  /-- SLTI (R241). -/
  | slti (d a : Nat) (imm : Int)
  /-- SLTUI (R241). -/
  | sltui (d a : Nat) (imm : Int)
  /-- LIH (R242). -/
  | lih (d imm : Nat)
  /-- CSETB (R245). -/
  | csetb (d a b : Nat)
  /-- CINC (R246). -/
  | cinc (d a b : Nat)
  /-- CANDP (R247). -/
  | candp (d a b : Nat)
  /-- CSUB (R248). -/
  | csub (d a b : Nat)
  /-- CTEST (R248). -/
  | ctest (d a b : Nat)
  /-- CGETB (R248). -/
  | cgetb (d a : Nat)
  /-- CGETL (R248). -/
  | cgetl (d a : Nat)
  /-- CGETP (R248). -/
  | cgetp (d a : Nat)
  /-- CGETT (R248). -/
  | cgett (d a : Nat)
  /-- CCLR (R249). -/
  | cclr (d a : Nat)
  /-- CMOV (R249). -/
  | cmov (d a : Nat)
  /-- CINC_I (R246). -/
  | cincI (d a : Nat) (imm : Int)
  /-- CSETB_I (R245). -/
  | csetbI (d a len : Nat)
  /-- CANDP_I (R247). -/
  | candpI (d a mask : Nat)
  /-- CPCREL (R250). -/
  | cpcrel (d : Nat) (off : Int)
  /-- LB (R258). -/
  | lb (d a : Nat) (imm : Int)
  /-- LBU (R258). -/
  | lbu (d a : Nat) (imm : Int)
  /-- LH (R258). -/
  | lh (d a : Nat) (imm : Int)
  /-- LHU (R258). -/
  | lhu (d a : Nat) (imm : Int)
  /-- LW (R258). -/
  | lw (d a : Nat) (imm : Int)
  /-- LWU (R258). -/
  | lwu (d a : Nat) (imm : Int)
  /-- LD (R258). -/
  | ld (d a : Nat) (imm : Int)
  /-- LCAP (R259). -/
  | lcap (d a : Nat) (imm : Int)
  /-- SB (R260). -/
  | sb (b a : Nat) (imm : Int)
  /-- SH (R260). -/
  | sh (b a : Nat) (imm : Int)
  /-- SW (R260). -/
  | sw (b a : Nat) (imm : Int)
  /-- SD (R260). -/
  | sd (b a : Nat) (imm : Int)
  /-- SQ (R260). -/
  | sq (b a : Nat) (imm : Int)
  /-- SCAP (R261). -/
  | scap (b a : Nat) (imm : Int)
  /-- LB_X (R262). -/
  | lbX (d a hint scope route : Nat)
  /-- LBU_X (R262). -/
  | lbuX (d a hint scope route : Nat)
  /-- LH_X (R262). -/
  | lhX (d a hint scope route : Nat)
  /-- LHU_X (R262). -/
  | lhuX (d a hint scope route : Nat)
  /-- LW_X (R262). -/
  | lwX (d a hint scope route : Nat)
  /-- LWU_X (R262). -/
  | lwuX (d a hint scope route : Nat)
  /-- LD_X (R262). -/
  | ldX (d a hint scope route : Nat)
  /-- LQ (R258). -/
  | lq (d a hint scope route : Nat)
  /-- LCAP_X (R262). -/
  | lcapX (d a hint scope route : Nat)
  /-- HOME (R266). -/
  | home (d a : Nat)
  /-- MIGR (R265). -/
  | migr (a : Nat)
  /-- MIGR_F (R265). -/
  | migrF (a : Nat)
  /-- SB_X (R262). -/
  | sbX (b a hint scope route : Nat)
  /-- SH_X (R262). -/
  | shX (b a hint scope route : Nat)
  /-- SW_X (R262). -/
  | swX (b a hint scope route : Nat)
  /-- SD_X (R262). -/
  | sdX (b a hint scope route : Nat)
  /-- SQ_X (R262). -/
  | sqX (b a hint scope route : Nat)
  /-- SCAP_X (R262). -/
  | scapX (b a hint scope route : Nat)
  /-- AMOADD (R268). -/
  | amoadd (d b a : Nat) (w aq rl : Bool) (scope : Nat)
  /-- AMOAND (R268). -/
  | amoand (d b a : Nat) (w aq rl : Bool) (scope : Nat)
  /-- AMOOR (R268). -/
  | amoor (d b a : Nat) (w aq rl : Bool) (scope : Nat)
  /-- AMOXOR (R268). -/
  | amoxor (d b a : Nat) (w aq rl : Bool) (scope : Nat)
  /-- AMOMIN (R268). -/
  | amomin (d b a : Nat) (w aq rl : Bool) (scope : Nat)
  /-- AMOMAX (R268). -/
  | amomax (d b a : Nat) (w aq rl : Bool) (scope : Nat)
  /-- AMOMINU (R268). -/
  | amominu (d b a : Nat) (w aq rl : Bool) (scope : Nat)
  /-- AMOMAXU (R268). -/
  | amomaxu (d b a : Nat) (w aq rl : Bool) (scope : Nat)
  /-- AMOSWAP (R268). -/
  | amoswap (d b a : Nat) (w aq rl : Bool) (scope : Nat)
  /-- CAS (R268). -/
  | cas (d b a : Nat) (w aq rl : Bool) (scope : Nat)
  /-- CASQ (R268). -/
  | casq (d b a : Nat) (aq rl : Bool) (scope : Nat)
  /-- RWLR (R271). -/
  | rwlr (d a : Nat) (t : Bool)
  /-- RWLW (R271). -/
  | rwlw (d a : Nat) (t : Bool)
  /-- RWUR (R272). -/
  | rwur (a : Nat)
  /-- RWUW (R272). -/
  | rwuw (a : Nat)
  /-- FENCE (R274). -/
  | fence (kinds scope : Nat)
  /-- BEQ (R252). -/
  | beq (a b : Nat) (off : Int)
  /-- BNE (R252). -/
  | bne (a b : Nat) (off : Int)
  /-- BLT (R252). -/
  | blt (a b : Nat) (off : Int)
  /-- BGE (R252). -/
  | bge (a b : Nat) (off : Int)
  /-- BLTU (R252). -/
  | bltu (a b : Nat) (off : Int)
  /-- BGEU (R252). -/
  | bgeu (a b : Nat) (off : Int)
  /-- JAL (R253). -/
  | jal (d : Nat) (off : Int)
  /-- JALR (R254). -/
  | jalr (d a : Nat) (imm : Int)
  /-- VLD (R278). -/
  | vld (d a : Nat) (imm : Int)
  /-- VLDS (R278). -/
  | vlds (d a s k ew : Nat)
  /-- VGATH (R278). -/
  | vgath (d a x k ew : Nat)
  /-- VST (R278). -/
  | vst (b a : Nat) (imm : Int)
  /-- VSTS (R278). -/
  | vsts (b a s k ew : Nat)
  /-- VSCAT (R278). -/
  | vscat (b a x k ew : Nat)
  /-- VSCATA_ADD (R281). -/
  | vscataAdd (b a x k ew : Nat) (atm : Bool)
  /-- VSCATA_FADD (R281). -/
  | vscataFadd (b a x k ew : Nat) (atm : Bool)
  /-- VADD (R282). -/
  | vadd (d a b k ew : Nat)
  /-- VSUB (R282). -/
  | vsub (d a b k ew : Nat)
  /-- VMUL (R282). -/
  | vmul (d a b k ew : Nat)
  /-- VMULH (R282). -/
  | vmulh (d a b k ew : Nat)
  /-- VMULHU (R282). -/
  | vmulhu (d a b k ew : Nat)
  /-- VMIN (R282). -/
  | vmin (d a b k ew : Nat)
  /-- VMAX (R282). -/
  | vmax (d a b k ew : Nat)
  /-- VMINU (R282). -/
  | vminu (d a b k ew : Nat)
  /-- VMAXU (R282). -/
  | vmaxu (d a b k ew : Nat)
  /-- VABS (R282). -/
  | vabs (d a k ew : Nat)
  /-- VNEG (R282). -/
  | vneg (d a k ew : Nat)
  /-- VAND (R282). -/
  | vand (d a b k ew : Nat)
  /-- VOR (R282). -/
  | vor (d a b k ew : Nat)
  /-- VXOR (R282). -/
  | vxor (d a b k ew : Nat)
  /-- VSLL (R282). -/
  | vsll (d a b k ew : Nat)
  /-- VSRL (R282). -/
  | vsrl (d a b k ew : Nat)
  /-- VSRA (R282). -/
  | vsra (d a b k ew : Nat)
  /-- VADD_FP (R283). -/
  | vaddFp (d a b k ew : Nat)
  /-- VSUB_FP (R283). -/
  | vsubFp (d a b k ew : Nat)
  /-- VMUL_FP (R283). -/
  | vmulFp (d a b k ew : Nat)
  /-- VFMA (R283). -/
  | vfma (d a b k ew : Nat)
  /-- VFMS (R283). -/
  | vfms (d a b k ew : Nat)
  /-- VDIV (R283). -/
  | vdiv (d a b k ew : Nat)
  /-- VSQRT (R283). -/
  | vsqrt (d a k ew : Nat)
  /-- VMIN_FP (R283). -/
  | vminFp (d a b k ew : Nat)
  /-- VMAX_FP (R283). -/
  | vmaxFp (d a b k ew : Nat)
  /-- VABS_FP (R283). -/
  | vabsFp (d a k ew : Nat)
  /-- VNEG_FP (R283). -/
  | vnegFp (d a k ew : Nat)
  /-- VCMP_EQ (R284). -/
  | vcmpEq (d a b k ew : Nat)
  /-- VCMP_NE (R284). -/
  | vcmpNe (d a b k ew : Nat)
  /-- VCMP_LT (R284). -/
  | vcmpLt (d a b k ew : Nat)
  /-- VCMP_LE (R284). -/
  | vcmpLe (d a b k ew : Nat)
  /-- VCMP_LTU (R284). -/
  | vcmpLtu (d a b k ew : Nat)
  /-- VCMP_LEU (R284). -/
  | vcmpLeu (d a b k ew : Nat)
  /-- VCMP_FEQ (R284). -/
  | vcmpFeq (d a b k ew : Nat)
  /-- VCMP_FNE (R284). -/
  | vcmpFne (d a b k ew : Nat)
  /-- VCMP_FLT (R284). -/
  | vcmpFlt (d a b k ew : Nat)
  /-- VCMP_FLE (R284). -/
  | vcmpFle (d a b k ew : Nat)
  /-- VCMP_FUNO (R284). -/
  | vcmpFuno (d a b k ew : Nat)
  /-- VSEL (R285). -/
  | vsel (d a b k ew : Nat)
  /-- VBCAST (R286). -/
  | vbcast (d a k ew : Nat)
  /-- VEXT (R286). -/
  | vext (d a b ew : Nat)
  /-- VINS (R286). -/
  | vins (d a b ew : Nat)
  /-- VPERM (R286). -/
  | vperm (d a b k ew : Nat)
  /-- VSLIDE_UP (R286). -/
  | vslideUp (d a b k ew : Nat)
  /-- VSLIDE_DN (R286). -/
  | vslideDn (d a b k ew : Nat)
  /-- VCOMPR (R286). -/
  | vcompr (d a k ew : Nat)
  /-- VEXPND (R286). -/
  | vexpnd (d a k ew : Nat)
  /-- VRED_ADD (R287). -/
  | vredAdd (d a k ew : Nat)
  /-- VRED_MIN (R287). -/
  | vredMin (d a k ew : Nat)
  /-- VRED_MAX (R287). -/
  | vredMax (d a k ew : Nat)
  /-- VRED_MINU (R287). -/
  | vredMinu (d a k ew : Nat)
  /-- VRED_MAXU (R287). -/
  | vredMaxu (d a k ew : Nat)
  /-- VRED_AND (R287). -/
  | vredAnd (d a k ew : Nat)
  /-- VRED_OR (R287). -/
  | vredOr (d a k ew : Nat)
  /-- VRED_XOR (R287). -/
  | vredXor (d a k ew : Nat)
  /-- VRED_FADD (R288). -/
  | vredFadd (d a k ew : Nat)
  /-- VRED_FMIN (R288). -/
  | vredFmin (d a k ew : Nat)
  /-- VRED_FMAX (R288). -/
  | vredFmax (d a k ew : Nat)
  /-- VCVT (R289). -/
  | vcvt (d a k src dst : Nat)
  /-- VCVTT_DEC (R290). -/
  | vcvttDec (d a b k : Nat) (t4 : Bool) (o : Nat)
  /-- VCVTT_ENC (R290). -/
  | vcvttEnc (d a b k : Nat) (t4 : Bool) (o : Nat)
  /-- VCONF (R291). -/
  | vconf (d a k ew : Nat)
  /-- VISECT (R292). -/
  | visect (d a b k : Nat)
  /-- KOP_AND (R293). -/
  | kopAnd (d a b : Nat)
  /-- KOP_OR (R293). -/
  | kopOr (d a b : Nat)
  /-- KOP_XOR (R293). -/
  | kopXor (d a b : Nat)
  /-- KOP_ANDN (R293). -/
  | kopAndn (d a b : Nat)
  /-- KOP_NOT (R293). -/
  | kopNot (d a : Nat)
  /-- KMOV_TO_MASK (R293). -/
  | kmovToMask (d a : Nat)
  /-- KMOV_FROM_MASK (R293). -/
  | kmovFromMask (d a : Nat)
  /-- KPOP (R293). -/
  | kpop (d a : Nat)
  /-- SEND (R298). -/
  | send (d a b n : Nat) (rx : Bool)
  /-- SENDV (R298). -/
  | sendv (d a b n : Nat) (rx : Bool)
  /-- SENDB (R298). -/
  | sendb (d a b n : Nat) (rx : Bool)
  /-- MLEN (R301). -/
  | mlen (d : Nat)
  /-- MSRC (R301). -/
  | msrc (d : Nat)
  /-- SPAWN (R302). -/
  | spawn (d a b : Nat)
  /-- SPAWN_W (R302). -/
  | spawnW (d a b : Nat)
  /-- KILL (R304). -/
  | kill (a : Nat)
  /-- PRIO (R304). -/
  | prio (a : Nat)
  /-- WAITC (R305). -/
  | waitc (n a : Nat)
  /-- BARR (R308). -/
  | barr (a : Nat)
  /-- BARW (R308). -/
  | barw (a : Nat)
  /-- BARAW (R308). -/
  | baraw (a : Nat)
  /-- BARSET (R307). -/
  | barset (a b : Nat)
  /-- WDECL_ONE (R309). -/
  | wdeclOne (a : Nat)
  /-- WDECL_ALL (R309). -/
  | wdeclAll (a n : Nat)
  /-- WDECL_ANY (R309). -/
  | wdeclAny (a n : Nat)
  /-- CHOPEN (R311). -/
  | chopen (d a b : Nat)
  /-- CHPROD (R311). -/
  | chprod (a : Nat)
  /-- CHPUT (R312). -/
  | chput (a b : Nat)
  /-- CHGET (R312). -/
  | chget (d g a : Nat)
  /-- CHEOS (R313). -/
  | cheos (a : Nat)
  /-- CHCLOSE (R313). -/
  | chclose (a : Nat)
  /-- TSUB (R314). -/
  | tsub (d a b n : Nat)
  /-- TREL (R316). -/
  | trel (n : Nat)
  /-- TRETRY (R316). -/
  | tretry (a : Nat)
  /-- MXQ (R317). -/
  | mxq (a b : Nat)
  /-- MXWAIT (R317). -/
  | mxwait (a : Nat)
  /-- MXCURE (R156). -/
  | mxcure (a : Nat)
  /-- CEKICK (R318). -/
  | cekick (a b g : Nat)
  /-- SEMW (R319). -/
  | semw (n : Nat)
  /-- SEMS (R319). -/
  | sems (n : Nat)
  /-- COMPOSE (R320). -/
  | compose (n : Nat)
  /-- CSRR (R322). -/
  | csrr (d csr : Nat)
  /-- CSRW (R322). -/
  | csrw (csr a : Nat)
  /-- CSRSET (R322). -/
  | csrset (csr a : Nat)
  /-- CSRCLR (R322). -/
  | csrclr (csr a : Nat)
  /-- TRAP (R323). -/
  | trap (i : Nat)
  /-- SYSCALL (R323). -/
  | syscall (i a : Nat)
  /-- PINVAL (R45). -/
  | pinval (a b : Nat)
  /-- PLBINV (R47). -/
  | plbinv (a b : Nat)
  /-- TSTOP (R389). -/
  | tstop (a : Nat)
  /-- TRESUME (R390). -/
  | tresume (a : Nat)
  /-- MXTEST (R325). -/
  | mxtest (a : Nat)
  /-- PKILL (R325). -/
  | pkill (a : Nat)
  /-- FENCE_I (R275). -/
  | fenceI
  /-- MDONE (R301). -/
  | mdone
  /-- EXIT (R303). -/
  | exit
  /-- YIELD (R303). -/
  | yield
  /-- KILL_APPLY (R304). -/
  | killApply (core slot : Nat)
  /-- WCLR (R309). -/
  | wclr
  /-- TDONE (R316). -/
  | tdone
  /-- CEKICK_R (R318). -/
  | cekickR
  /-- COMPOSE_COMPLETE (R320). -/
  | composeComplete (core slot : Nat)
  /-- DECOMPOSE (R321). -/
  | decompose
  /-- NOP (R324). -/
  | nop
  /-- BREAK (R324). -/
  | brk
  /-- ERET (R324). -/
  | eret
  /-- PINVAL_COMPLETE (R45). -/
  | pinvalComplete (core slot : Nat)
  /-- TSTOP_COMPLETE (R389). -/
  | tstopComplete (core slot : Nat)
  /-- C_NOP (R231). -/
  | cNop
  /-- C_ADD (R231). -/
  | cAdd (d a : Nat)
  /-- C_SUB (R231). -/
  | cSub (d a : Nat)
  /-- C_AND (R231). -/
  | cAnd (d a : Nat)
  /-- C_OR (R231). -/
  | cOr (d a : Nat)
  /-- C_XOR (R231). -/
  | cXor (d a : Nat)
  /-- C_MOV (R231). -/
  | cMov (d a : Nat)
  /-- C_ADDI (R231). -/
  | cAddi (d : Nat) (imm : Int)
  /-- C_LI (R231). -/
  | cLi (d : Nat) (imm : Int)
  /-- C_SLLI (R231). -/
  | cSlli (d amt : Nat)
  /-- C_SRLI (R231). -/
  | cSrli (d amt : Nat)
  /-- C_CINC (R231). -/
  | cCinc (d : Nat) (imm : Int)
  /-- C_LD (R231). -/
  | cLd (d a off : Nat)
  /-- C_SD (R231). -/
  | cSd (b a off : Nat)
  /-- C_LW (R231). -/
  | cLw (d a off : Nat)
  /-- C_SW (R231). -/
  | cSw (b a off : Nat)
  /-- C_BEQZ (R231). -/
  | cBeqz (a : Nat) (off : Int)
  /-- C_BNEZ (R231). -/
  | cBnez (a : Nat) (off : Int)
  /-- C_J (R231). -/
  | cJ (off : Int)
  /-- C_JR (R231). -/
  | cJr (a : Nat)
  /-- C_YIELD (R231). -/
  | cYield
  /-- C_MDONE (R231). -/
  | cMdone
  /-- ELI (R68). -/
  | eli (d imm hw : Nat) (k : Bool)
  /-- EADD (R69). -/
  | eadd (d a b : Nat)
  /-- EADDI (R69). -/
  | eaddi (d a : Nat) (imm : Int)
  /-- ESUB (R69). -/
  | esub (d a b : Nat)
  /-- EAND (R69). -/
  | eand (d a b : Nat)
  /-- ESHL (R69). -/
  | eshl (d a amt : Nat)
  /-- ESHR (R69). -/
  | eshr (d a amt : Nat)
  /-- EB (R70). -/
  | eb (cond a b : Nat) (off : Int)
  /-- EJ (R70). -/
  | ej (off : Int)
  /-- ELD (R71). -/
  | eld (d a f : Nat) (imm : Int)
  /-- ELD_Q (R71). -/
  | eldQ (d q : Nat)
  /-- EST (R71). -/
  | est (d a f : Nat) (imm : Int)
  /-- EST_Q (R71). -/
  | estQ (d q : Nat)
  /-- BLK (R76). -/
  | blk (d a b x : Nat)
  /-- GATH (R77). -/
  | gath (d a b x : Nat)
  /-- SCAT (R77). -/
  | scat (d a b x : Nat)
  /-- SCOUT (R79). -/
  | scout (n : Nat)
  /-- EWAIT (R73). -/
  | ewait (n a : Nat)
  /-- EFENCE (R74). -/
  | efence (x : Nat)
  /-- SEMW_ENGINE (R72). -/
  | semwEngine (n : Nat)
  /-- SEMS_ENGINE (R72). -/
  | semsEngine (n : Nat)
  /-- BARB_BIND (R80). -/
  | barbBind (a : Nat)
  /-- BARB_UNBIND (R80). -/
  | barbUnbind
  /-- BARB_ADD (R80). -/
  | barbAdd (a b : Nat)
  /-- EDONE (R64). -/
  | edone (a : Nat)
  /-- COPY_COMPLETE (R75). -/
  | copyComplete (core : Nat)
  /-- COPY_STOP (R82). -/
  | copyStop (core : Nat)
  /-- SCOUT_TRANSLATION (R79). -/
  | scoutTranslation (core : Nat)
  /-- ENGINE_INTERRUPT (R84). -/
  | engineInterrupt (core : Nat)
  /-- MX_NOP (R171). -/
  | mxNop (c : Cmd)
  /-- MX_RING (R172). -/
  | mxRing (c : Cmd)
  /-- MX_MODE (R171). -/
  | mxMode (c : Cmd)
  /-- MX_ZERO (R171). -/
  | mxZero (c : Cmd)
  /-- MX_LDA (R173). -/
  | mxLda (c : Cmd)
  /-- MX_LDB (R174). -/
  | mxLdb (c : Cmd)
  /-- MX_MMA (R175). -/
  | mxMma (c : Cmd)
  /-- MX_ROT (R176). -/
  | mxRot (c : Cmd)
  /-- MX_MMAR (R176). -/
  | mxMmar (c : Cmd)
  /-- MX_RED (R177). -/
  | mxRed (c : Cmd)
  /-- MX_SCX (R178). -/
  | mxScx (c : Cmd)
  /-- MX_STC (R179). -/
  | mxStc (c : Cmd)
  /-- MX_SYNC (R180). -/
  | mxSync (c : Cmd)
  /-- MX_FMAP (R181). -/
  | mxFmap (c : Cmd)
  /-- TOKEN_PUSH (R139). -/
  | tokenPush (core : Nat)
  /-- ROTATION_STEP (R143). -/
  | rotationStep (core : Nat)
  /-- SCALE_BROADCAST (R146). -/
  | scaleBroadcast (core : Nat)
  /-- GEOMETRY_TRAP (R151). -/
  | geometryTrap (core : Nat)
  /-- SCAN_START (R154). -/
  | scanStart (die : Nat)
  /-- SCAN_PASS (R155). -/
  | scanPass (core : Nat)
  /-- SCAN_FAIL (R157). -/
  | scanFail (core : Nat) (cells : List (Nat × Nat))
  /-- RAMP (R159). -/
  | ramp (core : Nat)
  /-- WALK (R34). -/
  | walk (die va : Nat)
  /-- PLACEMENT_CACHE_FILL (R22). -/
  | placementCacheFill (core va : Nat)
  /-- PLB_MISS (R41). -/
  | plbMiss (core dom va : Nat)
  /-- REMOTE_WORD_ACCESS (R53). -/
  | remoteWordAccess (i : Nat)
  /-- SECTOR_ACCESS (R53). -/
  | sectorAccess (core : Nat)
  /-- SECTOR_FILL (R54). -/
  | sectorFill (core va : Nat)
  /-- MISS_WAY_RELEASE (R50). -/
  | missWayRelease (tile set : Nat)
  /-- BY_STORE_ACK (R58). -/
  | byStoreAck (i : Nat)
  /-- BANK_WINDOW_ACCESS (R92). -/
  | bankWindowAccess (i : Nat)
  /-- SCRUB (R29). -/
  | scrub (granule : Nat) (bad : Bool)
  /-- OWNER_SLOT_HANDLER (R339). -/
  | ownerSlotHandler (core : Nat)
  /-- BANKROLE_WRITE (R89). -/
  | bankroleWrite (v : Nat)
  /-- BANKROLE_CHANGE (R90). -/
  | bankroleChange (core : Nat)
  /-- ARRBASE_WRITE (R96). -/
  | arrbaseWrite (v : Nat)
  /-- ARRCAP_WRITE (R95). -/
  | arrcapWrite (v : Nat)
  /-- CNT_WRITE (R94). -/
  | cntWrite (n v : Nat)
  /-- STATUS_WRITE (R112). -/
  | statusWrite (v : Nat)
  /-- VTAB_WRITE (R329). -/
  | vtabWrite (v : Nat)
  /-- FAULTQ_WRITE (R380). -/
  | faultqWrite (v : Nat)
  /-- WDIDLE_WRITE (R357). -/
  | wdidleWrite (v : Nat)
  /-- PTWIN_WRITE (R33). -/
  | ptwinWrite (v : Nat)
  /-- MESSAGE_ARRIVAL (R331). -/
  | messageArrival (i : Nat)
  /-- SLOT_DISPATCH (R336). -/
  | slotDispatch (core : Nat)
  /-- NEGATIVE_ACKNOWLEDGEMENT (R337). -/
  | negativeAcknowledgement (i : Nat)
  /-- GRANT (R337). -/
  | grant (i : Nat)
  /-- REFUSAL_RESEND (R337). -/
  | refusalResend (core slot : Nat)
  /-- PROBE_REQUEST (R358). -/
  | probeRequest (party : Nat)
  /-- PROBE (R360). -/
  | probe (party : Nat)
  /-- CONFIRM (R361). -/
  | confirm (party : Nat)
  /-- PROBE_ABANDON (R359). -/
  | probeAbandon (party : Nat)
  /-- FAULT_DELIVERY (R362). -/
  | faultDelivery (party : Nat)
  /-- SERVICE_TRAP_DISPATCH (R372). -/
  | serviceTrapDispatch (core : Nat)
  /-- PARK_FRAME_WAIT (R374). -/
  | parkFrameWait (core slot : Nat)
  /-- FAULT_RECORD_POST (R378). -/
  | faultRecordPost (tenant : Nat)
  /-- REDELIVERY (R384). -/
  | redelivery (i : Nat)
  /-- ABSENCE_RESEND (R391). -/
  | absenceResend (i : Nat)
  /-- DEBUG_HALT (R392). -/
  | debugHalt (core : Nat) (slots engine seq : Bool)
  /-- DEBUG_READ_REGISTER (R393). -/
  | debugReadRegister (core slot reg : Nat)
  /-- DEBUG_WRITE_REGISTER (R393). -/
  | debugWriteRegister (core slot reg v : Nat) (src : Option Nat)
  /-- DEBUG_READ_QUEUE (R393). -/
  | debugReadQueue (core q : Nat)
  /-- DEBUG_REPLACE_QUEUE (R393). -/
  | debugReplaceQueue (core q : Nat) (ws : List Nat)
  /-- DEBUG_STEP (R393). -/
  | debugStep (core slot : Nat)
  /-- DEBUG_RESUME (R393). -/
  | debugResume (core : Nat)
  /-- IDLE_FLIT (R397). -/
  | idleFlit (link ack : Nat)
  /-- DATA_FLIT (R400). -/
  | dataFlit (link : Nat) (good : Bool) (seq ack : Nat)
  /-- REPLAY_REQUEST (R399). -/
  | replayRequest (link ack : Nat)
  /-- LANE_MAP (R401). -/
  | laneMap (link map ack : Nat)
  /-- REPLAY_REQUEST_TIMEOUT (R400). -/
  | replayRequestTimeout (link : Nat)
  /-- LOSS_OF_LIGHT (R401). -/
  | lossOfLight (link lanes : Nat)
  /-- LANE_MAP_RESEND (R401). -/
  | laneMapResend (link : Nat)
  /-- LINK_TRAINING (R402). -/
  | linkTraining (link rx tx : Nat)
  /-- LANE_REGAIN (R402). -/
  | laneRegain (link lane : Nat)
  /-- DOWN_LINK_TIMEOUT (R402). -/
  | downLinkTimeout (link : Nat)
  /-- LINK_READ (R409). -/
  | linkRead (p : Packet)
  /-- POSTED_WRITE (R409). -/
  | postedWrite (p : Packet)
  /-- LINK_ATOMIC (R409). -/
  | linkAtomic (p : Packet)
  /-- LINK_MESSAGE (R409). -/
  | linkMessage (p : Packet)
  /-- LINK_CALL (R413). -/
  | linkCall (p : Packet)
  /-- READ_RESPONSE (R410). -/
  | readResponse (p : Packet)
  /-- WRITE_ACKNOWLEDGEMENT (R406). -/
  | writeAcknowledgement (p : Packet)
  /-- ATOMIC_RESPONSE (R410). -/
  | atomicResponse (p : Packet)
  /-- MESSAGE_ANSWER (R409). -/
  | messageAnswer (p : Packet)
  /-- CALL_RESPONSE (R413). -/
  | callResponse (p : Packet)
  /-- POWER_ON (R414). -/
  | powerOn
  /-- FIRMWARE_VERIFY (R415). -/
  | firmwareVerify (img : Image)
  /-- CONFIGURATION_VERIFY (R416). -/
  | configurationVerify (img : Image)
  /-- DIE_POWER_UP (R414). -/
  | diePowerUp (die : Nat) (good : Bool)
  /-- BOOT_SELF_TEST (R414). -/
  | bootSelfTest
  /-- SERVICE_ENTRY_SETUP (R417). -/
  | serviceEntrySetup
  /-- BRINGUP_LINK_TRAINING (R414): the links that train, each with the receive and transmit lanes that pass. -/
  | bringupLinkTraining (up : List (Nat × Nat × Nat))
  /-- ATTESTATION_REQUEST (R418). -/
  | attestationRequest (nonce : Nat)
  /-- POWER_LIMIT_EXCEEDED (R419). -/
  | powerLimitExceeded
  /-- THERMAL_SHUTDOWN (R419). -/
  | thermalShutdown
  /-- ILLEGAL_INSTRUCTION (R232). -/
  | illegalInstruction (enc : Nat)
  /-- INSTRUCTION_FETCH_FAULT (R211). -/
  | instructionFetchFault (cause : Nat)
  /-- ENGINE_ILLEGAL_INSTRUCTION (R67). -/
  | engineIllegalInstruction (w : Nat)
  /-- ENGINE_FETCH_FAULT (R63). -/
  | engineFetchFault (cause : Nat)
  /-- ACCESS_RESPONSE (R255). -/
  | accessResponse (core slot : Nat)
  /-- POWER_BELOW_LIMIT (R419). -/
  | powerBelowLimit
  /-- WENLEK_WINDOW_ACCESS (R16). -/
  | wenlekWindowAccess (addr len : Nat) (data : Option (List Nat))
  deriving DecidableEq, Repr, Inhabited

end Sys2Proof
end

