-- ==== Sys2Proof/Config.lean ====
section
/-! DEFINITION. What the part fixes (R2, R8), who moves next, and the values the spec leaves open, as constants without
a body (log 5). -/

namespace Sys2Proof

/-- Whose step comes next: the issue of one instruction by a core, of whose slots those in `stalled` cannot issue in this
cycle (R341), a copy engine, a matrix sequencer, or a hardware event of the opcode table. -/
inductive Turn where
  | issue (core : Nat) (stalled : List Nat)
  | engine (core : Nat)
  | sequencer (core : Nat)
  | event (i : Instr)
  deriving DecidableEq, Repr, Inhabited

/-- Who moves after step number `n`: left open by the spec (R183 orders only one agent's own accesses). -/
opaque Config.nextTurn : Nat → Turn

/-- Whether accesses issued in step number `n` are still on their way when the step ends (R187). -/
opaque Config.late : Nat → Bool

/-- Which of the parts of one vector store to the same bytes comes last, in step number `n` (R279). Free (log 5). -/
opaque Config.lastPart : Nat → Nat

/-- Which 16-byte parts of its operands and tables in local memory a started matrix command, or a vector instruction with a table, reads
in step number `n` before it goes on in a later one; `none` where it reads the rest and goes on (R125, R182). Free (log 5). -/
opaque Config.readsFirst : Nat → Option (List Nat)

/-- The 1.2 GHz cycles that pass in step number `n`; the spec bounds some of them and fixes none. -/
opaque Config.elapsed : Nat → Nat

/-- The rows and cells of a unit that self-test number `n` finds spalled (R147, R414). -/
opaque Config.selfTest : Nat → List (Nat × Nat)

/-- The residue or exponent check that fails in step number `n` in a matrix unit, if one does: the place among the logical rows and
columns in use, and whether it is an exponent path (R153). -/
opaque Config.residue : Nat → Option (Nat × Nat × Bool)

/-- Whether an ML-DSA-44 signature verifies: the public key, the bytes signed, the signature (R415). Free (log 4). -/
opaque Config.signatureOk : List Byte → List Byte → List Byte → Bool

/-- The vendor public key, 1,312 bytes, and its SHA3-256 digest in the controller's ROM (R415). -/
opaque Config.vendorKey : Vector Byte 1312
opaque Config.vendorDigest : Vector Byte 32

/-- What a body declares or holds: the spec names the items and gives no layout (R416, R417). Free (log 4). -/
opaque Config.declares : List Byte → ConfigBody × EntryBlock

/-- Whether the controller starts from its ROM at power-on, and whether stage 6 succeeds, in step number `n` (R414). Free (log 5). -/
opaque Config.romStarts : Nat → Bool
opaque Config.entriesSet : Nat → Bool

/-- The ML-DSA-44 signature of a report under the identity key, 2,420 bytes (R418). Free (log 4). -/
opaque Config.sign : List Byte → Vector Byte 2420

/-- The identity public key and the vendor certificate that comes with it (R418). -/
opaque Config.identityKey : Vector Byte 1312
opaque Config.certificate : List Byte

/-- The package's serial number, 16 bytes (R418). -/
opaque Config.serial : Nat

/-- The range entries of a task gate (R314). -/
opaque Config.rangeEntries : Nat

/-- How many link event records the host has consumed, as it has written to the ring of a link, at a step (R403): host memory
is not part of the machine. Free (log 5). -/
opaque Config.leqConsumed : Nat → Nat → Nat

/-- When a far receiver detected the change that a lane-map flit announces, at a step (R404): the flit does not say. Free (log 127). -/
opaque Config.darkAt : Nat → Nat

/-- Why a message has failed at a peer device: status 7 does not say (R381, R406). Free (log 5). -/
opaque Config.peerReason : Nat → Nat

/-- The device's own number in its Nolbor domain (R17): the spec does not say what holds it. Free (log 36). -/
opaque Config.ownDevice : Nat

/-- Whether the debugger of a core catches breakpoints (R324). -/
opaque Config.catchesBreaks : Nat → Bool

/-- Whether the ordering code is BLN8-P (the bare package) or BLN8-M2 (no far tier) (R1). -/
opaque Config.bare : Bool
opaque Config.noFar : Bool

/-- The number of small cores and of all cores (R2). -/
def numSmall : Nat := 6144
def numCores : Nat := 6336

/-- Die, tile within the die and core within the tile of a package core number (R2). -/
def coreDie (c : Nat) : Nat := if c < numSmall then c / 1536 else (c - numSmall) / 48
def coreTile (c : Nat) : Nat := if c < numSmall then c / 32 % 48 else (c - numSmall) % 48
def coreIn (c : Nat) : Nat := if c < numSmall then c % 32 else 32

/-- A keystone core. -/
def isKeystone (c : Nat) : Bool := decide (numSmall ≤ c)

/-- The package core number of a position (R2); `none` where there is no core. -/
def coreAt (die tile core : Nat) : Option Nat :=
  if die < 4 && tile < 48 && core < 32 then some (die * 1536 + tile * 32 + core)
  else if die < 4 && tile < 48 && core == 32 then some (numSmall + die * 48 + tile)
  else none

/-- The number of a core's tile over the package, and the keystone core of a tile. -/
def globalTile (c : Nat) : Nat := coreDie c * 48 + coreTile c
def tileKeystone (t : Nat) : Nat := numSmall + t

/-- A party id (R8). -/
def mkParty (kind die tile core index : Nat) : Nat :=
  kind * 2 ^ 29 + die * 2 ^ 27 + tile * 2 ^ 21 + core * 2 ^ 15 + index

/-- The party ids of a core's parts (R9). -/
def partyOf (kind c index : Nat) : Nat := mkParty kind (coreDie c) (coreTile c) (coreIn c) index
def slotParty (c k : Nat) : Nat := partyOf 0 c k
def anyParty (c : Nat) : Nat := partyOf 0 c 0x7FFF
def engineParty (c : Nat) : Nat := partyOf 1 c 0
def seqParty (c : Nat) : Nat := partyOf 2 c 0
def groupParty (g : Nat) : Nat := mkParty 4 0 0 0 g
def taskParty (tile e : Nat) : Nat := mkParty 5 (tile / 48) (tile % 48) 0 e
def composedParty (lead n : Nat) : Nat := partyOf 6 lead n
def serviceParty (c : Nat) : Nat := mkParty 7 (coreDie c) (coreTile c) 0 (2 * 4096)
def peerParty (d : Nat) : Nat := mkParty 7 0 0 0 (4096 + d)
def hostParty (link r : Nat) : Nat := mkParty 7 0 0 link r

/-- The fields of a party id (R8). -/
def pKind (p : Nat) : Nat := bits p 29 3
def pDie (p : Nat) : Nat := bits p 27 2
def pTile (p : Nat) : Nat := bits p 21 6
def pCore (p : Nat) : Nat := bits p 15 6
def pIndex (p : Nat) : Nat := bits p 0 15

/-- The core a party id of kind 0, 1, 2, 3 or 6 lies on. -/
def pWhere (p : Nat) : Option Nat := coreAt (pDie p) (pTile p) (pCore p)

/-- The slots of a core: eight on a small core, four contexts on a keystone (R9). -/
def numSlots (c : Nat) : Nat := if c < numSmall then 8 else 4

/-- The operations of the opcode table that hardware starts by itself. -/
def Instr.isEvent : Instr → Bool
  | .killApply _ _ | .composeComplete _ _ | .pinvalComplete _ _ | .tstopComplete _ _ => true
  | .copyComplete _ | .copyStop _ | .scoutTranslation _ | .engineInterrupt _ => true
  | .tokenPush _ | .rotationStep _ | .scaleBroadcast _ | .geometryTrap _ | .scanStart _ | .scanPass _ | .scanFail _ _
  | .ramp _ => true
  | .walk _ _ | .placementCacheFill _ _ | .plbMiss _ _ _ | .remoteWordAccess _ | .sectorAccess _ | .sectorFill _ _
  | .missWayRelease _ _ | .byStoreAck _ | .bankWindowAccess _ | .scrub _ _ | .ownerSlotHandler _
  | .accessResponse _ _ => true
  | .bankroleChange _ => true
  | .messageArrival _ | .slotDispatch _ | .negativeAcknowledgement _ | .grant _ | .refusalResend _ _ => true
  | .probeRequest _ | .probe _ | .confirm _ | .probeAbandon _ | .faultDelivery _ => true
  | .serviceTrapDispatch _ | .parkFrameWait _ _ | .faultRecordPost _ | .redelivery _ | .absenceResend _ => true
  | .debugHalt _ _ _ _ | .debugReadRegister _ _ _ | .debugWriteRegister _ _ _ _ _ | .debugReadQueue _ _
  | .debugReplaceQueue _ _ _ | .debugStep _ _ | .debugResume _ => true
  | .idleFlit _ _ | .dataFlit _ _ _ _ | .replayRequest _ _ | .laneMap _ _ _ | .replayRequestTimeout _ | .lossOfLight _ _
  | .laneMapResend _ | .linkTraining _ _ _ | .laneRegain _ _ | .downLinkTimeout _ => true
  | .linkRead _ | .postedWrite _ | .linkAtomic _ | .linkMessage _ | .linkCall _ | .readResponse _ | .writeAcknowledgement _
  | .atomicResponse _ | .messageAnswer _ | .callResponse _ => true
  | .powerOn | .firmwareVerify _ | .configurationVerify _ | .diePowerUp _ _ | .bootSelfTest | .serviceEntrySetup
  | .bringupLinkTraining _ | .attestationRequest _ | .powerLimitExceeded | .thermalShutdown | .powerBelowLimit
  | .wenlekWindowAccess _ _ _ => true
  | _ => false

/-- An agent that the part has. -/
def Turn.exists : Turn → Bool
  | .issue c _ => decide (c < numCores)
  | .engine c => decide (c < numSmall)
  | .sequencer c => decide (c < numSmall)
  | .event i => i.isEvent

end Sys2Proof
end

