-- ==== Sys2Proof/Machine/State.lean ====
section
/-! DEFINITION. The state of the machine: everything the spec gives it, as plain data, and the state after reset. -/

namespace Sys2Proof.Machine

/-- What can stop the model. Raised by `step` when `State.turn` names a core, slot, engine or sequencer that the part
does not have (R2, R335); no run of the hardware reaches it. Safe: the model stops where nothing happens. -/
inductive Fault where
  | noSuchAgent
  deriving DecidableEq, Repr

/-- Refusals. `notModelled` is raised by an arm of `exec` that has no meaning; safe: the model stops. -/
inductive Refusal where
  | notModelled (mnemonic : String)
  deriving DecidableEq, Repr

/-- A general register: 128 bits and the tag (R98). -/
structure Reg where
  raw : BitVec 128
  tag : Bool
  deriving DecidableEq, Repr, Inhabited

/-- Privilege mode, STATUS[2:1] (R10, R112). -/
inductive Mode where
  | user
  | service
  | firmware
  deriving DecidableEq, Repr, Inhabited

/-- What a slot holds (R326, R336): nothing, a place kept for a resent message, a thread, or an activation. -/
inductive Holds where
  | empty
  | reserved
  | thread
  | activation
  deriving DecidableEq, Repr, Inhabited

/-- The tombstone of a free slot, and the end states of a party (R349, R350). -/
inductive Tomb where
  | none
  | stopped
  | dead
  deriving DecidableEq, Repr, Inhabited

/-- A wait record (R351): `targets` holds up to four party ids, or the group reference when `count` is 0. -/
structure WaitRec where
  gen : Nat
  mode : Nat
  reason : Nat
  count : Nat
  targets : List Nat
  deriving DecidableEq, Repr, Inhabited

/-- The scalar state that a migration frame carries (R115); `uid` is the model's own name of the context (log 2). -/
structure Frame where
  full : Bool
  party : Nat
  domain : Nat
  autoMig : Bool
  inTrap : Bool
  pcc : Reg
  c : SMap Reg
  prio : Nat
  tvec : Nat
  spawnlim : Nat
  byRoute : Bool
  uid : Nat
  deriving DecidableEq, Repr, Inhabited

/-- A message in the network or in an interface (R296, R297): `frame` is what a migration or a spawn carries (R302), `ctx`
counts the contexts that the sending slot has run, `redeliver` the redeliveries after a rollback (R384), `granted` marks a
message resent on a grant (R337). -/
structure Msg where
  sender : Nat
  srcCore : Nat
  srcSlot : Nat
  ctx : Nat
  tenant : Nat
  dst : Nat
  peer : Option Nat
  header : Word
  payload : List Word
  frame : Option Frame
  redeliver : Nat
  granted : Bool
  deriving DecidableEq, Repr, Inhabited

/-- The classes of a reservation (R337). -/
inductive RClass where
  | general
  | urgent
  | arrival
  | owner
  deriving DecidableEq, Repr, Inhabited

/-- A reservation-list entry (R337): sender core, sender slot, class; a host requester is kept by its party id. -/
structure Resv where
  core : Nat
  slot : Nat
  cls : RClass
  deriving DecidableEq, Repr, Inhabited

/-- A negative acknowledgement on its way to the sender (R337): the message, its class, and whether it has an entry in the
receiver's reservation list. -/
structure Nack where
  msg : Msg
  cls : RClass
  listed : Bool
  deriving DecidableEq, Repr, Inhabited

/-- A refused message in its sender's interface (R300), with the time of its resend where the reservation list was full
(R337). -/
structure Held where
  msg : Msg
  cls : RClass
  resendAt : Option Nat
  deriving DecidableEq, Repr, Inhabited

/-- Where one sector's bytes are to be found (R53, R54, R57, R184): a bank of a core, the die cache at a home (with the place
in the frame that the line was translated to, from which the sector is filled when it is not there), the frame by way of the
home (a .by miss, which allocates nothing), a discarded page, the host of a link, a peer device. -/
inductive Src where
  | bank (core off : Nat)
  | cached (home fill : Nat)
  | frame (home pa : Nat)
  | zeros
  | host (link address : Nat)
  | peer (device core : Nat)
  deriving DecidableEq, Repr, Inhabited

/-- One store in an activation's commit buffer (R97): own banks are named through the self window; `hint` is the store's,
`whole` marks a part of a store that writes the whole granule of 64 bytes. It is translated when it drains. -/
structure Buffered where
  va : Nat
  bytes : List Byte
  tagged : Bool
  hint : Nat
  whole : Bool
  deriving DecidableEq, Repr, Inhabited

/-- What a memory word or a remote operation gave back to its requester (R255, R410), with the tag of each granule it
touches, lowest first (R102), and where its first poisoned granule begins in it (R385). -/
structure Reply where
  va : Nat
  bytes : List Byte
  tags : List Bool
  poison : Bool
  bad : Nat
  deriving DecidableEq, Repr, Inhabited

/-- The run record of the predictor (R56): home, index of the access that began the run, count. -/
structure Run where
  home : Nat
  index : Nat
  count : Nat
  deriving DecidableEq, Repr, Inhabited

/-- An asynchronous cause held pending (R369), with its TVAL. -/
structure Pend where
  cause : Nat
  tval : Word
  deriving DecidableEq, Repr, Inhabited

/-- A service trap taken by a slot, which the slot is held for (R371): cause, TVAL, trap-word bits 8 and 9, the sequence of its record,
0 where none was posted (R375), and its place in the order of issue (R323). -/
structure Svc where
  cause : Nat
  tval : Nat
  double : Bool
  unhandled : Bool
  seq : Nat
  order : Nat
  deriving DecidableEq, Repr, Inhabited

/-- A context to be parked, or waiting for a park frame (R374): record flags (R38), faulting VA, the access's address and size,
whether it wrote or fetched. -/
structure ParkReq where
  flags : Nat
  va : Nat
  ea : Nat
  size : Nat
  write : Bool
  fetch : Bool
  deriving DecidableEq, Repr, Inhabited

/-- What an instruction that has issued and not completed has taken (R105, R255): its source values, the fields it reads and
writes (a queue or port among the first has given its words, one among the second keeps a place), the mi position before. -/
structure Kept where
  vals : List Reg
  reads : List Nat
  writes : List Nat
  mi : Nat
  deriving DecidableEq, Repr, Inhabited

/-- What a BARW or BARAW waits for (R308): a generation, or the n-th arrival of its core at the group, in whichever generation that
comes to be counted. -/
inductive BarAwait where
  | generation (g : Nat)
  | arrival (n : Nat)
  deriving DecidableEq, Repr, Inhabited

/-- A thread slot of a small core, or a context of a keystone (R110). -/
structure Slot where
  holds : Holds
  resvFor : Option Resv
  tenant : Nat
  c : SMap Reg
  pcc : Reg
  v : SMap (BitVec 512)
  k : SMap Word
  domain : Nat
  autoMig : Bool
  composed : Bool
  exposed : Bool
  inTrap : Bool
  mode : Mode
  prio : Nat
  tvec : Nat
  tcause : Nat
  tval : Word
  tpc : Nat
  waitr : Word
  spawnlim : Nat
  miPos : Nat
  header : Word
  payload : List Word
  sender : Nat
  wait : WaitRec
  decl : Option WaitRec
  tomb : Tomb
  halted : Bool
  stepping : Bool
  killPend : Bool
  pend : List Pend
  graphFault : Option Pend
  commit : List Buffered
  heldMsgs : List Msg
  ctxCount : Nat
  run : Option Run
  waitSince : Nat
  overCount : Nat
  urgent : Bool
  redeliveries : Nat
  trigger : Option Msg
  task : Option Nat
  replies : List Reply
  origin : Option Nat
  parkWant : Option ParkReq
  barGroup : Option (Nat × Nat × BarAwait)
  uid : Nat
  chanWait : Option Nat
  waitArg : Option Nat
  asRem : Bool
  kept : Option Kept
  svc : Option Svc
  deriving DecidableEq, Repr, Inhabited

/-- An empty slot: every register untagged zero (R98, R115), the values of R113 at reset (log 3). -/
def Slot.empty : Slot where
  holds := .empty
  resvFor := none
  tenant := 0
  c := []
  pcc := ⟨0, false⟩
  v := []
  k := []
  domain := 0
  autoMig := false
  composed := false
  exposed := false
  inTrap := false
  mode := .user
  prio := 0
  tvec := 0
  tcause := 0
  tval := 0
  tpc := 0
  waitr := 0
  spawnlim := 0
  miPos := 0
  header := 0
  payload := []
  sender := 0
  wait := ⟨0, 0, 0, 0, []⟩
  decl := none
  tomb := .none
  halted := false
  stepping := false
  killPend := false
  pend := []
  graphFault := none
  commit := []
  heldMsgs := []
  ctxCount := 0
  run := none
  waitSince := 0
  overCount := 0
  urgent := false
  redeliveries := 0
  trigger := none
  task := none
  replies := []
  origin := none
  parkWant := none
  barGroup := none
  uid := 0
  chanWait := none
  waitArg := none
  asRem := false
  kept := none
  svc := none

/-- The states of a copy engine (R62). -/
inductive EngState where
  | idle
  | running
  | blocked
  | faulted
  deriving DecidableEq, Repr, Inhabited

/-- The copy instruction an engine has in progress, with its replay state (R76 to R78, R82, R85, R86): `pos` is the next
byte of the stream, `word` the index word that the element there has read, with the element's number, `spanAt` the start of the span
that the last piece moved lies in and `spanPages` its pages, `front` where the pieces moved in a row from the start of a destination
granule have come to, and whether one of them carried poison (R30), `arrived` the bytes arrived at a bound group; after a stop `done` counts the bytes done, `spanEnd` ends
the faulted span, `marked` lists the sectors of its pages that are done (true for the destination side), from every stop in it.
`fault` is a transfer's fault that is about to stop the copy; `lastWord` is word 0 of the copy's last record. -/
structure Copy where
  kind : Nat
  dst : Nat
  src : Nat
  rows : Nat
  rowBytes : Nat
  dstride : Int
  sstride : Int
  list : Nat
  esize : Nat
  total : Nat
  progress : Nat
  pc : Nat
  pos : Nat
  word : Option (Nat × Nat)
  spanAt : Nat
  spanPages : Option (Nat × Nat)
  front : Option (Nat × Bool)
  done : Nat
  arrived : Nat
  spanEnd : Nat
  marked : List (Bool × Nat)
  fault : Option (Nat × Nat × Bool)
  lastWord : Nat
  deriving DecidableEq, Repr, Inhabited

/-- A copy engine (R61): `kicker` is the party id of the kicking context, `kickUid` the model's name of that context (log 2),
`waitCount` the counter and the value that EWAIT waits for (R73), `stopping` the fault of an instruction whose record waits for ring
space: cause, address, write, bytes requested (R82, R378), `scouted` the pages that the scout has translated for the copy, each with
its write mark and whether it has posted a record for it (R79). -/
structure Engine where
  e : SMap Word
  epc : Nat
  fetchCap : Reg
  reach : Reg
  mailbox : Nat
  kicker : Nat
  kickUid : Nat
  domain : Nat
  tenant : Nat
  scout : Nat
  group : Option Nat
  state : EngState
  copy : Option Copy
  wait : WaitRec
  waitArg : Nat
  waitCount : Option (Nat × Nat)
  stopping : Option (Nat × Nat × Bool × Nat)
  interrupts : List (Nat × Word)
  dead : Bool
  halted : Bool
  scouted : List (Nat × Bool × Bool)
  replies : List Reply
  deriving DecidableEq, Repr, Inhabited

def Engine.reset : Engine where
  e := []
  epc := 0
  fetchCap := ⟨0, false⟩
  reach := ⟨0, false⟩
  mailbox := 0
  kicker := 0
  kickUid := 0
  domain := 0
  tenant := 0
  scout := 0
  group := none
  state := .idle
  copy := none
  wait := ⟨0, 0, 0, 0, []⟩
  waitArg := 0
  waitCount := none
  stopping := none
  interrupts := []
  dead := false
  halted := false
  scouted := []
  replies := []

/-- A format table in use (R121 to R127): decode values, the order of the codes that are not NaN, the infinity flag. -/
structure Table where
  decode : List Nat
  order : List Nat
  infinity : Bool
  deriving DecidableEq, Repr, Inhabited

/-- A command in a sequencer, with the reach, the sequence number and the issuing context (R138, R139, R151, R165);
`cancelled` after a geometry stop. -/
structure Queued where
  cmd : Cmd
  reach : Reg
  seq : Nat
  party : Nat
  uid : Nat
  tenant : Nat
  domain : Nat
  cancelled : Bool
  deriving DecidableEq, Repr, Inhabited

/-- A command that has started (R140, R161): its status and detail (decided once it has `sampled` its tables), the steps or rows
done, whether it is in a rotation step or has made its report, the pointers and tables it sampled, its accumulator as it was, the
parts of local memory that it has read so far, each with its poison (R125, R182), the output scale it was given, and the fault that
ends it: cause, address, bytes requested and done (R165); `ramp` says that the unit ramps before it is executed (R159). -/
structure Started where
  q : Queued
  status : Nat
  detail : Nat
  steps : Nat
  waiting : Bool
  sampled : Bool
  ptrA : Nat
  ptrB : Nat
  ptrC : Nat
  tabA : Option Table
  tabB : Option Table
  tabC : Option Table
  scla : Nat
  sclb : Nat
  before : SMap (BitVec 32)
  parts : SMap (List Byte × Bool)
  scale : Option Nat
  fault : Option (Nat × Nat × Nat × Nat)
  ramp : Bool
  deriving DecidableEq, Repr, Inhabited

/-- Half of the operand latch (R136, R142): 32 by 32 elements row by row (E8M10, or 32-bit integers when `int`), 32 scale
bytes, the poison mark; `full` is false when it is empty. -/
structure Latch where
  full : Bool
  elems : List Nat
  int : Bool
  scales : List Nat
  poison : Bool
  deriving DecidableEq, Repr, Inhabited

/-- A partial sum of MX.RED (R177): the elements, `none` when empty, and the poison mark. -/
structure Partial where
  elems : Option (List Nat)
  poison : Bool
  deriving DecidableEq, Repr, Inhabited

/-- A ring configuration (R143, R172). -/
structure Ring where
  size : Nat
  pos : Nat
  succ : Nat
  pred : Nat
  keeper : Nat
  deriving DecidableEq, Repr, Inhabited

/-- A revoked range of sequence numbers (R157). -/
structure Revoked where
  first : Nat
  last : Nat
  deriving DecidableEq, Repr, Inhabited

/-- The matrix unit of a small core (R136 to R159): accumulators hold 32 rows of 32 words, row by row; `done` is the last
completed command, `ringSent`, `ringRecv` and `ringDone` count since the last MX.RING (R172), `syncDone` says that every member has
started the MX.SYNC in progress (R180), `redIn` is a partial that has come in, `syncs`, `redDone` and `redSent` count the exchanges and
the partials sent since the last MX.RING, `ringFirst` and `redFirst` hold, by core, a predecessor's first tile and
first partial under its present configuration that came in before this unit's own MX.RING (R172), `report` and `shared` belong to the scale keeper
(R146), `revoked` has an entry for each of the last four failed scans (R157), `scanHead` marks a unit moved to the head of the scan
order (R153), `ramping` is when a ramp began (R159). -/
structure Mx where
  acc0 : SMap (BitVec 32)
  acc1 : SMap (BitVec 32)
  poison0 : Bool
  poison1 : Bool
  front : Latch
  back : Latch
  queue : List Queued
  cur : Option Started
  token : Option Word
  wait : WaitRec
  seq : Nat
  done : Nat
  mark : Nat
  failures : Nat
  revoked : List (Option Revoked)
  ring : Option Ring
  ringSent : Nat
  ringRecv : Nat
  ringDone : Nat
  syncDone : Bool
  redIn : Option Partial
  syncs : Nat
  redDone : Nat
  redSent : Nat
  ringFirst : SMap Latch
  redFirst : SMap Partial
  report : Option (Option Int)
  shared : Option Nat
  lastScale : Nat
  native : Bool
  seen : Nat
  generation : Nat
  spalled : List (Nat × Nat)
  scanning : Bool
  testing : Bool
  scanHead : Bool
  geomPend : List (Nat × Word)
  idleSince : Nat
  ramping : Option Nat
  ramped : Bool
  halted : Bool
  replies : List Reply
  deriving DecidableEq, Repr, Inhabited

def Latch.empty : Latch := ⟨false, [], false, [], false⟩

def Mx.reset : Mx where
  acc0 := []
  acc1 := []
  poison0 := false
  poison1 := false
  front := Latch.empty
  back := Latch.empty
  queue := []
  cur := none
  token := none
  wait := ⟨0, 0, 0, 0, []⟩
  seq := 0
  done := 0
  mark := 0
  failures := 0
  revoked := []
  ring := none
  ringSent := 0
  ringRecv := 0
  ringDone := 0
  syncDone := false
  redIn := none
  syncs := 0
  redDone := 0
  redSent := 0
  ringFirst := []
  redFirst := []
  report := none
  shared := none
  lastScale := 127
  native := false
  seen := 0
  generation := 0
  spalled := []
  scanning := false
  testing := false
  scanHead := false
  geomPend := []
  idleSince := 0
  ramping := none
  ramped := false
  halted := false
  replies := []

/-- A holder entry of a lock word (R273): party id and context count, and whether it was granted for writing. -/
structure Holder where
  party : Nat
  ctx : Nat
  write : Bool
  deriving DecidableEq, Repr, Inhabited

/-- A waiter of a lock word, in arrival order (R270): `tag` tells the requests of one peer device apart, `granted` once a release
has granted it. -/
structure Waiter where
  party : Nat
  tag : Nat
  write : Bool
  granted : Bool
  deriving DecidableEq, Repr, Inhabited

/-- What a home keeps for one lock word (R270, R273): up to four holder entries, oldest first, and the wait list. -/
structure LockInfo where
  holders : List Holder
  waiters : List Waiter
  deriving DecidableEq, Repr, Inhabited

/-- What a home core keeps for one channel number (R310, R354). -/
structure ChanInfo where
  isOpen : Bool
  va : Nat
  src : Src
  view : Nat
  consumer : Bool
  shared : Bool
  gen : Nat
  deriving DecidableEq, Repr, Inhabited

/-- A composition as its member sees it (R320): the lead and the number of members; `running` is false while the lead
still waits in COMPOSE. -/
structure Comp where
  lead : Nat
  slot : Nat
  size : Nat
  running : Bool
  deriving DecidableEq, Repr, Inhabited

/-- An arrival waiting for a slot (R95, R338): at frame `pos` of the array, or at the given address of the overflow ring. -/
structure Arrival where
  msg : Msg
  pos : Nat
  spilled : Option Nat
  deriving DecidableEq, Repr, Inhabited

/-- A service-trap frame place of a keystone core (R371): the origin slot, and whether it has been dispatched. -/
structure Place where
  core : Nat
  slot : Nat
  order : Nat
  dispatched : Bool
  deriving DecidableEq, Repr, Inhabited

/-- A parked context released by its go bit, waiting for a slot (R376), and what memory does not hold of it. -/
structure Parked where
  va : Nat
  released : Bool
  lines : List Nat
  slot : Slot
  deriving DecidableEq, Repr, Inhabited

/-- The members of a placement set, as a table entry gives them (R19, R20): kind, die, tile, core and listed cores. -/
structure PSet where
  kind : Nat
  die : Nat
  tile : Nat
  core : Nat
  list : List Nat
  deriving DecidableEq, Repr, Inhabited

/-- An access on its way to its home (R53, R54, R187): a posted store, or a load, atomic or owner operation whose value
has to come back. `op` is 0 for a load, 1 for a store, 2 for an atomic, 3 for a lock or channel operation (the instruction in
`act`), 4 for a message of an owner type (R331); `slot` numbers the core's slots from 0, and 16 is its copy engine, 17 its matrix
sequencer; `hint` is the access's, `whole` marks a part of a store that writes the whole granule of 64 bytes. `refused` marks an
owner operation that found the queue full: entered in the reservation list, or with the time of its resend (R337, R339). -/
structure Flight where
  op : Nat
  core : Nat
  slot : Nat
  src : Src
  va : Nat
  bytes : List Byte
  size : Nat
  tagged : Bool
  hint : Nat
  whole : Bool
  amo : Nat
  operand : Nat
  expected : Nat
  reply : Option Reply
  act : Option Instr
  refused : Option (Option Nat)
  deriving DecidableEq, Repr, Inhabited

/-- A core: `qerr` marks the queue and port words that carry an error, by field and place from the head (R383), `frameWait` lists the held slots whose frames have not been accepted by this keystone, with the time of the next attempt
(R371, R337), `parkTurn` gives the next slot to a released context rather than to an arrival (R376), `rolePend` is a change of bank roles that waits, with the slot that writes it (R90), `ctombs` holds the end states of
composed cores that it led, by their size, with their generations (R349), `cgen` the generation of the node that its COMPOSE waits
for (R352); small (0 to 6,143) or keystone (6,144 to 6,335) (R2, R110); `ended` says that its previous issue ended an owner-slot
handler (R341). -/
structure Core where
  slots : SMap Slot
  q : SMap (List Word)
  ports : SMap (List Word)
  qerr : List (Nat × Nat)
  blocked : SMap (List Nat)
  sem : SMap Nat
  bankrole : Word
  rolePend : Option (Nat × Word)
  cnt : SMap Nat
  arrbase : Nat
  arrcap : Nat
  spill : Nat
  arrPend : Option (Nat × Nat)
  arrNext : Nat
  arrivals : List Arrival
  vtabTenant : Nat
  vtabOffset : Nat
  vtabEnable : Bool
  fqEnable : Bool
  fqType : Nat
  fqSeq : Nat
  wdOff : Bool
  wdExp : Nat
  fmta : Word
  fmtb : Word
  fmtc : Word
  scla : Word
  sclb : Word
  mx : Mx
  engine : Engine
  resv : List Resv
  turnBit : Bool
  ended : Bool
  rr : SMap Nat
  plb : List (Nat × Nat × Nat)
  pcache : List (Nat × Nat × PSet)
  predictor : SMap Nat
  locks : SMap LockInfo
  chans : SMap ChanInfo
  comp : Option Comp
  ctombs : SMap (Tomb × Nat)
  cgen : Nat
  frames : SMap Place
  frameWait : List (Nat × Nat × Nat)
  parked : List Parked
  parkTurn : Bool
  gen : Nat
  backoff : List (Nat × Msg)
  debugger : Bool
  deriving DecidableEq, Repr, Inhabited

/-- A core at reset: the values of R89, R95, R104, R113, R357; the rest empty. -/
def Core.reset : Core where
  slots := []
  q := []
  ports := []
  qerr := []
  blocked := []
  sem := []
  bankrole := 0xAAAA000000005555
  rolePend := none
  cnt := []
  arrbase := 0xB60
  arrcap := 32
  spill := 0
  arrPend := none
  arrNext := 0
  arrivals := []
  vtabTenant := 0
  vtabOffset := 0
  vtabEnable := false
  fqEnable := false
  fqType := 0
  fqSeq := 0
  wdOff := false
  wdExp := 16
  fmta := 0
  fmtb := 0
  fmtc := 0
  scla := 0
  sclb := 0
  mx := Mx.reset
  engine := Engine.reset
  resv := []
  turnBit := false
  ended := false
  rr := []
  plb := []
  pcache := []
  predictor := []
  locks := []
  chans := []
  comp := none
  ctombs := []
  cgen := 0
  frames := []
  frameWait := []
  parked := []
  parkTurn := false
  gen := 0
  backoff := []
  debugger := false

/-- A line of the die cache and of the home core's banks (R48, R51): the recorded frame, one list of sector numbers for
each of valid, dirty, valid in the bank and dirty in the bank, and when it was last used in the slice and in the bank; `bank`
is the bank whose way holds it, while a sector is valid there. `hurt` lists the granules whose dirty copy in the slice is poisoned
while the bank has a copy of its own (R60), `walked` marks a line that an access of the table window filled (R33). A stamp below every use marks a line filled as least recently
used (R57). -/
structure Line where
  frame : Nat
  valid : List Nat
  dirty : List Nat
  bankValid : List Nat
  bankDirty : List Nat
  stamp : Int
  bankStamp : Int
  bank : Nat
  hurt : List Nat
  walked : Bool
  deriving DecidableEq, Repr, Inhabited

/-- A barrier group (R306): `tenant` owns it; `members` lists cores with their expected arrivals (count mode), `target`
is the byte target (byte mode); `carried` holds arrivals for later generations, `made` counts each core's arrivals in count mode,
`last` names each core's last arrival. -/
structure Group where
  tenant : Option Nat
  valid : Bool
  byteMode : Bool
  generation : Nat
  members : SMap Nat
  target : Nat
  pending : Option (Bool × SMap Nat × Nat)
  arrived : SMap Nat
  bytes : Nat
  carried : SMap Nat
  made : SMap Nat
  last : SMap BarAwait
  gen : Nat
  deriving DecidableEq, Repr, Inhabited

/-- A range of a task (R314): first byte, one past the last, marked written; once released, how many tasks had been submitted by then
(R387). -/
structure TRange where
  lo : Nat
  hi : Nat
  written : Bool
  released : Option Nat
  deriving DecidableEq, Repr, Inhabited

/-- The states of a task (R315, R316, R349). -/
inductive TState where
  | pending
  | sent
  | running
  | stopped
  | dead
  deriving DecidableEq, Repr, Inhabited

/-- A task entry of a tile's gate (R314 to R316), keyed by tile × 256 + entry. -/
structure Task where
  tenant : Nat
  order : Nat
  ranges : List TRange
  typ : Nat
  user : Nat
  home : Nat
  preds : List Nat
  st : TState
  wait : WaitRec
  waitSince : Nat
  overCount : Nat
  deriving DecidableEq, Repr, Inhabited

/-- A record waiting to be posted (R378): its tenant, its words (sequence field 0) and its number of parts. -/
structure Rec where
  tenant : Nat
  party : Nat
  parts : List (List Nat)
  deriving DecidableEq, Repr, Inhabited

/-- A probe (R359 to R362): origin, start time, the nodes read (each with the reason of its edge, the generation and the state
read), visits, the result (1 a cycle, 2 a dead end), the origin's word 0, the chain entries; `stage` is 0 before its confirm pass, 1 once the other nodes are confirmed,
2 once its fault is delivered and its records wait to be posted; `mark` tells its accused marks from every other probe's. -/
structure Probe where
  origin : Nat
  tenant : Nat
  start : Nat
  nodes : List (Nat × Nat × Nat × Nat)
  visits : Nat
  result : Nat
  word0 : Nat
  chain : List Nat
  stage : Nat
  mark : Nat
  deriving DecidableEq, Repr, Inhabited

/-- A request of a device agent on a link, awaiting its response (R405, R407, R410); `agent` names the agent whose program
order it stands in (R183); `operand` of a write is 1 where its
data is poisoned; `physical` marks an address in a physical map, `args` are the words of a carried call. -/
structure Request where
  tag : Nat
  op : Nat
  address : Nat
  va : Nat
  length : Nat
  data : List Byte
  amo : Nat
  operand : Nat
  expected : Nat
  acquire : Bool
  release : Bool
  party : Nat
  agent : Nat
  slot : Nat
  core : Nat
  tenant : Nat
  since : Nat
  msg : Option Msg
  physical : Bool
  args : List Nat
  deriving DecidableEq, Repr, Inhabited

/-- A flit on a link (R397): kind, the packet-layer payload as eight doublewords, ack, sequence. -/
structure Flit where
  kind : Nat
  payload : List Nat
  ack : Nat
  seq : Nat
  deriving DecidableEq, Repr, Inhabited

/-- One Nolbor link (R395 to R413): lane maps, sequence numbers, the replay buffer, what the receiver expects, the lane-map exchange
(the old map, the TIME at detection), the data flits discarded since the last one accepted, the flits sent, the device's requests that await an answer, the event ring, packets that wait (`hostWait`), packets that
wait for room in the replay buffer (`queue`), the packets given to the link (`outbound`), data flits accepted that no packet has taken
yet (`inbound`), results of carried calls. -/
structure Link where
  role : LinkRole
  up : Bool
  rxMap : Nat
  txMap : Nat
  txSeq : Nat
  replay : List Nat
  rxExpect : Nat
  rxOk : Bool
  requestAt : Option Nat
  mapPending : Option Nat
  mapAt : Nat
  discarded : Nat
  mapSince : Nat
  mapFails : Nat
  sent : List Flit
  requests : List Request
  lost : Nat
  leqRing : Nat
  leqSize : Nat
  posted : Nat
  dropped : Bool
  waiting : List (List Nat)
  downSince : Nat
  deadReq : List Nat
  hostWait : List Packet
  queue : List Packet
  outbound : List Packet
  inbound : Nat
  results : List (List Nat)
  deriving DecidableEq, Repr, Inhabited

def Link.reset : Link where
  role := .unused
  up := false
  rxMap := 0
  txMap := 0
  txSeq := 0
  replay := []
  rxExpect := 0
  rxOk := true
  requestAt := none
  mapPending := none
  mapAt := 0
  discarded := 0
  mapSince := 0
  mapFails := 0
  sent := []
  requests := []
  lost := 0
  leqRing := 0
  leqSize := 0
  posted := 0
  dropped := false
  waiting := []
  downSince := 0
  deadReq := []
  hostWait := []
  queue := []
  outbound := []
  inbound := 0
  results := []

/-- A PINVAL or PLBINV that waits for accesses already on links (R45 to R47): the slot, the range, when it began; `hold` marks
a PINVAL, which holds back accesses to its range; `pend` lists the slots, with the model's names of their contexts, whose queued
operations and buffered stores were checked before a PLBINV. -/
structure Inval where
  core : Nat
  slot : Nat
  lo : Nat
  hi : Nat
  since : Nat
  hold : Bool
  pend : List (Nat × Nat × Nat)
  deriving DecidableEq, Repr, Inhabited

/-- A TSTOP in progress (R389): the slot, the tenant, the tiles. -/
structure Stop where
  core : Nat
  slot : Nat
  tenant : Nat
  tiles : List Nat
  deriving DecidableEq, Repr, Inhabited

/-- The Wenlek controller (R414 to R419): the last bring-up stage completed, whether bring-up has stopped, the running images, the
lowest versions (non-volatile), the dies powered and held unpowered, telemetry (R378, R404, R419), memory errors corrected, what its
ports have read (`reports`), the hold on matrix commands, the thermal shutdown. -/
structure Wenlek where
  stage : Nat
  stopped : Bool
  firmware : Option Image
  config : Option Image
  lowFirmware : Nat
  lowConfig : Nat
  poweredDies : List Nat
  heldDies : List Nat
  telemetry : List (List Nat)
  corrected : Nat
  reports : List (List Nat)
  powerHold : Bool
  shutdown : Bool
  deriving DecidableEq, Repr, Inhabited

def Wenlek.reset : Wenlek where
  stage := 0
  stopped := false
  firmware := none
  config := none
  lowFirmware := 0
  lowConfig := 0
  poweredDies := []
  heldDies := []
  telemetry := []
  corrected := 0
  reports := []
  powerHold := false
  shutdown := false

/-- The whole machine. `lineHolds` lists the lines that a slot's instruction holds against every other access (R281): core, slot,
line number. `spawned` lists the outstanding spawns, oldest first (R302): the thread that made it, the child, the child's core. -/
structure State where
  cores : SMap Core
  mem : List Host.Cell
  tags : SMap Bool
  poison : SMap Bool
  lines : SMap Line
  cdata : List Host.Cell
  ctags : SMap Bool
  cpoison : SMap Bool
  missWait : List (Nat × Nat)
  walkCache : SMap (List (Nat × Nat))
  ptroot : Nat
  ptwinBase : Nat
  ptwinSet : Nat
  drbase : Nat
  hrtbase : Nat
  links : SMap Link
  hostReplies : List (Nat × Reply)
  net : List Msg
  nacks : List Nack
  held : List Held
  grants : List (Nat × Resv)
  flights : List Flight
  lineHolds : List (Nat × Nat × Nat)
  groups : SMap Group
  tasks : SMap Task
  taskOrder : Nat
  nextUid : Nat
  spawned : List (Nat × Nat × Nat)
  records : List Rec
  absent : List (Nat × Nat)
  invals : List Inval
  stops : List Stop
  saved : SMap Core
  absence : SMap (List Msg)
  absentHeld : List (Nat × Msg)
  probes : List Probe
  probeReq : List Nat
  accused : SMap (Nat × Nat)
  debugReports : SMap (List (List Nat))
  debugOver : SMap Bool
  scanHead : SMap Nat
  wenlek : Wenlek
  clock : Nat
  dieReset : SMap Nat
  nearGiB : Nat
  farGiB : Nat
  tick : Nat
  turn : Turn
  late : Bool
  curCore : Nat
  curSlot : Nat
  curWord : Nat
  deriving DecidableEq, Repr, Inhabited

/-- The machine at power-on, before the Wenlek controller's first stage (R414): registers at their reset values (R33,
R39, R61, R89, R95, R113, R137, R357, R403, R408), memory with nothing listed (log 1). The model's own fields `tick`,
`turn`, `late`, `curCore`, `curSlot`, `curWord` are DESIGN CHOICE (log 2). -/
def State.reset : State where
  cores := []
  mem := []
  tags := []
  poison := []
  lines := []
  cdata := []
  ctags := []
  cpoison := []
  missWait := []
  walkCache := []
  ptroot := 0
  ptwinBase := 0
  ptwinSet := 0
  drbase := 0
  hrtbase := 0
  links := []
  hostReplies := []
  net := []
  nacks := []
  held := []
  grants := []
  flights := []
  lineHolds := []
  groups := []
  tasks := []
  taskOrder := 0
  nextUid := 1
  spawned := []
  records := []
  absent := []
  invals := []
  stops := []
  saved := []
  absence := []
  absentHeld := []
  probes := []
  probeReq := []
  accused := []
  debugReports := []
  debugOver := []
  scanHead := []
  wenlek := Wenlek.reset
  clock := 0
  dieReset := []
  nearGiB := 0
  farGiB := 0
  tick := 0
  turn := .event .powerOn
  late := false
  curCore := 0
  curSlot := 0
  curWord := 0

end Sys2Proof.Machine
end

