-- ==== Sys2Proof/Machine/Ops.lean ====
section
/-! DEFINITION. The named operations over the state: sparse maps, bytes of memory with their tags and poison, the die
cache's bytes, wait records, posted stores, taking an exception (R370, R371) and returning from one (R324, R373). -/

namespace Sys2Proof.Machine

/-! Sparse maps: sorted lists of key and value. -/

/-- The value at a key, or the value an unlisted key has. -/
def SMap.get {α : Type} (d : α) : SMap α → Nat → α
  | [], _ => d
  | (k, v) :: m, x => if x = k then v else SMap.get d m x

/-- Whether a key is listed. -/
def SMap.has {α : Type} (m : SMap α) (x : Nat) : Bool := m.any fun p => p.1 == x

/-- The value at a key, if listed. -/
def SMap.find {α : Type} : SMap α → Nat → Option α
  | [], _ => none
  | (k, v) :: m, x => if x = k then some v else SMap.find m x

/-- List a key with a value. -/
def SMap.put {α : Type} : SMap α → Nat → α → SMap α
  | [], x, a => [(x, a)]
  | (k, v) :: m, x, a =>
    if x < k then (x, a) :: (k, v) :: m else if x = k then (x, a) :: m else (k, v) :: SMap.put m x a

/-- Unlist a key. -/
def SMap.del {α : Type} : SMap α → Nat → SMap α
  | [], _ => []
  | (k, v) :: m, x => if x = k then m else (k, v) :: SMap.del m x

/-- Give a key a value in a map that lists nothing equal to what an unlisted key has. -/
def SMap.set {α : Type} [DecidableEq α] (d : α) (m : SMap α) (x : Nat) (a : α) : SMap α :=
  if a = d then SMap.del m x else SMap.put m x a

/-- Canonical form of a map that lists nothing equal to what an unlisted key has: keys strictly rising, no such entry. -/
abbrev SMap.canon {α : Type} (d : α) (m : SMap α) : Prop := m.Pairwise (fun p q => p.1 < q.1) ∧ ∀ p ∈ m, p.2 ≠ d

/-- The canonical form of memory: equal memories are equal lists. An unlisted byte reads 0 (log 1). -/
abbrev Memory.wf (m : List Host.Cell) : Prop := SMap.canon (0 : Byte) m

/-! Bytes. -/

/-- The little-endian number of a list of bytes (R5). -/
def leNat : List Byte → Nat
  | [] => 0
  | b :: l => b.toNat + 256 * leNat l

/-- The `n` little-endian bytes of a number (R5). -/
def leBytes : Nat → Nat → List Byte
  | 0, _ => []
  | n + 1, v => BitVec.ofNat 8 v :: leBytes n (v / 256)

/-- `n` bytes from a key upward; an unlisted byte reads 0 (log 1). -/
def bytesAt (m : List Host.Cell) (a : Nat) : Nat → List Byte
  | 0 => []
  | n + 1 => SMap.get 0 m a :: bytesAt m (a + 1) n

/-- Write bytes from a key upward. -/
def putBytes (m : List Host.Cell) (a : Nat) : List Byte → List Host.Cell
  | [] => m
  | b :: l => putBytes (SMap.set 0 m a b) (a + 1) l

/-- Give `n` keys from `a` upward a mark. -/
def setMarks (m : SMap Bool) (a n : Nat) (v : Bool) : SMap Bool :=
  match n with
  | 0 => m
  | n + 1 => setMarks (SMap.set false m a v) (a + 1) n v

/-- Whether one of `n` keys from `a` upward is marked. -/
def anyMark (m : SMap Bool) (a n : Nat) : Bool :=
  match n with
  | 0 => false
  | n + 1 => SMap.get false m a || anyMark m (a + 1) n

/-- How many granules of `g` bytes the `n` bytes at `a` touch. -/
def touched (g a n : Nat) : Nat := if n = 0 then 0 else (a + n - 1) / g - a / g + 1

/-- Tag bits after a store of `n` bytes at `a`: every granule written loses its tag, unless a tagged register is stored
whole (R102). -/
def storeTags (m : SMap Bool) (a n : Nat) (tagged : Bool) : SMap Bool := setMarks m (a / 16) (touched 16 a n) tagged

/-- Poison marks after a store of `n` bytes at `a`: a granule written whole is clean, a granule written in part keeps its
mark (R30). -/
def storePoison (m : SMap Bool) (a n : Nat) : SMap Bool :=
  setMarks m ((a + 63) / 64) ((a + n) / 64 - (a + 63) / 64) false

/-! Cores and slots. -/

def State.core (s : State) (c : Nat) : Core := SMap.get Core.reset s.cores c
def State.setCore (s : State) (c : Nat) (x : Core) : State := { s with cores := SMap.put s.cores c x }
def State.modCore (s : State) (c : Nat) (f : Core → Core) : State := s.setCore c (f (s.core c))

def Core.slot (x : Core) (k : Nat) : Slot := SMap.get Slot.empty x.slots k
def Core.setSlot (x : Core) (k : Nat) (y : Slot) : Core := { x with slots := SMap.put x.slots k y }

def State.slot (s : State) (c k : Nat) : Slot := (s.core c).slot k
def State.setSlot (s : State) (c k : Nat) (y : Slot) : State := s.setCore c ((s.core c).setSlot k y)
def State.modSlot (s : State) (c k : Nat) (f : Slot → Slot) : State := s.setSlot c k (f (s.slot c k))

/-- The slot whose instruction runs. -/
def State.me (s : State) : Slot := s.slot s.curCore s.curSlot
def State.setMe (s : State) (y : Slot) : State := s.setSlot s.curCore s.curSlot y
def State.modMe (s : State) (f : Slot → Slot) : State := s.modSlot s.curCore s.curSlot f

def State.eng (s : State) (c : Nat) : Engine := (s.core c).engine
def State.modEng (s : State) (c : Nat) (f : Engine → Engine) : State :=
  s.modCore c fun x => { x with engine := f x.engine }
def State.mx (s : State) (c : Nat) : Mx := (s.core c).mx
def State.modMx (s : State) (c : Nat) (f : Mx → Mx) : State := s.modCore c fun x => { x with mx := f x.mx }

def State.link (s : State) (n : Nat) : Link := SMap.get Link.reset s.links n
def State.modLink (s : State) (n : Nat) (f : Link → Link) : State := { s with links := SMap.put s.links n (f (s.link n)) }

/-! Registers. -/

/-- A plain 64-bit value in a register: bits [127:64] zero, tag 0 (R99). -/
def Reg.ofWord (w : Word) : Reg := ⟨w.zeroExtend 128, false⟩
def Reg.ofNat (n : Nat) : Reg := ⟨BitVec.ofNat 128 n, false⟩
def Reg.zero : Reg := ⟨0, false⟩

/-- Bits [63:0] (R99). -/
def Reg.word (r : Reg) : Word := r.raw.truncate 64
def Reg.nat (r : Reg) : Nat := r.raw.toNat

/-! Fields of a capability (R98). -/
def Reg.cursor (r : Reg) : Nat := bits r.nat 0 52
def Reg.base (r : Reg) : Nat := bits r.nat 52 52
def Reg.lenL (r : Reg) : Nat := bits r.nat 104 12
def Reg.lenX (r : Reg) : Nat := bits r.nat 116 4
def Reg.length (r : Reg) : Nat := r.lenL * 4 ^ r.lenX
def Reg.top (r : Reg) : Nat := r.base + r.length
def Reg.perms (r : Reg) : Nat := bits r.nat 120 8
def Reg.canRead (r : Reg) : Bool := bit r.nat 120
def Reg.canWrite (r : Reg) : Bool := bit r.nat 121
def Reg.canExec (r : Reg) : Bool := bit r.nat 122
def Reg.canLoadCap (r : Reg) : Bool := bit r.nat 123
def Reg.canStoreCap (r : Reg) : Bool := bit r.nat 124
def Reg.canSend (r : Reg) : Bool := bit r.nat 125
def Reg.isGlobal (r : Reg) : Bool := bit r.nat 126

/-- The register with another cursor, modulo 2^52. -/
def Reg.withCursor (r : Reg) (a : Nat) : Reg := { r with raw := BitVec.ofNat 128 (r.nat / 2 ^ 52 * 2 ^ 52 + a % 2 ^ 52) }

/-- A capability from its fields (R98). -/
def mkCap (perms x l base cursor : Nat) : Reg :=
  ⟨BitVec.ofNat 128 (perms * 2 ^ 120 + x * 2 ^ 116 + l * 2 ^ 104 + base % 2 ^ 52 * 2 ^ 52 + cursor % 2 ^ 52), true⟩

def Slot.cr (y : Slot) (n : Nat) : Reg := SMap.get Reg.zero y.c n
def Slot.setC (y : Slot) (n : Nat) (r : Reg) : Slot := { y with c := SMap.put y.c n r }
def Slot.vr (y : Slot) (n : Nat) : BitVec 512 := SMap.get 0 y.v n
def Slot.setV (y : Slot) (n : Nat) (x : BitVec 512) : Slot := { y with v := SMap.put y.v n x }

/-- A mask register; k0 reads all ones and discards writes (R109). -/
def Slot.kr (y : Slot) (n : Nat) : Word := if n = 0 then 0xFFFFFFFFFFFFFFFF else SMap.get 0 y.k n
def Slot.setK (y : Slot) (n : Nat) (x : Word) : Slot := if n = 0 then y else { y with k := SMap.put y.k n x }

/-- The program counter: PCC's cursor (R99). -/
def Slot.pc (y : Slot) : Nat := y.pcc.cursor
def Slot.setPc (y : Slot) (a : Nat) : Slot := { y with pcc := y.pcc.withCursor a }

def Mode.code : Mode → Nat
  | .user => 0
  | .service => 1
  | .firmware => 2

/-- STATUS as it reads (R112). -/
def Slot.status (y : Slot) : Nat :=
  y.domain % 256 * 2 ^ 16 + y.autoMig.toNat * 128 + y.composed.toNat * 64 + (y.holds == .activation).toNat * 32
    + y.exposed.toNat * 16 + y.inTrap.toNat * 8 + y.mode.code * 2

/-- The party id of a slot, or of the composed core its thread has become (R8, R9, R320). -/
def State.partyAt (s : State) (c k : Nat) : Nat :=
  match (s.core c).comp with
  | some g => if g.running && g.lead == c && (s.slot c k).composed then composedParty c g.size else slotParty c k
  | none => slotParty c k

/-! Wait records (R351, R352). -/

/-- Word 0 of a record (R351). -/
def WaitRec.word0 (r : WaitRec) : Nat :=
  r.targets.headD 0 % 2 ^ 32 * 2 ^ 32 + r.gen % 2 ^ 16 * 2 ^ 16 + r.count * 2 ^ 10 + r.mode * 2 ^ 8 + r.reason

/-- A record of the given mode and reason over `l`; `group` makes `l`'s one party a group reference. -/
def WaitRec.mk' (gen mode reason : Nat) (group : Bool) (l : List Nat) : WaitRec :=
  ⟨(gen + 1) % 2 ^ 16, mode, reason, if group then 0 else l.length, l⟩

/-- Mode 0 with the generation advanced (R352). -/
def WaitRec.clear (r : WaitRec) : WaitRec := ⟨(r.gen + 1) % 2 ^ 16, 0, 0, 0, []⟩

/-- Whether two records name the same wait. -/
def WaitRec.same (r : WaitRec) (mode reason : Nat) (l : List Nat) : Bool :=
  r.mode == mode && r.reason == reason && decide (r.targets = l)

/-- A slot enters a hardware wait: the record is written once, and a declared record is kept for when the wait ends
(R309, R352). -/
def Slot.enterWait (y : Slot) (clock mode reason : Nat) (group : Bool) (l : List Nat) : Slot :=
  if y.wait.same mode reason l then y
  else { y with
    decl := if y.wait.reason == 0x0F then some y.wait else y.decl
    wait := WaitRec.mk' y.wait.gen mode reason group l
    waitSince := clock
    overCount := 0 }

/-- A record whose party enters or leaves HALT (R352). -/
def WaitRec.bump (r : WaitRec) : WaitRec := { r with gen := (r.gen + 1) % 2 ^ 16 }

/-- A step asked for by the debugger ends in HALT (R393); the generation, `g` before, advances once (R352). -/
def Slot.endStep (g : Nat) (y : Slot) : Slot :=
  if y.stepping then { y with
    halted := true, stepping := false, wait := { y.wait with gen := (g + 1) % 2 ^ 16 }, overCount := 0 } else y

/-- A slot leaves a hardware wait, if it is in one: WAITR takes word 0 (R113), a declared record returns (R309). -/
def Slot.leaveWait (y : Slot) (clock : Nat) : Slot :=
  if y.wait.mode = 0 ∨ y.wait.reason = 0x0F then y
  else { y with
    waitr := if y.decl.isSome then y.waitr else BitVec.ofNat 64 y.wait.word0
    wait := match y.decl with
      | some d => { d with gen := (y.wait.gen + 1) % 2 ^ 16 }
      | none => y.wait.clear
    decl := none
    chanWait := none
    waitArg := none
    waitSince := clock
    overCount := 0 }

/-- Every wait, declared or not, ends (R309, R370). -/
def Slot.endWait (y : Slot) (clock : Nat) : Slot :=
  if y.wait.mode = 0 then { y with decl := none }
  else { y with
    waitr := BitVec.ofNat 64 y.wait.word0
    wait := y.wait.clear
    decl := none
    chanWait := none
    waitArg := none
    waitSince := clock
    overCount := 0 }

/-- The current slot waits; its instruction issues again when its turn comes (R295). -/
def waitFor (mode reason : Nat) (group : Bool) (l : List Nat) (s : State) : State :=
  s.modMe fun y => y.enterWait s.clock mode reason group l

/-- The current instruction completes: its wait ends, the program counter advances by `n`, what it fetched from memory is
forgotten (R295), the places of the words it popped are free (R105), and a step asked for by the debugger ends (R393). -/
def Slot.complete (y : Slot) (clock n : Nat) : Slot :=
  let z := y.leaveWait clock
  Slot.endStep y.wait.gen { z.setPc (z.pc + n) with replies := [], asRem := false, kept := none }

def complete (n : Nat) (s : State) : State := s.modMe fun y => y.complete s.clock n

/-- The current instruction completes and execution goes on at the given program capability (R251, R254). -/
def completeAt (p : Reg) (s : State) : State :=
  s.modMe fun y => { y.complete s.clock 0 with pcc := p }

/-! Queues and ports (R104 to R106). -/

def isQueue (f : Nat) : Bool := decide (16 ≤ f) && decide (f < 24)
def isPort (f : Nat) : Bool := decide (24 ≤ f) && decide (f < 28)

def Core.queue (x : Core) (n : Nat) : List Word := SMap.get [] x.q n
def Core.setQueue (x : Core) (n : Nat) (l : List Word) : Core := { x with q := SMap.put x.q n l }
def Core.port (x : Core) (n : Nat) : List Word := SMap.get [] x.ports n
def Core.setPort (x : Core) (n : Nat) (l : List Word) : Core := { x with ports := SMap.put x.ports n l }

/-- A slot stands no longer in the lists of those blocked on a queue or port (R105). -/
def leaveBlocked (c k : Nat) (s : State) : State :=
  if (s.core c).blocked.all fun p => !p.2.contains k then s
  else s.modCore c fun x => { x with blocked := x.blocked.map fun (p : Nat × List Nat) => (p.1, p.2.filter (· != k)) }

/-- The queue and port words that an instruction has popped, with their fields, in the order of the pops. -/
def Kept.words (x : Kept) : List (Nat × Word) :=
  ((x.reads.zip x.vals).filter fun p => isQueue p.1 || isPort p.1).map fun p => (p.1, p.2.word)

/-- The word at the head of a queue or port is taken, with its error mark (R105, R383). -/
def Core.popWord (x : Core) (f : Nat) : Core :=
  let y := if isQueue f then x.setQueue (f - 16) (x.queue (f - 16)).tail else x.setPort (f - 24) (x.port (f - 24)).tail
  { y with qerr := (x.qerr.filter fun e => e != (f, 0)).map fun e => (e.1, if e.1 = f then e.2 - 1 else e.2) }

/-- One of the first `n` words of a queue or port carries an error (R383). -/
def Core.badWord (x : Core) (f n : Nat) : Bool := x.qerr.any fun e => e.1 == f && decide (e.2 < n)

/-- A word returns to the head of its queue or port. -/
def Core.unread (x : Core) (f : Nat) (w : Word) : Core :=
  let y := if isQueue f then x.setQueue (f - 16) (w :: x.queue (f - 16)) else x.setPort (f - 24) (w :: x.port (f - 24))
  { y with qerr := x.qerr.map fun e => (e.1, if e.1 = f then e.2 + 1 else e.2) }

/-- A slot whose instruction traps or parks after issue: the words it popped return to the heads of their queues and ports, the
places it reserved are released, the mi position is restored (R105). -/
def giveBack (c k : Nat) (s : State) : State :=
  match (s.slot c k).kept with
  | none => s
  | some x => ((x.words.foldr (fun p s => s.modCore c fun y => y.unread p.1 p.2) s).modSlot c k fun y =>
      { y with kept := none, miPos := x.mi })

/-- How many words of a field, or places of it, the core's slots hold with instructions that have issued (R105). -/
def keptOf (x : Core) (f : Nat) (l : Kept → List Nat) : Nat :=
  x.slots.foldl (fun n p => n + (match p.2.kept with | some y => ((l y).filter (· == f)).length | none => 0)) 0

/-- Places taken in a queue of a core: its words, the words popped by instructions that have not completed, the places reserved
for late pushes (R105). -/
def Core.load (x : Core) (n : Nat) : Nat :=
  (x.queue n).length + keptOf x (16 + n) Kept.reads + keptOf x (16 + n) Kept.writes

/-! Physical memory (R15, R16, R102, R30). -/

/-- The key in `State.mem` of an offset in a core's local memory: the local memory window (R16), and above 2^48 for the
part of a keystone's memory that the window does not reach. -/
def localKey (c off : Nat) : Nat :=
  if off < 2 ^ 18 then 0x03FF00000000 + coreDie c * 2 ^ 30 + coreTile c * 2 ^ 24 + coreIn c * 2 ^ 18 + off
  else 2 ^ 48 + (c - numSmall) * 2 ^ 20 + off

/-- Write bytes at a physical address, with the tag and poison marks the store leaves. -/
def physWrite (a : Nat) (l : List Byte) (tagged : Bool) (s : State) : State :=
  { s with
    mem := putBytes s.mem a l
    tags := storeTags s.tags a l.length tagged
    poison := storePoison s.poison a l.length }

def physBytes (s : State) (a n : Nat) : List Byte := bytesAt s.mem a n
def physPoison (s : State) (a n : Nat) : Bool := anyMark s.poison (a / 64) (touched 64 a n)
def physTag (s : State) (a : Nat) : Bool := SMap.get false s.tags (a / 16)

/-- Write a 64-bit word at a physical address. -/
def physWord (a v : Nat) (s : State) : State := physWrite a (leBytes 8 v) false s

/-! The die cache's bytes (R48 to R54): one copy per home and line; the marks of the line say where it is valid. -/

def lineKey (home va : Nat) : Nat := home * 2 ^ 42 + va / 1024
def cacheKey (home va : Nat) : Nat := home * 2 ^ 52 + va
def sectorOf (va : Nat) : Nat := va / 256 % 4

def Line.none : Line := ⟨0, [], [], [], [], 0, 0, 0, [], false⟩
def State.line (s : State) (home va : Nat) : Line := SMap.get Line.none s.lines (lineKey home va)

/-- The sector of `va` is valid at its home. -/
def cachedAt (s : State) (home va : Nat) : Bool := (s.line home va).valid.contains (sectorOf va)

/-- The address in the recorded frame of a byte of a cached line (R32). -/
def frameAddr (s : State) (home va : Nat) : Nat := (s.line home va).frame + va % 1024

/-- Mark a sector dirty where its current copy is (R52). -/
def Line.soil (x : Line) (sec : Nat) : Line :=
  let inBank := x.bankValid.contains sec
  { x with
    dirty := if !inBank && !x.dirty.contains sec then sec :: x.dirty else x.dirty
    bankDirty := if inBank && !x.bankDirty.contains sec then sec :: x.bankDirty else x.bankDirty }

/-- A sector of the line has been used. -/
def Line.touch (x : Line) (sec tick : Nat) : Line :=
  { x with stamp := tick, bankStamp := if x.bankValid.contains sec then tick else x.bankStamp }

/-- Store bytes of one sector into its cached copy. -/
def cacheWrite (home va : Nat) (l : List Byte) (tagged : Bool) (s : State) : State :=
  let a := cacheKey home va
  { s with
    lines := SMap.put s.lines (lineKey home va) ((s.line home va).soil (sectorOf va))
    cdata := putBytes s.cdata a l
    ctags := storeTags s.ctags a l.length tagged
    cpoison := storePoison s.cpoison a l.length }

/-- Copy a sector's bytes, tags and poison from a frame into the cache (R54, R31). -/
def fillSector (home va pa : Nat) (s : State) : State :=
  let a := cacheKey home (va / 256 * 256)
  let p := pa / 256 * 256
  { s with
    cdata := putBytes s.cdata a (bytesAt s.mem p 256)
    ctags := (List.range 16).foldl (fun m i => SMap.set false m (a / 16 + i) (SMap.get false s.tags (p / 16 + i))) s.ctags
    cpoison := (List.range 4).foldl (fun m i => SMap.set false m (a / 64 + i) (SMap.get false s.poison (p / 64 + i)))
      s.cpoison }

/-- Copy a sector's bytes, tags and poison from the cache to its recorded frame (R50, R31). -/
def flushSector (home va : Nat) (s : State) : State :=
  let a := cacheKey home (va / 256 * 256)
  let p := frameAddr s home (va / 256 * 256)
  { s with
    mem := putBytes s.mem p (bytesAt s.cdata a 256)
    tags := (List.range 16).foldl (fun m i => SMap.set false m (p / 16 + i) (SMap.get false s.ctags (a / 16 + i))) s.tags
    poison := (List.range 4).foldl (fun m i => SMap.set false m (p / 64 + i) (SMap.get false s.cpoison (a / 64 + i)))
      s.poison }

/-- Forget a sector's cached bytes. -/
def clearSector (home va : Nat) (s : State) : State :=
  let a := cacheKey home (va / 256 * 256)
  { s with
    cdata := putBytes s.cdata a (List.replicate 256 0)
    ctags := setMarks s.ctags (a / 16) 16 false
    cpoison := setMarks s.cpoison (a / 64) 4 false }

/-- Take a sector out of its line; a line without sectors is unlisted. -/
def dropSector (home va : Nat) (s : State) : State :=
  let sec := sectorOf va
  let x := s.line home va
  let x' := { x with
    valid := x.valid.erase sec, dirty := x.dirty.erase sec
    bankValid := x.bankValid.erase sec, bankDirty := x.bankDirty.erase sec
    hurt := x.hurt.filter fun g => g / 4 != sec }
  let s := clearSector home va s
  { s with lines := if x'.valid.isEmpty then SMap.del s.lines (lineKey home va)
                    else SMap.put s.lines (lineKey home va) x' }

/-- The bank's copy of the sectors that the predicate picks goes: where the slice's copy is the poisoned one and not overwritten by
dirty data, the poison shows (R52, R60). -/
def showHurt (key : Nat) (p : Nat → Bool) (s : State) : State :=
  let x := SMap.get Line.none s.lines key
  if x.hurt.isEmpty then s
  else
    let base := cacheKey (key / 2 ^ 42) (key % 2 ^ 42 * 1024)
    let l := x.hurt.filter fun g => p (g / 4) && !x.bankDirty.contains (g / 4)
    { s with
      cpoison := l.foldl (fun m g => SMap.set false m (base / 64 + g) true) s.cpoison
      lines := SMap.put s.lines key { x with hurt := x.hurt.filter fun g => !p (g / 4) } }

/-- Write a sector back if it is dirty anywhere, and drop it (R45, R50). -/
def evictSector (home va : Nat) (s : State) : State :=
  let s := showHurt (lineKey home va) (· == sectorOf va) s
  let x := s.line home va
  let sec := sectorOf va
  let s := if x.dirty.contains sec || x.bankDirty.contains sec then flushSector home va s else s
  dropSector home va s

/-- Evict every sector of a line. -/
def evictLine (home va : Nat) (s : State) : State :=
  let b := va / 1024 * 1024
  ((s.line home va).valid).foldl (fun s sec => evictSector home (b + 256 * sec) s) s

/-! Slices and banks of the home core (R49 to R52). -/

/-- The role of a bank: 0 scratchpad, 1 cache, 2 TOB (R89). A keystone has only scratchpad (R88). -/
def bankRole (s : State) (c b : Nat) : Nat :=
  if isKeystone c then 0 else bits (s.core c).bankrole.toNat (2 * b) 2

/-- The set of a line in its home slice (R49). -/
def sliceSet (va : Nat) : Nat :=
  (bits va 10 10 ^^^ bits va 20 10) ^^^ (bits va 30 10 ^^^ bits va 40 10) ^^^ bits va 50 2

/-- Lines of a tile's slice in a set, as (key, line). -/
def setLines (s : State) (tile set : Nat) : List (Nat × Line) :=
  s.lines.filter fun p => globalTile (p.1 / 2 ^ 42) == tile && sliceSet (p.1 % 2 ^ 42 * 1024) == set

/-- The cache-role banks of a core in ascending order: each is a way of its local cache (R51). -/
def cacheBanks (s : State) (c : Nat) : List Nat := (List.range 32).filter fun b => bankRole s c b == 1

/-- Lines of a home core that are in its banks' set of `va`, but for the line of `va` itself. -/
def bankLines (s : State) (home va : Nat) : List (Nat × Line) :=
  s.lines.filter fun p => p.1 / 2 ^ 42 == home && p.1 % 8 == va / 1024 % 8 && !p.2.bankValid.isEmpty
    && p.1 != lineKey home va

/-- The least recently used line; of lines last used in the same step the first in address order (DESIGN CHOICE, log 96). -/
def oldest (f : Line → Int) : List (Nat × Line) → Option (Nat × Line)
  | [] => none
  | p :: l => match oldest f l with
    | some q => if f q.2 < f p.2 then some q else some p
    | none => some p

/-- A line leaves the banks: its dirty sectors are dirty in the slice (R52). -/
def Line.leaveBank (x : Line) : Line :=
  { x with dirty := x.dirty ++ x.bankDirty.filter (fun n => !x.dirty.contains n), bankValid := [], bankDirty := [] }

/-- The line of a key leaves the banks. -/
def leaveBanks (key : Nat) (s : State) : State :=
  let s := showHurt key (fun _ => true) s
  { s with lines := SMap.put s.lines key (SMap.get Line.none s.lines key).leaveBank }

/-- A way of the home core's banks for the line of `va`: the first free one in bank order, else that of the least recently used
line of the set, which leaves the banks (R51). -/
def bankWay (home va : Nat) (s : State) : Nat × State :=
  let l := bankLines s home va
  match (cacheBanks s home).find? fun b => l.all fun p => p.2.bank != b with
  | some b => (b, s)
  | none => match oldest Line.bankStamp l with
    | some (k, x) => (x.bank, leaveBanks k s)
    | none => (0, s)

/-- The 24 ways of a set are taken (R48, R50). -/
def fullSet (s : State) (tile set : Nat) : Bool := decide (24 ≤ (setLines s tile set).length)

/-- A full set of a slice releases its least recently used line (R50). -/
def releaseWay (tile set : Nat) (s : State) : State :=
  if !fullSet s tile set then s
  else match oldest Line.stamp (setLines s tile set) with
    | some (k, _) => evictLine (k / 2 ^ 42) (k % 2 ^ 42 * 1024) s
    | none => s

/-- Fill the sector of `va` from a frame and allocate it: in the slice and, without a hint, in the home's banks; with .na as
least recently used (R54, R57). A full set releases a line first (R50). A further sector of a line that is there leaves a
.na line where it stood in the order (DESIGN CHOICE, log 97). -/
def fillFrom (home va pa hint : Nat) (s : State) : State :=
  let sec := sectorOf va
  let absent := (s.line home va).valid.isEmpty
  let s := if absent then releaseWay (globalTile home) (sliceSet va) s else s
  let useBank := hint == 0 && !(cacheBanks s home).isEmpty
  let way := if useBank && (s.line home va).bankValid.isEmpty then bankWay home va s else ((s.line home va).bank, s)
  let s := way.2
  let x := s.line home va
  let x' := { x with
    frame := if absent then pa / 1024 * 1024 else x.frame
    valid := sec :: x.valid
    bankValid := if useBank then sec :: x.bankValid else x.bankValid
    bank := way.1
    stamp := if hint = 0 then (s.tick : Int) else if absent then -(s.tick + 1 : Int) else x.stamp
    bankStamp := if useBank then (s.tick : Int) else x.bankStamp }
  let s := fillSector home va (x'.frame + va % 1024) s
  { s with lines := SMap.put s.lines (lineKey home va) x' }

/-- The line of `va` has been used. -/
def touchLine (home va : Nat) (s : State) : State :=
  { s with lines := SMap.put s.lines (lineKey home va) ((s.line home va).touch (sectorOf va) s.tick) }

/-! Reading and writing where an access is performed (R184). Host and peer sources are reached by packets only. -/

/-- Where the byte `n` further on in the same sector is. -/
def Src.plus (x : Src) (n : Nat) : Src :=
  match x with
  | .bank c off => .bank c (off + n)
  | .cached h fill => .cached h (fill + n)
  | .frame h pa => .frame h (pa + n)
  | x => x

/-- Where the bytes are now: a sector that is not in the cache is in its frame. -/
def Src.here (x : Src) (va : Nat) (s : State) : Src :=
  match x with
  | .cached h fill => if cachedAt s h va then x else .frame h fill
  | x => x

/-- The sector of an access that is performed in the cache is there: it is filled when it has left (R54). -/
def Src.ready (x : Src) (va hint : Nat) (s : State) : State :=
  match x with
  | .cached h fill => if cachedAt s h va then s else fillFrom h va fill hint s
  | _ => s

def readAt (s : State) (src : Src) (va n : Nat) : List Byte :=
  match src.here va s with
  | .bank c off => bytesAt s.mem (localKey c off) n
  | .cached home _ => bytesAt s.cdata (cacheKey home va) n
  | .frame _ pa => bytesAt s.mem pa n
  | _ => List.replicate n 0

def poisonAt (s : State) (src : Src) (va n : Nat) : Bool :=
  match src.here va s with
  | .bank c off => physPoison s (localKey c off) n
  | .cached home _ => anyMark s.cpoison (cacheKey home va / 64) (touched 64 (cacheKey home va) n)
  | .frame _ pa => physPoison s pa n
  | _ => false

def tagAt (s : State) (src : Src) (va : Nat) : Bool :=
  match src.here va s with
  | .bank c off => physTag s (localKey c off)
  | .cached home _ => SMap.get false s.ctags (cacheKey home va / 16)
  | .frame _ pa => physTag s pa
  | _ => false

/-- The tags of the granules that `n` bytes at `va` touch. -/
def tagsAt (s : State) (src : Src) (va n : Nat) : List Bool :=
  (List.range (touched 16 va n)).map fun i => tagAt s (src.plus (16 * i)) (va + 16 * i)

def writeAt (src : Src) (va : Nat) (l : List Byte) (tagged : Bool) (s : State) : State :=
  match src with
  | .bank c off => physWrite (localKey c off) l tagged s
  | .cached home _ => cacheWrite home va l tagged (src.ready va 0 s)
  | .frame _ pa => physWrite pa l tagged s
  | _ => s

/-- The parts of `n` bytes at `va`, one per aligned block of `b` bytes, for `n` up to `b` × the fuel. -/
def splitBlocks (b : Nat) : Nat → Nat → Nat → List (Nat × Nat)
  | 0, _, _ => []
  | f + 1, va, n =>
    if n = 0 then []
    else
      let m := b - va % b
      if n ≤ m then [(va, n)] else (va, m) :: splitBlocks b f (va + m) (n - m)

/-- The parts of an access that lie in different sectors of its line (R48). -/
def sectorParts (va n : Nat) : List (Nat × Nat) := splitBlocks 256 (n / 256 + 2) va n

/-- Read `n` bytes of one access, whose sectors may each be in the cache or in the frame (R256). -/
def readOver (s : State) (src : Src) (va n : Nat) : List Byte :=
  (sectorParts va n).flatMap fun p => readAt s (src.plus (p.1 - va)) p.1 p.2

/-- The address of the first granule of 64 bytes that is poisoned, of those that `n` bytes touch; where the access begins in it,
its own (R385). -/
def poisonedAt (s : State) (src : Src) (va n : Nat) : Option Nat :=
  ((splitBlocks 64 (n / 64 + 2) va n).find? fun p => poisonAt s (src.plus (p.1 - va)) p.1 p.2).map Prod.fst

/-- Write the bytes of one access, a sector at a time; a .by store to a sector that is not in the cache goes to the frame
(R57). -/
def writeOver (src : Src) (va hint : Nat) (l : List Byte) (tagged : Bool) (s : State) : State :=
  (sectorParts va l.length).foldl (fun s p =>
    let x := src.plus (p.1 - va)
    writeAt (if hint = 2 then x.here p.1 s else x) p.1 ((l.drop (p.1 - va)).take p.2) tagged s) s

/-- Give the granules of 64 bytes that `n` bytes touch a poison mark, or take it off (R30). -/
def setPoison (src : Src) (va n : Nat) (mark : Bool) (s : State) : State :=
  match src.here va s with
  | .bank c off => { s with poison := setMarks s.poison (localKey c off / 64) (touched 64 (localKey c off) n) mark }
  | .cached home _ =>
    { s with cpoison := setMarks s.cpoison (cacheKey home va / 64) (touched 64 (cacheKey home va) n) mark }
  | .frame _ pa => { s with poison := setMarks s.poison (pa / 64) (touched 64 pa n) mark }
  | _ => s

/-- Mark the granules of a store poisoned (R30: a copied granule, a host write that carries poison). -/
def poisonMark (src : Src) (va n : Nat) (s : State) : State := setPoison src va n true s

/-- Mark the granule of `va` tagged: a copy carries the tags of whole granules (R102). -/
def tagMark (src : Src) (va : Nat) (s : State) : State :=
  match src.here va s with
  | .bank c off => { s with tags := setMarks s.tags (localKey c off / 16) 1 true }
  | .cached home _ => { s with ctags := setMarks s.ctags (cacheKey home va / 16) 1 true }
  | .frame _ pa => { s with tags := setMarks s.tags (pa / 16) 1 true }
  | _ => s

/-! Accesses on their way (R187). -/

/-- The new value an atomic writes, `none` where it writes nothing (R268). -/
def amoNew (amo n old b e : Nat) : Option Nat :=
  let m := 2 ^ (8 * n)
  let sg (x : Nat) : Int := sext (8 * n) x
  match amo with
  | 0 => some ((old + b) % m)
  | 1 => some (old &&& b)
  | 2 => some (old ||| b)
  | 3 => some (old ^^^ b)
  | 4 => some (if sg old ≤ sg b then old else b)
  | 5 => some (if sg old ≤ sg b then b else old)
  | 6 => some (min old b)
  | 7 => some (max old b)
  | 8 => some b
  | _ => if old = e then some b else none

/-- An atomic that leaves bit 0 set in the release word of a context parked at its home releases the context, behind those released
before (R376). -/
def noteRelease (home va n : Nat) (s : State) : State :=
  let go (p : Parked) : Bool :=
    let w := p.va + 0x178
    !p.released && decide (va ≤ w) && decide (w < va + n) && (SMap.get 0 s.cdata (cacheKey home w)).toNat % 2 == 1
  s.modCore home fun x => { x with
    parked := (x.parked.filter fun p => !go p) ++ (x.parked.filter go).map fun p => { p with released := true } }

/-- Perform an atomic at its place: old value, and the state after (R268, R269). A poisoned granule is left as it is. -/
def amoAt (src : Src) (va n amo b e : Nat) (s : State) : Reply × State :=
  let old := readAt s src va n
  if poisonAt s src va n then (⟨va, old, [], true, va⟩, s)
  else match amoNew amo n (leNat old) b e with
    | some v =>
      let s := writeAt src va (leBytes n v) false s
      (⟨va, old, [], false, va⟩, match src with
        | .cached home _ => if (s.core home).parked.isEmpty then s else noteRelease home va n s
        | _ => s)
    | none => (⟨va, old, [], false, va⟩, s)

/-- What a load takes where it is performed (R31, R102, R184, R385). -/
def takeAt (s : State) (src : Src) (va n : Nat) : Reply :=
  ⟨va, readOver s src va n, tagsAt s src va n, (poisonedAt s src va n).isSome, (poisonedAt s src va n).getD va⟩

/-- The bytes that an access on its way is to load or store. -/
def Flight.length (f : Flight) : Nat := if f.op = 1 then f.bytes.length else f.size

/-- Perform one access that is on its way, where it is. -/
def performFlight (f : Flight) (s : State) : Flight × State :=
  if f.reply.isSome then (f, s)
  else
    match f.op with
    | 1 => (f, writeOver f.src f.va f.hint f.bytes f.tagged s)
    | 2 =>
      let (r, s) := amoAt f.src f.va f.size f.amo f.operand f.expected s
      ({ f with reply := some r }, s)
    | 0 => ({ f with reply := some (takeAt s f.src f.va f.size) }, s)
    | _ => (f, s)

/-- Another part of a store that writes whole granules is still on its way to the granule of `f`. -/
def moreParts (s : State) (f : Flight) : Bool :=
  s.flights.any fun g => g.whole && g.core == f.core && g.slot == f.slot && g.va / 64 == f.va / 64

/-- An access of the list is performed: a posted store leaves the list, and the last part of a store that writes a whole granule
clears the granule's poison (R30); a load or atomic keeps its reply. -/
def finishFlight (f : Flight) (s : State) : State :=
  if f.op = 1 then
    let s := (performFlight f { s with flights := s.flights.erase f }).2
    if f.whole && !moreParts s f then setPoison f.src f.va 1 false s else s
  else
    let r := performFlight f s
    { r.2 with flights := s.flights.map fun g => if g = f then r.1 else g }

/-- An access that reads or writes the frame of the line of `va`: a .by miss (R57). -/
def Flight.byMiss (f : Flight) (va : Nat) (s : State) : Bool :=
  f.va / 1024 == va / 1024 && (match f.src with
    | .frame _ _ => true
    | .cached h _ => f.hint == 2 && !(cachedAt s h f.va && cachedAt s h (f.va + f.length - 1))
    | _ => false)

/-- A .by access on its way to its frame comes before a later access to its line, and before a fill of it (R58). -/
def settleBy (va : Nat) (s : State) : State :=
  s.flights.foldl (fun t f => if f.byMiss va t then finishFlight f t else t) s

/-- One sector that an access uses as it arrives: an access without a hint uses its line; a sector that has left is filled again,
but for a .by access, which goes to the frame (R53, R54, R57, R58). -/
def arriveSector (home va fill hint : Nat) (s : State) : State :=
  if cachedAt s home va then (if hint = 0 then touchLine home va s else s)
  else if hint = 2 then s else fillFrom home va fill hint (settleBy va s)

/-- An access that was on its way arrives. -/
def Flight.arrives (f : Flight) (s : State) : State :=
  match f.src with
  | .cached h fill => (sectorParts f.va f.length).foldl (fun s p => arriveSector h p.1 (fill + (p.1 - f.va)) f.hint s) s
  | _ => s

/-- An access of the list arrives and is performed. -/
def landFlight (f : Flight) (s : State) : State := finishFlight f (f.arrives s)

/-- The accesses of a list that the predicate picks arrive, in order, those that are on their way still (R58). -/
def landAll (p : Flight → Bool) : List Flight → State → State
  | [], s => s
  | f :: l, s => landAll p l (if p f ∧ f ∈ s.flights then landFlight f s else s)

/-- Perform the accesses on their way that the predicate picks, oldest first. -/
def settle (p : Flight → Bool) (s : State) : State := landAll p s.flights s

/-- Perform, oldest first, every posted store that the predicate picks. -/
def drainWhere (p : Flight → Bool) (s : State) : State := settle (fun f => f.op == 1 && p f) s

/-- Every posted store of one agent is performed (R187 rows 5 to 8). -/
def drainAgent (c k : Nat) (s : State) : State := drainWhere (fun f => f.core == c && f.slot == k) s

def drainMe (s : State) : State := drainAgent s.curCore s.curSlot s

/-- Whether a point of performance on core `d` lies within a scope of an agent of core `c` (R12, R189): 1 .core, 2 .tile,
3 .die, 4 .pkg, 5 .sys. -/
def inScope (scope c d : Nat) : Bool :=
  match scope with
  | 1 => d == c
  | 2 => globalTile d == globalTile c
  | 3 => coreDie d == coreDie c
  | _ => true

/-- A posted store's point of performance lies within a scope. -/
def Flight.inScope (f : Flight) (scope c : Nat) : Bool :=
  match f.src with
  | .bank d _ => Machine.inScope scope c d
  | .cached h _ | .frame h _ => Machine.inScope scope c h
  | _ => true

/-- The posted stores of one agent within a scope are performed (R189, R190). -/
def drainScope (c k scope : Nat) (s : State) : State :=
  drainWhere (fun f => f.core == c && f.slot == k && f.inScope scope c) s

/-- Posted stores of one agent to the line of `va` are performed (R187 rows 1 and 2). -/
def drainLine (c k va : Nat) (s : State) : State :=
  drainWhere (fun f => f.core == c && f.slot == k && f.va / 1024 == va / 1024) s

/-- The agent of a slot: the context it runs, wherever it runs (R183). Other agents are named by their party ids. -/
def agentOf (uid : Nat) : Nat := 2 ^ 32 + uid
def State.agentAt (s : State) (c k : Nat) : Nat := agentOf (s.slot c k).uid

/-- A device write to a host or peer page by this agent still awaits its acknowledgement (R200). -/
def hostWritesOf (s : State) (agent : Nat) : Bool :=
  s.links.any fun p => p.2.requests.any fun r => r.op == 2 && r.agent == agent

/-- A release by this agent to a host or peer page still awaits its acknowledgement: an acquire at .sys is performed after it
(R187 row 6). -/
def hostReleaseOf (s : State) (agent : Nat) : Bool :=
  s.links.any fun p => p.2.requests.any fun r => r.op != 1 && r.release && r.agent == agent

/-! Context frames (R115, R375). -/

/-- Remainder of a CRC-64 with the ECMA-182 polynomial, most significant bit first from 0 (R375; PRESUMED, log 8). -/
def crcBit (crc : Nat) : Nat :=
  if crc / 2 ^ 63 % 2 = 1 then (crc * 2 % 2 ^ 64) ^^^ 0x42F0E1EBA9EA3693 else crc * 2 % 2 ^ 64

def crcByte (crc : Nat) (b : Byte) : Nat :=
  (List.range 8).foldl (fun c _ => crcBit c) (crc ^^^ (b.toNat * 2 ^ 56))

def crc64 (l : List Byte) : Nat := l.foldl crcByte 0

/-- The 24 bytes of a record as three doublewords (R351). -/
def WaitRec.words (r : WaitRec) : List Nat :=
  [r.word0, r.targets.getD 1 0 + r.targets.getD 2 0 * 2 ^ 32, r.targets.getD 3 0]

def tagBits (y : Slot) : Nat :=
  (List.range 16).foldl (fun n i => n + (y.cr i).tag.toNat * 2 ^ i) (y.pcc.tag.toNat * 2 ^ 16)

/-- The first 512 bytes of a context frame but for the check, as 63 doublewords (R115, R375). -/
def frameWords (party : Nat) (y : Slot) (kind seq trapWord tval : Nat) : List Nat :=
  [party * 2 ^ 32 + 1, y.status, y.pcc.nat % 2 ^ 64, y.pcc.nat / 2 ^ 64, tagBits y, y.prio, y.tvec, y.spawnlim]
  ++ ((List.range 16).map fun i => [(y.cr i).nat % 2 ^ 64, (y.cr i).nat / 2 ^ 64]).flatten
  ++ [party * 2 ^ 32 + seq * 2 ^ 16 + kind, y.tcause, y.tval.toNat, y.tpc] ++ y.wait.words
  ++ [0, trapWord, tval] ++ List.replicate 13 0

/-- The bytes of a service-trap frame, check included. -/
def frameBytes (party : Nat) (y : Slot) (kind seq trapWord tval : Nat) : List Byte :=
  let l := ((frameWords party y kind seq trapWord tval).map (leBytes 8)).flatten
  l ++ leBytes 8 (crc64 l)

/-- Write a frame at a place given by a byte writer, and set the tags of PCC and c0 to c15 as they stand (R375). -/
def writeFrame (wr : Nat → List Byte → Bool → State → State) (l : List Byte) (y : Slot) (s : State) : State :=
  let s := wr 0 l false s
  let cap (off : Nat) (r : Reg) (s : State) : State := if r.tag then wr off (leBytes 16 r.nat) true s else s
  let s := cap 0x10 y.pcc s
  (List.range 16).foldl (fun s i => cap (0x40 + 16 * i) (y.cr i) s) s

/-- The scalar state of a slot as a frame in memory holds it (R373, R376): bytes and tags through the two readers. -/
def readFrame (rd : Nat → Nat → Nat) (tg : Nat → Bool) (y : Slot) : Slot :=
  let st := rd 0x08 8
  { y with
    domain := bits st 16 8
    autoMig := bit st 7
    inTrap := bit st 3
    pcc := ⟨BitVec.ofNat 128 (rd 0x10 16), tg 0x10⟩
    prio := bits (rd 0x28 8) 0 4
    tvec := bits (rd 0x30 8) 0 52 / 2 * 2
    spawnlim := bits (rd 0x38 8) 0 16
    c := (List.range 16).map fun i => (i, ⟨BitVec.ofNat 128 (rd (0x40 + 16 * i) 16), tg (0x40 + 16 * i)⟩)
    tcause := bits (rd 0x148 8) 0 8
    tval := BitVec.ofNat 64 (rd 0x150 8)
    tpc := bits (rd 0x158 8) 0 52 }

/-! Compositions. -/

/-- The node of a composition that core `x` leads changes (R352, R354). -/
def Core.bumpComp (x : Core) : Core := { x with cgen := (x.cgen + 1) % 2 ^ 16 }

/-- A core's composition is now `g`; its any-slot node reads one that runs (R352, R354). -/
def Core.setComp (x : Core) (g : Option Comp) : Core :=
  { x with comp := g, gen := if (x.comp.any fun h => h.running) || g.any fun h => h.running then (x.gen + 1) % 2 ^ 16 else x.gen }

/-- A composition of the core ends: the members reopen (R321). -/
def reopen (lead : Nat) (s : State) : State :=
  let fix (x : Core) : Core := match x.comp with
    | some g => if g.lead = lead then x.setComp none else x
    | none => x
  let s := if (s.core lead).comp.any fun g => g.lead == lead then s.modCore lead Core.bumpComp else s
  { s with cores := s.cores.map fun (p : Nat × Core) => (p.1, fix p.2) }

/-- A thread that waits in COMPOSE and does not go on gives up its members (R320). -/
def leaveCompose (c k : Nat) (s : State) : State := if (s.slot c k).wait.reason = 0x0D then reopen c s else s

/-! Taking an exception. -/

/-- The frame place `p` of a keystone (R371). -/
def placeOff (p : Nat) : Nat := 0x1000 + 512 * p

/-- The lowest free frame place of a keystone, if one is free (R371). -/
def freePlace (x : Core) : Option Nat := (List.range 32).find? fun p => !SMap.has x.frames p

/-- From `s` to `t` the any-slot node of core `c` advances once, however often it changed (R352). -/
def bumpOnce (c : Nat) (s t : State) : State :=
  let old := (s.core c).gen
  t.modCore c fun x => { x with gen := if x.gen = old then old else (old + 1) % 2 ^ 16 }

/-- The entry of a held slot's refused frame in its keystone's reservation list (R371): no message of the slot has its number. -/
def frameResv (c k : Nat) : Resv := ⟨c, 64 + k, .arrival⟩

/-- The frame of a held slot waits no longer at its keystone, whose any-slot node reads the reservation list (R352, R354, R371). -/
def Core.dropFrame (x : Core) (c k : Nat) : Core :=
  { x with
    frameWait := x.frameWait.filter fun w => !(w.1 == c && w.2.1 == k)
    resv := x.resv.erase (frameResv c k)
    gen := if x.resv.contains (frameResv c k) then (x.gen + 1) % 2 ^ 16 else x.gen }

/-- The frame of a held slot is to be tried again at a time. -/
def Core.holdFrame (x : Core) (c k due : Nat) : Core :=
  { x with frameWait := (x.frameWait.filter fun w => !(w.1 == c && w.2.1 == k)) ++ [(c, k, due)] }

/-- A frame that finds every place in use is refused, with a reservation of class arrival while the list of 64 has room, else for a
resend after 1,024 cycles (R337, R371). -/
def Core.refuseFrame (x : Core) (c k clock : Nat) : Core :=
  if x.resv.contains (frameResv c k) then x
  else if x.resv.length < 64 then
    let y := x.dropFrame c k
    { y with resv := y.resv ++ [frameResv c k], gen := (y.gen + 1) % 2 ^ 16 }
  else x.holdFrame c k (clock + 1024)

def Core.putFrame (x : Core) (p : Nat) (o : Place) : Core := { x with frames := SMap.put x.frames p o }

/-- A slot's frame stands in its keystone's places; with `started`, service code has started on it. -/
def framed (s : State) (started : Bool) (c k : Nat) : Bool :=
  (s.core (tileKeystone (globalTile c))).frames.any fun p => p.2.core == c && p.2.slot == k && (p.2.dispatched || !started)

/-- An earlier call of the same tenant with the same token satisfies `p`: calls of equal tokens keep their issue order (R323). -/
def callBefore (s : State) (p : Nat → Nat → Bool) (c k : Nat) : Bool :=
  let y := s.slot c k
  match y.svc with
  | none => false
  | some v => v.cause == 0x10 && s.cores.any fun (q : Nat × Core) => q.2.slots.any fun (r : Nat × Slot) => match r.2.svc with
      | some w => w.cause == 0x10 && r.2.tenant == y.tenant && w.tval / 2 ^ 16 == v.tval / 2 ^ 16 && decide (w.order < v.order) && p q.1 r.1
      | none => false

/-- A held slot's frame cannot go yet: writes of its context to hosts and peers are not yet acknowledged (R194), or an earlier call
of its token has no place (R323). -/
def frameHeld (s : State) (c k : Nat) : Bool :=
  hostWritesOf s (s.agentAt c k) || callBefore s (fun c k => !framed s false c k) c k

/-- Write a held slot's service-trap frame into a free place of its keystone; with none free it is refused (R371, R375). -/
def placeFrame (c k : Nat) (s : State) : State :=
  let y := s.slot c k
  let ks := tileKeystone (globalTile c)
  match y.svc with
  | none => s
  | some v =>
    if frameHeld s c k then s.modCore ks fun x => x.holdFrame c k s.clock
    else match freePlace (s.core ks) with
      | some p =>
        let word := v.cause + v.double.toNat * 2 ^ 8 + v.unhandled.toNat * 2 ^ 9
        let l := frameBytes (s.partyAt c k) y 2 v.seq word v.tval
        let s := writeFrame (fun off l t s => physWrite (localKey ks (placeOff p + off)) l t s) l y s
        s.modCore ks fun x => (x.dropFrame c k).putFrame p ⟨c, k, s.tick, false⟩
      | none => s.modCore ks fun x => x.refuseFrame c k s.clock

/-- A free place goes to the first refused frame of the list; else a frame that is due is tried again (R371, R337). -/
def placeNext (ks : Nat) (s : State) : State :=
  let x := s.core ks
  match (if (freePlace x).isSome then x.resv.find? fun r => r.cls == .arrival && decide (64 ≤ r.slot) else none) with
  | some r => placeFrame r.core (r.slot - 64) s
  | none => match x.frameWait.find? fun w => decide (w.2.2 ≤ s.clock) && !frameHeld s w.1 w.2.1 with
    | some w => placeFrame w.1 w.2.1 s
    | none => s

/-- TPC takes the address an exception names (R323, R370). -/
def setTpc (a : Nat) (s : State) : State := s.modMe fun y => { y with tpc := a % 2 ^ 52 }

/-- What an ended or abandoned instruction of a slot has on its way goes to nobody: loads and atomics off their lists, answers of
links discarded, lines no longer held. Posted stores and writes go on (R196). -/
def orphan (c k : Nat) (s : State) : State :=
  let fix (r : Request) : Request := if r.core = c ∧ r.slot = k ∧ r.op ≠ 2 then { r with slot := 18 } else r
  let s := { s with flights := s.flights.filter fun f => !(f.core == c && f.slot == k && f.op != 1)
                    lineHolds := s.lineHolds.filter fun h => !(h.1 == c && h.2.1 == k) }
  if s.links.all fun p => p.2.requests.all fun r => r == fix r then s
  else { s with links := s.links.map fun (p : Nat × Link) => (p.1, { p.2 with requests := p.2.requests.map fix }) }

/-- A party that is ended or taken out of its wait stands in no lock's wait list, and with `all` not as one already granted
(R273). -/
def removeWaiter (party : Nat) (all : Bool) (s : State) : State :=
  { s with cores := s.cores.map fun (p : Nat × Core) => (p.1, { p.2 with
      locks := p.2.locks.map fun (q : Nat × LockInfo) =>
        (q.1, { q.2 with waiters := q.2.waiters.filter fun w => w.party != party || (w.granted && !all) }) }) }

/-- A slot that waits for a lock leaves the list, unless the lock is already its own (R271, R273). -/
def leaveLock (c k : Nat) (s : State) : State :=
  if (s.slot c k).wait.reason = 0x09 then removeWaiter (s.partyAt c k) false s else s

/-- What every exception of a slot's instruction does before it is taken: a wait in COMPOSE or for a lock is given up, the words and
places it held at queues and ports are given back (R105), what it has on its way is forgotten. -/
def abandon (c k : Nat) (s : State) : State :=
  orphan c k (leaveBlocked c k (giveBack c k (leaveLock c k (leaveCompose c k s))))

/-- A service trap (R371): every earlier access is performed, the slot is held in WAIT with reason 0x13, and its scalar
state goes to the tile's keystone with the program counter at the resume address; `seq` is the sequence of the trap's record. -/
def serviceTrap (c k cause tval resume : Nat) (double unhandled : Bool) (seq : Nat) (s : State) : State :=
  let s := abandon c k (drainAgent c k s)
  let s := s.modSlot c k fun y =>
    let g := y.wait.gen
    let y := (y.endWait s.clock).setPc resume
    Slot.endStep g { y with
      wait := WaitRec.mk' g 1 0x13 false [serviceParty c]
      waitSince := s.clock
      svc := some ⟨cause, tval, double, unhandled, seq, s.tick⟩
      replies := []
      barGroup := none
      asRem := false }
  placeFrame c k s

/-- The sequence of the record of a trap that goes to service from its vector: TVAL of a wait-graph fault is the head record's word 0
(R362, R375). -/
def trapSeq (cause tval : Nat) : Nat := if cause = 0x0A ∨ cause = 0x0B then bits tval 16 16 else 0

/-- A trap to the trap vector (R370); a trap in a trap, or without a vector, goes to service. -/
def trapAt (c k cause tval resume : Nat) (s : State) : State :=
  let y := s.slot c k
  if y.inTrap || y.tvec / 2 == 0 then
    serviceTrap c k cause tval resume y.inTrap (y.tvec / 2 == 0) (trapSeq cause tval) s
  else (abandon c k s).modSlot c k fun y =>
    Slot.endStep y.wait.gen { (y.endWait s.clock).setPc (y.tvec / 2 * 2) with
      tcause := cause
      tval := BitVec.ofNat 64 tval
      tpc := resume % 2 ^ 52
      inTrap := true
      replies := []
      barGroup := none
      asRem := false }

/-- A precise trap of the current instruction, which resumes at itself (R368). -/
def trapMe (cause tval : Nat) (s : State) : State := trapAt s.curCore s.curSlot cause tval s.me.pc s

/-- A precise service trap of the current instruction, causes 0x06 and 0x08: TPC takes its address (R257, R294, R368). -/
def serviceMe (cause tval seq : Nat) (s : State) : State :=
  serviceTrap s.curCore s.curSlot cause tval s.me.pc false false seq (setTpc s.me.pc s)

/-- An illegal instruction: TVAL is the encoding that was fetched (R232). -/
def illegal (s : State) : State := trapMe 0x01 s.curWord s

/-! Returning from one. -/

/-- User-mode ERET inside a trap (R324): the program counter becomes TPC, in-trap is cleared. -/
def eretUser (s : State) : State :=
  s.modMe fun y => Slot.endStep y.wait.gen { (y.leaveWait s.clock).setPc y.tpc with inTrap := false, replies := [] }

/-- A slot becomes empty; its context leaves a tombstone (R350). -/
def Slot.free (y : Slot) (clock : Nat) (t : Tomb) : Slot :=
  { Slot.empty with
    tomb := t
    halted := y.halted || y.stepping
    ctxCount := y.ctxCount
    waitr := 0
    wait := { y.wait.clear with gen := (y.wait.gen + 1) % 2 ^ 16 }
    waitSince := clock }

/-- The scalar state of a held slot as service left it goes back to the slot, which leaves WAIT (R373). -/
def restoreHeld (ks p : Nat) (o : Place) (s : State) : State :=
  let base := localKey ks (placeOff p)
  s.modSlot o.core o.slot fun y =>
    if y.svc.isNone then y else
    let y := y.endWait s.clock
    { readFrame (fun off n => leNat (physBytes s (base + off) n)) (fun off => physTag s (base + off)) y with svc := none }

end Sys2Proof.Machine
end

