-- ==== Sys2Proof/Machine/Translate.lean ====
section
/-! DEFINITION. Translation and protection (R18 to R27, R32 to R43): the table window, placement sets and homes, the walk, the
rights and the PLB. -/

namespace Sys2Proof.Machine

/-- Why an access did not go through, with the virtual address at fault: a cause for the trap vector, a cause for
service, a park (the flags are word 0 bits [15:10] of R38's record), poison consumed (R257). -/
inductive Exc where
  | vec (cause va : Nat)
  | svc (cause va level : Nat)
  | park (flags va : Nat)
  | poison (va : Nat)
  deriving DecidableEq, Repr

/-- What an access gives: a value, a wait for something on its way (the agent tries again at its next turn), or an
exception. -/
inductive Res (α : Type) where
  | ok (a : α) (s : State)
  | stall (s : State)
  | exc (e : Exc) (s : State)

def Res.bind {α β : Type} (r : Res α) (f : α → State → Res β) : Res β :=
  match r with
  | .ok a s => f a s
  | .stall s => .stall s
  | .exc e s => .exc e s

/-- On whose behalf an access is made (R23, R41): its core, slot number (16 the engine, 17 the sequencer, 21 a
requester on a link), party, the agent whose program order it stands in (R183), domain, the tenant whose
placement table resolves sets (256: the service table), and the tenant that takes its records. -/
structure Who where
  core : Nat
  slot : Nat
  party : Nat
  agent : Nat
  dom : Nat
  view : Nat
  tenant : Nat
  deriving DecidableEq, Repr

/-! Tiers (R14, R15, R17). -/

def inNear (s : State) (pa : Nat) : Bool := decide (pa < s.nearGiB * 2 ^ 30)
def inFar (s : State) (pa : Nat) : Bool := decide (2 ^ 40 ≤ pa) && decide (pa < 2 ^ 40 + s.farGiB * 2 ^ 30)
def inTier (s : State) (pa : Nat) : Bool := inNear s pa || inFar s pa
def inHost (pa : Nat) : Bool := decide (2 ^ 47 ≤ pa) && decide (pa < 2 ^ 47 + 2 ^ 46)
def inPeer (pa : Nat) : Bool := decide (2 ^ 47 + 2 ^ 46 ≤ pa) && decide (pa < 2 ^ 48)
def hostLink (pa : Nat) : Nat := (pa - 2 ^ 47) / 2 ^ 41
def peerDevice (pa : Nat) : Nat := (pa - 2 ^ 47 - 2 ^ 46) / 2 ^ 42

/-! Placement sets (R19 to R21). -/

def psetCount (p : PSet) : Nat :=
  match p.kind with
  | 1 => 6144 | 2 => 1536 | 3 => 32 | 4 => 1 | _ => p.list.length

def psetMember (p : PSet) (i : Nat) : Nat :=
  match p.kind with
  | 1 => i | 2 => p.die * 1536 + i | 3 => p.die * 1536 + p.tile * 32 + i | 4 => p.die * 1536 + p.tile * 32 + p.core
  | _ => p.list.getD i 0

/-- The set of a table entry's four words; `none` for a malformed entry (R19). -/
def psetOf (w0 w1 w2 w3 : Nat) : Option PSet :=
  let kind := bits w0 0 4
  let count := bits w0 4 4
  let die := bits w0 8 2
  let tile := bits w0 10 6
  let core := bits w0 16 6
  let fields := [w1, w2, w3].flatMap fun w => (List.range 4).map fun i => bits w (16 * i) 16
  let used := fields.take count
  if w0 / 2 ^ 22 ≠ 0 then none
  else if kind = 5 then
    if die = 0 ∧ tile = 0 ∧ core = 0 ∧ 1 ≤ count ∧ count ≤ 12 ∧ (fields.drop count).all (· == 0)
        ∧ used.all (fun m => decide (m < numSmall)) ∧ used.Nodup then some ⟨5, 0, 0, 0, used⟩
    else none
  else if count ≠ 0 ∨ fields.any (· != 0) then none
  else match kind with
    | 1 => if die = 0 ∧ tile = 0 ∧ core = 0 then some ⟨1, 0, 0, 0, []⟩ else none
    | 2 => if tile = 0 ∧ core = 0 then some ⟨2, die, 0, 0, []⟩ else none
    | 3 => if tile < 48 ∧ core = 0 then some ⟨3, die, tile, 0, []⟩ else none
    | 4 => if tile < 48 ∧ core < 32 then some ⟨4, die, tile, core, []⟩ else none
    | _ => none

/-- The home of the line of `va` in a set (R21). -/
def homeIn (p : PSet) (va : Nat) : Nat :=
  let x := va / 1024 % 2 ^ 42
  psetMember p (((x % 2 ^ 24) ^^^ (x / 2 ^ 24)) % psetCount p)

/-! The table window (R33): nodes, rights, descriptors and control blocks are read and written at the homes of their
lines. -/

/-- The set of the table window, read from the frame of the service placement table (R23, R33; log 9). -/
def windowSet (s : State) : Option PSet :=
  let a := s.drbase * 65536 + 0x800 + 32 * s.ptwinSet
  let w (i : Nat) : Nat := leNat (physBytes s (a + 8 * i) 8)
  psetOf (w 0) (w 1) (w 2) (w 3)

def windowVa (s : State) (pa : Nat) : Nat := s.ptwinBase * 2 ^ 42 + pa % 2 ^ 42

/-- Where the table window finds the bytes at `pa` (R33): at the home of their line, which a miss fills from the frame. A line
that service has mapped to another frame is not seen: the bytes are in the frame. The spec does not say what is read when
PTWIN names a malformed entry, as it does at reset: the model reads and writes the frame (DESIGN CHOICE, log 98). -/
def tableSrc (s : State) (pa : Nat) : Src :=
  match windowSet s with
  | some p =>
    let h := homeIn p (windowVa s pa)
    let x := s.line h (windowVa s pa)
    if !x.valid.isEmpty && x.frame != pa / 1024 * 1024 then .frame h pa else .cached h pa
  | none => .frame numSmall pa

def tableRead (s : State) (pa n : Nat) : Nat := leNat (readAt s (tableSrc s pa) (windowVa s pa) n)
def tablePoison (s : State) (pa n : Nat) : Bool := poisonAt s (tableSrc s pa) (windowVa s pa) n
def tableTag (s : State) (pa : Nat) : Bool := tagAt s (tableSrc s pa) (windowVa s pa)

/-- An access of the table window uses the line of `pa` at its home, which fills the sector from the frame on a miss (R33, R50, R51,
R58). -/
def tableFill (pa : Nat) (s : State) : State :=
  match tableSrc s pa with
  | .cached h _ =>
    let va := windowVa s pa
    if cachedAt s h va then touchLine h va s
    else
      let t := fillFrom h va pa 0 (settleBy va s)
      { t with lines := SMap.put t.lines (lineKey h va) { t.line h va with walked := true } }
  | _ => s

def tableBytes (pa : Nat) (l : List Byte) (s : State) : State :=
  let t := tableFill pa s
  writeAt (tableSrc t pa) (windowVa t pa) l false t

def tableWrite (pa n v : Nat) (s : State) : State := tableBytes pa (leBytes n v) s

/-- Write words from `pa` on, a granule of 64 bytes at a time, so that a whole granule loses its poison mark (R30). -/
def tableWords (pa : Nat) (ws : List Nat) (s : State) : State :=
  (List.range ((ws.length + 7) / 8)).foldl (fun s i =>
    tableBytes (pa + 64 * i) (((ws.drop (8 * i)).take 8).flatMap (leBytes 8)) s) s

/-- Tenant t's descriptor and control block (R327, R377). -/
def descAddr (s : State) (t : Nat) : Nat := s.drbase * 65536 + 0x1000 + 128 * t
def blockAddr (s : State) (t : Nat) : Nat := s.drbase * 65536 + 0x9000 + 64 * t

/-- The placement table of a view (R23). -/
def placementTable (s : State) (view : Nat) : Nat :=
  if view = 256 then s.drbase * 65536 + 0x800 else bits (tableRead s (descAddr s view) 8) 11 37 * 2048

/-- A placement set as its table entry gives it; `none` for a malformed entry (R19). The spec names no effect of a poison mark on
the entry or on the descriptor that locates it: the model reads the bytes (DESIGN CHOICE, log 99). -/
def placementSet (s : State) (view set : Nat) : Option PSet :=
  let a := placementTable s view + 32 * set
  psetOf (tableRead s a 8) (tableRead s (a + 8) 8) (tableRead s (a + 16) 8) (tableRead s (a + 24) 8)

/-! The walk (R34 to R36). -/

def pteFrame (e : Nat) : Nat := bits e 16 32 * 65536
def pteSet (e : Nat) : Nat := bits e 6 2 * 16 + bits e 8 4
def pteLoc (e : Nat) : Nat := bits e 4 2
def pteMigrating (e : Nat) : Bool := bit e 3
def pteDiscard (e : Nat) : Bool := bit e 2

def ptePointer (s : State) (e : Nat) : Bool :=
  bit e 0 && bits e 1 11 == 0 && bits e 12 4 == 0 && !bit e 63 && inTier s (pteFrame e)

/-- Record flags of an entry read as a leaf in a view; 0 for a valid leaf (R34, R36): format, location mismatch (R17, R26),
placement (R19). Of several flaws the record flags the first of this order (DESIGN CHOICE, log 100). -/
def leafFlaw (s : State) (view e level : Nat) : Nat :=
  let f := pteFrame e
  if bits e 12 4 ≠ 0 ∨ bit e 63 ∨ bit e 1 ≠ decide (level = 1) ∨ (level = 1 ∧ bits e 16 13 ≠ 0) then 0x1000
  else if (pteLoc e = 0 ∧ !inNear s f) ∨ (pteLoc e = 1 ∧ !inFar s f) ∨ (pteLoc e = 2 ∧ !inHost f)
      ∨ (pteLoc e = 3 ∧ (!inPeer f ∨ peerDevice f = Config.ownDevice)) ∨ (pteDiscard e ∧ 2 ≤ pteLoc e) then 0x400
  else if (placementSet s view (pteSet e)).isNone then 0x800
  else 0

/-- The outcome of a walk: a leaf at a level with its entry and the entry's physical address, a fault with record
flags (the level in [14:13]), or a poisoned entry. -/
inductive Walk where
  | leaf (entry level addr : Nat)
  | fault (flags : Nat)
  | poison (level : Nat)
  deriving DecidableEq, Repr

def walkKey (level va : Nat) : Nat :=
  level * 2 ^ 40 + (match level with | 0 => va / 2 ^ 42 | 1 => va / 2 ^ 29 | _ => va / 2 ^ 16)

/-- One level: the entry from the die's walk cache or from the table window. -/
def readEntry (s : State) (die level va pa : Nat) : Option Nat :=
  match SMap.find (SMap.get [] s.walkCache die) (walkKey level va) with
  | some e => some e
  | none => if tablePoison s pa 8 then none else some (tableRead s pa 8)

/-- The homes of the entries that a walk reads from the table window have their sectors, whatever the walk then meets (R33). -/
def walkFill (die va : Nat) (s : State) : State :=
  let read (level pa : Nat) (s : State) : State :=
    if (SMap.find (SMap.get [] s.walkCache die) (walkKey level va)).isSome then s else tableFill pa s
  let next (level pa : Nat) : Option Nat :=
    match readEntry s die level va pa with
    | some e => if ptePointer s e then some (pteFrame e) else none
    | none => none
  let a0 := s.ptroot * 65536 + va / 2 ^ 42 % 1024 * 8
  let t := read 0 a0 s
  match next 0 a0 with
  | none => t
  | some f =>
    let a1 := f + va / 2 ^ 29 % 8192 * 8
    let t := read 1 a1 t
    match next 1 a1 with
    | none => t
    | some f => read 2 (f + va / 2 ^ 16 % 8192 * 8) t

/-- The walk of `va` by the walker of a die for an agent of a view, with the entries that it used and that the walk cache may
keep: key, entry, address (R34, R37). An entry whose only flaw is valid = 0 gets no flag of a broken field (DESIGN CHOICE,
log 100). -/
def walk (s : State) (die va view : Nat) : Walk × List (Nat × Nat × Nat) :=
  let a0 := s.ptroot * 65536 + va / 2 ^ 42 % 1024 * 8
  match readEntry s die 0 va a0 with
  | none => (.poison 0, [])
  | some e0 =>
    if !ptePointer s e0 then (.fault (if bit e0 0 then 0x1000 else 0), [])
    else
      let c0 := [(walkKey 0 va, e0, a0)]
      let a1 := pteFrame e0 + va / 2 ^ 29 % 8192 * 8
      match readEntry s die 1 va a1 with
      | none => (.poison 1, c0)
      | some e1 =>
        if bit e1 0 && leafFlaw s view e1 1 == 0 then (.leaf e1 1 a1, c0 ++ [(walkKey 1 va, e1, a1)])
        else if !ptePointer s e1 then
          (.fault (0x2000 + if bit e1 0 then (if bit e1 1 then leafFlaw s view e1 1 else 0x1000) else 0), c0)
        else
          let c1 := c0 ++ [(walkKey 1 va, e1, a1)]
          let a2 := pteFrame e1 + va / 2 ^ 16 % 8192 * 8
          match readEntry s die 2 va a2 with
          | none => (.poison 2, c1)
          | some e2 =>
            if !bit e2 0 then (.fault 0x4000, c1)
            else if leafFlaw s view e2 2 ≠ 0 then (.fault (0x4000 + leafFlaw s view e2 2), c1)
            else (.leaf e2 2 a2, c1 ++ [(walkKey 2 va, e2, a2)])

/-- The physical address a leaf gives (R34). -/
def leafAddr (e level va : Nat) : Nat :=
  if level = 1 then pteFrame e / 2 ^ 29 * 2 ^ 29 + va % 2 ^ 29 else pteFrame e + va % 2 ^ 16

/-- An entry of the walk cache is a leaf, by its key and its bits. -/
def walkLeaf (p : Nat × Nat) : Bool := p.1 / 2 ^ 40 == 2 || (p.1 / 2 ^ 40 == 1 && bit p.2 1)

/-- Two walk-cache entries compete for the same eight ways: 256 sets of pointer entries, 1,024 of leaf entries (R37). The spec
gives no set index and no replacement rule: the low bits of the entry's number, least recently used (DESIGN CHOICE, log 101). -/
def sameWays (p q : Nat × Nat) : Bool :=
  walkLeaf p == walkLeaf q && (if walkLeaf p then p.1 % 1024 == q.1 % 1024 else p.1 % 256 == q.1 % 256)

/-- Put an entry first in a walk cache; the ninth of its set leaves. -/
def walkInsert (m : List (Nat × Nat)) (p : Nat × Nat) : List (Nat × Nat) :=
  let m := m.filter fun q => q.1 != p.1
  let l := m.filter (sameWays p)
  p :: (if l.length < 8 then m else m.filter fun q => some q != l.getLast?)

/-- Keep what a walk of `va` used in the die's walk cache (R37); the homes of the entries it read have their sectors (R33). -/
def cacheWalk (die va : Nat) (l : List (Nat × Nat × Nat)) (s : State) : State :=
  let old := SMap.get [] s.walkCache die
  { walkFill die va s with walkCache := SMap.put s.walkCache die (l.foldl (fun m p => walkInsert m (p.1, p.2.1)) old) }

/-! Rights (R39 to R41). -/

/-- The rights byte of a domain over the region of `va`, as the tables hold it; `none` when an entry is poisoned. A byte
with a reserved bit grants nothing. -/
def rightsByte (s : State) (dom va : Nat) : Option Nat :=
  let a := s.drbase * 65536 + 8 * dom
  if tablePoison s a 8 then none
  else
    let e := tableRead s a 8
    if !ptePointer s e then some 0
    else
      let a := pteFrame e + va / 2 ^ 42 % 1024 * 8
      if tablePoison s a 8 then none
      else
        let e := tableRead s a 8
        if !ptePointer s e then some 0
        else
          let a := pteFrame e + va / 2 ^ 29 % 8192
          if tablePoison s a 1 then none
          else let b := tableRead s a 1
               some (if b / 32 = 0 then b else 0)

/-- The homes of the entries that a rights walk reads have their sectors (R33, R39). -/
def rightsFill (dom va : Nat) (s : State) : State :=
  let a := s.drbase * 65536 + 8 * dom
  let e := tableRead s a 8
  let t := tableFill a s
  if tablePoison s a 8 || !ptePointer s e then t
  else
    let a := pteFrame e + va / 2 ^ 42 % 1024 * 8
    let e := tableRead s a 8
    let t := tableFill a t
    if tablePoison s a 8 || !ptePointer s e then t else tableFill (pteFrame e + va / 2 ^ 29 % 8192) t

/-- Put an entry first in a PLB of 64 entries, least recently used last (R41). -/
def plbUse (x : Core) (dom region b : Nat) : Core :=
  { x with plb := ((dom, region, b) :: x.plb.filter fun e => !(e.1 == dom && e.2.1 == region)).take 64 }

/-- The rights of an access through the PLB of its core, filled on a miss (R41). -/
def rightsOf (w : Who) (va : Nat) (s : State) : Res Nat :=
  let region := va / 2 ^ 29 % 2 ^ 23
  match (s.core w.core).plb.find? fun e => e.1 == w.dom && e.2.1 == region with
  | some e => .ok e.2.2 (s.modCore w.core fun x => plbUse x w.dom region e.2.2)
  | none =>
    match rightsByte s w.dom va with
    | none => .exc (.svc 0x08 va 3) (rightsFill w.dom va s)
    | some b => .ok b ((rightsFill w.dom va s).modCore w.core fun x => plbUse x w.dom region b)

/-- Check the rights an access needs: bit 0 read, 1 write, 2 execute, 3 load capability, 4 store capability (R40). -/
def needRights (w : Who) (va need : Nat) (s : State) : Res Unit :=
  (rightsOf w va s).bind fun b s => if b &&& need = need then .ok () s else .exc (.svc 0x06 va 0) s

/-- Check the rights of `n` bytes, which lie in one region of 512 MiB or in two: a missing right in either comes before a poisoned
entry (R42). -/
def needRegions (w : Who) (va n need : Nat) (s : State) : Res Unit :=
  if va / 2 ^ 29 = (va + n - 1) / 2 ^ 29 then needRights w va need s
  else match needRights w va need s with
    | .ok _ s => needRights w ((va + n - 1) % 2 ^ 52) need s
    | .exc (.svc 0x08 a l) s => match needRights w ((va + n - 1) % 2 ^ 52) need s with
      | .exc (.svc 0x06 b m) s => .exc (.svc 0x06 b m) s
      | _ => .exc (.svc 0x08 a l) s
    | r => r

/-! Homes (R22, R32). -/

/-- The placement set of a page through the core's placement cache, filled on a miss (R22). -/
def placementOf (w : Who) (va : Nat) (s : State) : Res PSet :=
  let page := va / 65536
  match (s.core w.core).pcache.find? fun e => e.1 == page && e.2.1 == w.view with
  | some e => .ok e.2.2 s
  | none =>
    let (r, l) := walk s (coreDie w.core) va w.view
    match r with
    | .poison level => .exc (.svc 0x08 va level) (cacheWalk (coreDie w.core) va l s)
    | .fault f => .exc (.park f va) (cacheWalk (coreDie w.core) va l s)
    | .leaf e level _ =>
      match placementSet s w.view (pteSet e) with
      | none => .exc (.park (level * 0x2000 + 0x800) va) (cacheWalk (coreDie w.core) va l s)
      | some p =>
        .ok p ((cacheWalk (coreDie w.core) va l s).modCore w.core fun x =>
          { x with pcache := ((page, w.view, p) :: x.pcache).take 128 })

/-- The home of an address (R21). -/
def homeOf (w : Who) (va : Nat) (s : State) : Res Nat := (placementOf w va s).bind fun p s => .ok (homeIn p va) s

/-! The bank window (R91, R92). -/

def inWindow (va : Nat) : Bool := va / 2 ^ 44 == 0xFF

/-- The core and offset a bank-window address names, from a given core; `none` where it names nothing. -/
def windowAt (c va : Nat) : Option (Nat × Nat) :=
  if 0xFFFFFFFFC0000 ≤ va then some (c, if isKeystone c then va % 2 ^ 20 else va % 2 ^ 18)
  else if 0xFFFFFFFF00000 ≤ va then (if isKeystone c then some (c, va % 2 ^ 20) else none)
  else if bits va 18 12 ≠ 0 then none
  else (coreAt (bits va 42 2) (bits va 36 6) (bits va 30 6)).map fun d => (d, va % 2 ^ 18)

/-- The address of an offset in a core's own banks: in its self window, a keystone's in the window of its whole local memory
(R91). -/
def selfWindow (c off : Nat) : Nat := (if isKeystone c then 0xFFFFFFFF00000 else 0xFFFFFFFFC0000) + off

/-- Where `n` bytes of the bank window lie; cause 0x14 for a cache bank, an address that names no bank, or an access that
crosses into such a bank (R92). -/
def windowSrc (s : State) (c va n : Nat) : Option Src :=
  match windowAt c va with
  | none => none
  | some (d, off) =>
    let last := off + n - 1
    let ok (b : Nat) : Bool := bankRole s d b != 1
    if isKeystone d then
      if last < (if d = c ∧ 0xFFFFFFFF00000 ≤ va then 2 ^ 20 else 2 ^ 18) then some (.bank d off) else none
    else if last < 2 ^ 18 && ok (off / 8192) && ok (last / 8192) then some (.bank d off)
    else none

end Sys2Proof.Machine
end

