-- ==== Sys2Proof/Machine/Memory.lean ====
section
/-! DEFINITION. Accesses of every agent, from a checked virtual address to the point of performance: misses and fills (R48 to R58),
discarded and migrating pages (R24, R27), banks (R92), host and peer pages (R410, R412). -/

namespace Sys2Proof.Machine

/-- Materialise a discarded page (R27): the mark of the entry `e` that a walk of `va` read at `addr` is cleared at the entry's home
and where a walk cache keeps that entry, the whole frame reads zero. -/
def materialise (e level addr va : Nat) (s : State) : State :=
  let s := tableWrite addr 8 (e - 4) s
  let s := { s with walkCache := s.walkCache.map fun (p : Nat × List (Nat × Nat)) =>
    (p.1, p.2.map fun (q : Nat × Nat) => if q = (walkKey level va, e) then (q.1, e - 4) else q) }
  let lo := if level = 1 then pteFrame e / 2 ^ 29 * 2 ^ 29 else pteFrame e
  let n := if level = 1 then 2 ^ 29 else 65536
  { s with
    mem := s.mem.filter fun c => !(decide (lo ≤ c.1) && decide (c.1 < lo + n))
    tags := s.tags.filter fun c => !(decide (lo / 16 ≤ c.1) && decide (c.1 < (lo + n) / 16))
    poison := s.poison.filter fun c => !(decide (lo / 64 ≤ c.1) && decide (c.1 < (lo + n) / 64)) }

/-- The walk cache of a die drops one entry: the walk is made again. -/
def forgetEntry (die key : Nat) (s : State) : State :=
  { s with walkCache := SMap.put s.walkCache die ((SMap.get [] s.walkCache die).filter fun p => p.1 != key) }

/-- A PINVAL in progress holds back accesses to its range (R46). -/
def held (s : State) (va : Nat) : Bool :=
  s.invals.any fun v => v.hold && decide (v.lo ≤ va) && decide (va < v.hi)

/-- The number under which an instruction of core `c` holds the line of `va`: an own bank is named alike from every core (R91,
R281). -/
def holdKey (c va : Nat) : Nat :=
  if inWindow va then
    match windowAt c va with
    | some (d, off) => selfWindow d off / 1024 + d * 2 ^ 42
    | none => va / 1024
  else va / 1024

/-- Another slot's instruction holds the line of `va` (R281). -/
def lineHeld (s : State) (w : Who) (va : Nat) : Bool :=
  !s.lineHolds.isEmpty && s.lineHolds.any fun h => h.2.2 == holdKey w.core va && !(h.1 == w.core && h.2.1 == w.slot)

/-- A miss fills its sector from the frame at `pa`. Where the 24 lines of the set may all be held by misses in progress (a free
choice, as `late`), it waits until the set releases a line (R50). -/
def missAt (home va pa hint : Nat) (s : State) : Res Src :=
  let t := globalTile home
  let set := sliceSet va
  if s.late && (s.line home va).valid.isEmpty && fullSet s t set then
    .stall { s with missWait := if s.missWait.contains (t, set) then s.missWait else s.missWait ++ [(t, set)] }
  else .ok (.cached home pa) (fillFrom home va pa hint s)

/-- What service's own mapping of the table window names, where it disagrees with the frame of a line there that walks have filled:
service's access goes to the frame of its mapping, and walks neither see nor use it (R33). -/
def ownMapping (w : Who) (home va : Nat) (s : State) : Option Nat :=
  if va / 2 ^ 42 = s.ptwinBase ∧ (s.line home va).walked then
    match (walk s (coreDie home) va w.view).1 with
    | .leaf e level _ =>
      let pa := leafAddr e level va
      if pteLoc e < 2 ∧ !pteMigrating e ∧ !pteDiscard e ∧ pa / 1024 * 1024 ≠ (s.line home va).frame then some pa else none
    | _ => none
  else none

/-- Where the sector of `va` is performed, filled on a miss (R32, R53, R54, R57): hint 0 none, 1 .na, 2 .by. An access to a
discarded page whose entry is no longer the one the walk used walks again (R27, R28), and an access whose line its own walk
has filled tries again (R33). -/
def locate (w : Who) (va hint : Nat) (write : Bool) (s : State) : Res Src :=
  if lineHeld s w va then .stall s
  else if inWindow va then
    match windowSrc s w.core va 1 with
    | some src => .ok src s
    | none => .exc (.vec 0x14 va) s
  else if held s va then .stall s
  else (homeOf w va s).bind fun home s =>
    let s := settleBy va s
    match ownMapping w home va s with
    | some pa => .ok (.frame home pa) s
    | none =>
      if cachedAt s home va then .ok (.cached home (frameAddr s home va)) (touchLine home va s)
      else if !(s.line home va).valid.isEmpty then
        if hint = 2 then .ok (.frame home (frameAddr s home va)) s else missAt home va (frameAddr s home va) hint s
      else
        let (r, l) := walk s (coreDie home) va w.view
        let s := cacheWalk (coreDie home) va l s
        match r with
        | .poison level => .exc (.svc 0x08 va level) s
        | .fault f => .exc (.park f va) s
        | .leaf e level addr =>
          let pa := leafAddr e level va
          if pteMigrating e then .exc (.park (0x8000 + level * 0x2000) va) s
          else if pteLoc e = 2 then .ok (.host (hostLink pa) pa) s
          else if pteLoc e = 3 then .ok (.peer (peerDevice pa) home) s
          else if pteDiscard e && tablePoison s addr 8 then .exc (.svc 0x08 va level) s
          else if pteDiscard e && tableRead s addr 8 != e then .stall (forgetEntry (coreDie home) (walkKey level va) s)
          else if pteDiscard e && !write then .ok .zeros s
          else if !(s.line home va).valid.isEmpty then .stall s
          else
            let s := if pteDiscard e then materialise e level addr va s else s
            if hint = 2 then .ok (.frame home pa) s else missAt home va pa hint s

/-! Splitting an access. -/

/-- The parts of an access of `n` bytes at `va`: of a scalar access one for each line (R256, R263), in a bank window of 16 bytes
(R92); of an access longer than 16 bytes, and of other agents, one for each sector of 256 bytes (R53). -/
def parts (w : Who) (va n : Nat) : List (Nat × Nat) :=
  if 16 ≤ w.slot then splitBlocks 256 (n / 256 + 2) va n
  else if inWindow va then splitBlocks 16 (n / 16 + 2) va n
  else splitBlocks (if n ≤ 16 then 1024 else 256) (n / 256 + 2) va n

/-- Where one access within a line is performed: it may lie in two sectors, both of which are made present (R256). -/
def locateSpan (w : Who) (va n hint : Nat) (write : Bool) (s : State) : Res Src :=
  if inWindow va ∨ va % 256 + n ≤ 256 then locate w va hint write s
  else (locate w va hint write s).bind fun src s =>
    (locate w (va / 256 * 256 + 256) hint write s).bind fun tail s =>
      .ok (match src, tail with
        | .frame _ pa, .cached h _ => .cached h pa
        | src, _ => src) s

/-- Locate every part, lower address first (R263); no part is performed when one meets an exception. -/
def locateParts (w : Who) (hint : Nat) (write : Bool) : List (Nat × Nat) → State → Res (List (Nat × Nat × Src))
  | [], s => .ok [] s
  | (a, n) :: l, s => (locateSpan w a n hint write s).bind fun src s =>
      (locateParts w hint write l s).bind fun r s => .ok ((a, n, src) :: r) s

/-! Replies and requests. -/

/-- The values that have come back to an agent (R255, R410). -/
def repliesOf (w : Who) (s : State) : List Reply :=
  if w.slot = 16 then (s.eng w.core).replies else if w.slot = 17 then (s.mx w.core).replies
  else if w.slot = 21 then (s.hostReplies.filter fun p => p.1 == w.party).map Prod.snd
  else (s.slot w.core w.slot).replies

def setReplies (w : Who) (l : List Reply) (s : State) : State :=
  if w.slot = 16 then s.modEng w.core fun x => { x with replies := l }
  else if w.slot = 17 then s.modMx w.core fun x => { x with replies := l }
  else if w.slot = 21 then { s with hostReplies := (s.hostReplies.filter fun p => p.1 != w.party) ++ l.map fun r => (w.party, r) }
  else s.modSlot w.core w.slot fun x => { x with replies := l }

def addReply (w : Who) (r : Reply) (s : State) : State := setReplies w (repliesOf w s ++ [r]) s

/-- The link that traffic of a core to a peer's core takes, over the links still up (R412). -/
def peerLink (s : State) (device src dst : Nat) : Option Nat :=
  let l := (match s.wenlek.config with | some c => c.config.peerLinks.getD device [] | none => []).filter fun n =>
    (s.link n).up
  if l.isEmpty then none else some (l.getD ((src ^^^ dst) % l.length) 0)

/-- The lowest tag not in use on a link (R407). -/
def freeTag (x : Link) : Option Nat := (List.range 1024).find? fun t => x.requests.all fun r => r.tag != t

/-- Hand one packet of `k` data flits to the lanes: each takes a sequence number and a place in the replay buffer (R397,
R399). -/
def Link.transmit (k : Nat) (x : Link) : Link :=
  let l := (List.range k).map fun i => (x.txSeq + i) % 2 ^ 14
  let a := (x.rxExpect + 2 ^ 14 - 1) % 2 ^ 14
  { x with txSeq := (x.txSeq + k) % 2 ^ 14, replay := x.replay ++ l, sent := x.sent ++ l.map fun q => ⟨1, [], a, q⟩ }

/-- Send the packets that wait, in order, as far as the link is up and the replay buffer of 4,096 flits has room (R399). -/
def Link.pump : List Packet → Link → Link
  | [], x => { x with queue := [] }
  | p :: l, x => if x.up ∧ x.replay.length + p.flits ≤ 4096 then Link.pump l (x.transmit p.flits) else { x with queue := p :: l }

/-- A packet goes to the link (R405). -/
def Link.push (p : Packet) (x : Link) : Link := Link.pump (x.queue ++ [p]) { x with outbound := x.outbound ++ [p] }

/-- The peer device that a link of the configuration belongs to (R412). -/
def linkDevice (s : State) (n : Nat) : Option Nat :=
  match s.wenlek.config with
  | some c => c.config.peerLinks.findIdx? fun l => l.contains n
  | none => none

/-- The packet of a device agent's request on link `n` (R405, R410): requester 0xFFF, the tenant toward a peer device only. -/
def Request.packet (s : State) (n : Nat) (r : Request) : Packet :=
  let lo (v : Nat) : Nat := v % 2 ^ 64
  let wide := r.amo = 10
  ⟨n, if (linkDevice s n).isSome then r.tenant else 0, (linkDevice s n).getD 0, 0, r.length, r.tag, 0xFFF, r.physical, r.acquire,
    r.release, r.op == 2 && r.operand == 1, if r.op = 3 then r.amo else 0, r.op, r.address,
    match r.op with
    | 3 => if wide then [lo r.operand, r.operand / 2 ^ 64, lo r.expected, r.expected / 2 ^ 64] else [r.operand, r.expected]
    | 4 => [r.operand]
    | 5 => r.args
    | _ => [],
    r.data.map BitVec.toNat⟩

/-- Bytes of write data that link `x` has not yet had acknowledged (R407). -/
def Link.writeData (x : Link) : Nat := x.requests.foldl (fun t q => if q.op = 2 then t + q.data.length else t) 0

/-- Put a request of a device agent on a link (R405, R410); with all tags in use, or the send window full, it does not
leave (R407). -/
def sendRequest (n : Nat) (r : Request) (s : State) : Option State :=
  let x := s.link n
  match freeTag x with
  | some t =>
    let q := { r with tag := t, since := s.clock }
    if r.op ≠ 2 ∨ x.writeData + r.data.length ≤ 524288 then
      some (s.modLink n fun x => Link.push (q.packet s n) { x with requests := x.requests ++ [q] })
    else none
  | none => none

/-- The request of an access (R410): op 1 read, 2 posted write, 3 atomic; a host's address is physical (DEDUCED, log 126). -/
def mkRequest (w : Who) (op address va length : Nat) (data : List Byte) (amo operand expected : Nat) (acq rel phys : Bool) :
    Request :=
  ⟨0, op, address, va, length, data, amo, operand, expected, acq, rel, w.party, w.agent, w.slot, w.core, w.tenant, 0, none, phys, []⟩

/-- Whether an agent's read or atomic at `va` is already under way on a link. -/
def askedFor (s : State) (w : Who) (va : Nat) : Bool :=
  s.links.any fun p => p.2.requests.any fun r => r.op != 2 && r.party == w.party && r.va == va

/-- Ask a host or peer for bytes; an absent peer answers with poison (R412). -/
def askRemote (w : Who) (src : Src) (va n : Nat) (acq : Bool) (s : State) : State :=
  if askedFor s w va then s
  else match src with
    | .host link pa => (sendRequest link (mkRequest w 1 pa va n [] 0 0 0 acq false true) s).getD s
    | .peer d home => match peerLink s d w.core home with
      | some link => (sendRequest link (mkRequest w 1 va va n [] 0 0 0 acq false false) s).getD s
      | none => addReply w ⟨va, List.replicate n 0, [], true, va⟩ s
    | _ => s

/-- A page of a host or of a peer. -/
def isLink (x : Src) : Bool :=
  match x with
  | .host _ _ | .peer _ _ => true
  | _ => false

/-- A part is performed away from the requesting core (R53). -/
def isRemote (w : Who) (src : Src) : Bool :=
  match src with
  | .cached home _ | .frame home _ => home != w.core
  | .bank c _ => c != w.core
  | _ => false

def findReply (w : Who) (va n : Nat) (s : State) : Option Reply :=
  (repliesOf w s).find? fun r => r.va == va && r.bytes.length == n

def inFlight (w : Who) (op va : Nat) (s : State) : Bool :=
  s.flights.any fun f => f.op == op && f.core == w.core && f.slot == w.slot && f.va == va

/-- A load, atomic or request of the agent is still on its way. -/
def awaits (w : Who) (s : State) : Bool :=
  (s.flights.any fun f => f.op != 1 && f.core == w.core && f.slot == w.slot)
    || s.links.any fun p => p.2.requests.any fun r => r.op != 2 && r.core == w.core && r.slot == w.slot && r.party == w.party

/-- A flight of an agent. -/
def mkFlight (w : Who) (op : Nat) (src : Src) (va : Nat) (bytes : List Byte) (size : Nat) (tagged : Bool) (hint : Nat)
    (whole : Bool) (amo operand expected : Nat) : Flight :=
  ⟨op, w.core, w.slot, src, va, bytes, size, tagged, hint, whole, amo, operand, expected, none, none, none⟩

def addFlight (f : Flight) (s : State) : State := { s with flights := s.flights ++ [f] }

/-- One part of a load (R184): its value, or `none` while it is on its way. -/
def loadPart (w : Who) (hint : Nat) (acq : Bool) (p : Nat × Nat × Src) (s : State) : Option Reply × State :=
  let (va, n, src) := p
  match findReply w va n s with
  | some r => (some r, s)
  | none =>
    match src with
    | .host _ _ | .peer _ _ =>
      let s := askRemote w src va n acq s
      (findReply w va n s, s)
    | _ =>
      if inFlight w 0 va s then (none, s)
      else if s.late && isRemote w src then (none, addFlight (mkFlight w 0 src va [] n false hint false 0 0 0) s)
      else (some (takeAt s src va n), s)

/-- Obtain the parts of a load, lower address first; `strict` where poison is an exception of the agent (R257). What one part meets
comes before whatever a later one does (R263), and is taken only when nothing of the agent is still on its way; `pend` once a
part's value is still to come. -/
def loadParts (w : Who) (hint : Nat) (acq strict : Bool) : Bool → List (Nat × Nat) → State → Res (List Reply)
  | pend, [], s => if pend then .stall s else .ok [] s
  | pend, (va, n) :: l, s =>
    let stop (e : Exc) (s : State) : Res (List Reply) := if pend || awaits w s then .stall s else .exc e s
    let go (r : Option Reply × State) : Res (List Reply) :=
      match r with
      | (none, s) => loadParts w hint acq strict true l s
      | (some r, s) =>
        if strict && r.poison then stop (.poison r.bad) s
        else (loadParts w hint acq strict pend l s).bind fun rs s => .ok (r :: rs) s
    match findReply w va n s with
    | some r => go (some r, s)
    | none => match locateSpan w va n hint false s with
      | .ok src s => go (loadPart w hint acq (va, n, src) s)
      | .stall s => .stall s
      | .exc e s => stop e s

/-- What a load of `n` bytes returns: the bytes, the tags of the granules they lie in, and the address of a part that touched
a poisoned granule (R31, R102). -/
structure Loaded where
  bytes : List Byte
  tags : List Bool
  poison : Option Nat
  deriving DecidableEq, Repr

/-- The tag of the first granule: LCAP's, whose 16 bytes are one granule. -/
def loadedTag (x : Loaded) : Bool := x.tags.headD false

/-- What replies add up to. -/
def loadedOf (rs : List Reply) : Loaded :=
  ⟨(rs.map Reply.bytes).flatten, (rs.map Reply.tags).flatten, (rs.find? Reply.poison).map Reply.bad⟩

/-- A load of `n` bytes at a checked address (R258), an acquire at a scope other than 0: own posted stores to the lines come first
(R187 row 1), and an acquire at .sys comes after the agent's releases to hosts and peers (row 6). Poison is an exception to a slot;
other agents read it. -/
def loadAt (w : Who) (va n hint scope : Nat) (s : State) : Res Loaded :=
  let s := drainLine w.core w.slot (va + n - 1) (drainLine w.core w.slot va s)
  if scope = 5 && hostReleaseOf s w.agent then .stall s
  else (loadParts w hint (scope != 0) (decide (w.slot < 16)) false (parts w va n) s).bind fun rs s => .ok (loadedOf rs) s

/-- One part of a store: posted to its home, written to a host or peer by a posted write, or performed (R187, R410). A
write to an absent peer is lost and recorded by the caller's records (R412). `whole` marks a part of a store that writes its whole
granule of 64 bytes, which clears the granule's poison (R30). -/
def storePart (w : Who) (hint : Nat) (rel tagged whole : Bool) (data : List Byte) (p : Nat × Nat × Src) (s : State) : Option State :=
  let (va, n, src) := p
  match src with
  | .host link pa => sendRequest link (mkRequest w 2 pa va n data 0 0 0 false rel true) s
  | .peer d home => match peerLink s d w.core home with
    | some link => sendRequest link (mkRequest w 2 va va n data 0 0 0 false rel false) s
    | none => some { s with records := s.records ++ [⟨w.tenant, w.party,
        [[w.party * 2 ^ 32 + 0x130C, 9 + 2 ^ 52 + d * 2 ^ 48, 0xFF, va, 0, 0, 0, s.clock]]⟩] }
  | _ =>
    if s.late && isRemote w src && !rel then some (addFlight (mkFlight w 1 src va data n tagged hint whole 0 0 0) s)
    else
      let s := writeOver src va hint data tagged s
      some (if whole then setPoison src va 1 false s else s)

def storeParts (w : Who) (hint : Nat) (rel tagged : Bool) (whole : Nat → Bool) :
    List (Nat × Nat × Src) → List Byte → State → Option State
  | [], _, s => some s
  | (va, n, src) :: l, data, s =>
    match storePart w hint rel tagged (whole va) (data.take n) (va, n, src) s with
    | some s => storeParts w hint rel tagged whole l (data.drop n) s
    | none => none

/-- The newest write of a list that went to `va` carries poison (R405). -/
def poisonNewest (va n : Nat) : List Request → List Request
  | [] => []
  | r :: l => if r.op == 2 && r.va == va && r.length == n && l.all (fun q => !(q.op == 2 && q.va == va && q.length == n))
      then { r with operand := 1 } :: l else r :: poisonNewest va n l

/-- Poison travels with data just stored (R30): the granules are marked, or the packet is. -/
def carryPoison (w : Who) (src : Src) (va n : Nat) (s : State) : State :=
  match src with
  | .host link _ => s.modLink link fun x => { x with requests := poisonNewest va n x.requests }
  | .peer d home => match peerLink s d w.core home with
    | some link => s.modLink link fun x => { x with requests := poisonNewest va n x.requests }
    | none => s
  | _ => poisonMark src va n s

/-- A store of bytes at a checked address (R260). A release performs every earlier access first (R190); at `.sys` it
waits for the acknowledgements of earlier host and peer writes (R200). -/
def storeAt (w : Who) (va hint scope : Nat) (data : List Byte) (tagged : Bool) (s : State) : Res Unit :=
  let s := if scope = 0 then drainLine w.core w.slot (va + data.length - 1) (drainLine w.core w.slot va s)
           else drainScope w.core w.slot scope (drainLine w.core w.slot (va + data.length - 1) (drainLine w.core w.slot va s))
  if scope = 5 && hostWritesOf s w.agent then .stall s
  else (locateParts w hint true (parts w va data.length) s).bind fun l s0 =>
    match storeParts w hint (scope != 0) tagged (fun _ => false) l data s0 with
    | some s => .ok () s
    | none => .stall s0

/-! Atomics (R268, R269). -/

/-- The small core whose owner slot performs an atomic, lock or channel operation at a place (R192, R269). -/
def Src.owner (x : Src) : Option Nat :=
  match x with
  | .cached h _ | .bank h _ => if h < numSmall then some h else none
  | _ => none

/-- The operations waiting at a core's owner slot, in arrival order (R339). -/
def ownerQueue (s : State) (home : Nat) : List Flight :=
  s.flights.filter fun f => decide (2 ≤ f.op) && f.reply.isNone && f.refused.isNone && f.src.owner == some home

/-- The owner queue has a place that no grant has promised (R339). -/
def ownerRoom (s : State) (home : Nat) : Bool :=
  decide ((ownerQueue s home).length + (s.grants.filter fun g => g.1 == home && g.2.cls == .owner).length < 32)

/-- An operation arrives at an owner slot: into the queue of 32, or refused, with a reservation of class owner while the list of
64 has room, else for a resend after 1,024 cycles (R337, R339). -/
def postOwner (home : Nat) (f : Flight) (s : State) : State :=
  if ownerRoom s home then addFlight f s
  else if (s.core home).resv.length < 64 then
    (addFlight { f with refused := some none } s).modCore home fun x => { x with resv := x.resv ++ [⟨f.core, f.slot, .owner⟩] }
  else addFlight { f with refused := some (some (s.clock + 1024)) } s

/-- The first reservation of class owner is granted (R337). -/
def grantOwner (home : Nat) (s : State) : State :=
  match (if ownerRoom s home then (s.core home).resv.find? fun r => r.cls == .owner else none) with
  | none => s
  | some r => { s.modCore home fun x => { x with resv := x.resv.erase r } with grants := s.grants ++ [(home, r)] }

/-- The owner queue that an operation at a place enters: while accesses are on their way, and wherever others wait before it or are
refused (R192, R339). -/
def toOwner (s : State) (src : Src) : Option Nat :=
  src.owner.filter fun h => s.late || !(ownerQueue s h).isEmpty || s.flights.any fun f => f.refused.isSome && f.src.owner == some h

/-- An atomic of `n` bytes at a checked address: its old value (R268). Kinds 9 and 10 compare before they write. `scope` is its
release's, `acq` its acquire's, 0 for none: an acquire at .sys comes after the agent's releases to hosts and peers (R187 row 6). -/
def atomicAt (w : Who) (va n amo b e scope acq : Nat) (s : State) : Res Reply :=
  match findReply w va n s with
  | some r => .ok r s
  | none =>
    if inFlight w 2 va s then .stall s
    else
      let s := drainLine w.core w.slot va s
      let s := if scope = 0 then s else drainScope w.core w.slot scope s
      if scope = 5 && hostWritesOf s w.agent || acq == 5 && hostReleaseOf s w.agent then .stall s
      else (locate w va 0 (amo < 9) s).bind fun src s =>
        (if src = .zeros ∧ e = 0 then locate w va 0 true s else .ok src s).bind fun src s =>
          match src with
          | .zeros => .ok ⟨va, List.replicate n 0, [], false, va⟩ s
          | .host link pa =>
            if askedFor s w va then .stall s
            else .stall ((sendRequest link (mkRequest w 3 pa va n [] amo b e (acq != 0) (scope != 0) true) s).getD s)
          | .peer d home =>
            if askedFor s w va then .stall s
            else match peerLink s d w.core home with
              | some link => .stall ((sendRequest link (mkRequest w 3 va va n [] amo b e (acq != 0) (scope != 0) false) s).getD s)
              | none => .ok ⟨va, List.replicate n 0, [], true, va⟩ s
          | _ => match toOwner s src with
            | some home => .stall (postOwner home (mkFlight w 2 src va [] n false 0 false amo b e) s)
            | none => let (r, s) := amoAt src va n amo b e s
                      .ok r s

end Sys2Proof.Machine
end

