-- ==== Sys2Proof/Machine/Faults.lean ====
section
/-! DEFINITION. Fault-queue records (R377 to R381), parking (R38, R374, R375), the containment of activations (R382 to R387), the
end of a context (R304, R349, R350), and what an access's exception does to the current instruction (R257, R368). -/

namespace Sys2Proof.Machine

/-- The agent of a slot (R23, R41). -/
def whoSlot (s : State) (c k : Nat) : Who :=
  let y := s.slot c k
  ⟨c, k, s.partyAt c k, s.agentAt c k, y.domain, if y.mode = .user then y.tenant else 256, y.tenant⟩

def whoMe (s : State) : Who := whoSlot s s.curCore s.curSlot

/-! Messages leaving (R296 to R300, R391). -/

/-- The absence buffer of a tenant: address and number of 512-byte entries (R377, R391). -/
def absenceBuf (s : State) (t : Nat) : Nat × Nat :=
  let w := tableRead s (blockAddr s t + 40) 8
  (bits w 16 32 * 65536, (bits w 0 16 * 65536 - 64) / 512)

/-- Write one entry of the absence buffer: destination and sender, header, payload (R391). -/
def absenceWrite (m : Msg) (s : State) : State :=
  let (a, n) := absenceBuf s m.tenant
  let prod := tableRead s a 8
  let e := a + 64 + 512 * (prod % n)
  let ws := (m.sender * 2 ^ 32 + m.dst % 2 ^ 13) :: m.header.toNat :: m.payload.map BitVec.toNat
  let s := tableWords e ws s
  let s := tableWrite a 8 (prod + 1) s
  { s with absence := SMap.put s.absence m.tenant (SMap.get [] s.absence m.tenant ++ [m]) }

/-- The state field of a tenant's control block (R377). -/
def tenantState (s : State) (t : Nat) : Nat := bits (tableRead s (blockAddr s t + 32) 8) 0 2

/-- The type class of a message (R340): 0 ordinary, 1 urgent, 2 owner, 3 context. -/
def typeClass (m : Msg) : Nat :=
  let h := m.header.toNat
  let t := h % 256
  if t = 0xFD ∨ t = 0xFE then 3 else if 0xF0 ≤ t ∧ t ≤ 0xFB then 2 else if t < 0xF0 ∧ bit h 13 then 1 else 0

/-- Two messages whose order is kept: same sender core, receiver and class (R340); a task's message holds back only its own
(R343). -/
def sameFlow (a b : Msg) : Bool :=
  a.srcCore == b.srcCore && a.dst == b.dst && a.peer == b.peer && typeClass a == typeClass b
    && ((pKind a.sender != 5 && pKind b.sender != 5) || a.sender == b.sender)

/-- A message enters the network; to a tile where its tenant is absent it goes to the absence buffer, and with that full
it stays in the sender's interface, and those of its flow behind it (R340, R391). -/
def netSend (m : Msg) (s : State) : State :=
  if s.absentHeld.any fun h => sameFlow m h.2 then { s with absentHeld := s.absentHeld ++ [(s.clock + 1024, m)] }
  else if m.peer.isNone && s.absent.contains (m.tenant, globalTile m.dst) && tenantState s m.tenant != 2 then
    let (a, n) := absenceBuf s m.tenant
    if 0 < n ∧ tableRead s a 8 - tableRead s (a + 8) 8 < n then absenceWrite m s
    else { s with absentHeld := s.absentHeld ++ [(s.clock + 1024, m)] }
  else { s with net := s.net ++ [m] }

/-- A plain message from hardware or a program (R297): type, payload. Tenant 256 stands for no tenant check, 512 + t for
tenant t with failures that post nothing (R378, R380). -/
def mkMsg (sender core slot tenant dst : Nat) (header : Nat) (payload : List Word) : Msg :=
  ⟨sender, core, slot, 0, tenant, dst, none,
    BitVec.ofNat 64 (header / 2 ^ 40 * 2 ^ 40 + core * 2 ^ 27 + payload.length * 2 ^ 16 + header % 2 ^ 16),
    payload, none, 0, false⟩

/-! Fault-queue records (R378). -/

/-- A control block that keeps R377's layout; its keystone field counts only while a keystone is notified. -/
def blockOk (s : State) (t : Nat) : Bool :=
  let w (i : Nat) : Nat := tableRead s (blockAddr s t + 8 * i) 8
  bits (w 0) 48 16 == 0 && bits (w 0) 5 7 == 0 && decide (6 ≤ bits (w 0) 0 5) && decide (bits (w 0) 0 5 ≤ 16)
    && inTier s (bits (w 0) 12 36 * 4096) && w 2 / 2 ^ 16 == 0 && w 3 / 2 ^ 24 == 0 && bits (w 3) 13 2 == 0
    && (!bit (w 3) 15 || (decide (6144 ≤ bits (w 3) 0 13) && decide (bits (w 3) 0 13 ≤ 6335))) && bits (w 4) 0 2 != 3
    && bits (w 4) 48 16 == 0 && bits (w 4) 2 17 == 0 && bits (w 5) 48 16 == 0 && bits (w 6) 52 12 == 0 && w 7 == 0

/-- The sequence number `k` places after `first`: 0 is left out (R378). -/
def seqAfter (first k : Nat) : Nat := if 2 ^ 16 ≤ first + k then first + k - 2 ^ 16 + 1 else first + k

/-- Put the sequence numbers into a record's parts: a continuation also names its head (R363, R378). -/
def numberParts (first : Nat) (parts : List (List Nat)) : List (List Nat) :=
  parts.zipIdx.map fun p =>
    let q := seqAfter first p.2
    match p.1 with
    | w0 :: l => (w0 + q * 2 ^ 16 + (if w0 % 256 = 0x0A then first * 2 ^ 48 else 0)) :: l
    | [] => []

/-- The core a record is for: that of the party in word 0; for a task the home of its range 0 (R380). -/
def recordCore (s : State) (party : Nat) : Option Nat :=
  if pKind party = 5 then
    (SMap.find s.tasks ((pDie party * 48 + pTile party) * 256 + pIndex party)).map Task.home
  else if pKind party = 4 ∨ pKind party = 7 then none
  else pWhere party

/-- The ring of a tenant has space for `k` more records, or its records go to the Wenlek controller (R378). -/
def ringRoom (s : State) (t k : Nat) : Bool :=
  let b := blockAddr s t
  !blockOk s t || decide ((tableRead s (b + 8) 4 + 2 ^ 32 - tableRead s (b + 12) 4) % 2 ^ 32 + k ≤ 2 ^ bits (tableRead s b 8) 0 5)

/-- Post a record at once: its first sequence number and the state after; `none` while the ring has no space. A block that
breaks R377 sends the record to the Wenlek controller (R378), and a record of kind 0x06 goes there too (R153). -/
def postNow (r : Rec) (s : State) : Option (Nat × State) :=
  if !blockOk s r.tenant then
    some (0, { s with wenlek := { s.wenlek with telemetry := s.wenlek.telemetry ++ r.parts } })
  else if !ringRoom s r.tenant r.parts.length then none
  else
    let b := blockAddr s r.tenant
    let w0 := tableRead s b 8
    let prod := tableRead s (b + 8) 4
    let size := 2 ^ bits w0 0 5
    let k := r.parts.length
    let q := bits (tableRead s (b + 16) 8) 0 16
    let first := if q = 0 then 1 else q
    let parts := numberParts first r.parts
    let s := parts.zipIdx.foldl (fun s p =>
      tableWords (bits w0 12 36 * 4096 + 64 * ((prod + p.2) % size)) p.1 s) s
    let s := tableWrite (b + 16) 2 (seqAfter first k) s
    let s := tableWrite (b + 8) 4 ((prod + k) % 2 ^ 32) s
    let word0 := (parts.headD []).headD 0
    let s := if word0 % 256 = 6 then { s with wenlek := { s.wenlek with telemetry := s.wenlek.telemetry ++ parts } } else s
    let pay : List Word := [BitVec.ofNat 64 word0, BitVec.ofNat 64 (prod % size)]
    let w3 := tableRead s (b + 24) 8
    let s := if bit w3 15 then
        netSend (mkMsg r.party (bits w3 0 13) 0 256 (bits w3 0 13) (bits w3 16 8) pay) s else s
    let s := match recordCore s r.party with
      | some c =>
        let x := s.core c
        let s := s.setCore c { x with fqSeq := seqAfter first (k - 1) }
        if x.fqEnable then netSend (mkMsg r.party c 0 (512 + r.tenant) c x.fqType pay) s else s
      | none => s
    some (first, s)

/-- `k` records of a tenant wait: others stand before them, or the ring has no space (R378). -/
def mustWait (s : State) (t k : Nat) : Bool := s.records.any (fun q => q.tenant == t) || !ringRoom s t k

/-- A post for a party of the core waits for ring space (R380): a record in line, a context to be parked, an engine that stops, a
wait-graph fault. -/
def postWaits (s : State) (c : Nat) : Bool :=
  let e := s.eng c
  s.records.any (fun r => recordCore s r.party == some c)
    || (s.core c).slots.any (fun q => q.2.parkWant.isSome && mustWait s q.2.tenant 1)
    || ((e.stopping.isSome || e.copy.any fun x => x.fault.isSome && e.state != .faulted) && mustWait s e.tenant 1)
    || s.probes.any (fun x => x.stage == 2 && pWhere x.origin == some c && mustWait s x.tenant 3)

/-- A record whose poster goes on: posted at once when nothing of its tenant waits, else queued in order (R378, R380); with its
sequence, 0 where it still waits (DESIGN CHOICE, log 130). -/
def queueSeq (r : Rec) (s : State) : Nat × State :=
  match (if s.records.any fun q => q.tenant == r.tenant then none else postNow r s) with
  | some p => p
  | none => (0, { s with records := s.records ++ [r] })

def queueRecord (r : Rec) (s : State) : State := (queueSeq r s).2

/-- A record of one part. -/
def rec1 (tenant party word0 : Nat) (l : List Nat) (clock : Nat) : Rec :=
  ⟨tenant, party, [(party * 2 ^ 32 + word0) :: (l ++ List.replicate (6 - l.length) 0 ++ [clock])]⟩

/-- A delivery-failure record for the sender of a message (R381). -/
def failMsg (reason : Nat) (m : Msg) (s : State) : State :=
  if 256 ≤ m.tenant then s
  else queueRecord (rec1 m.tenant m.sender 0x130C
    [reason + m.dst % 2 ^ 13 * 2 ^ 32 + (match m.peer with | some d => 2 ^ 52 + d * 2 ^ 48 | none => 0),
     m.header.toNat, (m.payload.headD 0).toNat] s.clock) s

/-! The end of a context. -/

/-- The any-slot node of a core changes, and the node of a composition that waits for the core's slots (R352, R354). -/
def bumpCore (c : Nat) (s : State) : State :=
  let s := s.modCore c fun x => { x with gen := (x.gen + 1) % 2 ^ 16 }
  match (s.core c).comp with
  | some g => if g.running then s else s.modCore g.lead Core.bumpComp
  | none => s

/-- Where a channel header is, as its home finds it now (R310): a page that translates no longer reads zero (DESIGN CHOICE,
log 102). -/
def chanSrc (s : State) (i : ChanInfo) : Src :=
  match i.src with
  | .cached h f =>
    if cachedAt s h i.va then .cached h f
    else match (walk s (coreDie h) i.va i.view).1 with
      | .leaf e level _ => if pteDiscard e || decide (2 ≤ pteLoc e) then .zeros else .cached h (leafAddr e level i.va)
      | _ => .zeros
  | x => x

def chanWord (s : State) (i : ChanInfo) (n : Nat) : Nat :=
  leNat (readAt s ((chanSrc s i).plus (8 * n)) (i.va + 8 * n) 8)

/-- Producer p of a header: its party id (R310). -/
def chanProducer (s : State) (i : ChanInfo) (p : Nat) : Nat := bits (chanWord s i (3 + p / 2)) (p % 2 * 32) 32

/-- A party is a registered producer, without end of stream, of an open channel (R349). -/
def openProducer (s : State) (party : Nat) : Bool :=
  s.cores.any fun (p : Nat × Core) => p.2.chans.any fun (q : Nat × ChanInfo) =>
    q.2.isOpen && !bit (chanWord s q.2 0) 63 && (List.range 8).any fun i =>
      bit (chanWord s q.2 2) i && !bit (chanWord s q.2 2) (8 + i) && chanProducer s q.2 i == party

/-- The slot that a party of kind 0 or 6 runs in. -/
def slotOfParty (s : State) (p : Nat) : Option (Nat × Nat) :=
  match pWhere p with
  | none => none
  | some c =>
    if pKind p = 0 then (if pIndex p < numSlots c then some (c, pIndex p) else none)
    else if pKind p = 6 then match (s.core c).comp with
      | some g => if g.running && g.lead == c && g.size == pIndex p then some (c, g.slot) else none
      | none => none
    else none

/-- An entry of a lock's holders is stale: its slot has since run another context (R273). -/
def pastHolder (s : State) (h : Holder) : Bool :=
  (slotOfParty s h.party).any fun q => (s.slot q.1 q.2).ctxCount % 2 ^ 16 != h.ctx

/-- A party is recorded as a lock holder (R273). -/
def lockHolder (s : State) (party : Nat) : Bool :=
  s.cores.any fun (p : Nat × Core) => p.2.locks.any fun (q : Nat × LockInfo) =>
    q.2.holders.any fun h => h.party == party && !pastHolder s h

def hasObligation (s : State) (party : Nat) : Bool := openProducer s party || lockHolder s party

/-- STOPPED tombstones whose last obligation has ended become empty (R350), those of composed cores too (log 105). -/
def refreshTombs (s : State) : State :=
  let fix (c k : Nat) (y : Slot) : Slot :=
    if (y.holds = .empty ∨ y.holds = .reserved) ∧ y.tomb = .stopped ∧ hasObligation s (slotParty c k) = false then
      { y with tomb := .none, wait := { y.wait with gen := (y.wait.gen + 1) % 2 ^ 16 } }
    else y
  { s with cores := s.cores.map fun (p : Nat × Core) =>
      (p.1, { p.2 with
        slots := p.2.slots.map fun (q : Nat × Slot) => (q.1, fix p.1 q.1 q.2)
        ctombs := p.2.ctombs.map fun q => (q.1,
          if q.2.1 = .stopped ∧ hasObligation s (composedParty p.1 q.1) = false then (.none, (q.2.2 + 1) % 2 ^ 16) else q.2) }) }

def taskIndex (party : Nat) : Nat := (pDie party * 48 + pTile party) * 256 + pIndex party

/-- Two byte ranges touch a common 256-byte sector (R315). -/
def TRange.meets (a b : TRange) : Bool := decide (a.lo / 256 ≤ (b.hi - 1) / 256) && decide (b.lo / 256 ≤ (a.hi - 1) / 256)

/-- One of some ranges depends on range `r` (R315). -/
def meetsAny (l : List TRange) (r : TRange) : Bool := l.any fun q => q.meets r && (q.written || r.written)

/-- A task with ranges `l` depends on `u` (R315). -/
def dependsOn (l : List TRange) (u : Task) : Bool := u.ranges.any fun r => r.released.isNone && meetsAny l r

/-- `x`, submitted after `t` and still in the gate, no longer depends on it (R386). -/
def freedBy (t x : Task) : Bool :=
  decide (t.order < x.order) && t.ranges.any fun r => (r.released.any fun n => decide (x.order ≤ n)) && meetsAny x.ranges r

/-- The task-fault record of a task that has become DEAD or STOPPED (R386, R387): of its released successors those whose entries are
not yet freed (DEDUCED, log 114). -/
def taskRecord (id cause : Nat) (stopped : Bool) (s : State) : State :=
  match SMap.find s.tasks (taskIndex id) with
  | none => s
  | some t =>
    let gate := s.tasks.filter fun p => p.1 / 256 == taskIndex id / 256
    let ids (l : SMap Task) : List Nat := l.map fun p => taskParty (p.1 / 256) (p.1 % 256)
    let unrel := ids (gate.filter fun p => p.2.preds.contains id)
    let rel := ids (gate.filter fun p => !p.2.preds.contains id && freedBy t p.2)
    let held := (t.ranges.filter fun r => r.released.isNone).length
    let n := rel.length + unrel.length
    let words (l : List Nat) : List Nat := (List.range 5).map fun i => l.getD (2 * i) 0 + l.getD (2 * i + 1) 0 * 2 ^ 32
    queueRecord (rec1 t.tenant id (cause * 256 + 0x0D)
      ((t.ranges.length - held + held * 16 + rel.length * 2 ^ 8 + unrel.length * 2 ^ 16 + (decide (10 < n)).toNat * 2 ^ 24
        + stopped.toNat * 2 ^ 25) :: words (rel ++ unrel)) s.clock) s

/-- A task becomes DEAD or STOPPED (R316, R386). -/
def endTask (id cause : Nat) (stopped : Bool) (s : State) : State :=
  match SMap.find s.tasks (taskIndex id) with
  | none => s
  | some t =>
    let t' := { t with st := if stopped then TState.stopped else TState.dead, wait := t.wait.clear }
    let s := { s with tasks := SMap.put s.tasks (taskIndex id) t' }
    taskRecord id cause stopped s

/-- The tenant's live-thread count, kept in its descriptor (R302, R327, R328). -/
def liveThreads (s : State) (t : Nat) : Nat := tableRead s (descAddr s t + 0x14) 4
def addLive (t : Nat) (d : Int) (s : State) : State :=
  tableWrite (descAddr s t + 0x14) 4 (toField 32 ((liveThreads s t : Int) + d)) s

/-- A thread's outstanding spawns go with it; a freed thread is no longer live (R302). -/
def threadEnds (y : Slot) (s : State) : State :=
  let s := { s with spawned := s.spawned.filter fun p => p.1 != y.uid }
  if y.holds = .thread ∧ y.mode = .user then addLive y.tenant (-1) s else s

/-- The composed core that core `c` leads ends in the given state: its party id shows that, with the generation of its last record
advanced, until the id is given anew, and the members reopen (R321, R349, R352, R367; DEDUCED, log 105). -/
def endComposed (c : Nat) (t : Tomb) (s : State) : State :=
  reopen c (s.modCore c fun x => match x.comp with
    | some g => { x with ctombs := SMap.put x.ctombs g.size (t, ((s.slot c g.slot).wait.gen + 1) % 2 ^ 16) }
    | none => x)

/-- The context of a slot becomes DEAD (R304, R349): buffer and held messages dropped, lock waits removed, its task and
its composition follow. `cause` is what the task-fault record names. -/
def killSlot (c k cause : Nat) (s : State) : State :=
  let y := s.slot c k
  if y.holds = .empty ∨ y.holds = .reserved then s
  else
    let s := leaveBlocked c k (removeWaiter (s.partyAt c k) true s)
    let s := threadEnds y s
    let s := (if y.composed then endComposed c .dead s else bumpCore c (leaveCompose c k s)).modSlot c k fun y => y.free s.clock .dead
    let s := s.modCore (tileKeystone (globalTile c)) fun x => { x.dropFrame c k with
      frames := x.frames.map fun (p : Nat × Place) =>
        (p.1, if p.2.core = c ∧ p.2.slot = k then { p.2 with slot := 0xFFFF } else p.2) }
    let s := orphan c k s
    let s := { s with invals := s.invals.filter fun v => !(v.core == c && v.slot == k) }
    match y.task with
    | some id => endTask id cause false s
    | none => s

/-- A context ends by EXIT or MDONE (R301, R303, R349): one with open obligations leaves its party STOPPED. -/
def endContext (c k : Nat) (s : State) : State :=
  let y := s.slot c k
  let tomb (party : Nat) : Tomb := if hasObligation s party then .stopped else .none
  let t := tomb (slotParty c k)
  let s := threadEnds y (leaveBlocked c k s)
  let s := if y.composed then endComposed c (tomb (s.partyAt c k)) s else bumpCore c s
  s.modSlot c k fun y => y.free s.clock t

/-! Activations (R97, R195, R382, R384). -/

/-- Where each store of a commit buffer is performed, translated now (R46, R97). -/
def readyCommit (w : Who) : List Buffered → State → Res (List Src)
  | [], s => .ok [] s
  | b :: l, s => (locate w b.va b.hint true s).bind fun src s => (readyCommit w l s).bind fun r s => .ok (src :: r) s

/-- Perform a commit buffer's stores in program order; what a link cannot take yet stays in the buffer. -/
def performCommit (w : Who) : List (Src × Buffered) → State → Res Unit
  | [], s => .ok () (s.modSlot w.core w.slot fun y => { y with commit := [] })
  | (src, b) :: l, s =>
    match storePart w b.hint false b.tagged b.whole b.bytes (b.va, b.bytes.length, src) s with
    | some s => performCommit w l s
    | none => .stall (s.modSlot w.core w.slot fun y => { y with commit := b :: l.map Prod.snd })

/-- The commit buffer drains: every store is ready before any is performed (R97, R195). A page that faults by now faults at the
instruction that drains the buffer (DESIGN CHOICE, log 103). -/
def drainCommit (c k : Nat) (s : State) : Res Unit :=
  let l := (s.slot c k).commit
  if l.isEmpty then .ok () s
  else (readyCommit (whoSlot s c k) l s).bind fun srcs s => performCommit (whoSlot s c k) (srcs.zip l) s

/-- Held messages leave, in send order (R195, R300); one to a peer waits for the acknowledgements of earlier host and peer writes
(R194). -/
def releaseHeld (c k : Nat) (s : State) : Res Unit :=
  let l := (s.slot c k).heldMsgs
  let s := drainAgent c k s
  if l.any (fun m => m.peer.isSome) && hostWritesOf s (s.agentAt c k) then .stall s
  else .ok () (l.foldl (fun s m => netSend m s) (s.modSlot c k fun y => { y with heldMsgs := [] }))

/-- An activation becomes exposed (R382). -/
def expose (c k : Nat) (s : State) : Res Unit :=
  let y := s.slot c k
  if y.holds = .activation ∧ y.exposed = false then
    (drainCommit c k s).bind fun _ s => (releaseHeld c k s).bind fun _ s =>
      .ok () (s.modSlot c k fun y => { y with exposed := true })
  else .ok () s

def exposeMe (s : State) : Res Unit := expose s.curCore s.curSlot s

/-- A containment record (R385). -/
def containRecord (tenant party outcome count : Nat) (m : Option Msg) (va : Nat) (s : State) : State :=
  queueRecord (rec1 tenant party 0x090B
    [outcome + count * 256, (match m with | some m => m.sender * 2 ^ 32 + m.header.toNat % 256 | none => 0),
     va / 64 * 64] s.clock) s

/-- A context consumes an error (R30, R384): a thread takes cause 0x09, an unexposed activation rolls back, and after
three redeliveries or once exposed it becomes DEAD. -/
def consumeError (ea va : Nat) (s : State) : State :=
  let y := s.me
  let c := s.curCore
  let k := s.curSlot
  let party := s.partyAt c k
  if y.holds ≠ .activation then trapMe 0x09 ea s
  else if y.exposed then killSlot c k 0x09 (containRecord y.tenant party 2 0 y.trigger va s)
  else if y.redeliveries < 3 then
    let s := bumpCore c ((abandon c k s).setSlot c k (y.free s.clock .none))
    let s := match y.trigger with
      | some m => s.modCore c fun x =>
          { x with backoff := x.backoff ++ [(s.clock + 2 ^ (12 + y.redeliveries), { m with redeliver := y.redeliveries + 1 })] }
      | none => s
    containRecord y.tenant party 0 (y.redeliveries + 1) y.trigger va s
  else killSlot c k 0x09 (containRecord y.tenant party 1 3 y.trigger va s)

/-- The register state or commit buffer of a slot, or a queue or port word that it has read, shows an uncorrectable error (R383,
R384); of such a word a thread has the outcome of its register state (DEDUCED, log 76). -/
def slotError (c k : Nat) (s : State) : State :=
  let y := s.slot c k
  if y.holds = .thread then
    killSlot c k 0x09 (containRecord y.tenant (s.partyAt c k) 3 0 none 0 s)
  else if y.holds = .activation then
    let t := consumeError 0 0 { s with curCore := c, curSlot := k }
    { t with curCore := s.curCore, curSlot := s.curSlot }
  else s

/-! Parking (R374). -/

/-- The lines of a tenant's park region whose home is the core, in ascending order (R374). -/
def parkLines (s : State) (c t : Nat) : List Nat :=
  let w := tableRead s (blockAddr s t + 48) 8
  let base := bits w 16 36 * 65536
  (List.range (bits w 0 16 * 64)).filterMap fun i =>
    let va := base + 1024 * i
    match (walk s (coreDie c) va t).1 with
    | .leaf e _ _ => match placementSet s t (pteSet e) with
      | some p => if homeIn p va = c then some va else none
      | none => none
    | _ => none

/-- The first eight lines of the region that belong to no park frame in use (R374). -/
def freePark (s : State) (c t : Nat) : Option (List Nat) :=
  let l := parkLines s c t
  (List.range (l.length / 8)).findSome? fun f =>
    let fr := (l.drop (8 * f)).take 8
    if (s.core c).parked.any fun p => p.va == fr.headD 0 then none else some fr

/-- The 8,192 bytes of a park frame or slot frame (R375): the part private to the device reads 0 (log 10). -/
def fullFrame (party : Nat) (y : Slot) (kind seq trapWord tval : Nat) : List Byte :=
  let head := ((frameWords party y kind seq trapWord tval).map (leBytes 8)).flatten
  let tail := ((List.range 32).map fun i => leBytes 64 (y.vr i).toNat).flatten
    ++ ((List.range 7).map fun i => leBytes 8 (y.kr (i + 1)).toNat).flatten
    ++ leBytes 8 (y.miPos % 32 + (y.holds == .activation).toNat * 32 + y.exposed.toNat * 64 + y.urgent.toNat * 128)
    ++ List.replicate 5568 0
  head ++ leBytes 8 (crc64 (head ++ tail)) ++ tail

/-- Vector and mask registers and the mi position of a full frame (R375). -/
def readFullFrame (rd : Nat → Nat → Nat) (tg : Nat → Bool) (y : Slot) : Slot :=
  let y := readFrame rd tg y
  { y with
    v := (List.range 32).map fun i => (i, BitVec.ofNat 512 (rd (0x200 + 64 * i) 64))
    k := (List.range 7).map fun i => (i + 1, BitVec.ofNat 64 (rd (0xA00 + 8 * i) 8))
    miPos := bits (rd 0xA38 8) 0 5 }

/-- The address of byte `off` of a frame that lies on the given lines. -/
def onLines (l : List Nat) (off : Nat) : Nat := l.getD (off / 1024) 0 + off % 1024

/-- Where byte `off` of a frame that lies on lines of core `c` is, once they are there. -/
def frameAt (s : State) (c : Nat) (l : List Nat) (off : Nat) : Src := .cached c (frameAddr s c (onLines l off))

/-- Write a frame over lines of this core, 256 bytes at a time; `none` when a line does not translate. -/
def writeLines (w : Who) (l : List Nat) : List (Nat × List Byte) → State → Option State
  | [], s => some s
  | (off, b) :: rest, s =>
    match locate w (onLines l off) 0 true s with
    | .ok src s => writeLines w l rest (writeAt src (onLines l off) b false s)
    | _ => none

/-- Words 1 to 6 of a page-fault record: the faulting address, the size, the bits of the sectors of its page that the access of
`size` bytes at `ea` touches (R38). -/
def pageWords (va ea size : Nat) : List Nat :=
  let page := va / 65536 * 65536
  let lo := max page (min ea va)
  let hi := min (page + 65536) (ea + size)
  let bmap := (2 ^ touched 256 lo (hi - lo) - 1) * 2 ^ (lo % 65536 / 256)
  [va, size, bits bmap 0 64, bits bmap 64 64, bits bmap 128 64, bits bmap 192 64]

/-- Park a context whose record can be posted and for which a frame is free; else it waits in its slot (R374). -/
def tryPark (c k : Nat) (s : State) : State :=
  let y := s.slot c k
  match y.parkWant with
  | none => s
  | some q =>
    match (if isKeystone c then none else freePark s c y.tenant) with
    | none => s
    | some lines =>
      let r := rec1 y.tenant (s.partyAt c k) (q.flags + q.fetch.toNat * 512 + q.write.toNat * 256 + 1)
        (pageWords q.va q.ea q.size) s.clock
      match (if s.records.any fun r => r.tenant == y.tenant then none else postNow r s) with
      | none => s
      | some (seq, s1) =>
        let word := 0x07 + (q.flags / 2 ^ 15 % 2) * 2 ^ 10
        let l := fullFrame (s.partyAt c k) y 1 seq word q.va
        match writeLines (whoSlot s c k) lines ((List.range 32).map fun i => (256 * i, (l.drop (256 * i)).take 256)) s1 with
        | none => s
        | some s2 =>
          let cap (off : Nat) (r : Reg) (s : State) : State :=
            if r.tag then writeAt (frameAt s2 c lines off) (onLines lines off) (leBytes 16 r.nat) true s else s
          let s3 := (List.range 16).foldl (fun s i => cap (0x40 + 16 * i) (y.cr i) s) (cap 0x10 y.pcc s2)
          let s4 := s3.modCore c fun x => { x with parked := x.parked ++ [⟨lines.headD 0, false, lines, { y with parkWant := none }⟩] }
          bumpCore c (s4.modSlot c k fun y => y.free s4.clock .none)

/-- An access of the current instruction, for the records of its faults. -/
structure Acc where
  ea : Nat
  size : Nat
  write : Bool
  fetch : Bool
  deriving DecidableEq, Repr

/-- The current context is to be parked: it waits on service, and leaves its slot as soon as a frame is free (R24, R38,
R374). -/
def parkMe (flags va : Nat) (a : Acc) (s : State) : State :=
  let s := waitFor 1 0x12 false [serviceParty s.curCore] (abandon s.curCore s.curSlot (drainMe s))
  let s := s.modMe fun y => { y with replies := [], parkWant := some ⟨flags, va, a.ea % 2 ^ 52, a.size, a.write, a.fetch⟩ }
  tryPark s.curCore s.curSlot s

/-- What the walks of a refused access leave (R22, R33, R37, R41): the PLB and placement cache of its core, its die's walk cache, the
sectors of the entries that were read. -/
def walked (w : Who) (va : Nat) (s : State) : State :=
  let s := match rightsOf w va s with | .ok _ t | .stall t | .exc _ t => t
  if inWindow va then s
  else match placementOf w va s with
    | .ok p t => cacheWalk (coreDie (homeIn p va)) va (walk t (coreDie (homeIn p va)) va w.view).2 t
    | .stall t | .exc _ t => t

/-- What an access's exception does to the current instruction (R257, R368): TVAL is the effective address. -/
def raise (a : Acc) (e : Exc) (s : State) : State :=
  match e with
  | .vec cause _ => trapMe cause a.ea s
  | .svc cause va level =>
    let s := walked (whoMe s) va s
    let (seq, s) := if cause = 0x08 then
        queueSeq (rec1 s.me.tenant (s.partyAt s.curCore s.curSlot)
          (level * 0x2000 + a.fetch.toNat * 512 + a.write.toNat * 256 + 2) (pageWords va (a.ea % 2 ^ 52) a.size) s.clock) s else (0, s)
    serviceMe cause a.ea seq s
  | .park flags va => parkMe flags va a (walked (whoMe s) va s)
  | .poison va => consumeError a.ea va s

/-- The address an exception is about. -/
def Exc.at_ : Exc → Nat
  | .vec _ va | .svc _ va _ | .park _ va | .poison va => va

/-- An instruction that drains its activation's commit buffer meets the exception of a store in it. -/
def raiseDrain (e : Exc) (s : State) : State :=
  let n := ((s.me.commit.find? fun b => b.va == e.at_).map fun b => b.bytes.length).getD 1
  raise ⟨e.at_, n, true, false⟩ e s

end Sys2Proof.Machine
end

