-- ==== Sys2Proof/Machine/Operands.lean ====
section
/-! DEFINITION. Register fields: general registers, queues, ports, mi and z (R103 to R107), and when an instruction that names
queues or ports issues (R105, R106, R216, R235). -/

namespace Sys2Proof.Machine

/-- Row and column of a small core on its die's grid of 24 by 64 (R106). -/
def gridRow (c : Nat) : Nat := coreTile c / 8 * 4 + coreIn c / 8
def gridCol (c : Nat) : Nat := coreTile c % 8 * 8 + coreIn c % 8

/-- The small core at a place of a die's grid. -/
def gridAt (die row col : Nat) : Nat := die * 1536 + (row / 4 * 8 + col / 8) * 32 + (row % 4 * 8 + col % 8)

/-- The neighbour on a port: 0 north, 1 east, 2 south, 3 west (R106). -/
def neighbour (c p : Nat) : Option Nat :=
  let r := gridRow c
  let l := gridCol c
  let d := coreDie c
  match p with
  | 0 => if 0 < r then some (gridAt d (r - 1) l) else none
  | 1 => if l < 63 then some (gridAt d r (l + 1)) else none
  | 2 => if r < 23 then some (gridAt d (r + 1) l) else none
  | _ => if 0 < l then some (gridAt d r (l - 1)) else none

def opposite (p : Nat) : Nat := (p + 2) % 4

/-- A field names something this core does not have: q0 to q5 and ports on a keystone, a port at the die edge (R104,
R106). -/
def absentField (c f : Nat) : Bool :=
  (isKeystone c && (decide (16 ≤ f) && decide (f < 22) || isPort f))
    || (isPort f && !isKeystone c && (neighbour c (f - 24)).isNone)

/-- Words that a read of the field can take. -/
def available (s : State) (c f : Nat) : Nat :=
  if isQueue f then ((s.core c).queue (f - 16)).length
  else if isPort f then ((s.core c).port (f - 24)).length else 0

/-- Depth of the queue or port input that a write of the field pushes to (R104, R106). -/
def depthOf (f : Nat) : Nat := if f = 22 ∨ f = 23 then 16 else if isPort f then 4 else 8

/-- Places taken in the queue or port input that a write of the field pushes to: its words, those popped by instructions that have
not completed, the places reserved for late pushes (R105). -/
def pushedTo (s : State) (c f : Nat) : Nat :=
  if isQueue f then (s.core c).load (f - 16)
  else match neighbour c (f - 24) with
    | some n => ((s.core n).port (opposite (f - 24))).length + keptOf (s.core n) (24 + opposite (f - 24)) Kept.reads
        + keptOf (s.core c) f Kept.writes
    | none => 0

/-- The wait record of a read that finds too few words (R104, R106): reason and target. -/
def emptyWait (c f : Nat) : Nat × Nat :=
  if f = 18 ∨ f = 19 then (0x01, engineParty c)
  else if f = 20 then (0x0A, seqParty c)
  else if f = 21 then (0x01, seqParty c)
  else if isPort f then (0x03, anyParty ((neighbour c (f - 24)).getD 0))
  else (0x01, anyParty c)

/-- The wait record of a write that finds no room (R104, R106). -/
def fullWait (c f : Nat) : Nat × Nat :=
  if f = 16 ∨ f = 17 then (0x02, engineParty c)
  else if isPort f then (0x04, anyParty ((neighbour c (f - 24)).getD 0))
  else (0x02, anyParty c)

/-- Slots blocked on a field before slot `k`: readers are listed under the field's number, writers under it plus 32; none passes
another that blocked earlier (R105). A slot leaves the list when its instruction issues, traps or ends. -/
def behind (s : State) (c k key : Nat) : Bool := !((SMap.get [] (s.core c).blocked key).takeWhile (· != k)).isEmpty

def joinBlocked (c k key : Nat) (s : State) : State :=
  s.modCore c fun x =>
    let l := SMap.get [] x.blocked key
    if l.contains k then x else { x with blocked := SMap.put x.blocked key (l ++ [k]) }

def countOf (l : List Nat) (f : Nat) : Nat := (l.filter (· == f)).length

/-- What the slot's instruction has taken, when it has issued in an earlier turn and names the same fields. -/
def keptFor (s : State) (reads writes : List Nat) : Option Kept :=
  match s.me.kept with
  | some x => if x.reads = reads ∧ x.writes = writes then some x else none
  | none => none

/-- The first unmet condition of R105, in field order: the field, and whether it is a write. An instruction that has issued meets
them. -/
def unmet (s : State) (reads writes : List Nat) : Option (Nat × Bool) :=
  let c := s.curCore
  let k := s.curSlot
  let bad (f : Nat) : Bool :=
    (isQueue f || isPort f) && (decide (available s c f < countOf reads f) || behind s c k f)
  let full (f : Nat) : Bool :=
    (isQueue f || isPort f) &&
      (decide (depthOf f < pushedTo s c f - (if isQueue f then countOf reads f else 0) + countOf writes f)
        || behind s c k (f + 32))
  if (keptFor s reads writes).isSome then none
  else match reads.find? bad with
    | some f => some (f, false)
    | none => (writes.find? full).map fun f => (f, true)

/-- Read one source field (R103, R107, R235). -/
def readField (f : Nat) (s : State) : Reg × State :=
  let c := s.curCore
  if f < 16 then (s.me.cr f, s)
  else if isQueue f then
    let l := (s.core c).queue (f - 16)
    (.ofWord (l.headD 0), s.modCore c fun x => x.popWord f)
  else if isPort f then
    let l := (s.core c).port (f - 24)
    (.ofWord (l.headD 0), s.modCore c fun x => x.popWord f)
  else if f = 28 then
    let y := s.me
    if y.holds = .activation ∧ y.miPos < y.payload.length then
      (.ofWord (y.payload.getD y.miPos 0), s.setMe { y with miPos := y.miPos + 1 })
    else (.zero, s)
  else (.zero, s)

def readFields : List Nat → State → List Reg × State
  | [], s => ([], s)
  | f :: l, s =>
    let (r, s) := readField f s
    let (rs, s) := readFields l s
    (r :: rs, s)

/-- Write a destination field (R103): c0 to c15 whole, a queue or port bits [63:0], z nothing. -/
def writeField (f : Nat) (r : Reg) (s : State) : State :=
  let c := s.curCore
  if f < 16 then s.modMe fun y => y.setC f r
  else if isQueue f then s.modCore c fun x => x.setQueue (f - 16) (x.queue (f - 16) ++ [r.word])
  else if isPort f then
    match neighbour c (f - 24) with
    | some n => s.modCore n fun x => x.setPort (opposite (f - 24)) (x.port (opposite (f - 24)) ++ [r.word])
    | none => s
  else s

/-- What issue finds: the values of the sources with the state after the pops, or the state in which the slot waits or has
trapped. -/
inductive Issued where
  | go (vals : List Reg) (s : State)
  | stop (s : State)

/-- A queue or port word that an instruction of the current core takes carries an error (R383). -/
def badRead (s : State) (reads : List Nat) : Bool := reads.any fun f => (s.core s.curCore).badWord f (countOf reads f)

def touchesQueue (l : List Nat) : Bool := l.any fun f => isQueue f || isPort f

/-- Issue an instruction that reads and writes the given fields (R105): illegal where a field is absent, a wait at the
first unmet condition, else every pop at once. A queue or port exposes an activation (R382); a word that carries an error ends the
context (R383). -/
def issue (reads writes : List Nat) (s : State) : Issued :=
  let c := s.curCore
  let k := s.curSlot
  if reads.any (absentField c) || writes.any (absentField c) then .stop (illegal s)
  else match keptFor s reads writes with
    | some x => .go x.vals s
    | none =>
      let s := giveBack c k s
      match unmet s reads writes with
      | some (f, w) =>
        let r := if w then fullWait c f else emptyWait c f
        let key := if w then f + 32 else f
        let need := if w then countOf writes f - (if isQueue f then countOf reads f else 0) else countOf reads f
        let s := s.modMe fun y => { y with waitArg := some (need * 64 + key) }
        .stop (waitFor 1 r.1 false [r.2] (joinBlocked c k key s))
      | none =>
        if touchesQueue (reads ++ writes) then
          match exposeMe s with
          | .ok _ t =>
            let t := leaveBlocked c k t
            let (vs, u) := readFields reads t
            if badRead t reads then .stop (slotError c k u) else .go vs u
          | .stall t => .stop (t.modMe fun y => y.leaveWait s.clock)
          | .exc e _ => .stop (raiseDrain e s)
        else
          let (vs, s) := readFields reads s
          .go vs s

/-- A general register, mi, z: never absent, never a wait. -/
def plainField (f : Nat) : Bool := decide (f < 16) || decide (28 ≤ f)

/-- An activation's commit buffer would drain now without an exception or a delay. -/
def drains (s : State) : Bool :=
  match exposeMe s with
  | .ok _ _ => true
  | _ => false

/-- The state in which an instruction that is ready takes its sources: an activation that names a queue or port is exposed
(R382). -/
def readied (reads writes : List Nat) (s : State) : State :=
  let t := giveBack s.curCore s.curSlot s
  if touchesQueue (reads ++ writes) then
    match exposeMe t with
    | .ok _ u => leaveBlocked s.curCore s.curSlot u
    | _ => t
  else t

/-- The fields an instruction names exist on this core, no condition of R105 on a queue or port is unmet, and where it names one
the commit buffer drains and no word that it takes carries an error. -/
def Ready (reads writes : List Nat) (s : State) : Prop :=
  (∀ f ∈ reads ++ writes, absentField s.curCore f = false) ∧ unmet (giveBack s.curCore s.curSlot s) reads writes = none
    ∧ (touchesQueue (reads ++ writes) = true → drains (giveBack s.curCore s.curSlot s) = true
      ∧ badRead (readied reads writes s) reads = false)

/-- The sources in field order and the state after their pops (R105, R382). -/
def taken (reads writes : List Nat) (s : State) : List Reg × State :=
  match keptFor s reads writes with
  | some x => (x.vals, s)
  | none => readFields reads (readied reads writes s)

/-- Source `i` of an instruction, whole and as a 64-bit value. -/
def source (reads writes : List Nat) (s : State) (i : Nat) : Reg := (taken reads writes s).1.getD i .zero
def sourceWord (reads writes : List Nat) (s : State) (i : Nat) : Word := (source reads writes s i).word

/-- The next state of an instruction of `len` bytes whose one effect is `r` in field `d`. -/
def doneWith (len : Nat) (reads : List Nat) (d : Nat) (r : Reg) (s : State) : State :=
  complete len (writeField d r (taken reads [d] s).2)

/-- The slot's instruction has issued and is not done: it goes on at the slot's next turn, in RUN. -/
def stallMe (s : State) : State := s.modMe fun y =>
  { y.leaveWait s.clock with kept := some (y.kept.getD ⟨[], [], [], y.miPos⟩) }

/-- The instruction that the slot has issued in state `s` keeps what it has taken (R105, R255). -/
def keepTaken (reads writes : List Nat) (s t : State) : State :=
  t.modMe fun y => { y with kept := some ⟨(taken reads writes s).1, reads, writes,
    (match keptFor s reads writes with | some x => x.mi | none => s.me.miPos)⟩ }

/-- The slot stalls with an access on its way: the words it popped keep their places, the places of its late pushes are reserved
(R105, R255). -/
def stallOp (reads writes : List Nat) (s t : State) : State := stallMe (keepTaken reads writes s t)

/-- An instruction that waits with a record has made no effect (R295): what it popped at issue in state `s` is back. -/
def unpop (s t : State) : State :=
  let c := s.curCore
  if s.me.kept.isSome then giveBack c s.curSlot t
  else (t.modCore c fun x => { x with q := (s.core c).q, ports := (s.core c).ports }).modMe fun y =>
    { y with miPos := s.me.miPos, kept := none }

/-- An instruction that exposes an activation, or drains it, goes on once that is done. -/
def exposing (reads writes : List Nat) (s t : State) (f : State → State) : State :=
  match exposeMe t with
  | .ok _ u => f u
  | .stall u => stallOp reads writes s u
  | .exc e _ => raiseDrain e s

/-- An instruction of two integer sources and an integer destination (R235). -/
def intOp2 (len d a b : Nat) (f : Word → Word → Word) (s : State) : State :=
  match issue [a, b] [d] s with
  | .stop t => t
  | .go vs t => complete len (writeField d (.ofWord (f (vs.getD 0 .zero).word (vs.getD 1 .zero).word)) t)

/-- An instruction of one integer source and an integer destination (R235). -/
def intOp1 (len d a : Nat) (f : Word → Word) (s : State) : State :=
  match issue [a] [d] s with
  | .stop t => t
  | .go vs t => complete len (writeField d (.ofWord (f (vs.getD 0 .zero).word)) t)

/-- An immediate as a 64-bit value (R213). -/
def immWord (x : Int) : Word := BitVec.ofInt 64 x

end Sys2Proof.Machine
end

