-- ==== Sys2Proof/Machine/Flags.lean ====
section
/-! DEFINITION. Conditions and status: the part has no condition flags; its branches compare (R252), and STATUS is written in
part by CSR instructions (R112). -/

namespace Sys2Proof.Machine

/-- The branch conditions (R252), by f3. -/
def condEq (a b : Word) : Bool := a == b
def condNe (a b : Word) : Bool := a != b
def condLt (a b : Word) : Bool := BitVec.slt a b
def condGe (a b : Word) : Bool := !BitVec.slt a b
def condLtu (a b : Word) : Bool := BitVec.ult a b
def condGeu (a b : Word) : Bool := !BitVec.ult a b

/-- A truth value as a register result. -/
def boolWord (b : Bool) : Word := if b then 1 else 0

end Sys2Proof.Machine
end

