-- ==== Sys2Proof/Machine/LoadStore.lean ====
section
/-! DEFINITION. Loads and stores (R255 to R263), their routes (R55, R56, R264), MIGR and HOME (R265, R266), the commit buffer
(R97), and the compact forms (R231). -/

namespace Sys2Proof.Machine

open Host (Outcome)

/-! Checks (R100, R101, R256). -/

/-- The capability's tag, bounds and permissions, then alignment (R100, R256): the cause of the trap, if any. -/
def capCheck (r : Reg) (ea : Int) (n perms align : Nat) : Option Nat :=
  if !r.tag then some 0x02
  else if ea < r.base ∨ (r.top : Int) < ea + n then some 0x03
  else if r.perms &&& perms ≠ perms then some 0x04
  else if ea % align ≠ 0 then some 0x05
  else none

/-- The address an effective address names: EA[51:0] (R100). -/
def vaOf (ea : Int) : Nat := toField 52 ea

/-- Some of the bytes at `va` lie in the bank window where it names no bank, or one whose role is cache (R92): an access may cross
into the window. -/
def badWindow (w : Who) (va n : Nat) (s : State) : Bool :=
  if inWindow va then (windowSrc s w.core va n).isNone
  else inWindow ((va + n - 1) % 2 ^ 52) && (windowSrc s w.core 0xFF00000000000 (va + n - 0xFF00000000000)).isNone

/-- Every check up to the domain rights, over all the bytes (R256, R257, R263): the address. -/
def memCheck (w : Who) (r : Reg) (ea : Int) (n perms align need : Nat) (s : State) : Res Nat :=
  let va := vaOf ea
  match capCheck r ea n perms align with
  | some cause => .exc (.vec cause va) s
  | none =>
    if badWindow w va n s then .exc (.vec 0x14 va) s
    else (needRegions w va n need s).bind fun _ s => .ok va s

/-! Activations (R97). -/

/-- Own banks are named by the self window in a commit buffer. -/
def ownVa (src : Src) (va : Nat) : Nat :=
  match src with
  | .bank c off => selfWindow c off
  | _ => va

/-- The part of a store is one an activation buffers: an own bank, or a line homed on the own core (R97). -/
def ownPart (c : Nat) (p : Nat × Nat × Src) : Bool :=
  match p.2.2 with
  | .bank d _ => d == c
  | .cached h _ | .frame h _ => h == c
  | _ => false

/-- One byte as an activation sees it: the youngest buffered byte, else the byte in memory. -/
def overlayByte (l : List Buffered) (va : Nat) (b : Byte) : Byte :=
  l.foldl (fun x e => if e.va ≤ va ∧ va < e.va + e.bytes.length then e.bytes.getD (va - e.va) 0 else x) b

/-- The tag of a granule as an activation sees it. -/
def overlayTag (l : List Buffered) (va : Nat) (t : Bool) : Bool :=
  l.foldl (fun x e => if e.va / 16 ≤ va / 16 ∧ va / 16 ≤ (e.va + e.bytes.length - 1) / 16 then e.tagged else x) t

/-- The address under which an own load finds buffered bytes. -/
def selfVa (c va : Nat) : Nat :=
  if inWindow va then
    match windowAt c va with
    | some (d, off) => if d = c then selfWindow c off else va
    | none => va
  else va

/-- A load's bytes and tag with the slot's commit buffer over them (R97). -/
def overlay (w : Who) (va : Nat) (x : Loaded) (s : State) : Loaded :=
  let l := (s.slot w.core w.slot).commit
  if l.isEmpty then x
  else
    let a := selfVa w.core va
    { x with bytes := x.bytes.zipIdx.map fun p => overlayByte l (a + p.2) p.1, tags := x.tags.zipIdx.map fun p => overlayTag l (a + 16 * p.2) p.1 }

/-- Granules a commit buffer holds (R97). -/
def granulesOf (l : List Buffered) : List Nat :=
  (l.flatMap fun e => (List.range (touched 16 e.va e.bytes.length)).map fun i => e.va / 16 + i).eraseDups

/-- The buffered parts of a store. -/
def bufferParts (hint : Nat) (tagged : Bool) (whole : Nat → Bool) : List (Nat × Nat × Src) → List Byte → List Buffered
  | [], _ => []
  | (va, n, src) :: l, data =>
    ⟨ownVa src va, data.take n, tagged, hint, whole va⟩ :: bufferParts hint tagged whole l (data.drop n)

/-- A commit buffer with further parts, where it can hold them: the parts are all the own core's and there are granules enough
(R97). -/
def buffered (w : Who) (hint : Nat) (tagged : Bool) (whole : Nat → Bool) (l : List (Nat × Nat × Src)) (data : List Byte)
    (s : State) : Option (List Buffered) :=
  let b := (s.slot w.core w.slot).commit ++ bufferParts hint tagged whole l data
  if l.all (ownPart w.core) && decide ((granulesOf b).length ≤ 128) then some b else none

/-- A store of a slot (R260, R97): an unexposed activation buffers stores to its own core; any other store, and one that
needs a 129th granule, exposes it and is performed after the drain. -/
def storeSlot (w : Who) (va hint scope : Nat) (data : List Byte) (tagged : Bool) (s : State) : Res Unit :=
  let y := s.slot w.core w.slot
  if y.holds = .activation ∧ y.exposed = false then
    (locateParts w hint true (parts w va data.length) s).bind fun l t =>
      match buffered w hint tagged (fun _ => false) l data t with
      | some b => .ok () (t.modSlot w.core w.slot fun y => { y with commit := b })
      | none => (expose w.core w.slot t).bind fun _ t => storeAt w va hint scope data tagged t
  else storeAt w va hint scope data tagged s

/-! The predictor (R56). -/

def predIndex (pc : Nat) : Nat := pc / 2 % 64

/-- Count up or down between 0 and 3. -/
def saturate (n : Nat) (up : Bool) : Nat := if up then min 3 (n + 1) else n - 1

/-- Where the page of `va` lies, as an access finds it (R26): 0 near, 1 far, 2 host, 3 peer. A line that its home has is reached
without a translation, whatever the entry says (R32). -/
def pageLoc (w : Who) (va : Nat) (s : State) : Nat :=
  match (match homeOf w va s with
    | .ok h t => if (t.line h va).valid.isEmpty then (walk t (coreDie w.core) va w.view).1 else .fault 0
    | _ => (walk s (coreDie w.core) va w.view).1) with
  | .leaf e _ _ => pteLoc e
  | _ => 0

/-- The page of `va` lies on a host or a peer. -/
def onLink (w : Who) (va : Nat) (s : State) : Bool := decide (2 ≤ pageLoc w va s)

/-- The page of `va` lies on a host (R257 row 5). -/
def onHost (w : Who) (va : Nat) (s : State) : Bool := pageLoc w va s == 2

/-- Training: slot `k` of core `c` accesses a line homed on `h` with the access at `pc`. -/
def train (c k h pc : Nat) (s : State) : State :=
  if isKeystone c then s
  else match (s.slot c k).run with
    | none => s.modSlot c k fun y => { y with run := some ⟨h, predIndex pc, 1⟩ }
    | some r =>
      if r.home = h then s.modSlot c k fun y => { y with run := some { r with count := min 7 (r.count + 1) } }
      else
        let s := if h = c then s else s.modCore c fun x =>
          { x with predictor := SMap.put x.predictor r.index (saturate (SMap.get 0 x.predictor r.index) (decide (4 ≤ r.count))) }
        s.modSlot c k fun y => { y with run := some ⟨h, predIndex pc, 1⟩ }

/-- Training after an access of the current slot to the line of `va`. -/
def trainLine (va : Nat) (s : State) : State :=
  if inWindow va then s
  else match homeOf (whoMe s) va s with
    | .ok h t => if onLink (whoMe s) va t then s else train s.curCore s.curSlot h s.me.pc t
    | _ => s

/-- Training after an access of `n` bytes: one access for each line it touches, lower lines first (DESIGN CHOICE, log 104). -/
def trainMe (va n : Nat) (s : State) : State :=
  (List.range (touched 1024 va n)).foldl (fun s i => trainLine ((va + 1024 * i) % 2 ^ 52) s) s

/-! Migration (R55, R115, R264, R265). -/

/-- A context that may migrate: a thread on a small core, not composed (R55, R265). -/
def mayMigrate (s : State) : Bool :=
  let y := s.me
  y.holds == .thread && !y.composed && !isKeystone s.curCore

/-- The home that an access migrates to, by .mig or by the predictor (R55, R56, R262, R263). The route is chosen once: an access that
has gone to its home stays remote (R264). -/
def migrateTo (w : Who) (va n route : Nat) (names : List Nat) (s : State) : Option Nat :=
  let y := s.me
  let wanted := route == 2 || (route == 0 && y.autoMig
    && decide (2 ≤ SMap.get 0 (s.core w.core).predictor (predIndex y.pc)))
  if !wanted || y.asRem || !mayMigrate s || inWindow va || va / 1024 != (va + n - 1) / 1024
      || names.any (fun f => decide (16 ≤ f) && decide (f < 29)) || onLink w va s then none
  else match homeOf w va s with
    | .ok h _ => if h = w.core then none else some h
    | _ => none

/-- The migration frame of a slot (R115): light, or full. -/
def frameOf (party : Nat) (y : Slot) (full byRoute : Bool) (resume : Nat) : Frame :=
  ⟨full, party, y.domain, y.autoMig, y.inTrap, y.pcc.withCursor resume,
    if full then y.c else y.c.filter fun p => decide (p.1 < 8), y.prio, y.tvec, y.spawnlim, byRoute, y.uid⟩

/-- The current thread leaves for the core `dst` (R264, R265): a full fence at .sys, then the slot is free. -/
def departMe (dst resume : Nat) (full byRoute : Bool) (s : State) : State :=
  let c := s.curCore
  let k := s.curSlot
  let party := s.partyAt c k
  let s := drainMe s
  if hostWritesOf s (s.agentAt c k) then stallMe s
  else
    let y := s.me
    let m : Msg := ⟨party, c, k, y.ctxCount, y.tenant, dst, none, BitVec.ofNat 64 (c * 2 ^ 27 + 0xFD), [],
      some (frameOf party y full byRoute resume), 0, false⟩
    netSend m (bumpCore c (s.modMe fun y => y.free s.clock .none))

/-! Loads. -/

/-- A load (R258, R259, R262): `perms` and rights are checked, the route is taken, the value is written. -/
def loadOp (len d a : Nat) (imm : Int) (n align hint scope route : Nat) (val : Reg → Nat → Nat → Bool → Reg) (s : State) :
    State :=
  match issue [a] [d] s with
  | .stop t => t
  | .go vs t =>
    let r := vs.getD 0 .zero
    let ea := (r.cursor : Int) + imm
    let acc : Acc := ⟨toField 64 ea, n, false, false⟩
    let w := whoMe t
    match memCheck w r ea n 1 align 1 t with
    | .exc e _ => raise acc e s
    | .stall t => stallOp [a] [d] s t
    | .ok va t =>
      match (if (keptFor s [a] [d]).isSome then none else migrateTo w va n route [d] t) with
      | some h => departMe h s.me.pc true true t
      | none =>
        match loadAt w va n hint scope t with
        | .exc e _ => raise acc e s
        | .stall t => stallOp [a] [d] s t
        | .ok x t =>
          let x := overlay w va x t
          match rightsOf w va t with
          | .ok rights t =>
            complete len (writeField d (val r rights (leNat x.bytes) (loadedTag x)) (trainMe va n t))
          | _ => s

/-- The value of a load of `n` bytes, sign-extended or not (R258). -/
def signed (n : Nat) (_ : Reg) (_ m : Nat) (_ : Bool) : Reg := .ofWord (wrap (sext (8 * n) m))
def unsigned (_ : Reg) (_ m : Nat) (_ : Bool) : Reg := .ofNat m

/-- LCAP's value: the tag stays only with the permission and the right to load capabilities (R259). -/
def capValue (r : Reg) (rights m : Nat) (tag : Bool) : Reg :=
  ⟨BitVec.ofNat 128 m, tag && r.canLoadCap && bit rights 3⟩

def execLb (d a : Nat) (imm : Int) (s : State) : Outcome State Fault Refusal :=
  .next (loadOp 4 d a imm 1 1 0 0 0 (signed 1) s)
def execLbu (d a : Nat) (imm : Int) (s : State) : Outcome State Fault Refusal :=
  .next (loadOp 4 d a imm 1 1 0 0 0 unsigned s)
def execLh (d a : Nat) (imm : Int) (s : State) : Outcome State Fault Refusal :=
  .next (loadOp 4 d a imm 2 1 0 0 0 (signed 2) s)
def execLhu (d a : Nat) (imm : Int) (s : State) : Outcome State Fault Refusal :=
  .next (loadOp 4 d a imm 2 1 0 0 0 unsigned s)
def execLw (d a : Nat) (imm : Int) (s : State) : Outcome State Fault Refusal :=
  .next (loadOp 4 d a imm 4 1 0 0 0 (signed 4) s)
def execLwu (d a : Nat) (imm : Int) (s : State) : Outcome State Fault Refusal :=
  .next (loadOp 4 d a imm 4 1 0 0 0 unsigned s)
def execLd (d a : Nat) (imm : Int) (s : State) : Outcome State Fault Refusal :=
  .next (loadOp 4 d a imm 8 1 0 0 0 unsigned s)
def execLcap (d a : Nat) (imm : Int) (s : State) : Outcome State Fault Refusal :=
  .next (loadOp 4 d a imm 16 16 0 0 0 capValue s)

def execLbX (d a hint scope route : Nat) (s : State) : Outcome State Fault Refusal :=
  .next (loadOp 4 d a 0 1 1 hint scope route (signed 1) s)
def execLbuX (d a hint scope route : Nat) (s : State) : Outcome State Fault Refusal :=
  .next (loadOp 4 d a 0 1 1 hint scope route unsigned s)
def execLhX (d a hint scope route : Nat) (s : State) : Outcome State Fault Refusal :=
  .next (loadOp 4 d a 0 2 1 hint scope route (signed 2) s)
def execLhuX (d a hint scope route : Nat) (s : State) : Outcome State Fault Refusal :=
  .next (loadOp 4 d a 0 2 1 hint scope route unsigned s)
def execLwX (d a hint scope route : Nat) (s : State) : Outcome State Fault Refusal :=
  .next (loadOp 4 d a 0 4 1 hint scope route (signed 4) s)
def execLwuX (d a hint scope route : Nat) (s : State) : Outcome State Fault Refusal :=
  .next (loadOp 4 d a 0 4 1 hint scope route unsigned s)
def execLdX (d a hint scope route : Nat) (s : State) : Outcome State Fault Refusal :=
  .next (loadOp 4 d a 0 8 1 hint scope route unsigned s)
def execLq (d a hint scope route : Nat) (s : State) : Outcome State Fault Refusal :=
  .next (loadOp 4 d a 0 16 16 hint scope route unsigned s)
def execLcapX (d a hint scope route : Nat) (s : State) : Outcome State Fault Refusal :=
  .next (loadOp 4 d a 0 16 16 hint scope route capValue s)

/-! Stores. -/

/-- A store of the low `n` bytes of b (R260, R261); a tagged SCAP needs more of its capability, and a capability without
the global bit stays in the core's own banks. -/
def storeOp (len b a : Nat) (imm : Int) (n align hint scope route : Nat) (cap : Bool) (s : State) : State :=
  match issue [a, b] [] s with
  | .stop t => t
  | .go vs t =>
    let r := vs.getD 0 .zero
    let x := vs.getD 1 .zero
    let tagged := cap && x.tag
    let ea := (r.cursor : Int) + imm
    let acc : Acc := ⟨toField 64 ea, n, true, false⟩
    let w := whoMe t
    let local_ := match windowAt w.core (vaOf ea) with
      | some (d, _) => inWindow (vaOf ea) && d == w.core
      | none => false
    match (match capCheck r ea n (if tagged then 0x12 else 2) 1 with
      | some cause => Res.exc (.vec cause (vaOf ea)) t
      | none => if tagged && !x.isGlobal && !local_ then .exc (.vec 0x04 (vaOf ea)) t
                else memCheck w r ea n 2 align (if tagged then 0x12 else 2) t) with
    | .exc e _ => raise acc e s
    | .stall t => stallOp [a, b] [] s t
    | .ok va t =>
      match (if (keptFor s [a, b] []).isSome then none else migrateTo w va n route [b] t) with
      | some h => departMe h s.me.pc true true t
      | none =>
        match storeSlot w va hint scope (leBytes n x.nat) tagged t with
        | .exc e _ => raise acc e s
        | .stall t => stallOp [a, b] [] s t
        | .ok _ t => complete len (trainMe va n t)

def execSb (b a : Nat) (imm : Int) (s : State) : Outcome State Fault Refusal :=
  .next (storeOp 4 b a imm 1 1 0 0 0 false s)
def execSh (b a : Nat) (imm : Int) (s : State) : Outcome State Fault Refusal :=
  .next (storeOp 4 b a imm 2 1 0 0 0 false s)
def execSw (b a : Nat) (imm : Int) (s : State) : Outcome State Fault Refusal :=
  .next (storeOp 4 b a imm 4 1 0 0 0 false s)
def execSd (b a : Nat) (imm : Int) (s : State) : Outcome State Fault Refusal :=
  .next (storeOp 4 b a imm 8 1 0 0 0 false s)
def execSq (b a : Nat) (imm : Int) (s : State) : Outcome State Fault Refusal :=
  .next (storeOp 4 b a imm 16 16 0 0 0 false s)
def execScap (b a : Nat) (imm : Int) (s : State) : Outcome State Fault Refusal :=
  .next (storeOp 4 b a imm 16 16 0 0 0 true s)

def execSbX (b a hint scope route : Nat) (s : State) : Outcome State Fault Refusal :=
  .next (storeOp 4 b a 0 1 1 hint scope route false s)
def execShX (b a hint scope route : Nat) (s : State) : Outcome State Fault Refusal :=
  .next (storeOp 4 b a 0 2 1 hint scope route false s)
def execSwX (b a hint scope route : Nat) (s : State) : Outcome State Fault Refusal :=
  .next (storeOp 4 b a 0 4 1 hint scope route false s)
def execSdX (b a hint scope route : Nat) (s : State) : Outcome State Fault Refusal :=
  .next (storeOp 4 b a 0 8 1 hint scope route false s)
def execSqX (b a hint scope route : Nat) (s : State) : Outcome State Fault Refusal :=
  .next (storeOp 4 b a 0 16 16 hint scope route false s)
def execScapX (b a hint scope route : Nat) (s : State) : Outcome State Fault Refusal :=
  .next (storeOp 4 b a 0 16 16 hint scope route true s)

/-! HOME and MIGR (R265, R266). -/

/-- The window bit and core that HOME returns; cause 0x14 for a bank-window address that names nothing. -/
def homeWord (w : Who) (va : Nat) (s : State) : Res Nat :=
  if inWindow va then
    match windowAt w.core va with
    | some (d, _) => .ok (2 ^ 13 + d) s
    | none => .exc (.vec 0x14 va) s
  else (homeOf w va s).bind fun h t => if onLink w va t then .ok 0 t else .ok h t

def execHome (d a : Nat) (s : State) : Outcome State Fault Refusal :=
  match issue [a] [d] s with
  | .stop t => .next t
  | .go vs t =>
    let r := vs.getD 0 .zero
    let acc : Acc := ⟨r.cursor, 1, false, false⟩
    match capCheck r r.cursor 1 0 1 with
    | some cause => .next (raise acc (.vec cause r.cursor) s)
    | none => match homeWord (whoMe t) r.cursor t with
      | .ok n t => .next (complete 4 (writeField d (.ofNat n) t))
      | .stall t => .next (stallOp [a] [d] s t)
      | .exc e _ => .next (raise acc e s)

/-- A full fence at .sys of the current slot, then completion (R194, R265). -/
def fenceComplete (s : State) : State :=
  let s := drainMe s
  if hostWritesOf s (s.agentAt s.curCore s.curSlot) then stallMe s else complete 4 s

/-- MIGR (R265): the thread moves to the home of EA, or a full fence where nothing moves. -/
def migrOp (a : Nat) (full : Bool) (s : State) : State :=
  match issue [a] [] s with
  | .stop t => t
  | .go vs t =>
    let r := vs.getD 0 .zero
    let acc : Acc := ⟨r.cursor, 1, false, false⟩
    match capCheck r r.cursor 1 0 1 with
    | some cause => raise acc (.vec cause r.cursor) s
    | none => match homeWord (whoMe t) r.cursor t with
      | .stall t => stallOp [a] [] s t
      | .exc e _ => raise acc e s
      | .ok n t =>
        let h := n % 2 ^ 13
        if inWindow r.cursor ∧ isKeystone h then raise acc (.vec 0x14 r.cursor) s
        else if (!inWindow r.cursor && onLink (whoMe t) r.cursor t) || h == t.curCore || !mayMigrate t then fenceComplete t
        else departMe h (t.me.pc + 4) full false t

def execMigr (a : Nat) (s : State) : Outcome State Fault Refusal := .next (migrOp a false s)
def execMigrF (a : Nat) (s : State) : Outcome State Fault Refusal := .next (migrOp a true s)

/-! Compact forms (R231): scaled unsigned offsets from the base. -/

def execCLd (d a off : Nat) (s : State) : Outcome State Fault Refusal :=
  .next (loadOp 2 d a (off * 8 : Nat) 8 1 0 0 0 unsigned s)
def execCLw (d a off : Nat) (s : State) : Outcome State Fault Refusal :=
  .next (loadOp 2 d a (off * 4 : Nat) 4 1 0 0 0 (signed 4) s)
def execCSd (b a off : Nat) (s : State) : Outcome State Fault Refusal :=
  .next (storeOp 2 b a (off * 8 : Nat) 8 1 0 0 0 false s)
def execCSw (b a off : Nat) (s : State) : Outcome State Fault Refusal :=
  .next (storeOp 2 b a (off * 4 : Nat) 4 1 0 0 0 false s)

end Sys2Proof.Machine
end

