-- ==== Sys2Proof/Machine/Atomic.lean ====
section
/-! DEFINITION. Atomics (R267 to R269), reader-writer locks (R270 to R273) and fences (R274, R275). -/

namespace Sys2Proof.Machine

open Host (Outcome)

/-- The value an atomic leaves in its destination (R268). -/
def amoResult (amo n old : Nat) : Reg :=
  if n = 4 then (if amo = 6 ∨ amo = 7 then .ofNat old else .ofWord (wrap (sext 32 old))) else .ofNat old

/-- An atomic of the agent at `va` has gone to its home, or its value is back: the checks are behind it. -/
def begun (w : Who) (va n : Nat) (s : State) : Bool := (findReply w va n s).isSome || inFlight w 2 va s || askedFor s w va

/-- An atomic of `n` bytes (R268): an activation is exposed before it is performed, and stays so whatever the atomic then meets
(R269). -/
def atomicOp (amo n d b a : Nat) (aq rl : Bool) (scope : Nat) (s : State) : State :=
  match issue [a, b] [d] s with
  | .stop t => t
  | .go vs t =>
    let r := vs.getD 0 .zero
    let acc : Acc := ⟨r.cursor, n, true, false⟩
    let w := whoMe t
    let m := 2 ^ (8 * n)
    let opnd := (vs.getD 1 .zero).nat % m
    let expected := if d < 16 then (s.me.cr d).nat % m else 0
    match (if begun w (vaOf r.cursor) n t then .ok (vaOf r.cursor) t else memCheck w r r.cursor n 3 n 3 t) with
    | .exc e _ => raise acc e s
    | .stall t => stallOp [a, b] [d] s t
    | .ok va t => exposing [a, b] [d] s t fun t =>
      match atomicAt w va n amo opnd expected (if rl then scope else 0) (if aq then scope else 0) t with
      | .exc e u => raise acc e (unpop s u)
      | .stall u => stallOp [a, b] [d] s u
      | .ok x u =>
        if x.poison then raise acc (.poison va) (unpop s u)
        else complete 4 (writeField d (amoResult amo n (leNat x.bytes)) u)

/-- The width of an atomic: 4 with .w, else 8 (R267). -/
def amoWidth (w : Bool) : Nat := if w then 4 else 8

def execAmoadd (d b a : Nat) (w aq rl : Bool) (scope : Nat) (s : State) : Outcome State Fault Refusal :=
  .next (atomicOp 0 (amoWidth w) d b a aq rl scope s)
def execAmoand (d b a : Nat) (w aq rl : Bool) (scope : Nat) (s : State) : Outcome State Fault Refusal :=
  .next (atomicOp 1 (amoWidth w) d b a aq rl scope s)
def execAmoor (d b a : Nat) (w aq rl : Bool) (scope : Nat) (s : State) : Outcome State Fault Refusal :=
  .next (atomicOp 2 (amoWidth w) d b a aq rl scope s)
def execAmoxor (d b a : Nat) (w aq rl : Bool) (scope : Nat) (s : State) : Outcome State Fault Refusal :=
  .next (atomicOp 3 (amoWidth w) d b a aq rl scope s)
def execAmomin (d b a : Nat) (w aq rl : Bool) (scope : Nat) (s : State) : Outcome State Fault Refusal :=
  .next (atomicOp 4 (amoWidth w) d b a aq rl scope s)
def execAmomax (d b a : Nat) (w aq rl : Bool) (scope : Nat) (s : State) : Outcome State Fault Refusal :=
  .next (atomicOp 5 (amoWidth w) d b a aq rl scope s)
def execAmominu (d b a : Nat) (w aq rl : Bool) (scope : Nat) (s : State) : Outcome State Fault Refusal :=
  .next (atomicOp 6 (amoWidth w) d b a aq rl scope s)
def execAmomaxu (d b a : Nat) (w aq rl : Bool) (scope : Nat) (s : State) : Outcome State Fault Refusal :=
  .next (atomicOp 7 (amoWidth w) d b a aq rl scope s)
def execAmoswap (d b a : Nat) (w aq rl : Bool) (scope : Nat) (s : State) : Outcome State Fault Refusal :=
  .next (atomicOp 8 (amoWidth w) d b a aq rl scope s)
def execCas (d b a : Nat) (w aq rl : Bool) (scope : Nat) (s : State) : Outcome State Fault Refusal :=
  .next (atomicOp 9 (amoWidth w) d b a aq rl scope s)
def execCasq (d b a : Nat) (aq rl : Bool) (scope : Nat) (s : State) : Outcome State Fault Refusal :=
  .next (atomicOp 10 16 d b a aq rl scope s)

/-! Locks. The word's fields (R270). -/

def lockPref (w : Nat) : Bool := bit w 63
def lockWriter (w : Nat) : Bool := bit w 62
def lockReaders (w : Nat) : Nat := bits w 0 32

def LockInfo.none : LockInfo := ⟨[], []⟩

/-- Waiting writers, as the word shows them. -/
def LockInfo.writers (i : LockInfo) : Nat := (i.waiters.filter fun w => w.write && !w.granted).length

/-- The word with its fields rewritten; [63] and [47:32] stay, whatever a store has made of the readers. -/
def lockWord (w : Nat) (writer : Bool) (readers : Nat) (i : LockInfo) : Nat :=
  bits w 63 1 * 2 ^ 63 + writer.toNat * 2 ^ 62 + min 16383 i.writers * 2 ^ 48 + bits w 32 16 * 2 ^ 32 + readers % 2 ^ 32

/-- Where the home keeps a lock's list: home core and key. -/
def lockPlace (src : Src) (va : Nat) : Nat × Nat :=
  match src with
  | .cached h _ => (h, va)
  | .bank c off => (c, selfWindow c off)
  | _ => (0, va)

def lockInfo (s : State) (p : Nat × Nat) : LockInfo := SMap.get LockInfo.none (s.core p.1).locks p.2

def setLock (p : Nat × Nat) (i : LockInfo) (s : State) : State :=
  s.modCore p.1 fun x => { x with locks := SMap.set LockInfo.none x.locks p.2 i }

/-- The count of contexts that a party's slot has run (R273). -/
def ctxOf (s : State) (p : Nat) : Nat :=
  match slotOfParty s p with
  | some (c, k) => (s.slot c k).ctxCount % 2 ^ 16
  | none => 0

/-- Record a holder: up to four entries (R273). -/
def addHolder (s : State) (party : Nat) (write : Bool) (i : LockInfo) : LockInfo :=
  if i.holders.length < 4 then { i with holders := i.holders ++ [⟨party, ctxOf s party, write⟩] } else i

/-- A release removes the releaser's entry, else the oldest (R273). -/
def dropHolder (party : Nat) (i : LockInfo) : LockInfo :=
  match i.holders.find? fun h => h.party == party with
  | some h => { i with holders := i.holders.erase h }
  | none => { i with holders := i.holders.tail }

def unknownParty : Nat := 0xFFFFFFFF

/-- A holder as a target, unknown when its entry is stale (R273, R353). -/
def holderTarget (s : State) (h : Option Holder) : Nat :=
  match h with
  | some h => if pastHolder s h then unknownParty else h.party
  | none => unknownParty

/-- Mode and targets of a waiting lock request (R273): behind readers a writer waits for all of those recorded, and for the unknown
one where the word counts more. -/
def lockWait (s : State) (w : Nat) (i : LockInfo) (write : Bool) : Nat × List Nat :=
  if lockWriter w then (1, [holderTarget s (i.holders.reverse.find? fun h => h.write)])
  else if write then
    let r := i.holders.filter fun h => !h.write
    let l := r.map fun h => holderTarget s (some h)
    (2, if r.length < lockReaders w ∨ l.isEmpty then l.take 3 ++ [unknownParty] else l)
  else match i.waiters.find? fun x => x.write && !x.granted with
    | some x => (1, [x.party])
    | none => (1, [unknownParty])

/-- Whether a request that is not in the list, or stands in it, is granted now (R271). -/
def lockGrants (w : Nat) (i : LockInfo) (write : Bool) : Bool :=
  if write then !lockWriter w && lockReaders w == 0 && i.writers == 0
  else !lockWriter w && decide (lockReaders w < 2 ^ 32 - 1) && !(lockPref w && decide (0 < i.writers))

/-- What a lock request gets at the word's home: the value of d, or a place in the wait list with the record of its wait. -/
inductive LockAns where
  | value (d : Nat)
  | waits (mode : Nat) (targets : List Nat)
  deriving DecidableEq, Repr

/-- The lock word takes its new value and the home's list (R270). -/
def putLock (src : Src) (va w : Nat) (writer : Bool) (readers : Nat) (i : LockInfo) (s : State) : State :=
  writeAt src va (leBytes 8 (lockWord w writer readers i)) false (setLock (lockPlace src va) i s)

/-- RWLR and RWLW at the word's home (R271, R273). -/
def lockRequest (x : Waiter) (try_ : Bool) (src : Src) (va : Nat) (s : State) : LockAns × State :=
  let i := lockInfo s (lockPlace src va)
  let w := leNat (readAt s src va 8)
  if lockGrants w i x.write then
    (.value 1, putLock src va w (lockWriter w || x.write) (lockReaders w + (!x.write).toNat) (addHolder s x.party x.write i) s)
  else if try_ then (.value 0, s)
  else
    let m := lockWait s w i x.write
    (.waits m.1 m.2, putLock src va w (lockWriter w) (lockReaders w) { i with waiters := i.waiters ++ [x] } s)

/-- Mark a waiter granted and record it as a holder. -/
def grantWaiter (s : State) (x : Waiter) (i : LockInfo) : LockInfo :=
  addHolder s x.party x.write { i with waiters := i.waiters.map fun y => if y = x then { y with granted := true } else y }

/-- Grants from the wait list after a release: writer bit, readers and list (R272). -/
def grantList (s : State) (w : Nat) (writer : Bool) (readers : Nat) (i : LockInfo) : Bool × Nat × LockInfo :=
  match (if writer ∨ readers ≠ 0 then none else i.waiters.find? fun x => x.write && !x.granted) with
  | some x => (true, readers, grantWaiter s x i)
  | none =>
    if !writer && (!lockPref w || i.writers == 0) then
      let l := i.waiters.filter fun x => !x.write && !x.granted
      (writer, readers + l.length, l.foldl (fun i x => grantWaiter s x i) i)
    else (writer, readers, i)

/-- RWUR and RWUW at the word's home; a release that frees nothing and grants nothing changes nothing (R272). -/
def lockRelease (party : Nat) (write : Bool) (src : Src) (va : Nat) (s : State) : State :=
  let i := lockInfo s (lockPlace src va)
  let w := leNat (readAt s src va 8)
  let held := if write then lockWriter w else decide (0 < lockReaders w)
  let j := if held then dropHolder party i else i
  let g := grantList s w (lockWriter w && !write) (if write then lockReaders w else lockReaders w - 1) j
  if !held && g.2.2 == i then s else refreshTombs (putLock src va w g.1 g.2.1 g.2.2 s)

/-! The request as its slot makes it. -/

/-- The key under which a home keeps the list of a lock word at `va`, as core `c` names it. -/
def lockKey (c va : Nat) : Nat :=
  if inWindow va then (match windowAt c va with | some (d, off) => selfWindow d off | none => va) else va

/-- The request of a party in the wait list of the lock word of a key: the home, the request. -/
def listedAt (s : State) (party tag key : Nat) : Option (Nat × Waiter) :=
  s.cores.findSome? fun (p : Nat × Core) =>
    ((SMap.get LockInfo.none p.2.locks key).waiters.find? fun x => x.party == party && x.tag == tag).map fun x => (p.1, x)

/-- Where the home finds a lock word, for the record of a waiting request; `none` while its sector is not there. -/
def lockSrc (s : State) (p : Nat × Nat) : Option Src :=
  if inWindow p.2 then some (.bank p.1 (p.2 - selfWindow p.1 0))
  else if cachedAt s p.1 p.2 then some (.cached p.1 (frameAddr s p.1 p.2)) else none

/-- The record of a request that stands in the wait list, as the word and the list now are (R273). -/
def listedWait (s : State) (p : Nat × Nat) (x : Waiter) : Option (Nat × List Nat) :=
  (lockSrc s p).map fun src =>
    let i := lockInfo s p
    lockWait s (leNat (readAt s src p.2 8)) { i with waiters := i.waiters.takeWhile fun y => y != x } x.write

/-- Every check of a lock operation at its core (R257, R271, R273): a host page is a location that carries none. -/
def lockCheck (w : Who) (r : Reg) (s : State) : Res Nat :=
  let va := vaOf r.cursor
  match capCheck r r.cursor 8 3 8 with
  | some cause => .exc (.vec cause va) s
  | none => if !inWindow va && onHost w va s then .exc (.vec 0x05 va) s else memCheck w r r.cursor 8 3 8 3 s

/-- Where a checked lock word is; a release of the lock of a discarded page, which reads as free, materialises nothing (R27,
R272). -/
def lockLocate (w : Who) (va : Nat) (request : Bool) (s : State) : Res Src :=
  (locate w va 0 request (drainLine w.core w.slot va s)).bind fun src s =>
    match src with
    | .host _ _ => .exc (.vec 0x05 va) s
    | src => .ok src s

/-- A lock operation on a peer page is performed at the peer's home; the packet is the link atomic's, with the operation's own
number (log 12): 11 RWLR, 12 RWLW, 13 RWUR, 14 RWUW; the operand is 1 for a try. -/
def peerLock (w : Who) (d home va op : Nat) (try_ : Bool) (s : State) : Res Reply :=
  match findReply w va 8 s with
  | some r => .ok r s
  | none =>
    if askedFor s w va then .stall s
    else match peerLink s d w.core home with
      | some link => .stall ((sendRequest link (mkRequest w 3 va va 8 [] op try_.toNat 0 (op < 13) (13 ≤ op) false) s).getD s)
      | none => .ok ⟨va, List.replicate 8 0, [], true, va⟩ s

/-- An operation of the current slot, an instruction of the given fields, goes to the owner queue of its line's home while accesses
are on their way (R192, R339), and is performed when its turn has come; one that waits with a record is at its home. -/
def atOwner (act : Instr) (reads writes : List Nat) (served : Bool) (src : Src) (va : Nat) (s t : State) (f : State → State) :
    State :=
  match (if !served && !(t.me.wait.reason == 7 || t.me.wait.reason == 8 || t.me.wait.reason == 9) then toOwner t src
         else none) with
  | some home => stallOp reads writes s
      (postOwner home { mkFlight (whoMe t) 3 src va [] 8 false 0 false 0 0 0 with act := some act } t)
  | none => f t

/-- RWLR and RWLW, with and without .t (R271); `served` when the owner slot performs it. A request in the wait list keeps what it
popped and the place of its result (R105). -/
def lockOp (d a : Nat) (try_ write served : Bool) (s : State) : State :=
  match issue [a] [d] s with
  | .stop t => t
  | .go vs t =>
    let r := vs.getD 0 .zero
    let acc : Acc := ⟨r.cursor, 8, true, false⟩
    let w := whoMe t
    let va := vaOf r.cursor
    let wait (m : Nat × List Nat) (u : State) : State := waitFor m.1 0x09 false m.2 (keepTaken [a] [d] s u)
    match listedAt t w.party 0 (lockKey w.core va) with
    | some (home, x) =>
      let p := (home, lockKey w.core va)
      if x.granted then
        complete 4 (writeField d (.ofNat 1) (setLock p { lockInfo t p with waiters := (lockInfo t p).waiters.erase x } t))
      else match listedWait t p x with
        | some m => wait m t
        | none => s
    | none =>
      if inFlight w 3 va t then stallOp [a] [d] s t
      else match (if served || (findReply w va 8 t).isSome || askedFor t w va then .ok va t else lockCheck w r t) with
      | .exc e _ => raise acc e s
      | .stall t => stallOp [a] [d] s t
      | .ok _ t => exposing [a] [d] s t fun t =>
        match lockLocate w va true t with
        | .exc e u => raise acc e (unpop s u)
        | .stall u => stallOp [a] [d] s u
        | .ok src u =>
          match src with
          | .peer dev home =>
            match peerLock w dev home va (if write then 12 else 11) try_ u with
            | .ok x u => if x.poison then raise acc (.poison va) (unpop s u)
                         else complete 4 (writeField d (.ofNat (leNat x.bytes)) u)
            | .stall u => if try_ then stallOp [a] [d] s u else wait (1, [peerParty dev]) u
            | .exc e u => raise acc e (unpop s u)
          | src =>
            if poisonAt u src va 8 then raise acc (.poison va) (unpop s u)
            else atOwner (if write then .rwlw d a try_ else .rwlr d a try_) [a] [d] served src va s u fun u =>
              match lockRequest ⟨w.party, 0, write, false⟩ try_ src va u with
              | (.value n, u) => complete 4 (writeField d (.ofNat n) u)
              | (.waits m l, u) => wait (m, l) u

def execRwlr (d a : Nat) (t : Bool) (s : State) : Outcome State Fault Refusal := .next (lockOp d a t false false s)
def execRwlw (d a : Nat) (t : Bool) (s : State) : Outcome State Fault Refusal := .next (lockOp d a t true false s)

/-- RWUR and RWUW: a release at .pkg (R272); `served` when the owner slot performs it. -/
def unlockOp (a : Nat) (write served : Bool) (s : State) : State :=
  match issue [a] [] s with
  | .stop t => t
  | .go vs t =>
    let r := vs.getD 0 .zero
    let acc : Acc := ⟨r.cursor, 8, true, false⟩
    let w := whoMe t
    let va := vaOf r.cursor
    if inFlight w 3 va t then stallOp [a] [] s t
    else match (if served || (findReply w va 8 t).isSome || askedFor t w va then .ok va t else lockCheck w r t) with
    | .exc e _ => raise acc e s
    | .stall t => stallOp [a] [] s t
    | .ok _ t => exposing [a] [] s t fun t =>
      match lockLocate w va false (drainMe t) with
      | .exc e u => raise acc e (unpop s u)
      | .stall u => stallOp [a] [] s u
      | .ok src u =>
        match src with
        | .peer dev home =>
          match peerLock w dev home va (if write then 14 else 13) false u with
          | .ok x u => if x.poison then raise acc (.poison va) (unpop s u) else complete 4 u
          | .stall u => stallOp [a] [] s u
          | .exc e u => raise acc e (unpop s u)
        | src =>
          if poisonAt u src va 8 then raise acc (.poison va) (unpop s u)
          else atOwner (if write then .rwuw a else .rwur a) [a] [] served src va s u fun u =>
            complete 4 (lockRelease w.party write src va u)

def execRwur (a : Nat) (s : State) : Outcome State Fault Refusal := .next (unlockOp a false false s)
def execRwuw (a : Nat) (s : State) : Outcome State Fault Refusal := .next (unlockOp a true false s)

/-! Fences. -/

/-- FENCE (R191, R274): loads are performed when they complete, so the kinds that order earlier stores perform the posted
stores of the scope; at .sys they wait for the acknowledgements of host and peer writes (R200). The stores that an unexposed
activation holds back (R195) stay with it (DESIGN CHOICE, log 142). -/
def execFence (kinds scope : Nat) (s : State) : Outcome State Fault Refusal :=
  if bit kinds 2 || bit kinds 3 then
    let t := drainScope s.curCore s.curSlot scope s
    if scope = 5 ∧ hostWritesOf t (t.agentAt t.curCore t.curSlot) then .next (stallMe t) else .next (complete 4 t)
  else .next (complete 4 s)

/-- FENCE.I (R197, R275): every fetch of this model reads memory as it stands, so nothing is left to discard (log 13). -/
def execFenceI (s : State) : Outcome State Fault Refusal := .next (complete 4 (drainScope s.curCore s.curSlot 1 s))

end Sys2Proof.Machine
end

