-- ==== Sys2Proof/Machine/Message.lean ====
section
/-! DEFINITION. Messages as a program sees them (R296 to R301): SEND, SENDV, SENDB, MDONE, MLEN, MSRC. -/

namespace Sys2Proof.Machine

open Host (Outcome)

/-! Destination and header. -/

/-- What a destination capability names from core `c` (R296): the cause of its trap, or the destination core. The keystone self window
names none. -/
def destOf (c : Nat) (r : Reg) : Except Nat Nat :=
  match capCheck r r.cursor 1 0x20 1 with
  | some cause => .error cause
  | none =>
    if !inWindow r.cursor || (decide (0xFFFFFFFF00000 ≤ r.cursor) && decide (r.cursor < 0xFFFFFFFFC0000)) then .error 0x14
    else match windowAt c r.cursor with
      | some (d, _) => .ok d
      | none => .error 0x14

/-- The device a header names (R297). -/
def headerPeer (h : Nat) : Option Nat := if bit h 12 then some (bits h 8 4) else none

/-- A header that takes cause 0x04 (R294, R297): a reserved bit, a device without the peer bit, a hardware type. A start
message leaves only a keystone context in service mode (R333). -/
def headerBad (start : Bool) (h : Nat) : Bool :=
  bits h 14 2 != 0 || (!bit h 12 && bits h 8 4 != 0) || (decide (0xF0 ≤ h % 256) && !(start && h % 256 == 0xFC))

/-- The context may send a start message. -/
def mayStart (s : State) : Bool := isKeystone s.curCore && s.me.mode != .user

/-! Handing over. -/

/-- The slot's previous message that has been refused and still awaits its grant (R300). -/
def awaitsGrant (s : State) (c k : Nat) : Option Msg :=
  match s.held.find? fun h => h.msg.srcCore == c && h.msg.srcSlot == k with
  | some h => some h.msg
  | none => (s.nacks.find? fun n => n.msg.srcCore == c && n.msg.srcSlot == k).map Nack.msg

/-- The current slot's message (R297). -/
def msgOf (s : State) (dst : Nat) (h : Nat) (l : List Word) : Msg :=
  let m := mkMsg (s.partyAt s.curCore s.curSlot) s.curCore s.curSlot s.me.tenant dst h l
  { m with ctx := s.me.ctxCount, peer := headerPeer h }

/-- Header and payload bytes of held messages (R300). -/
def heldBytes (l : List Msg) : Nat := l.foldl (fun n m => n + 8 + 8 * m.payload.length) 0

/-- The party that a SEND waits for (R295). -/
def grantParty (m : Msg) : Nat :=
  match m.peer with
  | some d => peerParty d
  | none => anyParty m.dst

/-- Send from state `t` (R298, R300); `s` is the state before issue. -/
def handOver (reads : List Nat) (rx : Bool) (m : Msg) (s t : State) : State :=
  let y := t.me
  let l := y.heldMsgs ++ [m]
  if y.holds = .activation ∧ y.exposed = false ∧ l.length ≤ 16 ∧ heldBytes l ≤ 1024 then
    complete 4 (t.modMe fun y => { y with heldMsgs := l })
  else exposing reads [] s t fun t =>
    let t := if rx then t else drainMe t
    if !rx && m.peer.isSome && hostWritesOf t (t.agentAt t.curCore t.curSlot) then stallOp reads [] s t
    else match awaitsGrant t t.curCore t.curSlot with
      | some m' => waitFor 1 0x10 false [grantParty m'] (unpop s t)
      | none => complete 4 (netSend m t)

/-- A send form (R298): destination, header, payload, release, hand-over. -/
def sendOp (a b : Nat) (rx : Bool) (payload : State → Res (List Word)) (trap : Exc → State → State) (s : State) : State :=
  match issue [a, b] [] s with
  | .stop t => t
  | .go vs t =>
    let r := vs.getD 0 .zero
    let h := (vs.getD 1 .zero).word.toNat
    match destOf t.curCore r with
    | .error cause => trapMe cause r.cursor s
    | .ok dst =>
      if headerBad (mayStart s) h then trapMe 0x04 h s
      else match payload t with
        | .exc e _ => trap e s
        | .stall t => stallOp [a, b] [] s t
        | .ok l t => handOver [a, b] rx (msgOf t dst h l) s t

/-- The first `n` doublewords of a list of bytes. -/
def wordsOf (l : List Byte) (n : Nat) : List Word :=
  (List.range n).map fun i => BitVec.ofNat 64 (leNat ((l.drop (8 * i)).take 8))

/-- SENDB's payload: loads of 8n bytes at the cursor of cd (R298). -/
def payloadBytes (r : Reg) (n : Nat) (s : State) : Res (List Word) :=
  if n = 0 then .ok [] s
  else
    let w := whoMe s
    (memCheck w r r.cursor (8 * n) 1 8 1 s).bind fun va s => (loadAt w va (8 * n) 0 0 s).bind fun x s =>
      .ok (wordsOf (overlay w va x s).bytes n) (trainMe va (8 * n) s)

def execSend (d a b n : Nat) (rx : Bool) (s : State) : Outcome State Fault Refusal :=
  .next (sendOp a b rx (fun t => .ok ((List.range n).map fun i => (t.me.cr (d + i)).word) t) (fun _ s => s) s)

def execSendv (d a b n : Nat) (rx : Bool) (s : State) : Outcome State Fault Refusal :=
  .next (sendOp a b rx (fun t => .ok ((List.range n).map fun i => BitVec.extractLsb' (64 * i) 64 (t.me.vr d)) t)
    (fun _ s => s) s)

def execSendb (d a b n : Nat) (rx : Bool) (s : State) : Outcome State Fault Refusal :=
  .next (sendOp a b rx (fun t => payloadBytes (t.me.cr d) n t) (raise ⟨(s.me.cr d).cursor, 8 * n, false, false⟩) s)

/-! Inside an activation. -/

/-- MDONE (R301): the buffer drains, held messages leave, the slot is free; a task's activation leaves it STOPPED (R316). -/
def mdone (s : State) : State :=
  let y := s.me
  let c := s.curCore
  let k := s.curSlot
  if y.holds ≠ .activation then illegal s
  else match (drainCommit c k s).bind fun _ t => releaseHeld c k t with
    | .exc e _ => raiseDrain e s
    | .stall t => stallMe t
    | .ok _ t =>
      let t := endContext c k t
      match y.task with
      | some id => endTask id 0 true t
      | none => t

def execMdone (s : State) : Outcome State Fault Refusal := .next (mdone s)
def execCMdone (s : State) : Outcome State Fault Refusal := .next (mdone s)

/-- A destination written from the activation's message; 0 in a thread (R301). -/
def fromMessage (d : Nat) (f : Slot → Nat) (s : State) : State :=
  match issue [] [d] s with
  | .stop t => t
  | .go _ t => complete 4 (writeField d (.ofNat (if t.me.holds = .activation then f t.me else 0)) t)

def execMlen (d : Nat) (s : State) : Outcome State Fault Refusal :=
  .next (fromMessage d (fun y => bits y.header.toNat 16 5) s)
def execMsrc (d : Nat) (s : State) : Outcome State Fault Refusal := .next (fromMessage d Slot.sender s)

end Sys2Proof.Machine
end

