-- ==== Sys2Proof/Machine/Thread.lean ====
section
/-! DEFINITION. Threads (R302 to R305): SPAWN, EXIT, YIELD, KILL, PRIO, WAITC, and declared waits (R309). -/

namespace Sys2Proof.Machine

open Host (Outcome)

/-! SPAWN (R302). -/

/-- The outstanding spawns of a context, oldest first: child and core. -/
def spawnsOf (s : State) (uid : Nat) : List (Nat × Nat) := (s.spawned.filter fun p => p.1 == uid).map Prod.snd

/-- The status of a spawn: 2 the thread's own limit, 1 the tenant's limit, 0 neither. -/
def spawnStatus (s : State) : Nat :=
  let y := s.me
  if y.spawnlim ≤ (spawnsOf s y.uid).length then 2
  else if tableRead s (descAddr s y.tenant + 0x10) 4 ≤ liveThreads s y.tenant then 1
  else 0

/-- The spawn message: the entry, c0 to c3, and the spawner's domain, PRIO and SPAWNLIM (R302, R334); the child's name is the next. -/
def spawnMsg (s : State) (dst : Nat) (entry : Reg) : Msg :=
  let y := s.me
  let party := s.partyAt s.curCore s.curSlot
  let f : Frame := ⟨false, party, y.domain, false, false, entry, y.c.filter fun p => decide (p.1 < 4), y.prio, 0, y.spawnlim, false, s.nextUid⟩
  { mkMsg party s.curCore s.curSlot y.tenant dst 0xFE [] with ctx := y.ctxCount, frame := some f }

/-- The wait of SPAWN.W: the core that receives the oldest outstanding spawn, or service (R295). -/
def spawnWait (s : State) (status : Nat) : Nat :=
  if status = 2 then anyParty ((spawnsOf s s.me.uid).headD (0, 0)).2 else serviceParty s.curCore

def spawnOp (d a b : Nat) (wait : Bool) (s : State) : State :=
  match issue [a, b] [d] s with
  | .stop t => t
  | .go vs t =>
    let r := vs.getD 0 .zero
    let e := vs.getD 1 .zero
    match destOf t.curCore r with
    | .error cause => trapMe cause r.cursor s
    | .ok dst =>
      if isKeystone dst then trapMe 0x14 r.cursor s
      else match capCheck e e.cursor 4 4 1 with
        | some cause => trapMe cause e.cursor s
        | none =>
          let st := spawnStatus t
          if st ≠ 0 then
            if wait && !(st == 2 && t.me.spawnlim == 0) then waitFor 1 0x11 false [spawnWait t st] (unpop s t)
            else exposing [a, b] [d] s t fun t => complete 4 (writeField d (.ofNat st) t)
          else exposing [a, b] [d] s t fun t =>
            let m := spawnMsg t dst e
            let t := addLive t.me.tenant 1 (drainMe t)
            let t := { t with nextUid := t.nextUid + 1, spawned := t.spawned ++ [(t.me.uid, t.nextUid, dst)] }
            complete 4 (writeField d .zero (netSend m t))

def execSpawn (d a b : Nat) (s : State) : Outcome State Fault Refusal := .next (spawnOp d a b false s)
def execSpawnW (d a b : Nat) (s : State) : Outcome State Fault Refusal := .next (spawnOp d a b true s)

/-! EXIT and YIELD (R303). -/

def execExit (s : State) : Outcome State Fault Refusal :=
  if s.me.holds = .activation then .next (illegal s) else .next (endContext s.curCore s.curSlot (drainMe s))

/-- The pointer of a slot's priority is set to the slot (R303, R341). -/
def pointAt (c k : Nat) (s : State) : State :=
  s.modCore c fun x => { x with rr := SMap.put x.rr (s.slot c k).prio k }

def execYield (s : State) : Outcome State Fault Refusal := .next (complete 4 (pointAt s.curCore s.curSlot s))
def execCYield (s : State) : Outcome State Fault Refusal := .next (complete 2 (pointAt s.curCore s.curSlot s))

/-! KILL (R304, R325). -/

/-- Every slot of a core that holds a context. -/
def contextsOf (s : State) (c : Nat) : List (Nat × Nat) :=
  ((List.range (min 7 (numSlots c))).filter fun k => (s.slot c k).holds == .thread || (s.slot c k).holds == .activation).map
    fun k => (c, k)

/-- The slots whose activation is a given task's. -/
def taskSlots (s : State) (id : Nat) : List (Nat × Nat) :=
  s.cores.flatMap fun (p : Nat × Core) => (p.2.slots.filter fun q => q.2.task == some id).map fun q => (p.1, q.1)

/-- The contexts that a party id names for KILL (R304). -/
def killNamed (s : State) (p : Nat) : List (Nat × Nat) :=
  if pKind p = 5 then taskSlots s p
  else if pKind p = 0 ∧ pIndex p = 0x7FFF then (match pWhere p with | some c => contextsOf s c | none => [])
  else match slotOfParty s p with
    | some (c, k) => (contextsOf s c).filter fun q => q == (c, k) && s.partyAt c k == p
    | none => []

/-- Those of one tenant, or of every tenant (R325). -/
def killTargets (s : State) (p : Nat) (tenant : Option Nat) : List (Nat × Nat) :=
  (killNamed s p).filter fun q => match tenant with
    | some t => (s.slot q.1 q.2).tenant == t
    | none => true

/-- A task that no slot runs becomes DEAD at once: a message of its on its way or in an absence buffer, a parked or saved activation of
its and one that waits to be delivered again are dropped (R304). -/
def killTask (id : Nat) (tenant : Option Nat) (s : State) : State :=
  match SMap.find s.tasks (taskIndex id) with
  | some t =>
    if id = taskParty (taskIndex id / 256) (taskIndex id % 256) ∧ (tenant = none ∨ tenant = some t.tenant)
        ∧ (t.st = .pending ∨ t.st = .sent ∨ (t.st = .running ∧ (taskSlots s id).isEmpty)) then
      endTask id 0 false { s with
        net := s.net.filter fun m => m.sender != id
        held := s.held.filter fun h => h.msg.sender != id
        nacks := s.nacks.filter fun h => h.msg.sender != id
        absentHeld := s.absentHeld.filter fun h => h.2.sender != id
        absence := s.absence.map fun (p : Nat × List Msg) => (p.1, p.2.filter fun m => m.sender != id)
        saved := s.saved.map fun (p : Nat × Core) => (p.1, { p.2 with slots := p.2.slots.filter fun q => q.2.task != some id })
        cores := s.cores.map fun (p : Nat × Core) => (p.1, { p.2 with
          parked := p.2.parked.filter fun q => q.slot.task != some id
          backoff := p.2.backoff.filter fun q => q.2.sender != id }) }
    else s
  | none => s

/-- A composed core whose context is parked becomes DEAD at once: its frame is free, and its members reopen (R304, R320). -/
def killParked (p : Nat) (tenant : Option Nat) (s : State) : State :=
  match (if pKind p = 6 then pWhere p else none) with
  | none => s
  | some c => match (s.core c).comp, (s.core c).parked.find? fun q => q.slot.composed with
    | some g, some q =>
      if g.lead = c ∧ g.size = pIndex p ∧ g.running ∧ (tenant = none ∨ tenant = some q.slot.tenant) then
        endComposed c .dead (threadEnds q.slot (s.modCore c fun x => { x with parked := x.parked.erase q }))
      else s
    | _, _ => s

/-- The mark that a KILL has been applied to its targets and waits for them to be DEAD. -/
def killMark : Nat := 2 ^ 52 + 1

/-- KILL and PKILL: the targets are marked once, and the instruction completes when none of them is left. -/
def killOp (a : Nat) (any : Bool) (s : State) : State :=
  match issue [a] [] s with
  | .stop t => t
  | .go vs t => exposing [a] [] s t fun t =>
    let p := (vs.getD 0 .zero).nat % 2 ^ 32
    let tenant := if any then none else some t.me.tenant
    let t := if t.me.replies.any fun r => r.va == killMark then t
      else
        let l := killTargets t p tenant
        let t := l.foldl (fun u q => u.modSlot q.1 q.2 fun y => { y with killPend := true }) (killParked p tenant (killTask p tenant t))
        t.modMe fun y => { y with replies := y.replies ++ [⟨killMark, [], [], false, 0⟩] }
    if (killTargets t p tenant).any fun q => (t.slot q.1 q.2).killPend then stallOp [a] [] s t else complete 4 t

def execKill (a : Nat) (s : State) : Outcome State Fault Refusal := .next (killOp a false s)

/-- A pending kill takes effect at the target's boundary or wait (R304, R369). -/
def execKillApply (c k : Nat) (s : State) : Outcome State Fault Refusal :=
  .next (if (s.slot c k).killPend then killSlot c k 0 s else s)

/-! PRIO and WAITC (R304, R305). -/

def execPrio (a : Nat) (s : State) : Outcome State Fault Refusal :=
  match issue [a] [] s with
  | .stop t => .next t
  | .go vs t =>
    let p := (vs.getD 0 .zero).nat % 16
    .next (complete 4 (t.modMe fun y => { y with prio := if t.curSlot = 6 then max 14 p else p }))

def execWaitc (n a : Nat) (s : State) : Outcome State Fault Refusal :=
  match issue [a] [] s with
  | .stop t => .next t
  | .go vs t =>
    if (vs.getD 0 .zero).nat % 2 ^ 32 ≤ SMap.get 0 (t.core t.curCore).cnt n then .next (complete 4 t)
    else .next (waitFor 1 0x05 false [serviceParty t.curCore] (unpop s t))

/-! Declared waits (R309). -/

/-- The record of a WDECL over the low words of c(a) to c(a + n − 1). -/
def declareWait (a n mode : Nat) (s : State) : State :=
  let y := s.me
  let l := (List.range n).map fun i => (y.cr (a + i)).nat % 2 ^ 32
  (complete 4 s).modMe fun y => { y with
    wait := WaitRec.mk' y.wait.gen mode 0x0F false l, waitSince := s.clock, overCount := 0 }

def execWdeclOne (a : Nat) (s : State) : Outcome State Fault Refusal := .next (declareWait a 1 1 s)
def execWdeclAll (a n : Nat) (s : State) : Outcome State Fault Refusal := .next (declareWait a n 2 s)
def execWdeclAny (a n : Nat) (s : State) : Outcome State Fault Refusal := .next (declareWait a n 3 s)

/-- WCLR: mode 0 and RUN. -/
def execWclr (s : State) : Outcome State Fault Refusal :=
  .next ((complete 4 s).modMe fun y => y.endWait s.clock)

end Sys2Proof.Machine
end

