-- ==== Sys2Proof/Machine/Barrier.lean ====
section
/-! DEFINITION. Barrier groups (R306 to R308). -/

namespace Sys2Proof.Machine

open Host (Outcome)

def Group.none : Group := ⟨Option.none, false, false, 0, [], 0, Option.none, [], 0, [], [], [], 0⟩

def State.group (s : State) (g : Nat) : Group := SMap.get Group.none s.groups g
def State.setGroup (s : State) (g : Nat) (x : Group) : State :=
  { s with groups := SMap.put s.groups g { x with gen := (x.gen + 1) % 2 ^ 16 } }

/-- The current generation is complete (R306). -/
def Group.complete (x : Group) : Bool :=
  x.valid && (if x.byteMode then decide (x.target ≤ x.bytes)
    else x.members.all fun m => decide (m.2 ≤ SMap.get 0 x.arrived m.1))

/-- The next generation becomes current: the pending membership if there is one, carried arrivals applied (R306). -/
def Group.advance (x : Group) : Group :=
  let excess := if x.byteMode then x.bytes - x.target else 0
  let (mode, members, target) := x.pending.getD (x.byteMode, x.members, x.target)
  let keep := if mode then [] else x.carried.filter fun p => SMap.has members p.1
  { x with
    generation := (x.generation + 1) % 2 ^ 16
    byteMode := mode
    members := members
    target := target
    pending := Option.none
    arrived := keep.map fun p => (p.1, min p.2 (SMap.get 0 members p.1))
    carried := keep.map fun p => (p.1, p.2 - SMap.get 0 members p.1)
    bytes := if mode then excess else 0 }

/-- Complete as many generations as are complete, up to the given number. -/
def Group.settle : Nat → Group → Group
  | 0, x => x
  | n + 1, x => if x.complete then Group.settle n x.advance else x

/-- Every generation that arrivals so far complete. -/
def Group.settled (x : Group) : Group :=
  x.settle (1 + (if x.byteMode then x.bytes else x.carried.foldl (fun n p => n + p.2) 1))

/-- One arrival of core `c`: the group after it, `none` where it is refused (R306). -/
def Group.arrive (x : Group) (c : Nat) : Option Group :=
  let n := SMap.get 0 x.made c + 1
  let y := { x with made := SMap.put x.made c n, last := SMap.put x.last c (.arrival n) }
  let carry : Group := { y with carried := SMap.put x.carried c (SMap.get 0 x.carried c + 1) }
  if !x.valid then Option.none
  else if x.byteMode then some { x with last := SMap.put x.last c (.generation x.generation) }.settled
  else if SMap.has x.members c then
    if SMap.get 0 x.arrived c < SMap.get 0 x.members c then
      some { y with arrived := SMap.put x.arrived c (SMap.get 0 x.arrived c + 1) }.settled
    else some carry
  else match x.pending with
    | some (false, l, _) => if SMap.has l c then some carry else Option.none
    | _ => Option.none

/-- An arrival of `n` bytes at a byte-mode group of a tenant (R80, R306). -/
def arriveBytes (g tenant n : Nat) (s : State) : Option State :=
  let x := s.group g
  if x.tenant = some tenant ∧ x.valid ∧ x.byteMode then some (s.setGroup g ({ x with bytes := x.bytes + n }).settled)
  else Option.none

/-- What a slot of core `c` waits for has come to pass (R308): the current generation lies after the awaited one, modulo 2^16, or
the awaited arrival is neither counted in the current generation nor carried to a later one. A carried arrival that a new membership
discards is awaited no longer (DESIGN CHOICE, log 107). -/
def Group.past (x : Group) (c : Nat) (a : BarAwait) : Bool :=
  match a with
  | .generation g =>
    let d := (x.generation + 2 ^ 16 - g % 2 ^ 16) % 2 ^ 16
    decide (0 < d) && decide (d < 2 ^ 15)
  | .arrival n => decide (n + SMap.get 0 x.arrived c + SMap.get 0 x.carried c ≤ SMap.get 0 x.made c)

/-- The group operand and the state after issue, for the three forms of R308. -/
def arriveMe (g : Nat) (s : State) : Option State :=
  let x := s.group g
  if x.tenant = some s.me.tenant then (x.arrive s.curCore).map fun x => s.setGroup g x else Option.none

/-- BARR: a release, then one arrival; a refused one takes cause 0x06 (R306, R308). -/
def execBarr (a : Nat) (s : State) : Outcome State Fault Refusal :=
  match issue [a] [] s with
  | .stop t => .next t
  | .go vs t =>
    let r := vs.getD 0 .zero
    .next (exposing [a] [] s t fun t => match arriveMe (r.nat % 1024) (drainMe t) with
      | some t => complete 4 t
      | Option.none => serviceMe 0x06 r.word.toNat 0 (unpop s t))

/-- The wait of BARW (R308): what it waits for is kept with the instruction. -/
def awaitGroup (g : Nat) (x : BarAwait) (s t : State) : State :=
  if (t.group g).past t.curCore x then complete 4 (t.modMe fun y => { y with barGroup := Option.none })
  else waitFor 2 0x06 true [groupParty g] ((unpop s t).modMe fun y => { y with barGroup := some (y.pc, g, x) })

/-- What the instruction at this address already waits for. -/
def awaited (g : Nat) (s : State) : Option BarAwait :=
  match s.me.barGroup with
  | some (pc, h, x) => if pc = s.me.pc ∧ h = g then some x else Option.none
  | Option.none => Option.none

/-- The last arrival of core `c`, or the current generation when it has never arrived (R308). -/
def Group.lastOf (x : Group) (c : Nat) : BarAwait := SMap.get (.generation x.generation) x.last c

def execBarw (a : Nat) (s : State) : Outcome State Fault Refusal :=
  match issue [a] [] s with
  | .stop t => .next t
  | .go vs t =>
    let g := (vs.getD 0 .zero).nat % 1024
    .next (awaitGroup g ((awaited g t).getD ((t.group g).lastOf t.curCore)) s t)

def execBaraw (a : Nat) (s : State) : Outcome State Fault Refusal :=
  match issue [a] [] s with
  | .stop t => .next t
  | .go vs t =>
    let r := vs.getD 0 .zero
    let g := r.nat % 1024
    match awaited g t with
    | some x => .next (awaitGroup g x s t)
    | Option.none => .next (exposing [a] [] s t fun t =>
      match arriveMe g (drainMe t) with
      | some t => awaitGroup g ((t.group g).lastOf t.curCore) s t
      | Option.none => serviceMe 0x06 r.word.toNat 0 (unpop s t))

/-! BARSET (R307). -/

/-- The membership of a descriptor's bytes: byte mode, members, byte target; `none` where it breaks the table. -/
def membership (w0 : Nat) (l : List Byte) : Option (Bool × SMap Nat × Nat) :=
  let target := bits w0 32 32
  let e := bits w0 16 13
  let entries := (List.range e).map fun i => leNat ((l.drop (8 + 4 * i)).take 4)
  let cores := entries.map fun x => bits x 0 13
  if bits w0 29 3 ≠ 0 ∨ bits w0 2 14 ≠ 0 then Option.none
  else match bits w0 0 2 with
    | 0 =>
      if target = 0 ∧ 1 ≤ e ∧ e ≤ 6144 ∧ entries.all (fun x => bits x 13 3 == 0 && decide (0 < bits x 16 16)
          && decide (bits x 0 13 < numSmall)) ∧ cores.eraseDups.length = e then
        some (false, entries.foldl (fun m x => SMap.put m (bits x 0 13) (bits x 16 16)) [], 0)
      else Option.none
    | 1 => if 1 ≤ target ∧ e = 0 then some (true, [], target) else Option.none
    | _ => Option.none

/-- Bytes of a descriptor with the given first doubleword. -/
def descriptorLen (w0 : Nat) : Nat := if bits w0 0 2 = 0 then 8 + 4 * bits w0 16 13 else 8

/-- The pending membership; with no membership, generation 0 at once (R307). -/
def Group.define (x : Group) (m : Bool × SMap Nat × Nat) : Group :=
  if x.valid then { x with pending := some m }
  else { x with
    valid := true, byteMode := m.1, generation := 0, members := m.2.1, target := m.2.2, pending := Option.none
    arrived := [], bytes := 0, carried := [], made := [], last := [] }

/-- The group that the context may define: its tenant's, or for service code one that nobody owns (log 14). -/
def ownGroup (g : Nat) (s : State) : Option Group :=
  let x := s.group g
  match x.tenant with
  | some t => if t = s.me.tenant then some x else Option.none
  | Option.none => if s.me.mode = .user then Option.none else some { x with tenant := some s.me.tenant }

def execBarset (a b : Nat) (s : State) : Outcome State Fault Refusal :=
  match issue [a, b] [] s with
  | .stop t => .next t
  | .go vs t =>
    let ga := vs.getD 0 .zero
    let r := vs.getD 1 .zero
    let acc : Acc := ⟨r.cursor, 8, false, false⟩
    match ownGroup (ga.nat % 1024) t with
    | Option.none => .next (serviceMe 0x06 ga.word.toNat 0 s)
    | some x =>
      let w := whoMe t
      let load (n : Nat) (t : State) : Res Loaded :=
        (memCheck w r r.cursor n 1 8 1 t).bind fun va t => (loadAt w va n 0 0 t).bind fun x t =>
          .ok (overlay w va x t) (trainMe va n t)
      match (load 8 t).bind fun x t => (load (descriptorLen (leNat x.bytes)) t).bind fun y t =>
          .ok (leNat x.bytes, y.bytes) t with
      | .exc e _ => .next (raise acc e s)
      | .stall t => .next (stallOp [a, b] [] s t)
      | .ok (w0, l) t =>
        match membership w0 l with
        | Option.none => .next (serviceMe 0x06 r.cursor 0 s)
        | some m => .next (complete 4 (t.setGroup (ga.nat % 1024) (x.define m)))

end Sys2Proof.Machine
end

