-- ==== Sys2Proof/Machine/Branch.lean ====
section
/-! DEFINITION. Branches and jumps (R251 to R254) and their compact forms (R231). -/

namespace Sys2Proof.Machine

open Host (Outcome)

/-- PCC moved by a number of bytes from the instruction's own address. -/
def pccAt (s : State) (off : Int) : Reg :=
  s.me.pcc.withCursor (((s.me.pc : Int) + off) % 2 ^ 52).toNat

/-- The link: PCC with its cursor at the next instruction (R251). -/
def linkOf (s : State) : Reg := pccAt s 4

/-- A conditional branch (R252): the offset counts halfwords, `len` is the branch's own length. -/
def branchOp (len a b : Nat) (off : Int) (p : Word → Word → Bool) (s : State) : State :=
  match issue [a, b] [] s with
  | .stop t => t
  | .go vs t =>
    if p (vs.getD 0 .zero).word (vs.getD 1 .zero).word then completeAt (pccAt s (off * 2)) t else complete len t

def execBeq (a b : Nat) (off : Int) (s : State) : Outcome State Fault Refusal := .next (branchOp 4 a b off condEq s)
def execBne (a b : Nat) (off : Int) (s : State) : Outcome State Fault Refusal := .next (branchOp 4 a b off condNe s)
def execBlt (a b : Nat) (off : Int) (s : State) : Outcome State Fault Refusal := .next (branchOp 4 a b off condLt s)
def execBge (a b : Nat) (off : Int) (s : State) : Outcome State Fault Refusal := .next (branchOp 4 a b off condGe s)
def execBltu (a b : Nat) (off : Int) (s : State) : Outcome State Fault Refusal := .next (branchOp 4 a b off condLtu s)
def execBgeu (a b : Nat) (off : Int) (s : State) : Outcome State Fault Refusal := .next (branchOp 4 a b off condGeu s)

/-- JAL: the link is written, then the jump is taken (R253). -/
def execJal (d : Nat) (off : Int) (s : State) : Outcome State Fault Refusal :=
  match issue [] [d] s with
  | .stop t => .next t
  | .go _ t => .next (completeAt (pccAt s (off * 2)) (writeField d (linkOf s) t))

/-- A jump through a capability (R254). -/
def jalrOp (d a : Nat) (imm : Int) (s : State) : State :=
  match issue [a] [d] s with
  | .stop t => t
  | .go vs t =>
    let r := vs.getD 0 .zero
    let target := (((r.cursor : Int) + imm) % 2 ^ 52).toNat
    if !r.tag then trapMe 0x02 target s
    else if !r.canExec then trapMe 0x04 target s
    else completeAt (r.withCursor target) (writeField d (linkOf s) t)

def execJalr (d a : Nat) (imm : Int) (s : State) : Outcome State Fault Refusal := .next (jalrOp d a imm s)

def execCBeqz (a : Nat) (off : Int) (s : State) : Outcome State Fault Refusal := .next (branchOp 2 a 29 off condEq s)
def execCBnez (a : Nat) (off : Int) (s : State) : Outcome State Fault Refusal := .next (branchOp 2 a 29 off condNe s)
def execCJ (off : Int) (s : State) : Outcome State Fault Refusal := .next (completeAt (pccAt s (off * 2)) s)
def execCJr (a : Nat) (s : State) : Outcome State Fault Refusal := .next (jalrOp 29 a 0 s)

end Sys2Proof.Machine
end

