-- ==== Sys2Proof/Machine/Capability.lean ====
section
/-! DEFINITION. Capability instructions (R243 to R250) and C.MOV, C.CINC (R231). -/

namespace Sys2Proof.Machine

open Host (Outcome)

/-- The smallest exponent 0 to 15 that represents a length, with its mantissa (R245). -/
def lengthCode (len : Nat) : Option (Nat × Nat) :=
  (List.range 16).findSome? fun x =>
    let l := (len + 4 ^ x - 1) / 4 ^ x
    if l ≤ 4095 then some (x, l) else none

/-- The capability that CSETB derives, or the cause of its trap (R245). -/
def setBounds (a : Reg) (len : Nat) : Except Nat Reg :=
  if !a.tag then .error 0x02
  else match lengthCode len with
    | none => .error 0x03
    | some (x, l) =>
      if a.cursor < a.base ∨ a.top < a.cursor + l * 4 ^ x then .error 0x03
      else .ok (mkCap a.perms x l a.cursor a.cursor)

/-- CINC: the cursor moves modulo 2^52, everything else stays (R246). -/
def moveCursor (a : Reg) (off : Int) : Reg := a.withCursor (((a.cursor : Int) + off) % 2 ^ 52).toNat

/-- CANDP: permission bits are kept where the mask has ones (R247). -/
def keepPerms (a : Reg) (mask : Nat) : Reg :=
  { a with raw := BitVec.ofNat 128 ((a.perms &&& mask % 256) * 2 ^ 120 + a.nat % 2 ^ 120) }

/-- The cursor lies in the bounds (R248). -/
def Reg.inBounds (a : Reg) : Bool := decide (a.base ≤ a.cursor) && decide (a.cursor + 1 ≤ a.top)

/-- The descriptor word of CGETP (R248). -/
def descriptor (a : Reg) : Nat :=
  a.perms + a.tag.toNat * 2 ^ 8 + a.lenX * 2 ^ 13 + a.lenL * 2 ^ 17 + a.inBounds.toNat * 2 ^ 29

/-- CSUB: the distance within one object (R248). -/
def capDistance (a b : Reg) : Word :=
  if a.tag && b.tag && a.base == b.base && a.length == b.length then wrap ((a.cursor : Int) - b.cursor)
  else 0x8000000000000000

/-- The relation word of CTEST (R248). -/
def relation (a b : Reg) : Nat :=
  a.tag.toNat + b.tag.toNat * 2 + (decide (a.base ≤ b.base) && decide (b.top ≤ a.top)).toNat * 4
    + (decide (b.perms &&& (255 - a.perms) = 0)).toNat * 8 + b.inBounds.toNat * 16 + a.inBounds.toNat * 32

/-- CSETB from the source and the requested length: TVAL is the length (R236). -/
def csetbOp (d : Nat) (a : Reg) (len : Nat) (s t : State) : State :=
  match setBounds a len with
  | .ok r => complete 4 (writeField d r t)
  | .error cause => trapMe cause len s

/-- A capability instruction that never traps: a, then b where there is one, gives the destination (R243). -/
def capOp (len d : Nat) (reads : List Nat) (f : Reg → Reg → Reg) (s : State) : State :=
  match issue reads [d] s with
  | .stop t => t
  | .go vs t => complete len (writeField d (f (vs.getD 0 .zero) (vs.getD 1 .zero)) t)

def execCsetb (d a b : Nat) (s : State) : Outcome State Fault Refusal :=
  match issue [a, b] [d] s with
  | .stop t => .next t
  | .go vs t => .next (csetbOp d (vs.getD 0 .zero) (vs.getD 1 .zero).word.toNat s t)

def execCsetbI (d a len : Nat) (s : State) : Outcome State Fault Refusal :=
  match issue [a] [d] s with
  | .stop t => .next t
  | .go vs t => .next (csetbOp d (vs.getD 0 .zero) len s t)

def execCinc (d a b : Nat) (s : State) : Outcome State Fault Refusal :=
  .next (capOp 4 d [a, b] (fun x y => moveCursor x y.word.toInt) s)
def execCincI (d a : Nat) (imm : Int) (s : State) : Outcome State Fault Refusal :=
  .next (capOp 4 d [a] (fun x _ => moveCursor x imm) s)
def execCandp (d a b : Nat) (s : State) : Outcome State Fault Refusal :=
  .next (capOp 4 d [a, b] (fun x y => keepPerms x y.word.toNat) s)
def execCandpI (d a mask : Nat) (s : State) : Outcome State Fault Refusal :=
  .next (capOp 4 d [a] (fun x _ => keepPerms x mask) s)
def execCsub (d a b : Nat) (s : State) : Outcome State Fault Refusal :=
  .next (capOp 4 d [a, b] (fun x y => .ofWord (capDistance x y)) s)
def execCtest (d a b : Nat) (s : State) : Outcome State Fault Refusal :=
  .next (capOp 4 d [a, b] (fun x y => .ofNat (relation x y)) s)
def execCgetb (d a : Nat) (s : State) : Outcome State Fault Refusal :=
  .next (capOp 4 d [a] (fun x _ => .ofNat x.base) s)
def execCgetl (d a : Nat) (s : State) : Outcome State Fault Refusal :=
  .next (capOp 4 d [a] (fun x _ => .ofNat x.length) s)
def execCgetp (d a : Nat) (s : State) : Outcome State Fault Refusal :=
  .next (capOp 4 d [a] (fun x _ => .ofNat (descriptor x)) s)
def execCgett (d a : Nat) (s : State) : Outcome State Fault Refusal :=
  .next (capOp 4 d [a] (fun x _ => .ofNat x.top) s)
def execCclr (d a : Nat) (s : State) : Outcome State Fault Refusal :=
  .next (capOp 4 d [a] (fun x _ => .ofNat x.cursor) s)
def execCmov (d a : Nat) (s : State) : Outcome State Fault Refusal := .next (capOp 4 d [a] (fun x _ => x) s)

/-- CPCREL: PCC with its cursor moved by halfwords (R250). -/
def execCpcrel (d : Nat) (off : Int) (s : State) : Outcome State Fault Refusal :=
  .next (capOp 4 d [] (fun _ _ => moveCursor s.me.pcc (off * 2)) s)

def execCMov (d a : Nat) (s : State) : Outcome State Fault Refusal := .next (capOp 2 d [a] (fun x _ => x) s)
def execCCinc (d : Nat) (imm : Int) (s : State) : Outcome State Fault Refusal :=
  .next (capOp 2 d [d] (fun x _ => moveCursor x (imm * 16)) s)

end Sys2Proof.Machine
end

