-- ==== Sys2Proof/Machine/Channel.lean ====
section
/-! DEFINITION. Channels (R310 to R313): each operation is performed at the header's home. -/

namespace Sys2Proof.Machine

open Host (Outcome)

/-- A channel as an operation finds it: header address, where it is, its home, the header's eight words. -/
structure Chan where
  va : Nat
  src : Src
  home : Nat
  hdr : List Nat
  deriving DecidableEq, Repr

def Chan.word (x : Chan) (i : Nat) : Nat := x.hdr.getD i 0
def Chan.closed (x : Chan) : Bool := bit (x.word 0) 63
def Chan.number (x : Chan) : Nat := bits (x.word 0) 32 15
def Chan.wide (x : Chan) : Bool := bit (x.word 0) 17
def Chan.capacity (x : Chan) : Nat := bits (x.word 0) 0 17
def Chan.puts (x : Chan) : Nat := bits (x.word 1) 32 32
def Chan.takes (x : Chan) : Nat := bits (x.word 1) 0 32
def Chan.entries (x : Chan) : Nat := (x.puts + 2 ^ 32 - x.takes) % 2 ^ 32
def Chan.registered (x : Chan) (p : Nat) : Bool := bit (x.word 2) p
def Chan.ended (x : Chan) (p : Nat) : Bool := bit (x.word 2) (8 + p)
def Chan.producerId (x : Chan) (p : Nat) : Nat := bits (x.word (3 + p / 2)) (p % 2 * 32) 32
def Chan.party (x : Chan) : Nat := partyOf 3 x.home x.number

/-- The registration of a party, if it has one (R311). -/
def Chan.producer (x : Chan) (party : Nat) : Option Nat :=
  (List.range 8).find? fun p => x.registered p && x.producerId p == party

/-- End of channel (R312). -/
def Chan.atEnd (x : Chan) : Bool :=
  (List.range 8).any x.registered && (List.range 8).all (fun p => !x.registered p || x.ended p) && x.entries == 0

/-- Replace bits `[lo + n - 1 : lo]` of a word. -/
def setBits (w lo n v : Nat) : Nat := w - bits w lo n * 2 ^ lo + v % 2 ^ n * 2 ^ lo

/-- Write one header word, as the owner does. -/
def Chan.setWord (x : Chan) (i v : Nat) (s : State) : State :=
  writeAt (x.src.plus (8 * i)) (x.va + 8 * i) (leBytes 8 v) false s

/-- The owner's own record of an open channel changes (R310, R352). -/
def Chan.note (x : Chan) (f : ChanInfo → ChanInfo) (s : State) : State :=
  s.modCore x.home fun y => { y with chans := y.chans.map fun (q : Nat × ChanInfo) =>
    (q.1, if q.2.isOpen ∧ q.2.va = x.va then { f q.2 with gen := (q.2.gen + 1) % 2 ^ 16 } else q.2) }

/-- The owner's record of an open channel, if there is one. -/
def Chan.info (x : Chan) (s : State) : Option ChanInfo :=
  ((s.core x.home).chans.find? fun q => q.2.isOpen && q.2.va == x.va).map fun q => q.2

/-- Check a channel operand over `n` bytes (R311): read and write, 64-byte aligned, on a page of this device (log 12); the domain's
rights over the header's line. -/
def chanCheck (w : Who) (r : Reg) (n : Nat) (s : State) : Res Nat :=
  let va := vaOf r.cursor
  match capCheck r r.cursor n 3 64 with
  | some cause => .exc (.vec cause va) s
  | none => if !inWindow va && onLink w va s then .exc (.vec 0x05 va) s else memCheck w r r.cursor 64 3 64 3 s

/-- The channel whose header is at a place, as it now stands; its reserved bits, [62:47] and [31:18] of word 0, are ignored (DESIGN
CHOICE, log 132). -/
def chanHere (src : Src) (va : Nat) (s : State) : Chan :=
  ⟨va, src, (match src with | .cached h _ => h | .bank c _ => c | _ => 0),
    (List.range 8).map fun i => leNat (readAt s (src.plus (8 * i)) (va + 8 * i) 8)⟩

/-- A channel operation of the current slot, the instruction `act`: it exposes an activation and then acts on the header in the
owner slot of its home (R310, R382); `served` when that performs it. -/
def chanOp (act : Instr) (reads writes : List Nat) (chan : List Reg → Reg) (size : List Reg → Nat) (release served : Bool)
    (f : Chan → List Reg → State → State) (s : State) : State :=
  match issue reads writes s with
  | .stop t => t
  | .go vs t =>
    let r := chan vs
    let acc : Acc := ⟨r.cursor, 64, true, false⟩
    let w := whoMe t
    let va := vaOf r.cursor
    if inFlight w 3 va t then stallOp reads writes s t
    else match (if served then .ok va t else chanCheck w r (size vs) t) with
    | .exc e _ => raise acc e s
    | .stall t => stallOp reads writes s t
    | .ok _ t => exposing reads writes s t fun t =>
      match locate w va 0 true (drainLine w.core w.slot va (if release then drainMe t else t)) with
      | .exc e u => raise acc e (unpop s u)
      | .stall u => stallOp reads writes s u
      | .ok src u =>
        if isLink src then raise acc (.vec 0x05 va) (unpop s u)
        else if poisonAt u src va 64 then raise acc (.poison va) (unpop s u)
        else atOwner act reads writes served src va s u fun u => f (chanHere src va u) vs u

/-- The channel closes (R313): the bit is set, the number is free, and whoever waits on it traps. -/
def closeChan (x : Chan) (s : State) : State :=
  let s := x.setWord 0 (setBits (x.word 0) 63 1 1) s
  let s := x.note (fun i => { i with isOpen := false }) s
  let waits (y : Slot) : Bool := y.chanWait == some x.party && (y.wait.reason == 7 || y.wait.reason == 8)
  let l := s.cores.flatMap fun (p : Nat × Core) => (p.2.slots.filter fun q => waits q.2).map fun q => (p.1, q.1)
  refreshTombs (l.foldl (fun t q => trapAt q.1 q.2 0x0C x.va (t.slot q.1 q.2).pc t) s)

/-- The lowest channel number not in use on a core (R311). -/
def freeNumber (s : State) (c : Nat) : Option Nat :=
  let used := ((s.core c).chans.filter fun q => q.2.isOpen).map fun q => q.1
  if 0x7FFF ≤ used.length then none else (List.range (used.length + 1)).find? fun n => !used.contains n

/-- CHOPEN (R311). -/
def chopen (d a b : Nat) (served : Bool) (s : State) : State :=
  let spec (v : List Reg) : Nat := (v.getD 1 .zero).word.toNat
  chanOp (.chopen d a b) [a, b] [d] (fun v => v.getD 0 .zero)
    (fun v => 64 + bits (spec v) 0 17 * (if bit (spec v) 17 then 16 else 8)) false served (fun x v t =>
      let b := spec v
      let cap := bits b 0 17
      if cap = 0 ∨ 65536 < cap then trapMe 0x0C b (unpop s t)
      else
        let u := match x.info t with
          | some _ => closeChan x t
          | none => t
        match freeNumber u x.home with
        | none => trapMe 0x0C b (unpop s t)
        | some n =>
          let hdr := n * 2 ^ 32 + (bit b 17).toNat * 2 ^ 17 + cap
          let u := writeAt x.src x.va (leBytes 8 hdr ++ List.replicate 56 0) false u
          let view := (whoMe u).view
          let u := u.modCore x.home fun y =>
            let g := match SMap.find y.chans n with | some i => i.gen + 1 | none => 0
            { y with chans := SMap.put y.chans n ⟨true, x.va, x.src, view, false, false, g % 2 ^ 16⟩ }
          complete 4 (writeField d (.ofNat (partyOf 3 x.home n)) u)) s

def execChopen (d a b : Nat) (s : State) : Outcome State Fault Refusal := .next (chopen d a b false s)

/-- A refused channel operation (R311) of an instruction issued in state `s`. -/
def refuseChan (x : Chan) (s t : State) : State := trapMe 0x0C x.va (unpop s t)

/-- CHPROD (R311). -/
def chprod (a : Nat) (served : Bool) (s : State) : State :=
  chanOp (.chprod a) [a] [] (fun v => v.getD 0 .zero) (fun _ => 64) false served (fun x _ t =>
    let party := t.partyAt t.curCore t.curSlot
    if x.closed then refuseChan x s t
    else match x.producer party, (List.range 8).find? fun p => !x.registered p with
      | some _, _ => complete 4 t
      | none, some p =>
        let t := x.setWord (3 + p / 2) (setBits (x.word (3 + p / 2)) (p % 2 * 32) 32 party) t
        complete 4 (x.note id (x.setWord 2 (setBits (x.word 2) p 1 1) t))
      | none, none => refuseChan x s t) s

def execChprod (a : Nat) (s : State) : Outcome State Fault Refusal := .next (chprod a false s)

/-- Where entry `i` of the ring is (R310). -/
def ringAt (x : Chan) (i : Nat) (write : Bool) (s : State) : Res (Nat × Src) :=
  let va := (x.va + 64 + i % x.capacity * (if x.wide then 16 else 8)) % 2 ^ 52
  (locate (whoMe s) va 0 write s).bind fun src s =>
    if isLink src then .exc (.vec 0x05 va) s else .ok (va, src) s

/-- The wait of CHPUT on a full ring (R295): the recorded consumer, or the channel; how the walker reads a consumer that is not the
only one is `readSlot`'s (R354). -/
def putWait (x : Chan) (s t : State) : State :=
  let t := (unpop s t).modMe fun y => { y with chanWait := some x.party }
  match x.info t with
  | some i => if i.consumer then waitFor 1 0x08 false [bits (x.word 7) 0 32] t
              else waitFor 1 0x08 true [x.party] t
  | none => waitFor 1 0x08 true [x.party] t

/-- CHPUT (R312). -/
def chput (a b : Nat) (served : Bool) (s : State) : State :=
  chanOp (.chput a b) [a, b] [] (fun v => v.getD 0 .zero) (fun _ => 64) true served (fun x v t =>
    match x.producer (t.partyAt t.curCore t.curSlot) with
    | none => refuseChan x s t
    | some p =>
      if x.closed || x.ended p then refuseChan x s t
      else if x.capacity ≤ x.entries then putWait x s t
      else match ringAt x x.puts true t with
        | .exc e u => raise ⟨x.va, 64, true, false⟩ e (unpop s u)
        | .stall u => stallOp [a, b] [] s u
        | .ok (va, src) t =>
          let t := writeAt src va (leBytes (if x.wide then 16 else 8) (v.getD 1 .zero).nat) false t
          complete 4 (x.note id (x.setWord 1 (setBits (x.word 1) 32 32 (x.puts + 1)) t))) s

def execChput (a b : Nat) (s : State) : Outcome State Fault Refusal := .next (chput a b false s)

/-- A CHGET records its caller, and one that has `taken` an entry counts it (R310, R312, R354). -/
def recordGet (x : Chan) (party : Nat) (taken : Bool) (s : State) : State :=
  let known := bits (x.word 7) 0 32 == party && (x.info s).all fun i => i.consumer
  let s := if known then s else x.setWord 7 party s
  let s := if taken then x.setWord 1 (setBits (x.word 1) 0 32 (x.takes + 1)) s else s
  if known && !taken then s
  else x.note (fun i => if known then i else { i with consumer := true, shared := i.shared || i.consumer }) s

/-- CHGET (R312). -/
def chget (d g a : Nat) (served : Bool) (s : State) : State :=
  chanOp (.chget d g a) [a] [d, g] (fun v => v.getD 0 .zero) (fun _ => 64) false served (fun x _ t =>
    let party := t.partyAt t.curCore t.curSlot
    if x.closed then refuseChan x s t
    else if x.entries ≠ 0 then
      match ringAt x x.takes false t with
      | .exc e u => raise ⟨x.va, 64, true, false⟩ e (unpop s u)
      | .stall u => stallOp [a] [d, g] s u
      | .ok (va, src) t =>
        let n := if x.wide then 16 else 8
        if poisonAt t src va n then raise ⟨x.va, 64, true, false⟩ (.poison va) (unpop s t)
        else
          let v := leNat (readAt t src va n)
          complete 4 (writeField g .zero (writeField d (.ofNat v) (recordGet x party true t)))
    else
      let t := recordGet x party false t
      if x.atEnd then complete 4 (writeField g (.ofNat 1) (writeField d .zero t))
      else waitFor 3 0x07 true [x.party] ((unpop s t).modMe fun y => { y with chanWait := some x.party })) s

def execChget (d g a : Nat) (s : State) : Outcome State Fault Refusal := .next (chget d g a false s)

/-- CHEOS (R313). -/
def cheos (a : Nat) (served : Bool) (s : State) : State :=
  chanOp (.cheos a) [a] [] (fun v => v.getD 0 .zero) (fun _ => 64) true served (fun x _ t =>
    match x.producer (t.partyAt t.curCore t.curSlot) with
    | none => refuseChan x s t
    | some p =>
      if x.closed then refuseChan x s t
      else complete 4 (x.note id (x.setWord 2 (setBits (x.word 2) (8 + p) 1 1) t))) s

def execCheos (a : Nat) (s : State) : Outcome State Fault Refusal := .next (cheos a false s)

/-- CHCLOSE (R313). -/
def chclose (a : Nat) (served : Bool) (s : State) : State :=
  chanOp (.chclose a) [a] [] (fun v => v.getD 0 .zero) (fun _ => 64) false served (fun x _ t =>
    if x.closed then refuseChan x s t else complete 4 (closeChan x t)) s

def execChclose (a : Nat) (s : State) : Outcome State Fault Refusal := .next (chclose a false s)

end Sys2Proof.Machine
end

