-- ==== Sys2Proof/Machine/Task.lean ====
section
/-! DEFINITION. Tasks at their gates (R314 to R316, R343). -/

namespace Sys2Proof.Machine

open Host (Outcome)

/-- The activation message of a task (R315): type, its id and the user word; the gate's tile sends it. -/
def taskMsg (key : Nat) (x : Task) : Msg :=
  let tile := key / 256
  let id := taskParty tile (key % 256)
  let ks := tileKeystone tile
  mkMsg id ks (256 + key % 256) x.tenant x.home x.typ [BitVec.ofNat 64 id, BitVec.ofNat 64 x.user]

/-- The wait record of a pending task (R315). -/
def taskWait (id gen : Nat) (preds : List Nat) : WaitRec :=
  if preds.length ≤ 4 then WaitRec.mk' gen 2 0x0C false preds else WaitRec.mk' gen 2 0x0C true [id]

/-- The predecessors that still hold a pending task back. -/
def stillWaits (s : State) (x : Task) : List Nat :=
  x.preds.filter fun id => match SMap.find s.tasks (taskIndex id) with
    | some u => decide (u.order < x.order) && dependsOn x.ranges u
    | none => false

/-- The gate tests one task again: it sends the activation of a task that nothing holds back (R343). -/
def recheckTask (key : Nat) (s : State) : State :=
  match SMap.find s.tasks key with
  | none => s
  | some x =>
    if x.st ≠ .pending then s
    else
      let l := stillWaits s x
      if l.isEmpty then
        netSend (taskMsg key x) { s with tasks := SMap.put s.tasks key { x with
          preds := [], st := .sent, wait := x.wait.clear, waitSince := s.clock } }
      else if l = x.preds then s
      else
        let w := taskWait (taskParty (key / 256) (key % 256)) x.wait.gen l
        { s with tasks := SMap.put s.tasks key { x with
          preds := l, wait := w
          waitSince := if w.targets = x.wait.targets then x.waitSince else s.clock
          overCount := 0 } }

/-- The keys of a gate's tasks in submission order. -/
def gateTasks (s : State) (tile : Nat) : List Nat :=
  let l := s.tasks.filter fun p => p.1 / 256 == tile
  (l.mergeSort fun a b => decide (a.2.order ≤ b.2.order)).map fun p => p.1

/-- The gate tests its waiting tasks in submission order (R343). -/
def recheckGate (tile : Nat) (s : State) : State := (gateTasks s tile).foldl (fun s k => recheckTask k s) s

/-! TSUB (R314). -/

/-- The cause and TVAL of a range that fails its checks. -/
def rangeFault (marks : Nat) (p : Reg × Nat) : Option (Nat × Nat) :=
  let r := p.1
  if !r.tag then some (0x02, r.cursor)
  else if r.top ≤ r.cursor then some (0x03, r.cursor)
  else if !(if bit marks (8 + p.2) then r.canWrite else r.canRead) then some (0x04, r.cursor)
  else none

/-- The home of range 0 (R315). -/
def taskHome (va : Nat) (s : State) : Res Nat :=
  if inWindow va then
    match windowAt s.curCore va with
    | some (c, _) => .ok c s
    | none => .exc (.vec 0x14 va) s
  else homeOf (whoMe s) va s

/-- A free task entry of a gate, if it also has `n` free range entries (R314). -/
def freeTask (s : State) (tile n : Nat) : Option Nat :=
  let l := s.tasks.filter fun p => p.1 / 256 == tile
  let used := l.foldl (fun m p => m + (p.2.ranges.filter fun r => r.released.isNone).length) 0
  if Config.rangeEntries < used + n then none
  else (List.range 256).find? fun e => !SMap.has s.tasks (tile * 256 + e)

/-- A new task enters its gate (R315, R343). -/
def submit (key : Nat) (ranges : List TRange) (typ user home : Nat) (s : State) : State :=
  let tile := key / 256
  let preds := (s.tasks.filter fun p => p.1 / 256 == tile && dependsOn ranges p.2).map fun p =>
    taskParty (p.1 / 256) (p.1 % 256)
  let order := s.taskOrder + 1
  let x : Task := ⟨s.me.tenant, order, ranges, typ, user, home, preds, .pending,
    taskWait (taskParty tile (key % 256)) 0 preds, s.clock, 0⟩
  recheckTask key { s with tasks := SMap.put s.tasks key x, taskOrder := order }

def execTsub (d a b n : Nat) (s : State) : Outcome State Fault Refusal :=
  let fields := (List.range n).map fun i => a + i
  match issue (b :: fields) [d] s with
  | .stop t => .next t
  | .go vs t =>
    let op := (vs.getD 0 .zero).word.toNat
    let caps := vs.drop 1
    match caps.zipIdx.findSome? (rangeFault op) with
    | some (cause, v) => .next (trapMe cause v s)
    | none =>
      if 0xF0 ≤ op % 256 then .next (trapMe 0x04 op s)
      else
        let va := (caps.getD 0 .zero).cursor
        match taskHome va t with
        | .exc e _ => .next (raise ⟨va, 1, false, false⟩ e s)
        | .stall t => .next (stallOp (b :: fields) [d] s t)
        | .ok home t => .next (exposing (b :: fields) [d] s t fun t =>
          let t := drainMe t
          let tile := globalTile t.curCore
          match freeTask t tile n with
          | none => complete 4 (writeField d .zero t)
          | some e =>
            let ranges := caps.zipIdx.map fun p => ⟨p.1.cursor, p.1.top, bit op (8 + p.2), none⟩
            complete 4 (writeField d (.ofNat (taskParty tile e)) (submit (tile * 256 + e) ranges (op % 256) (bits op 32 32) home t)))

/-! TREL, TDONE, TRETRY (R316). -/

/-- Release one range of a task, after `order` submissions; one already released stays as it is. -/
def Task.release (x : Task) (n order : Nat) : Task :=
  { x with ranges := x.ranges.zipIdx.map fun p =>
      if p.2 = n then { p.1 with released := some (p.1.released.getD order) } else p.1 }

def execTrel (n : Nat) (s : State) : Outcome State Fault Refusal :=
  match s.me.holds, s.me.task with
  | .activation, some id => .next (exposing [] [] s s fun t =>
    let t := drainMe t
    match SMap.find t.tasks (taskIndex id) with
    | some x => complete 4 (recheckGate (taskIndex id / 256)
        { t with tasks := SMap.put t.tasks (taskIndex id) (x.release n t.taskOrder) })
    | none => complete 4 t)
  | _, _ => .next (illegal s)

def execTdone (s : State) : Outcome State Fault Refusal :=
  match s.me.holds, s.me.task with
  | .activation, some id => .next (exposing [] [] s s fun t =>
    let t := (drainMe t).modMe fun y => { y with task := none }
    complete 4 (recheckGate (taskIndex id / 256) { t with tasks := SMap.del t.tasks (taskIndex id) }))
  | _, _ => .next (illegal s)

/-- TRETRY: the activation of a DEAD or STOPPED task is sent again (R316, R367). -/
def execTretry (a : Nat) (s : State) : Outcome State Fault Refusal :=
  if s.me.mode ≠ .service then .next (illegal s)
  else match issue [a] [] s with
    | .stop t => .next t
    | .go vs t =>
      let id := (vs.getD 0 .zero).nat % 2 ^ 32
      match SMap.find t.tasks (taskIndex id) with
      | some x =>
        if pKind id = 5 ∧ id = taskParty (taskIndex id / 256) (taskIndex id % 256) ∧ (x.st = .dead ∨ x.st = .stopped) then
          .next (complete 4 (netSend (taskMsg (taskIndex id) x) { t with
            tasks := SMap.put t.tasks (taskIndex id) { x with st := .sent, wait := x.wait.clear } }))
        else .next (complete 4 t)
      | none => .next (complete 4 t)

end Sys2Proof.Machine
end

