-- ==== Sys2Proof/Machine/Compose.lean ====
section
/-! DEFINITION. Composed cores (R320, R321). -/

namespace Sys2Proof.Machine

open Host (Outcome)

/-- COMPOSE is refused (R320): an activation, a keystone context, a composed core, a core not at a multiple of n, or a
member that belongs to a composition. -/
def composeBad (s : State) (n : Nat) : Bool :=
  let y := s.me
  let c := s.curCore
  y.holds == .activation || isKeystone c || y.composed || coreIn c % n != 0
    || (List.range n).any fun i => match (s.core (c + i)).comp with
      | some g => !(g.lead == c && g.slot == s.curSlot && g.size == n && !g.running)
      | none => false

/-- Slots 0 to 6 of every member, and of the lead but for this slot, that still hold a context (R320, R354). -/
def composeWaits (s : State) (c k n : Nat) : List (Nat × Nat) :=
  (List.range n).flatMap fun i => ((List.range 7).filter fun j => !(i == 0 && j == k)
    && ((s.slot (c + i) j).holds != .empty)).map fun j => (c + i, j)

/-- Bind the members to a lead. -/
def bind (g : Comp) (s : State) : State :=
  (List.range g.size).foldl (fun s i => s.modCore (g.lead + i) fun x => x.setComp (some g)) (s.modCore g.lead Core.bumpComp)

/-- A generation that differs from the one its party had before (R352). -/
def freshGen (old g : Nat) : Nat := if g = old then (g + 1) % 2 ^ 16 else g

/-- The composition starts: the thread in slot `k` becomes the composed core, whose party id is given anew, and its COMPOSE
completes (R320). -/
def composeNow (c k n : Nat) (s : State) : State :=
  (bind ⟨c, k, n, true⟩ s).modSlot c k fun y =>
    let z := y.complete s.clock 4
    { z with
      composed := true
      wait := { z.wait with gen := freshGen (SMap.get (.none, 0) (s.core c).ctombs n).2 z.wait.gen } }

/-- COMPOSE (R320). -/
def execCompose (n : Nat) (s : State) : Outcome State Fault Refusal :=
  let c := s.curCore
  let k := s.curSlot
  if composeBad s n then .next (trapMe 0x15 s.curWord s)
  else
    if (composeWaits s c k n).isEmpty then .next (composeNow c k n s)
    else .next (waitFor 2 0x0D true [composedParty c n] (if s.me.wait.reason = 0x0D then s else bind ⟨c, k, n, false⟩ s))

/-- A composition whose slots have emptied starts (R320). -/
def execComposeComplete (c k : Nat) (s : State) : Outcome State Fault Refusal :=
  match (s.core c).comp with
  | some g =>
    if g.lead = c ∧ g.slot = k ∧ g.running = false ∧ (s.slot c k).wait.reason = 0x0D ∧ (s.slot c k).halted = false
        ∧ (composeWaits s c k g.size).isEmpty then .next (composeNow c k g.size s)
    else .next s
  | none => .next s

/-- DECOMPOSE (R321). -/
def execDecompose (s : State) : Outcome State Fault Refusal :=
  if !s.me.composed then .next (trapMe 0x15 s.curWord s)
  else .next ((endComposed s.curCore .none (complete 4 s)).modMe fun y => { y with composed := false })

end Sys2Proof.Machine
end

