-- ==== Sys2Proof/WellFormed.lean ====
section
/-! DEFINITION. Which operands an instruction's encoding admits (R104, R213 to R217, R232). -/

namespace Sys2Proof

/-- A register field read as a source: c0 to c15, q2 to q7, p0 to p3, mi, z (R103, R104). -/
def srcOk (n : Nat) : Bool := decide (n < 16) || (decide (18 ≤ n) && decide (n ≤ 29))

/-- A register field written: c0 to c15, q0, q1, q6, q7, p0 to p3, z (R103, R104). -/
def dstOk (n : Nat) : Bool :=
  decide (n < 18) || (decide (22 ≤ n) && decide (n ≤ 27)) || decide (n = 29)

/-- A field that must name c0 to c15 or z (R215). -/
def capOk (n : Nat) : Bool := decide (n < 16) || decide (n = 29)

/-- Vector, mask, compact and engine register fields (R214, R230, R66). -/
def vecOk (n : Nat) : Bool := decide (n < 32)
def maskOk (n : Nat) : Bool := decide (n < 8)
def lowOk (n : Nat) : Bool := decide (n < 8)
def engOk (n : Nat) : Bool := decide (n < 16)

/-- Element widths: all four, and the floating ones (R213, R227). -/
def ewOk (n : Nat) : Bool := decide (n < 4)
def fewOk (n : Nat) : Bool := decide (1 ≤ n) && decide (n < 4)

/-- Immediates and offsets in the units of their field (R213, R66, R230). -/
def imm12Ok (x : Int) : Bool := decide (-2048 ≤ x) && decide (x < 2048)
def imm7Ok (x : Int) : Bool := decide (-64 ≤ x) && decide (x < 64)
def imm10Ok (x : Int) : Bool := decide (-512 ≤ x) && decide (x < 512)
def imm14Ok (x : Int) : Bool := decide (-8192 ≤ x) && decide (x < 8192)
def off20Ok (x : Int) : Bool := decide (-524288 ≤ x) && decide (x < 524288)
def imm26Ok (x : Int) : Bool := decide (-33554432 ≤ x) && decide (x < 33554432)

/-- Hint, scope and route of LOAD-X and STORE-X (R217, R222). -/
def modsOk (hint scope route : Nat) : Bool := decide (hint ≤ 2) && decide (scope ≤ 5) && decide (route ≤ 2)

/-- The scope of an atomic: non-zero exactly when aq or rl is 1 (R223). -/
def ordOk (aq rl : Bool) (scope : Nat) : Bool := decide (scope ≤ 5) && (decide (1 ≤ scope) == (aq || rl))

/-- The operand limits of each instruction (R214 to R232, R66 to R80, R160). A hardware event is not encoded and has no
limit here: one that names what the part does not have changes nothing. -/
def Instr.wf : Instr → Bool
  | .add d a b => dstOk d && srcOk a && srcOk b
  | .sub d a b => dstOk d && srcOk a && srcOk b
  | .mul d a b => dstOk d && srcOk a && srcOk b
  | .mulh d a b => dstOk d && srcOk a && srcOk b
  | .mulhu d a b => dstOk d && srcOk a && srcOk b
  | .div d a b => dstOk d && srcOk a && srcOk b
  | .divu d a b => dstOk d && srcOk a && srcOk b
  | .rem d a b => dstOk d && srcOk a && srcOk b
  | .remu d a b => dstOk d && srcOk a && srcOk b
  | .and d a b => dstOk d && srcOk a && srcOk b
  | .or d a b => dstOk d && srcOk a && srcOk b
  | .xor d a b => dstOk d && srcOk a && srcOk b
  | .andn d a b => dstOk d && srcOk a && srcOk b
  | .sll d a b => dstOk d && srcOk a && srcOk b
  | .srl d a b => dstOk d && srcOk a && srcOk b
  | .sra d a b => dstOk d && srcOk a && srcOk b
  | .rol d a b => dstOk d && srcOk a && srcOk b
  | .ror d a b => dstOk d && srcOk a && srcOk b
  | .slt d a b => dstOk d && srcOk a && srcOk b
  | .sltu d a b => dstOk d && srcOk a && srcOk b
  | .min d a b => dstOk d && srcOk a && srcOk b
  | .max d a b => dstOk d && srcOk a && srcOk b
  | .minu d a b => dstOk d && srcOk a && srcOk b
  | .maxu d a b => dstOk d && srcOk a && srcOk b
  | .clz d a => dstOk d && srcOk a
  | .ctz d a => dstOk d && srcOk a
  | .popc d a => dstOk d && srcOk a
  | .sel d a b g => dstOk d && srcOk a && srcOk b && srcOk g
  | .addi d a imm => dstOk d && srcOk a && imm12Ok imm
  | .slli d a amt => dstOk d && srcOk a && decide (amt < 64)
  | .srli d a amt => dstOk d && srcOk a && decide (amt < 64)
  | .srai d a amt => dstOk d && srcOk a && decide (amt < 64)
  | .andi d a imm => dstOk d && srcOk a && imm12Ok imm
  | .ori d a imm => dstOk d && srcOk a && imm12Ok imm
  | .xori d a imm => dstOk d && srcOk a && imm12Ok imm
  | .slti d a imm => dstOk d && srcOk a && imm12Ok imm
  | .sltui d a imm => dstOk d && srcOk a && imm12Ok imm
  | .lih d imm => dstOk d && decide (imm < 2 ^ 20)
  | .csetb d a b => capOk d && capOk a && srcOk b
  | .cinc d a b => capOk d && capOk a && srcOk b
  | .candp d a b => capOk d && capOk a && srcOk b
  | .csub d a b => dstOk d && capOk a && capOk b
  | .ctest d a b => dstOk d && capOk a && capOk b
  | .cgetb d a => dstOk d && capOk a
  | .cgetl d a => dstOk d && capOk a
  | .cgetp d a => dstOk d && capOk a
  | .cgett d a => dstOk d && capOk a
  | .cclr d a => capOk d && capOk a
  | .cmov d a => capOk d && capOk a
  | .cincI d a imm => capOk d && capOk a && imm12Ok imm
  | .csetbI d a len => capOk d && capOk a && decide (len < 2048)
  | .candpI d a mask => capOk d && capOk a && decide (mask < 256)
  | .cpcrel d off => capOk d && off20Ok off
  | .lb d a imm => dstOk d && capOk a && imm12Ok imm
  | .lbu d a imm => dstOk d && capOk a && imm12Ok imm
  | .lh d a imm => dstOk d && capOk a && imm12Ok imm
  | .lhu d a imm => dstOk d && capOk a && imm12Ok imm
  | .lw d a imm => dstOk d && capOk a && imm12Ok imm
  | .lwu d a imm => dstOk d && capOk a && imm12Ok imm
  | .ld d a imm => dstOk d && capOk a && imm12Ok imm
  | .lcap d a imm => capOk d && capOk a && imm12Ok imm
  | .sb b a imm => srcOk b && capOk a && imm12Ok imm
  | .sh b a imm => srcOk b && capOk a && imm12Ok imm
  | .sw b a imm => srcOk b && capOk a && imm12Ok imm
  | .sd b a imm => srcOk b && capOk a && imm12Ok imm
  | .sq b a imm => capOk b && capOk a && imm12Ok imm
  | .scap b a imm => capOk b && capOk a && imm12Ok imm
  | .lbX d a hint scope route => dstOk d && capOk a && modsOk hint scope route
  | .lbuX d a hint scope route => dstOk d && capOk a && modsOk hint scope route
  | .lhX d a hint scope route => dstOk d && capOk a && modsOk hint scope route
  | .lhuX d a hint scope route => dstOk d && capOk a && modsOk hint scope route
  | .lwX d a hint scope route => dstOk d && capOk a && modsOk hint scope route
  | .lwuX d a hint scope route => dstOk d && capOk a && modsOk hint scope route
  | .ldX d a hint scope route => dstOk d && capOk a && modsOk hint scope route
  | .lq d a hint scope route => capOk d && capOk a && modsOk hint scope route
  | .lcapX d a hint scope route => capOk d && capOk a && modsOk hint scope route
  | .home d a => dstOk d && capOk a
  | .migr a => capOk a
  | .migrF a => capOk a
  | .sbX b a hint scope route => srcOk b && capOk a && modsOk hint scope route
  | .shX b a hint scope route => srcOk b && capOk a && modsOk hint scope route
  | .swX b a hint scope route => srcOk b && capOk a && modsOk hint scope route
  | .sdX b a hint scope route => srcOk b && capOk a && modsOk hint scope route
  | .sqX b a hint scope route => capOk b && capOk a && modsOk hint scope route
  | .scapX b a hint scope route => capOk b && capOk a && modsOk hint scope route
  | .amoadd d b a _ aq rl scope => dstOk d && srcOk b && capOk a && ordOk aq rl scope
  | .amoand d b a _ aq rl scope => dstOk d && srcOk b && capOk a && ordOk aq rl scope
  | .amoor d b a _ aq rl scope => dstOk d && srcOk b && capOk a && ordOk aq rl scope
  | .amoxor d b a _ aq rl scope => dstOk d && srcOk b && capOk a && ordOk aq rl scope
  | .amomin d b a _ aq rl scope => dstOk d && srcOk b && capOk a && ordOk aq rl scope
  | .amomax d b a _ aq rl scope => dstOk d && srcOk b && capOk a && ordOk aq rl scope
  | .amominu d b a _ aq rl scope => dstOk d && srcOk b && capOk a && ordOk aq rl scope
  | .amomaxu d b a _ aq rl scope => dstOk d && srcOk b && capOk a && ordOk aq rl scope
  | .amoswap d b a _ aq rl scope => dstOk d && srcOk b && capOk a && ordOk aq rl scope
  | .cas d b a _ aq rl scope => capOk d && srcOk b && capOk a && ordOk aq rl scope
  | .casq d b a aq rl scope => capOk d && capOk b && capOk a && ordOk aq rl scope
  | .rwlr d a _ => dstOk d && capOk a
  | .rwlw d a _ => dstOk d && capOk a
  | .rwur a => capOk a
  | .rwuw a => capOk a
  | .fence kinds scope => decide (1 ≤ kinds) && decide (kinds < 16) && decide (1 ≤ scope) && decide (scope ≤ 5)
  | .beq a b off => srcOk a && srcOk b && imm12Ok off
  | .bne a b off => srcOk a && srcOk b && imm12Ok off
  | .blt a b off => srcOk a && srcOk b && imm12Ok off
  | .bge a b off => srcOk a && srcOk b && imm12Ok off
  | .bltu a b off => srcOk a && srcOk b && imm12Ok off
  | .bgeu a b off => srcOk a && srcOk b && imm12Ok off
  | .jal d off => dstOk d && off20Ok off
  | .jalr d a imm => dstOk d && capOk a && imm12Ok imm
  | .vld d a imm => vecOk d && capOk a && imm12Ok imm
  | .vlds d a s k ew => vecOk d && capOk a && srcOk s && maskOk k && ewOk ew
  | .vgath d a x k ew => vecOk d && capOk a && vecOk x && maskOk k && ewOk ew
  | .vst b a imm => vecOk b && capOk a && imm12Ok imm
  | .vsts b a s k ew => vecOk b && capOk a && srcOk s && maskOk k && ewOk ew
  | .vscat b a x k ew => vecOk b && capOk a && vecOk x && maskOk k && ewOk ew
  | .vscataAdd b a x k ew atm => vecOk b && capOk a && vecOk x && maskOk k && ewOk ew && (!atm || decide (2 ≤ ew))
  | .vscataFadd b a x k ew atm => vecOk b && capOk a && vecOk x && maskOk k && fewOk ew && (!atm || decide (2 ≤ ew))
  | .vadd d a b k ew => vecOk d && vecOk a && vecOk b && maskOk k && ewOk ew
  | .vsub d a b k ew => vecOk d && vecOk a && vecOk b && maskOk k && ewOk ew
  | .vmul d a b k ew => vecOk d && vecOk a && vecOk b && maskOk k && ewOk ew
  | .vmulh d a b k ew => vecOk d && vecOk a && vecOk b && maskOk k && ewOk ew
  | .vmulhu d a b k ew => vecOk d && vecOk a && vecOk b && maskOk k && ewOk ew
  | .vmin d a b k ew => vecOk d && vecOk a && vecOk b && maskOk k && ewOk ew
  | .vmax d a b k ew => vecOk d && vecOk a && vecOk b && maskOk k && ewOk ew
  | .vminu d a b k ew => vecOk d && vecOk a && vecOk b && maskOk k && ewOk ew
  | .vmaxu d a b k ew => vecOk d && vecOk a && vecOk b && maskOk k && ewOk ew
  | .vabs d a k ew => vecOk d && vecOk a && maskOk k && ewOk ew
  | .vneg d a k ew => vecOk d && vecOk a && maskOk k && ewOk ew
  | .vand d a b k ew => vecOk d && vecOk a && vecOk b && maskOk k && ewOk ew
  | .vor d a b k ew => vecOk d && vecOk a && vecOk b && maskOk k && ewOk ew
  | .vxor d a b k ew => vecOk d && vecOk a && vecOk b && maskOk k && ewOk ew
  | .vsll d a b k ew => vecOk d && vecOk a && vecOk b && maskOk k && ewOk ew
  | .vsrl d a b k ew => vecOk d && vecOk a && vecOk b && maskOk k && ewOk ew
  | .vsra d a b k ew => vecOk d && vecOk a && vecOk b && maskOk k && ewOk ew
  | .vaddFp d a b k ew => vecOk d && vecOk a && vecOk b && maskOk k && fewOk ew
  | .vsubFp d a b k ew => vecOk d && vecOk a && vecOk b && maskOk k && fewOk ew
  | .vmulFp d a b k ew => vecOk d && vecOk a && vecOk b && maskOk k && fewOk ew
  | .vfma d a b k ew => vecOk d && vecOk a && vecOk b && maskOk k && fewOk ew
  | .vfms d a b k ew => vecOk d && vecOk a && vecOk b && maskOk k && fewOk ew
  | .vdiv d a b k ew => vecOk d && vecOk a && vecOk b && maskOk k && fewOk ew
  | .vsqrt d a k ew => vecOk d && vecOk a && maskOk k && fewOk ew
  | .vminFp d a b k ew => vecOk d && vecOk a && vecOk b && maskOk k && fewOk ew
  | .vmaxFp d a b k ew => vecOk d && vecOk a && vecOk b && maskOk k && fewOk ew
  | .vabsFp d a k ew => vecOk d && vecOk a && maskOk k && fewOk ew
  | .vnegFp d a k ew => vecOk d && vecOk a && maskOk k && fewOk ew
  | .vcmpEq d a b k ew => maskOk d && vecOk a && vecOk b && maskOk k && ewOk ew
  | .vcmpNe d a b k ew => maskOk d && vecOk a && vecOk b && maskOk k && ewOk ew
  | .vcmpLt d a b k ew => maskOk d && vecOk a && vecOk b && maskOk k && ewOk ew
  | .vcmpLe d a b k ew => maskOk d && vecOk a && vecOk b && maskOk k && ewOk ew
  | .vcmpLtu d a b k ew => maskOk d && vecOk a && vecOk b && maskOk k && ewOk ew
  | .vcmpLeu d a b k ew => maskOk d && vecOk a && vecOk b && maskOk k && ewOk ew
  | .vcmpFeq d a b k ew => maskOk d && vecOk a && vecOk b && maskOk k && fewOk ew
  | .vcmpFne d a b k ew => maskOk d && vecOk a && vecOk b && maskOk k && fewOk ew
  | .vcmpFlt d a b k ew => maskOk d && vecOk a && vecOk b && maskOk k && fewOk ew
  | .vcmpFle d a b k ew => maskOk d && vecOk a && vecOk b && maskOk k && fewOk ew
  | .vcmpFuno d a b k ew => maskOk d && vecOk a && vecOk b && maskOk k && fewOk ew
  | .vsel d a b k ew => vecOk d && vecOk a && vecOk b && maskOk k && ewOk ew
  | .vbcast d a k ew => vecOk d && srcOk a && maskOk k && ewOk ew
  | .vext d a b ew => dstOk d && vecOk a && srcOk b && ewOk ew
  | .vins d a b ew => vecOk d && srcOk a && srcOk b && ewOk ew
  | .vperm d a b k ew => vecOk d && vecOk a && vecOk b && maskOk k && ewOk ew
  | .vslideUp d a b k ew => vecOk d && vecOk a && srcOk b && maskOk k && ewOk ew
  | .vslideDn d a b k ew => vecOk d && vecOk a && srcOk b && maskOk k && ewOk ew
  | .vcompr d a k ew => vecOk d && vecOk a && maskOk k && ewOk ew
  | .vexpnd d a k ew => vecOk d && vecOk a && maskOk k && ewOk ew
  | .vredAdd d a k ew => dstOk d && vecOk a && maskOk k && ewOk ew
  | .vredMin d a k ew => dstOk d && vecOk a && maskOk k && ewOk ew
  | .vredMax d a k ew => dstOk d && vecOk a && maskOk k && ewOk ew
  | .vredMinu d a k ew => dstOk d && vecOk a && maskOk k && ewOk ew
  | .vredMaxu d a k ew => dstOk d && vecOk a && maskOk k && ewOk ew
  | .vredAnd d a k ew => dstOk d && vecOk a && maskOk k && ewOk ew
  | .vredOr d a k ew => dstOk d && vecOk a && maskOk k && ewOk ew
  | .vredXor d a k ew => dstOk d && vecOk a && maskOk k && ewOk ew
  | .vredFadd d a k ew => dstOk d && vecOk a && maskOk k && fewOk ew
  | .vredFmin d a k ew => dstOk d && vecOk a && maskOk k && fewOk ew
  | .vredFmax d a k ew => dstOk d && vecOk a && maskOk k && fewOk ew
  | .vcvt d a k src dst => vecOk d && vecOk a && maskOk k && decide (src < 12) && decide (dst < 12) && decide (src ≠ dst)
  | .vcvttDec d a b k _ o => vecOk d && vecOk a && srcOk b && maskOk k && decide (o < 3)
  | .vcvttEnc d a b k _ o => vecOk d && vecOk a && srcOk b && maskOk k && decide (o < 3)
  | .vconf d a k ew => vecOk d && vecOk a && maskOk k && ewOk ew && decide (2 ≤ ew)
  | .visect d a b k => vecOk d && vecOk a && vecOk b && maskOk k && decide (1 ≤ k)
  | .kopAnd d a b => maskOk d && maskOk a && maskOk b
  | .kopOr d a b => maskOk d && maskOk a && maskOk b
  | .kopXor d a b => maskOk d && maskOk a && maskOk b
  | .kopAndn d a b => maskOk d && maskOk a && maskOk b
  | .kopNot d a => maskOk d && maskOk a
  | .kmovToMask d a => maskOk d && srcOk a
  | .kmovFromMask d a => dstOk d && maskOk a
  | .kpop d a => dstOk d && maskOk a
  | .send d a b n _ => capOk a && srcOk b && decide (n ≤ 16) && decide (d + n ≤ 16) && (decide (n ≠ 0) || decide (d = 0))
  | .sendv d a b n _ => capOk a && srcOk b && vecOk d && decide (n ≤ 8)
  | .sendb d a b n _ => capOk a && srcOk b && capOk d && decide (n < 32)
  | .mlen d => dstOk d
  | .msrc d => dstOk d
  | .spawn d a b => dstOk d && capOk a && capOk b
  | .spawnW d a b => dstOk d && capOk a && capOk b
  | .kill a => srcOk a
  | .prio a => srcOk a
  | .waitc n a => decide (n < 16) && srcOk a
  | .barr a => srcOk a
  | .barw a => srcOk a
  | .baraw a => srcOk a
  | .barset a b => srcOk a && capOk b
  | .wdeclOne a => decide (a < 16)
  | .wdeclAll a n => decide (1 ≤ n) && decide (n ≤ 4) && decide (a + n ≤ 16)
  | .wdeclAny a n => decide (1 ≤ n) && decide (n ≤ 4) && decide (a + n ≤ 16)
  | .chopen d a b => dstOk d && capOk a && srcOk b
  | .chprod a => capOk a
  | .chput a b => capOk a && srcOk b
  | .chget d g a => dstOk d && dstOk g && capOk a && (decide (d ≠ g) || decide (d = 29)) && (decide (16 ≤ d) || decide (d ≠ a)) && (decide (16 ≤ g) || decide (g ≠ a))
  | .cheos a => capOk a
  | .chclose a => capOk a
  | .tsub d a b n => dstOk d && srcOk b && decide (1 ≤ n) && decide (n ≤ 4) && decide (a + n ≤ 16) && (decide (16 ≤ d) || (decide (d ≠ b) && (decide (d < a) || decide (a + n ≤ d))))
  | .trel n => decide (n < 4)
  | .tretry a => srcOk a
  | .mxq a b => vecOk a && capOk b
  | .mxwait a => srcOk a
  | .mxcure a => srcOk a
  | .cekick a b g => capOk a && capOk b && capOk g
  | .semw n => decide (n < 8)
  | .sems n => decide (n < 8)
  | .compose n => (decide (n = 2) || decide (n = 4) || decide (n = 8))
  | .csrr d csr => dstOk d && decide (csr < 4096)
  | .csrw csr a => decide (csr < 4096) && srcOk a
  | .csrset csr a => decide (csr < 4096) && srcOk a
  | .csrclr csr a => decide (csr < 4096) && srcOk a
  | .trap i => decide (i < 4096)
  | .syscall i a => decide (i < 4096) && srcOk a
  | .pinval a b => decide (a < 16) && decide (b < 16)
  | .plbinv a b => decide (a < 16) && capOk b
  | .tstop a => srcOk a
  | .tresume a => srcOk a
  | .mxtest a => srcOk a
  | .pkill a => srcOk a
  | .fenceI => true
  | .mdone => true
  | .exit => true
  | .yield => true
  | .killApply _ _ => true
  | .wclr => true
  | .tdone => true
  | .cekickR => true
  | .composeComplete _ _ => true
  | .decompose => true
  | .nop => true
  | .brk => true
  | .eret => true
  | .pinvalComplete _ _ => true
  | .tstopComplete _ _ => true
  | .cNop => true
  | .cAdd d a => lowOk d && lowOk a
  | .cSub d a => lowOk d && lowOk a
  | .cAnd d a => lowOk d && lowOk a
  | .cOr d a => lowOk d && lowOk a
  | .cXor d a => lowOk d && lowOk a
  | .cMov d a => lowOk d && lowOk a
  | .cAddi d imm => lowOk d && imm7Ok imm
  | .cLi d imm => lowOk d && imm7Ok imm
  | .cSlli d amt => lowOk d && decide (amt < 64)
  | .cSrli d amt => lowOk d && decide (amt < 64)
  | .cCinc d imm => lowOk d && imm7Ok imm
  | .cLd d a off => lowOk d && lowOk a && decide (off < 16)
  | .cSd b a off => lowOk b && lowOk a && decide (off < 16)
  | .cLw d a off => lowOk d && lowOk a && decide (off < 16)
  | .cSw b a off => lowOk b && lowOk a && decide (off < 16)
  | .cBeqz a off => lowOk a && imm7Ok off
  | .cBnez a off => lowOk a && imm7Ok off
  | .cJ off => imm10Ok off
  | .cJr a => lowOk a
  | .cYield => true
  | .cMdone => true
  | .eli d imm hw _ => engOk d && decide (imm < 65536) && decide (hw < 4)
  | .eadd d a b => engOk d && engOk a && engOk b
  | .eaddi d a imm => engOk d && engOk a && imm14Ok imm
  | .esub d a b => engOk d && engOk a && engOk b
  | .eand d a b => engOk d && engOk a && engOk b
  | .eshl d a amt => engOk d && engOk a && decide (amt < 64)
  | .eshr d a amt => engOk d && engOk a && decide (amt < 64)
  | .eb cond a b off => decide (cond < 3) && engOk a && engOk b && (decide (cond = 2) || decide (b = 0)) && imm14Ok off
  | .ej off => imm26Ok off
  | .eld d a f imm => engOk d && engOk a && decide (f < 4) && imm14Ok imm
  | .eldQ d q => engOk d && decide (q < 2)
  | .est d a f imm => engOk d && engOk a && decide (f < 4) && imm14Ok imm
  | .estQ d q => engOk d && decide (2 ≤ q ∧ q < 4)
  | .blk d a b x => engOk d && engOk a && engOk b && decide (b % 2 = 0) && engOk x
  | .gath d a b x => engOk d && engOk a && engOk b && decide (b % 2 = 0) && engOk x
  | .scat d a b x => engOk d && engOk a && engOk b && decide (b % 2 = 0) && engOk x
  | .scout n => decide (n ≤ 64)
  | .ewait n a => decide (n < 16) && engOk a
  | .efence x => decide (x ≤ 4)
  | .semwEngine n => decide (n < 8)
  | .semsEngine n => decide (n < 8)
  | .barbBind a => engOk a
  | .barbUnbind => true
  | .barbAdd a b => engOk a && engOk b
  | .edone a => engOk a
  | .copyComplete _ => true
  | .copyStop _ => true
  | .scoutTranslation _ => true
  | .engineInterrupt _ => true
  | .mxNop c => decide (c.op = 0)
  | .mxRing c => decide (c.op = 1)
  | .mxMode c => decide (c.op = 2)
  | .mxZero c => decide (c.op = 3)
  | .mxLda c => decide (c.op = 4)
  | .mxLdb c => decide (c.op = 5)
  | .mxMma c => decide (c.op = 6)
  | .mxRot c => decide (c.op = 7)
  | .mxMmar c => decide (c.op = 8)
  | .mxRed c => decide (c.op = 9)
  | .mxScx c => decide (c.op = 10)
  | .mxStc c => decide (c.op = 11)
  | .mxSync c => decide (c.op = 12)
  | .mxFmap c => decide (c.op = 13)
  | .tokenPush _ => true
  | .rotationStep _ => true
  | .scaleBroadcast _ => true
  | .geometryTrap _ => true
  | .scanStart _ => true
  | .scanPass _ => true
  | .scanFail _ _ => true
  | .ramp _ => true
  | .walk _ _ => true
  | .placementCacheFill _ _ => true
  | .plbMiss _ _ _ => true
  | .remoteWordAccess _ => true
  | .sectorAccess _ => true
  | .sectorFill _ _ => true
  | .missWayRelease _ _ => true
  | .byStoreAck _ => true
  | .bankWindowAccess _ => true
  | .scrub _ _ => true
  | .ownerSlotHandler _ => true
  | .bankroleWrite _ => true
  | .bankroleChange _ => true
  | .arrbaseWrite _ => true
  | .arrcapWrite _ => true
  | .cntWrite _ _ => true
  | .statusWrite _ => true
  | .vtabWrite _ => true
  | .faultqWrite _ => true
  | .wdidleWrite _ => true
  | .ptwinWrite _ => true
  | .messageArrival _ => true
  | .slotDispatch _ => true
  | .negativeAcknowledgement _ => true
  | .grant _ => true
  | .refusalResend _ _ => true
  | .probeRequest _ => true
  | .probe _ => true
  | .confirm _ => true
  | .probeAbandon _ => true
  | .faultDelivery _ => true
  | .serviceTrapDispatch _ => true
  | .parkFrameWait _ _ => true
  | .faultRecordPost _ => true
  | .redelivery _ => true
  | .absenceResend _ => true
  | .debugHalt _ _ _ _ => true
  | .debugReadRegister _ _ _ => true
  | .debugWriteRegister _ _ _ _ _ => true
  | .debugReadQueue _ _ => true
  | .debugReplaceQueue _ _ _ => true
  | .debugStep _ _ => true
  | .debugResume _ => true
  | .idleFlit _ _ => true
  | .dataFlit _ _ _ _ => true
  | .replayRequest _ _ => true
  | .laneMap _ _ _ => true
  | .replayRequestTimeout _ => true
  | .lossOfLight _ _ => true
  | .laneMapResend _ => true
  | .linkTraining _ _ _ => true
  | .laneRegain _ _ => true
  | .downLinkTimeout _ => true
  | .linkRead _ => true
  | .postedWrite _ => true
  | .linkAtomic _ => true
  | .linkMessage _ => true
  | .linkCall _ => true
  | .readResponse _ => true
  | .writeAcknowledgement _ => true
  | .atomicResponse _ => true
  | .messageAnswer _ => true
  | .callResponse _ => true
  | .powerOn => true
  | .firmwareVerify _ => true
  | .configurationVerify _ => true
  | .diePowerUp _ _ => true
  | .bootSelfTest => true
  | .serviceEntrySetup => true
  | .bringupLinkTraining _ => true
  | .attestationRequest _ => true
  | .powerLimitExceeded => true
  | .thermalShutdown => true
  | .illegalInstruction _ => true
  | .instructionFetchFault _ => true
  | .engineIllegalInstruction _ => true
  | .engineFetchFault _ => true
  | .accessResponse _ _ => true
  | .powerBelowLimit => true
  | .wenlekWindowAccess _ _ _ => true

end Sys2Proof
end

