-- ==== Sys2Proof/Decode.lean ====
section
/-! DEFINITION. Decoding of core words (R211 to R232), compact halfwords (R230, R231), engine words (R66 to R80) and matrix
commands (R160), and the encoder. -/

namespace Sys2Proof

/-! Fields of a 32-bit core word (R212). -/

def fMaj (w : Nat) : Nat := w / 2 % 64
def fD (w : Nat) : Nat := w / 128 % 32
def fA (w : Nat) : Nat := w / 4096 % 32
def fB (w : Nat) : Nat := w / 131072 % 32
def fF5 (w : Nat) : Nat := w / 4194304 % 32
def fG5 (w : Nat) : Nat := w / 134217728 % 32
def fF3 (w : Nat) : Nat := w / 131072 % 8
def fI12 (w : Nat) : Nat := w / 1048576 % 4096
def fS3 (w : Nat) : Nat := w / 4194304 % 8
def fS12 (w : Nat) : Nat := w / 33554432 % 128 * 32 + w / 128 % 32
def fU20 (w : Nat) : Nat := w / 4096 % 1048576
def fEw (w : Nat) : Nat := w / 33554432 % 4
def fK (w : Nat) : Nat := w / 4194304 % 8
def fX10 (w : Nat) : Nat := w / 4194304 % 1024

/-- A value accepted under a condition. -/
def only (p : Bool) (i : Instr) : Option Instr := if p then some i else none

/-- ALU-R (R220). -/
def decAluR (f5 g b a d : Nat) : Option Instr :=
  let r3 (c : Nat → Nat → Nat → Instr) := only (g == 0) (c d a b)
  let r2 (c : Nat → Nat → Instr) := only (g == 0 && b == 0) (c d a)
  match f5 with
  | 0x00 => r3 .add | 0x01 => r3 .sub | 0x02 => r3 .mul | 0x03 => r3 .mulh | 0x04 => r3 .mulhu
  | 0x05 => r3 .div | 0x06 => r3 .divu | 0x07 => r3 .rem | 0x08 => r3 .remu | 0x09 => r3 .and
  | 0x0A => r3 .or | 0x0B => r3 .xor | 0x0C => r3 .andn | 0x0D => r3 .sll | 0x0E => r3 .srl
  | 0x0F => r3 .sra | 0x10 => r3 .rol | 0x11 => r3 .ror | 0x12 => r3 .slt | 0x13 => r3 .sltu
  | 0x14 => r3 .min | 0x15 => r3 .max | 0x16 => r3 .minu | 0x17 => r3 .maxu
  | 0x18 => r2 .clz | 0x19 => r2 .ctz | 0x1A => r2 .popc
  | 0x1B => some (.sel d a b g)
  | _ => none

/-- ALU-I and ALU-I2 (R220). -/
def decAluI (f3 imm a d : Nat) : Option Instr :=
  match f3 with
  | 0 => some (.addi d a (sext 12 imm)) | 1 => some (.slli d a imm) | 2 => some (.srli d a imm)
  | 3 => some (.srai d a imm) | _ => none

def decAluI2 (f3 imm a d : Nat) : Option Instr :=
  match f3 with
  | 0 => some (.andi d a (sext 12 imm)) | 1 => some (.ori d a (sext 12 imm)) | 2 => some (.xori d a (sext 12 imm))
  | 3 => some (.slti d a (sext 12 imm)) | 4 => some (.sltui d a (sext 12 imm)) | _ => none

/-- CAP-R and CAP-I (R220). -/
def decCapR (f5 g b a d : Nat) : Option Instr :=
  let r3 (c : Nat → Nat → Nat → Instr) := only (g == 0) (c d a b)
  let r2 (c : Nat → Nat → Instr) := only (g == 0 && b == 0) (c d a)
  match f5 with
  | 0 => r3 .csetb | 1 => r3 .cinc | 2 => r3 .candp | 3 => r3 .csub | 4 => r3 .ctest
  | 5 => r2 .cgetb | 6 => r2 .cgetl | 7 => r2 .cgetp | 8 => r2 .cgett | 9 => r2 .cclr | 10 => r2 .cmov
  | _ => none

def decCapI (f3 imm a d : Nat) : Option Instr :=
  match f3 with
  | 0 => some (.cincI d a (sext 12 imm)) | 1 => some (.csetbI d a imm) | 2 => some (.candpI d a imm) | _ => none

/-- LOAD and STORE (R221). -/
def decLoad (f3 imm a d : Nat) : Option Instr :=
  let i := sext 12 imm
  match f3 with
  | 0 => some (.lb d a i) | 1 => some (.lbu d a i) | 2 => some (.lh d a i) | 3 => some (.lhu d a i)
  | 4 => some (.lw d a i) | 5 => some (.lwu d a i) | 6 => some (.ld d a i) | 7 => some (.lcap d a i) | _ => none

def decStore (f3 imm b a : Nat) : Option Instr :=
  let i := sext 12 imm
  match f3 with
  | 0 => some (.sb b a i) | 1 => some (.sh b a i) | 2 => some (.sw b a i) | 3 => some (.sd b a i)
  | 4 => some (.sq b a i) | 5 => some (.scap b a i) | _ => none

/-- LOAD-X (R222): `x` is f10, `m` the route field. -/
def decLoadX (x m a d : Nat) : Option Instr :=
  let hint := x / 16 % 4
  let scope := x % 8
  let plain (c : Nat → Nat → Nat → Nat → Nat → Instr) := only (x / 8 % 2 == 0) (c d a hint scope m)
  let bare (i : Instr) := only (x % 64 == 0 && m == 0) i
  match x / 64 with
  | 0 => plain .lbX | 1 => plain .lbuX | 2 => plain .lhX | 3 => plain .lhuX | 4 => plain .lwX | 5 => plain .lwuX
  | 6 => plain .ldX | 7 => plain .lq | 8 => plain .lcapX
  | 9 => bare (.home d a)
  | 10 => if d = 0 then bare (.migr a) else none
  | 11 => if d = 0 then bare (.migrF a) else none
  | _ => none

/-- STORE-X (R222). -/
def decStoreX (x b a m : Nat) : Option Instr :=
  let hint := x / 16 % 4
  let scope := x % 8
  let plain (c : Nat → Nat → Nat → Nat → Nat → Instr) := only (x / 8 % 2 == 0) (c b a hint scope m)
  match x / 64 with
  | 0 => plain .sbX | 1 => plain .shX | 2 => plain .swX | 3 => plain .sdX | 4 => plain .sqX | 5 => plain .scapX
  | _ => none

/-- ATOMIC (R223). -/
def decAtomic (x b a d : Nat) : Option Instr :=
  let w := x / 32 % 2 == 1
  let aq := x / 16 % 2 == 1
  let rl := x / 8 % 2 == 1
  let scope := x % 8
  let amo (c : Nat → Nat → Nat → Bool → Bool → Bool → Nat → Instr) := some (c d b a w aq rl scope)
  match x / 64 with
  | 0 => amo .amoadd | 1 => amo .amoand | 2 => amo .amoor | 3 => amo .amoxor | 4 => amo .amomin
  | 5 => amo .amomax | 6 => amo .amominu | 7 => amo .amomaxu | 8 => amo .amoswap | 9 => amo .cas
  | 10 => only (!w) (.casq d b a aq rl scope)
  | 11 => only (x % 32 == 0 && b == 0) (.rwlr d a w)
  | 12 => only (x % 32 == 0 && b == 0) (.rwlw d a w)
  | 13 => only (x % 64 == 0 && b == 0 && d == 0) (.rwur a)
  | 14 => only (x % 64 == 0 && b == 0 && d == 0) (.rwuw a)
  | _ => none

/-- FENCE (R224). -/
def decFence (f3 imm a d : Nat) : Option Instr :=
  if a = 0 ∧ d = 0 then
    match f3 with
    | 0 => only (imm / 128 == 0) (.fence (imm % 16) (imm / 16 % 8))
    | 1 => only (imm == 0) .fenceI
    | _ => none
  else none

/-- BRANCH (R225): the b field lies in [16:12], a in [11:7] (R212). -/
def decBranch (f3 off b a : Nat) : Option Instr :=
  let o := sext 12 off
  match f3 with
  | 0 => some (.beq a b o) | 1 => some (.bne a b o) | 2 => some (.blt a b o) | 3 => some (.bge a b o)
  | 4 => some (.bltu a b o) | 5 => some (.bgeu a b o) | _ => none

/-- VLOAD and VSTORE (R226). -/
def decVload (f3 imm a d : Nat) : Option Instr :=
  let x := imm % 32
  let k := imm / 32 % 8
  let ew := imm / 256 % 4
  match f3 with
  | 0 => some (.vld d a (sext 12 imm))
  | 1 => only (imm / 1024 == 0) (.vlds d a x k ew)
  | 2 => only (imm / 1024 == 0) (.vgath d a x k ew)
  | _ => none

def decVstore (f3 imm b a : Nat) : Option Instr :=
  let x := imm % 32
  let k := imm / 32 % 8
  let ew := imm / 256 % 4
  let atm := imm / 1024 % 2 == 1
  match f3 with
  | 0 => some (.vst b a (sext 12 imm))
  | 1 => only (imm / 1024 == 0) (.vsts b a x k ew)
  | 2 => only (imm / 1024 == 0) (.vscat b a x k ew)
  | 3 => only (imm / 2048 == 0) (.vscataAdd b a x k ew atm)
  | 4 => only (imm / 2048 == 0) (.vscataFadd b a x k ew atm)
  | _ => none

/-- VINT and VFLT (R227). -/
def decVint (f5 ew k b a d : Nat) : Option Instr :=
  let v3 (c : Nat → Nat → Nat → Nat → Nat → Instr) := some (c d a b k ew)
  let v2 (c : Nat → Nat → Nat → Nat → Instr) := only (b == 0) (c d a k ew)
  match f5 with
  | 0x00 => v3 .vadd | 0x01 => v3 .vsub | 0x02 => v3 .vmul | 0x03 => v3 .vmulh | 0x04 => v3 .vmulhu
  | 0x05 => v3 .vmin | 0x06 => v3 .vmax | 0x07 => v3 .vminu | 0x08 => v3 .vmaxu
  | 0x09 => v2 .vabs | 0x0A => v2 .vneg | 0x0B => v3 .vand | 0x0C => v3 .vor | 0x0D => v3 .vxor
  | 0x0E => v3 .vsll | 0x0F => v3 .vsrl | 0x10 => v3 .vsra
  | _ => none

def decVflt (f5 ew k b a d : Nat) : Option Instr :=
  let v3 (c : Nat → Nat → Nat → Nat → Nat → Instr) := some (c d a b k ew)
  let v2 (c : Nat → Nat → Nat → Nat → Instr) := only (b == 0) (c d a k ew)
  match f5 with
  | 0 => v3 .vaddFp | 1 => v3 .vsubFp | 2 => v3 .vmulFp | 3 => v3 .vfma | 4 => v3 .vfms | 5 => v3 .vdiv
  | 6 => v2 .vsqrt | 7 => v3 .vminFp | 8 => v3 .vmaxFp | 9 => v2 .vabsFp | 10 => v2 .vnegFp
  | _ => none

/-- VCMP and VSEL (R227). -/
def decVcmp (f5 ew k b a d : Nat) : Option Instr :=
  let v3 (c : Nat → Nat → Nat → Nat → Nat → Instr) := some (c d a b k ew)
  match f5 with
  | 0x00 => v3 .vcmpEq | 0x01 => v3 .vcmpNe | 0x02 => v3 .vcmpLt | 0x03 => v3 .vcmpLe | 0x04 => v3 .vcmpLtu
  | 0x05 => v3 .vcmpLeu | 0x08 => v3 .vcmpFeq | 0x09 => v3 .vcmpFne | 0x0A => v3 .vcmpFlt | 0x0B => v3 .vcmpFle
  | 0x0C => v3 .vcmpFuno | 0x10 => v3 .vsel
  | _ => none

/-- VPERM (R227). -/
def decVperm (f5 ew k b a d : Nat) : Option Instr :=
  match f5 with
  | 0 => only (b == 0) (.vbcast d a k ew) | 1 => only (k == 0) (.vext d a b ew) | 2 => only (k == 0) (.vins d a b ew)
  | 3 => some (.vperm d a b k ew) | 4 => some (.vslideUp d a b k ew) | 5 => some (.vslideDn d a b k ew)
  | 6 => only (b == 0) (.vcompr d a k ew) | 7 => only (b == 0) (.vexpnd d a k ew)
  | _ => none

/-- VRED (R227). -/
def decVred (f5 ew k b a d : Nat) : Option Instr :=
  let v2 (c : Nat → Nat → Nat → Nat → Instr) := only (b == 0) (c d a k ew)
  match f5 with
  | 0 => v2 .vredAdd | 1 => v2 .vredMin | 2 => v2 .vredMax | 3 => v2 .vredMinu | 4 => v2 .vredMaxu | 5 => v2 .vredAnd
  | 6 => v2 .vredOr | 7 => v2 .vredXor | 8 => v2 .vredFadd | 9 => v2 .vredFmin | 10 => v2 .vredFmax
  | _ => none

/-- VCVT and VCVTT (R227). -/
def decVcvt (f5 ew k b a d : Nat) : Option Instr :=
  if ew = 0 then
    if f5 < 8 then some (.vcvt d a k (f5 * 2 + b / 16) (b % 16))
    else if f5 < 16 then some (.vcvttDec d a b k (f5 / 4 % 2 == 1) (f5 % 4))
    else if f5 < 24 then some (.vcvttEnc d a b k (f5 / 4 % 2 == 1) (f5 % 4))
    else none
  else none

/-- VSPARSE and VMASK (R227). -/
def decVsparse (f5 ew k b a d : Nat) : Option Instr :=
  match f5 with
  | 0 => only (b == 0) (.vconf d a k ew) | 1 => only (ew == 2) (.visect d a b k) | _ => none

def decVmask (f5 ew k b a d : Nat) : Option Instr :=
  if ew = 0 ∧ k = 0 then
    match f5 with
    | 0 => some (.kopAnd d a b) | 1 => some (.kopOr d a b) | 2 => some (.kopXor d a b) | 3 => some (.kopAndn d a b)
    | 4 => only (b == 0) (.kopNot d a) | 8 => only (b == 0) (.kmovToMask d a)
    | 9 => only (b == 0) (.kmovFromMask d a) | 10 => only (b == 0) (.kpop d a)
    | _ => none
  else none

/-- MSG, THREAD, SYNC, CHAN, TASK, ENGINE, COMPOSE (R228). -/
def decMsg (f5 g b a d : Nat) : Option Instr :=
  match f5 with
  | 0x00 => some (.send d a b g false) | 0x08 => some (.send d a b g true)
  | 0x01 => some (.sendv d a b g false) | 0x09 => some (.sendv d a b g true)
  | 0x02 => some (.sendb d a b g false) | 0x0A => some (.sendb d a b g true)
  | 0x03 => only (g == 0 && b == 0 && a == 0 && d == 0) .mdone
  | 0x04 => only (g == 0 && b == 0 && a == 0) (.mlen d)
  | 0x05 => only (g == 0 && b == 0 && a == 0) (.msrc d)
  | _ => none

def decThread (f5 g b a d : Nat) : Option Instr :=
  match f5 with
  | 0 => only (g == 0) (.spawn d a b) | 1 => only (g == 0) (.spawnW d a b)
  | 2 => only (g == 0 && b == 0 && a == 0 && d == 0) .exit
  | 3 => only (g == 0 && b == 0 && a == 0 && d == 0) .yield
  | 4 => only (g == 0 && b == 0 && d == 0) (.kill a)
  | 5 => only (g == 0 && b == 0 && d == 0) (.prio a)
  | 6 => only (b == 0 && d == 0) (.waitc g a)
  | _ => none

def decSync (f5 g b a d : Nat) : Option Instr :=
  match f5 with
  | 0 => only (g == 0 && b == 0 && d == 0) (.barr a) | 1 => only (g == 0 && b == 0 && d == 0) (.barw a)
  | 2 => only (g == 0 && b == 0 && d == 0) (.baraw a) | 3 => only (g == 0 && d == 0) (.barset a b)
  | 4 => only (g == 1 && b == 0 && d == 0) (.wdeclOne a)
  | 5 => only (b == 0 && d == 0) (.wdeclAll a g) | 6 => only (b == 0 && d == 0) (.wdeclAny a g)
  | 7 => only (g == 0 && b == 0 && a == 0 && d == 0) .wclr
  | _ => none

def decChan (f5 g b a d : Nat) : Option Instr :=
  match f5 with
  | 0 => only (g == 0) (.chopen d a b) | 1 => only (g == 0 && b == 0 && d == 0) (.chprod a)
  | 2 => only (g == 0 && d == 0) (.chput a b) | 3 => only (b == 0) (.chget d g a)
  | 4 => only (g == 0 && b == 0 && d == 0) (.cheos a) | 5 => only (g == 0 && b == 0 && d == 0) (.chclose a)
  | _ => none

def decTask (f5 g b a d : Nat) : Option Instr :=
  match f5 with
  | 0 => only (g / 4 == 0) (.tsub d a b (g + 1)) | 1 => only (b == 0 && a == 0 && d == 0) (.trel g)
  | 2 => only (g == 0 && b == 0 && a == 0 && d == 0) .tdone | 3 => only (g == 0 && b == 0 && d == 0) (.tretry a)
  | _ => none

def decEngine (f5 g b a d : Nat) : Option Instr :=
  match f5 with
  | 0 => only (g == 0 && d == 0) (.mxq a b) | 1 => only (g == 0 && b == 0 && d == 0) (.mxwait a)
  | 2 => only (g == 0 && b == 0 && d == 0) (.mxcure a) | 3 => only (d == 0) (.cekick a b g)
  | 4 => only (g == 0 && b == 0 && a == 0 && d == 0) .cekickR
  | 5 => only (b == 0 && a == 0 && d == 0) (.semw g) | 6 => only (b == 0 && a == 0 && d == 0) (.sems g)
  | _ => none

def decCompose (f5 g b a d : Nat) : Option Instr :=
  match f5 with
  | 0 => only (b == 0 && a == 0 && d == 0) (.compose g)
  | 1 => only (g == 0 && b == 0 && a == 0 && d == 0) .decompose
  | _ => none

/-- SYSTEM and SERVICE (R229, R44). -/
def decSystem (f3 imm a d : Nat) : Option Instr :=
  match f3 with
  | 0 => only (a == 0) (.csrr d imm) | 1 => only (d == 0) (.csrw imm a) | 2 => only (d == 0) (.csrset imm a)
  | 3 => only (d == 0) (.csrclr imm a) | 4 => only (a == 0 && d == 0) (.trap imm) | 5 => only (d == 0) (.syscall imm a)
  | 6 => if a = 0 ∧ d = 0 then
      match imm with
      | 0 => some .nop | 1 => some .brk | 2 => some .eret | _ => none
    else none
  | _ => none

def decService (f5 g b a d : Nat) : Option Instr :=
  let one (i : Instr) := only (g == 0 && b == 0 && d == 0) i
  match f5 with
  | 0 => only (g == 0 && d == 0) (.pinval a b) | 1 => only (g == 0 && d == 0) (.plbinv a b)
  | 2 => one (.tstop a) | 3 => one (.tresume a) | 4 => one (.mxtest a) | 5 => one (.pkill a)
  | _ => none

/-- The 32-bit core word `w` read by its major opcode (R219), operand limits not yet checked. -/
def rawCore (w : Nat) : Option Instr :=
  let d := fD w
  let a := fA w
  let b := fB w
  let f5 := fF5 w
  let g := fG5 w
  match fMaj w with
  | 0x00 => decAluR f5 g b a d
  | 0x01 => decAluI (fF3 w) (fI12 w) a d
  | 0x02 => decAluI2 (fF3 w) (fI12 w) a d
  | 0x03 => some (.lih d (fU20 w))
  | 0x04 => decCapR f5 g b a d
  | 0x05 => decCapI (fF3 w) (fI12 w) a d
  | 0x06 => some (.cpcrel d (sext 20 (fU20 w)))
  | 0x07 => decLoad (fF3 w) (fI12 w) a d
  | 0x08 => decStore (fS3 w) (fS12 w) b a
  | 0x09 => decLoadX (fX10 w) b a d
  | 0x0A => decStoreX (fX10 w) b a d
  | 0x0B => decAtomic (fX10 w) b a d
  | 0x0C => decFence (fF3 w) (fI12 w) a d
  | 0x0D => decBranch (fF3 w) (fI12 w) a d
  | 0x0E => some (.jal d (sext 20 (fU20 w)))
  | 0x0F => if fF3 w = 0 then some (.jalr d a (sext 12 (fI12 w))) else none
  | 0x10 => decVload (fF3 w) (fI12 w) a d
  | 0x11 => decVstore (fS3 w) (fS12 w) b a
  | 0x12 => decVint g (fEw w) (fK w) b a d
  | 0x13 => decVflt g (fEw w) (fK w) b a d
  | 0x14 => decVcmp g (fEw w) (fK w) b a d
  | 0x15 => decVperm g (fEw w) (fK w) b a d
  | 0x16 => decVred g (fEw w) (fK w) b a d
  | 0x17 => decVcvt g (fEw w) (fK w) b a d
  | 0x18 => decVsparse g (fEw w) (fK w) b a d
  | 0x19 => decVmask g (fEw w) (fK w) b a d
  | 0x1A => decMsg f5 g b a d
  | 0x1B => decThread f5 g b a d
  | 0x1C => decSync f5 g b a d
  | 0x1D => decChan f5 g b a d
  | 0x1E => decTask f5 g b a d
  | 0x1F => decEngine f5 g b a d
  | 0x20 => decCompose f5 g b a d
  | 0x21 => decSystem (fF3 w) (fI12 w) a d
  | 0x22 => decService f5 g b a d
  | _ => none

/-- A compact halfword (R230, R231), operand limits not yet checked. -/
noncomputable def rawCompact (h : Nat) : Option Instr :=
  let op := h / 2 % 32
  let d := h / 64 % 8
  let a := h / 512 % 8
  let off4 := h / 4096
  let imm7 := h / 512
  let cr (c : Nat → Nat → Instr) := only (off4 == 0) (c d a)
  match op with
  | 0x01 => only (off4 == 0 && a == 0 && d == 0) .cNop
  | 0x02 => cr .cAdd | 0x03 => cr .cSub | 0x04 => cr .cAnd | 0x05 => cr .cOr | 0x06 => cr .cXor | 0x07 => cr .cMov
  | 0x08 => some (.cAddi d (sext 7 imm7)) | 0x09 => some (.cLi d (sext 7 imm7))
  | 0x0A => some (.cSlli d imm7) | 0x0B => some (.cSrli d imm7) | 0x0C => some (.cCinc d (sext 7 imm7))
  | 0x0D => some (.cLd d a off4) | 0x0E => some (.cSd d a off4) | 0x0F => some (.cLw d a off4)
  | 0x10 => some (.cSw d a off4)
  | 0x11 => some (.cBeqz d (sext 7 imm7)) | 0x12 => some (.cBnez d (sext 7 imm7))
  | 0x13 => some (.cJ (sext 10 (h / 64)))
  | 0x14 => only (off4 == 0 && d == 0) (.cJr a)
  | 0x15 => only (off4 == 0 && a == 0 && d == 0) .cYield
  | 0x16 => only (off4 == 0 && a == 0 && d == 0) .cMdone
  | _ => none

/-- An engine word (R66 to R80), operand limits not yet checked. -/
noncomputable def rawEngine (w : Nat) : Option Instr :=
  let d := w / 64 % 16
  let a := w / 1024 % 16
  let b := w / 16384 % 16
  let x := w / 262144 % 16
  let i14 := w / 262144
  let er0 := i14 / 16 == 0
  let er (c : Nat → Nat → Nat → Instr) := only (er0 && x == 0) (c d a b)
  let copy (c : Nat → Nat → Nat → Nat → Instr) := only er0 (c d a b x)
  match w % 64 with
  | 0x01 => only (w / 2 ^ 29 == 0) (.eli d (w / 4096 % 65536) (w / 1024 % 4) (w / 2 ^ 28 % 2 == 1))
  | 0x02 => er .eadd
  | 0x03 => only (b == 0) (.eaddi d a (sext 14 i14))
  | 0x04 => er .esub
  | 0x05 => er .eand
  | 0x06 => only (b == 0) (.eshl d a i14)
  | 0x07 => only (b == 0) (.eshr d a i14)
  | 0x08 => some (.eb d a b (sext 14 i14))
  | 0x09 => some (.ej (sext 26 (w / 64)))
  | 0x0A => if b < 4 then some (.eld d a b (sext 14 i14)) else only (b == 4 && a == 0) (.eldQ d i14)
  | 0x0B => if b < 4 then some (.est d a b (sext 14 i14)) else only (b == 4 && a == 0) (.estQ d i14)
  | 0x0C => copy .blk
  | 0x0D => copy .gath
  | 0x0E => copy .scat
  | 0x0F => only (b == 0 && a == 0 && d == 0) (.scout i14)
  | 0x10 => only (b == 0 && d == 0) (.ewait i14 a)
  | 0x11 => only (er0 && b == 0 && a == 0 && d == 0) (.efence x)
  | 0x12 => only (b == 0 && a == 0 && d == 0) (.semwEngine i14)
  | 0x13 => only (b == 0 && a == 0 && d == 0) (.semsEngine i14)
  | 0x14 => if er0 && d == 0 then
      match x with
      | 0 => only (b == 0) (.barbBind a) | 1 => only (b == 0 && a == 0) .barbUnbind | 2 => some (.barbAdd a b) | _ => none
    else none
  | 0x15 => only (i14 == 0 && b == 0 && d == 0) (.edone a)
  | _ => none

/-- The core instruction of a 32-bit word, `none` where the word names nothing (R232). -/
def decodeCore (w : Nat) : Option Instr := (rawCore w).filter Instr.wf

/-- The compact instruction of a halfword, `none` where it names nothing (R231, R232). -/
noncomputable def decodeCompact (h : Nat) : Option Instr := (rawCompact h).filter Instr.wf

/-- The engine instruction of a word, `none` where the word names nothing (R67). -/
noncomputable def decodeEngine (w : Nat) : Option Instr := (rawEngine w).filter Instr.wf

/-- The matrix command of 64 bytes, `none` for an opcode the sequencer does not have (R161). -/
noncomputable def decodeCmd (c : Cmd) : Option Instr :=
  match c.op with
  | 0x00 => some (.mxNop c) | 0x01 => some (.mxRing c) | 0x02 => some (.mxMode c) | 0x03 => some (.mxZero c)
  | 0x04 => some (.mxLda c) | 0x05 => some (.mxLdb c) | 0x06 => some (.mxMma c) | 0x07 => some (.mxRot c)
  | 0x08 => some (.mxMmar c) | 0x09 => some (.mxRed c) | 0x0A => some (.mxScx c) | 0x0B => some (.mxStc c)
  | 0x0C => some (.mxSync c) | 0x0D => some (.mxFmap c) | _ => none

/-- What the first bytes at the program counter hold (R211): a compact instruction, a long one, or nothing, with the
length in bytes. -/
noncomputable def decodeBytes : List Nat → Option (Instr × Nat)
  | b0 :: b1 :: rest =>
    if b0 % 2 = 0 then (decodeCompact (b0 + 256 * b1)).map (·, 2)
    else match rest with
      | b2 :: b3 :: _ => (decodeCore (b0 + 256 * b1 + 65536 * b2 + 16777216 * b3)).map (·, 4)
      | _ => none
  | _ => none

/-! The encoder, from the layouts of R212, R66 and R230. -/

def encR (maj f5 g b a d : Nat) : Nat :=
  1 + 2 * maj + 128 * d + 4096 * a + 131072 * b + 4194304 * f5 + 134217728 * g
def encI (maj f3 a d imm : Nat) : Nat := 1 + 2 * maj + 128 * d + 4096 * a + 131072 * f3 + 1048576 * imm
def encS (maj f3 b a imm : Nat) : Nat :=
  1 + 2 * maj + 128 * (imm % 32) + 4096 * a + 131072 * b + 4194304 * f3 + 33554432 * (imm / 32)
def encU (maj d imm : Nat) : Nat := 1 + 2 * maj + 128 * d + 4096 * imm
def encV (maj f5 ew k b a d : Nat) : Nat :=
  1 + 2 * maj + 128 * d + 4096 * a + 131072 * b + 4194304 * k + 33554432 * ew + 134217728 * f5
def encX (maj x b a d : Nat) : Nat := 1 + 2 * maj + 128 * d + 4096 * a + 131072 * b + 4194304 * x
def xf10 (kind hint scope : Nat) : Nat := 64 * kind + 16 * hint + scope
def af10 (op : Nat) (w aq rl : Bool) (scope : Nat) : Nat :=
  64 * op + 32 * w.toNat + 16 * aq.toNat + 8 * rl.toNat + scope
def vimm (x k ew : Nat) (atm : Bool) : Nat := x + 32 * k + 256 * ew + 1024 * atm.toNat
def encC (op off a d : Nat) : Nat := 2 * op + 64 * d + 512 * a + 4096 * off
def encCI (op imm d : Nat) : Nat := 2 * op + 64 * d + 512 * imm
def encCJ (op off : Nat) : Nat := 2 * op + 64 * off
def encER (op x b a d : Nat) : Nat := op + 64 * d + 1024 * a + 16384 * b + 262144 * x
def encEI (op imm f a d : Nat) : Nat := op + 64 * d + 1024 * a + 16384 * f + 262144 * imm

/-- The word of an instruction, from the same tables; 0 for a matrix command (R160) or a hardware event, which have none. -/
def encode : Instr → Nat
  | .add d a b => encR 0x00 0x00 0 b a d
  | .sub d a b => encR 0x00 0x01 0 b a d
  | .mul d a b => encR 0x00 0x02 0 b a d
  | .mulh d a b => encR 0x00 0x03 0 b a d
  | .mulhu d a b => encR 0x00 0x04 0 b a d
  | .div d a b => encR 0x00 0x05 0 b a d
  | .divu d a b => encR 0x00 0x06 0 b a d
  | .rem d a b => encR 0x00 0x07 0 b a d
  | .remu d a b => encR 0x00 0x08 0 b a d
  | .and d a b => encR 0x00 0x09 0 b a d
  | .or d a b => encR 0x00 0x0a 0 b a d
  | .xor d a b => encR 0x00 0x0b 0 b a d
  | .andn d a b => encR 0x00 0x0c 0 b a d
  | .sll d a b => encR 0x00 0x0d 0 b a d
  | .srl d a b => encR 0x00 0x0e 0 b a d
  | .sra d a b => encR 0x00 0x0f 0 b a d
  | .rol d a b => encR 0x00 0x10 0 b a d
  | .ror d a b => encR 0x00 0x11 0 b a d
  | .slt d a b => encR 0x00 0x12 0 b a d
  | .sltu d a b => encR 0x00 0x13 0 b a d
  | .min d a b => encR 0x00 0x14 0 b a d
  | .max d a b => encR 0x00 0x15 0 b a d
  | .minu d a b => encR 0x00 0x16 0 b a d
  | .maxu d a b => encR 0x00 0x17 0 b a d
  | .clz d a => encR 0x00 0x18 0 0 a d
  | .ctz d a => encR 0x00 0x19 0 0 a d
  | .popc d a => encR 0x00 0x1a 0 0 a d
  | .sel d a b g => encR 0x00 0x1B g b a d
  | .addi d a imm => encI 0x01 0 a d (toField 12 imm)
  | .slli d a amt => encI 0x01 1 a d amt
  | .srli d a amt => encI 0x01 2 a d amt
  | .srai d a amt => encI 0x01 3 a d amt
  | .andi d a imm => encI 0x02 0 a d (toField 12 imm)
  | .ori d a imm => encI 0x02 1 a d (toField 12 imm)
  | .xori d a imm => encI 0x02 2 a d (toField 12 imm)
  | .slti d a imm => encI 0x02 3 a d (toField 12 imm)
  | .sltui d a imm => encI 0x02 4 a d (toField 12 imm)
  | .lih d imm => encU 0x03 d imm
  | .csetb d a b => encR 0x04 0x00 0 b a d
  | .cinc d a b => encR 0x04 0x01 0 b a d
  | .candp d a b => encR 0x04 0x02 0 b a d
  | .csub d a b => encR 0x04 0x03 0 b a d
  | .ctest d a b => encR 0x04 0x04 0 b a d
  | .cgetb d a => encR 0x04 0x05 0 0 a d
  | .cgetl d a => encR 0x04 0x06 0 0 a d
  | .cgetp d a => encR 0x04 0x07 0 0 a d
  | .cgett d a => encR 0x04 0x08 0 0 a d
  | .cclr d a => encR 0x04 0x09 0 0 a d
  | .cmov d a => encR 0x04 0x0a 0 0 a d
  | .cincI d a imm => encI 0x05 0 a d (toField 12 imm)
  | .csetbI d a len => encI 0x05 1 a d len
  | .candpI d a mask => encI 0x05 2 a d mask
  | .cpcrel d off => encU 0x06 d (toField 20 off)
  | .lb d a imm => encI 0x07 0 a d (toField 12 imm)
  | .lbu d a imm => encI 0x07 1 a d (toField 12 imm)
  | .lh d a imm => encI 0x07 2 a d (toField 12 imm)
  | .lhu d a imm => encI 0x07 3 a d (toField 12 imm)
  | .lw d a imm => encI 0x07 4 a d (toField 12 imm)
  | .lwu d a imm => encI 0x07 5 a d (toField 12 imm)
  | .ld d a imm => encI 0x07 6 a d (toField 12 imm)
  | .lcap d a imm => encI 0x07 7 a d (toField 12 imm)
  | .sb b a imm => encS 0x08 0 b a (toField 12 imm)
  | .sh b a imm => encS 0x08 1 b a (toField 12 imm)
  | .sw b a imm => encS 0x08 2 b a (toField 12 imm)
  | .sd b a imm => encS 0x08 3 b a (toField 12 imm)
  | .sq b a imm => encS 0x08 4 b a (toField 12 imm)
  | .scap b a imm => encS 0x08 5 b a (toField 12 imm)
  | .lbX d a hint scope route => encX 0x09 (xf10 0 hint scope) route a d
  | .lbuX d a hint scope route => encX 0x09 (xf10 1 hint scope) route a d
  | .lhX d a hint scope route => encX 0x09 (xf10 2 hint scope) route a d
  | .lhuX d a hint scope route => encX 0x09 (xf10 3 hint scope) route a d
  | .lwX d a hint scope route => encX 0x09 (xf10 4 hint scope) route a d
  | .lwuX d a hint scope route => encX 0x09 (xf10 5 hint scope) route a d
  | .ldX d a hint scope route => encX 0x09 (xf10 6 hint scope) route a d
  | .lq d a hint scope route => encX 0x09 (xf10 7 hint scope) route a d
  | .lcapX d a hint scope route => encX 0x09 (xf10 8 hint scope) route a d
  | .home d a => encX 0x09 (xf10 9 0 0) 0 a d
  | .migr a => encX 0x09 (xf10 10 0 0) 0 a 0
  | .migrF a => encX 0x09 (xf10 11 0 0) 0 a 0
  | .sbX b a hint scope route => encX 0x0A (xf10 0 hint scope) b a route
  | .shX b a hint scope route => encX 0x0A (xf10 1 hint scope) b a route
  | .swX b a hint scope route => encX 0x0A (xf10 2 hint scope) b a route
  | .sdX b a hint scope route => encX 0x0A (xf10 3 hint scope) b a route
  | .sqX b a hint scope route => encX 0x0A (xf10 4 hint scope) b a route
  | .scapX b a hint scope route => encX 0x0A (xf10 5 hint scope) b a route
  | .amoadd d b a w aq rl scope => encX 0x0B (af10 0 w aq rl scope) b a d
  | .amoand d b a w aq rl scope => encX 0x0B (af10 1 w aq rl scope) b a d
  | .amoor d b a w aq rl scope => encX 0x0B (af10 2 w aq rl scope) b a d
  | .amoxor d b a w aq rl scope => encX 0x0B (af10 3 w aq rl scope) b a d
  | .amomin d b a w aq rl scope => encX 0x0B (af10 4 w aq rl scope) b a d
  | .amomax d b a w aq rl scope => encX 0x0B (af10 5 w aq rl scope) b a d
  | .amominu d b a w aq rl scope => encX 0x0B (af10 6 w aq rl scope) b a d
  | .amomaxu d b a w aq rl scope => encX 0x0B (af10 7 w aq rl scope) b a d
  | .amoswap d b a w aq rl scope => encX 0x0B (af10 8 w aq rl scope) b a d
  | .cas d b a w aq rl scope => encX 0x0B (af10 9 w aq rl scope) b a d
  | .casq d b a aq rl scope => encX 0x0B (af10 10 false aq rl scope) b a d
  | .rwlr d a t => encX 0x0B (af10 11 t false false 0) 0 a d
  | .rwlw d a t => encX 0x0B (af10 12 t false false 0) 0 a d
  | .rwur a => encX 0x0B (af10 13 false false false 0) 0 a 0
  | .rwuw a => encX 0x0B (af10 14 false false false 0) 0 a 0
  | .fence kinds scope => encI 0x0C 0 0 0 (kinds + 16 * scope)
  | .beq a b off => encI 0x0D 0 b a (toField 12 off)
  | .bne a b off => encI 0x0D 1 b a (toField 12 off)
  | .blt a b off => encI 0x0D 2 b a (toField 12 off)
  | .bge a b off => encI 0x0D 3 b a (toField 12 off)
  | .bltu a b off => encI 0x0D 4 b a (toField 12 off)
  | .bgeu a b off => encI 0x0D 5 b a (toField 12 off)
  | .jal d off => encU 0x0E d (toField 20 off)
  | .jalr d a imm => encI 0x0F 0 a d (toField 12 imm)
  | .vld d a imm => encI 0x10 0 a d (toField 12 imm)
  | .vlds d a s k ew => encI 0x10 1 a d (vimm s k ew false)
  | .vgath d a x k ew => encI 0x10 2 a d (vimm x k ew false)
  | .vst b a imm => encS 0x11 0 b a (toField 12 imm)
  | .vsts b a s k ew => encS 0x11 1 b a (vimm s k ew false)
  | .vscat b a x k ew => encS 0x11 2 b a (vimm x k ew false)
  | .vscataAdd b a x k ew atm => encS 0x11 3 b a (vimm x k ew atm)
  | .vscataFadd b a x k ew atm => encS 0x11 4 b a (vimm x k ew atm)
  | .vadd d a b k ew => encV 0x12 0x00 ew k b a d
  | .vsub d a b k ew => encV 0x12 0x01 ew k b a d
  | .vmul d a b k ew => encV 0x12 0x02 ew k b a d
  | .vmulh d a b k ew => encV 0x12 0x03 ew k b a d
  | .vmulhu d a b k ew => encV 0x12 0x04 ew k b a d
  | .vmin d a b k ew => encV 0x12 0x05 ew k b a d
  | .vmax d a b k ew => encV 0x12 0x06 ew k b a d
  | .vminu d a b k ew => encV 0x12 0x07 ew k b a d
  | .vmaxu d a b k ew => encV 0x12 0x08 ew k b a d
  | .vabs d a k ew => encV 0x12 0x09 ew k 0 a d
  | .vneg d a k ew => encV 0x12 0x0a ew k 0 a d
  | .vand d a b k ew => encV 0x12 0x0b ew k b a d
  | .vor d a b k ew => encV 0x12 0x0c ew k b a d
  | .vxor d a b k ew => encV 0x12 0x0d ew k b a d
  | .vsll d a b k ew => encV 0x12 0x0e ew k b a d
  | .vsrl d a b k ew => encV 0x12 0x0f ew k b a d
  | .vsra d a b k ew => encV 0x12 0x10 ew k b a d
  | .vaddFp d a b k ew => encV 0x13 0x00 ew k b a d
  | .vsubFp d a b k ew => encV 0x13 0x01 ew k b a d
  | .vmulFp d a b k ew => encV 0x13 0x02 ew k b a d
  | .vfma d a b k ew => encV 0x13 0x03 ew k b a d
  | .vfms d a b k ew => encV 0x13 0x04 ew k b a d
  | .vdiv d a b k ew => encV 0x13 0x05 ew k b a d
  | .vsqrt d a k ew => encV 0x13 0x06 ew k 0 a d
  | .vminFp d a b k ew => encV 0x13 0x07 ew k b a d
  | .vmaxFp d a b k ew => encV 0x13 0x08 ew k b a d
  | .vabsFp d a k ew => encV 0x13 0x09 ew k 0 a d
  | .vnegFp d a k ew => encV 0x13 0x0a ew k 0 a d
  | .vcmpEq d a b k ew => encV 0x14 0x00 ew k b a d
  | .vcmpNe d a b k ew => encV 0x14 0x01 ew k b a d
  | .vcmpLt d a b k ew => encV 0x14 0x02 ew k b a d
  | .vcmpLe d a b k ew => encV 0x14 0x03 ew k b a d
  | .vcmpLtu d a b k ew => encV 0x14 0x04 ew k b a d
  | .vcmpLeu d a b k ew => encV 0x14 0x05 ew k b a d
  | .vcmpFeq d a b k ew => encV 0x14 0x08 ew k b a d
  | .vcmpFne d a b k ew => encV 0x14 0x09 ew k b a d
  | .vcmpFlt d a b k ew => encV 0x14 0x0a ew k b a d
  | .vcmpFle d a b k ew => encV 0x14 0x0b ew k b a d
  | .vcmpFuno d a b k ew => encV 0x14 0x0c ew k b a d
  | .vsel d a b k ew => encV 0x14 0x10 ew k b a d
  | .vbcast d a k ew => encV 0x15 0x00 ew k 0 a d
  | .vext d a b ew => encV 0x15 0x01 ew 0 b a d
  | .vins d a b ew => encV 0x15 0x02 ew 0 b a d
  | .vperm d a b k ew => encV 0x15 0x03 ew k b a d
  | .vslideUp d a b k ew => encV 0x15 0x04 ew k b a d
  | .vslideDn d a b k ew => encV 0x15 0x05 ew k b a d
  | .vcompr d a k ew => encV 0x15 0x06 ew k 0 a d
  | .vexpnd d a k ew => encV 0x15 0x07 ew k 0 a d
  | .vredAdd d a k ew => encV 0x16 0x00 ew k 0 a d
  | .vredMin d a k ew => encV 0x16 0x01 ew k 0 a d
  | .vredMax d a k ew => encV 0x16 0x02 ew k 0 a d
  | .vredMinu d a k ew => encV 0x16 0x03 ew k 0 a d
  | .vredMaxu d a k ew => encV 0x16 0x04 ew k 0 a d
  | .vredAnd d a k ew => encV 0x16 0x05 ew k 0 a d
  | .vredOr d a k ew => encV 0x16 0x06 ew k 0 a d
  | .vredXor d a k ew => encV 0x16 0x07 ew k 0 a d
  | .vredFadd d a k ew => encV 0x16 0x08 ew k 0 a d
  | .vredFmin d a k ew => encV 0x16 0x09 ew k 0 a d
  | .vredFmax d a k ew => encV 0x16 0x0a ew k 0 a d
  | .vcvt d a k src dst => encV 0x17 (src / 2) 0 k (16 * (src % 2) + dst) a d
  | .vcvttDec d a b k t4 o => encV 0x17 (8 + 4 * t4.toNat + o) 0 k b a d
  | .vcvttEnc d a b k t4 o => encV 0x17 (16 + 4 * t4.toNat + o) 0 k b a d
  | .vconf d a k ew => encV 0x18 0x00 ew k 0 a d
  | .visect d a b k => encV 0x18 0x01 2 k b a d
  | .kopAnd d a b => encV 0x19 0x00 0 0 b a d
  | .kopOr d a b => encV 0x19 0x01 0 0 b a d
  | .kopXor d a b => encV 0x19 0x02 0 0 b a d
  | .kopAndn d a b => encV 0x19 0x03 0 0 b a d
  | .kopNot d a => encV 0x19 0x04 0 0 0 a d
  | .kmovToMask d a => encV 0x19 0x08 0 0 0 a d
  | .kmovFromMask d a => encV 0x19 0x09 0 0 0 a d
  | .kpop d a => encV 0x19 0x0A 0 0 0 a d
  | .send d a b n rx => encR 0x1A (0x00 + 8 * rx.toNat) n b a d
  | .sendv d a b n rx => encR 0x1A (0x01 + 8 * rx.toNat) n b a d
  | .sendb d a b n rx => encR 0x1A (0x02 + 8 * rx.toNat) n b a d
  | .mlen d => encR 0x1A 0x04 0 0 0 d
  | .msrc d => encR 0x1A 0x05 0 0 0 d
  | .spawn d a b => encR 0x1B 0x00 0 b a d
  | .spawnW d a b => encR 0x1B 0x01 0 b a d
  | .kill a => encR 0x1B 0x04 0 0 a 0
  | .prio a => encR 0x1B 0x05 0 0 a 0
  | .waitc n a => encR 0x1B 0x06 n 0 a 0
  | .barr a => encR 0x1C 0x00 0 0 a 0
  | .barw a => encR 0x1C 0x01 0 0 a 0
  | .baraw a => encR 0x1C 0x02 0 0 a 0
  | .barset a b => encR 0x1C 0x03 0 b a 0
  | .wdeclOne a => encR 0x1C 0x04 1 0 a 0
  | .wdeclAll a n => encR 0x1C 0x05 n 0 a 0
  | .wdeclAny a n => encR 0x1C 0x06 n 0 a 0
  | .chopen d a b => encR 0x1D 0x00 0 b a d
  | .chprod a => encR 0x1D 0x01 0 0 a 0
  | .chput a b => encR 0x1D 0x02 0 b a 0
  | .chget d g a => encR 0x1D 0x03 g 0 a d
  | .cheos a => encR 0x1D 0x04 0 0 a 0
  | .chclose a => encR 0x1D 0x05 0 0 a 0
  | .tsub d a b n => encR 0x1E 0x00 (n - 1) b a d
  | .trel n => encR 0x1E 0x01 n 0 0 0
  | .tretry a => encR 0x1E 0x03 0 0 a 0
  | .mxq a b => encR 0x1F 0x00 0 b a 0
  | .mxwait a => encR 0x1F 0x01 0 0 a 0
  | .mxcure a => encR 0x1F 0x02 0 0 a 0
  | .cekick a b g => encR 0x1F 0x03 g b a 0
  | .semw n => encR 0x1F 0x05 n 0 0 0
  | .sems n => encR 0x1F 0x06 n 0 0 0
  | .compose n => encR 0x20 0x00 n 0 0 0
  | .csrr d csr => encI 0x21 0 0 d csr
  | .csrw csr a => encI 0x21 1 a 0 csr
  | .csrset csr a => encI 0x21 2 a 0 csr
  | .csrclr csr a => encI 0x21 3 a 0 csr
  | .trap i => encI 0x21 4 0 0 i
  | .syscall i a => encI 0x21 5 a 0 i
  | .pinval a b => encR 0x22 0x00 0 b a 0
  | .plbinv a b => encR 0x22 0x01 0 b a 0
  | .tstop a => encR 0x22 0x02 0 0 a 0
  | .tresume a => encR 0x22 0x03 0 0 a 0
  | .mxtest a => encR 0x22 0x04 0 0 a 0
  | .pkill a => encR 0x22 0x05 0 0 a 0
  | .fenceI => encI 0x0C 1 0 0 0
  | .mdone => encR 0x1A 0x03 0 0 0 0
  | .exit => encR 0x1B 0x02 0 0 0 0
  | .yield => encR 0x1B 0x03 0 0 0 0
  | .killApply _ _ => 0
  | .wclr => encR 0x1C 0x07 0 0 0 0
  | .tdone => encR 0x1E 0x02 0 0 0 0
  | .cekickR => encR 0x1F 0x04 0 0 0 0
  | .composeComplete _ _ => 0
  | .decompose => encR 0x20 0x01 0 0 0 0
  | .nop => encI 0x21 6 0 0 0
  | .brk => encI 0x21 6 0 0 1
  | .eret => encI 0x21 6 0 0 2
  | .pinvalComplete _ _ => 0
  | .tstopComplete _ _ => 0
  | .cNop => encC 0x01 0 0 0
  | .cAdd d a => encC 0x02 0 a d
  | .cSub d a => encC 0x03 0 a d
  | .cAnd d a => encC 0x04 0 a d
  | .cOr d a => encC 0x05 0 a d
  | .cXor d a => encC 0x06 0 a d
  | .cMov d a => encC 0x07 0 a d
  | .cAddi d imm => encCI 0x08 (toField 7 imm) d
  | .cLi d imm => encCI 0x09 (toField 7 imm) d
  | .cSlli d amt => encCI 0x0a amt d
  | .cSrli d amt => encCI 0x0b amt d
  | .cCinc d imm => encCI 0x0C (toField 7 imm) d
  | .cLd d a off => encC 0x0d off a d
  | .cSd b a off => encC 0x0e off a b
  | .cLw d a off => encC 0x0f off a d
  | .cSw b a off => encC 0x10 off a b
  | .cBeqz a off => encCI 0x11 (toField 7 off) a
  | .cBnez a off => encCI 0x12 (toField 7 off) a
  | .cJ off => encCJ 0x13 (toField 10 off)
  | .cJr a => encC 0x14 0 a 0
  | .cYield => encC 0x15 0 0 0
  | .cMdone => encC 0x16 0 0 0
  | .eli d imm hw k => 0x01 + 64 * d + 1024 * hw + 4096 * imm + 2 ^ 28 * k.toNat
  | .eadd d a b => encER 0x02 0 b a d
  | .eaddi d a imm => encEI 0x03 (toField 14 imm) 0 a d
  | .esub d a b => encER 0x04 0 b a d
  | .eand d a b => encER 0x05 0 b a d
  | .eshl d a amt => encEI 0x06 amt 0 a d
  | .eshr d a amt => encEI 0x07 amt 0 a d
  | .eb cond a b off => encEI 0x08 (toField 14 off) b a cond
  | .ej off => 0x09 + 64 * toField 26 off
  | .eld d a f imm => encEI 0x0A (toField 14 imm) f a d
  | .eldQ d q => encEI 0x0A q 4 0 d
  | .est d a f imm => encEI 0x0B (toField 14 imm) f a d
  | .estQ d q => encEI 0x0B q 4 0 d
  | .blk d a b x => encER 0x0c x b a d
  | .gath d a b x => encER 0x0d x b a d
  | .scat d a b x => encER 0x0e x b a d
  | .scout n => encEI 0x0F n 0 0 0
  | .ewait n a => encEI 0x10 n 0 a 0
  | .efence x => encER 0x11 x 0 0 0
  | .semwEngine n => encEI 0x12 n 0 0 0
  | .semsEngine n => encEI 0x13 n 0 0 0
  | .barbBind a => encER 0x14 0 0 a 0
  | .barbUnbind => encER 0x14 1 0 0 0
  | .barbAdd a b => encER 0x14 2 b a 0
  | .edone a => encER 0x15 0 0 a 0
  | .copyComplete _ => 0
  | .copyStop _ => 0
  | .scoutTranslation _ => 0
  | .engineInterrupt _ => 0
  | .mxNop _ => 0
  | .mxRing _ => 0
  | .mxMode _ => 0
  | .mxZero _ => 0
  | .mxLda _ => 0
  | .mxLdb _ => 0
  | .mxMma _ => 0
  | .mxRot _ => 0
  | .mxMmar _ => 0
  | .mxRed _ => 0
  | .mxScx _ => 0
  | .mxStc _ => 0
  | .mxSync _ => 0
  | .mxFmap _ => 0
  | .tokenPush _ => 0
  | .rotationStep _ => 0
  | .scaleBroadcast _ => 0
  | .geometryTrap _ => 0
  | .scanStart _ => 0
  | .scanPass _ => 0
  | .scanFail _ _ => 0
  | .ramp _ => 0
  | .walk _ _ => 0
  | .placementCacheFill _ _ => 0
  | .plbMiss _ _ _ => 0
  | .remoteWordAccess _ => 0
  | .sectorAccess _ => 0
  | .sectorFill _ _ => 0
  | .missWayRelease _ _ => 0
  | .byStoreAck _ => 0
  | .bankWindowAccess _ => 0
  | .scrub _ _ => 0
  | .ownerSlotHandler _ => 0
  | .bankroleWrite _ => 0
  | .bankroleChange _ => 0
  | .arrbaseWrite _ => 0
  | .arrcapWrite _ => 0
  | .cntWrite _ _ => 0
  | .statusWrite _ => 0
  | .vtabWrite _ => 0
  | .faultqWrite _ => 0
  | .wdidleWrite _ => 0
  | .ptwinWrite _ => 0
  | .messageArrival _ => 0
  | .slotDispatch _ => 0
  | .negativeAcknowledgement _ => 0
  | .grant _ => 0
  | .refusalResend _ _ => 0
  | .probeRequest _ => 0
  | .probe _ => 0
  | .confirm _ => 0
  | .probeAbandon _ => 0
  | .faultDelivery _ => 0
  | .serviceTrapDispatch _ => 0
  | .parkFrameWait _ _ => 0
  | .faultRecordPost _ => 0
  | .redelivery _ => 0
  | .absenceResend _ => 0
  | .debugHalt _ _ _ _ => 0
  | .debugReadRegister _ _ _ => 0
  | .debugWriteRegister _ _ _ _ _ => 0
  | .debugReadQueue _ _ => 0
  | .debugReplaceQueue _ _ _ => 0
  | .debugStep _ _ => 0
  | .debugResume _ => 0
  | .idleFlit _ _ => 0
  | .dataFlit _ _ _ _ => 0
  | .replayRequest _ _ => 0
  | .laneMap _ _ _ => 0
  | .replayRequestTimeout _ => 0
  | .lossOfLight _ _ => 0
  | .laneMapResend _ => 0
  | .linkTraining _ _ _ => 0
  | .laneRegain _ _ => 0
  | .downLinkTimeout _ => 0
  | .linkRead _ => 0
  | .postedWrite _ => 0
  | .linkAtomic _ => 0
  | .linkMessage _ => 0
  | .linkCall _ => 0
  | .readResponse _ => 0
  | .writeAcknowledgement _ => 0
  | .atomicResponse _ => 0
  | .messageAnswer _ => 0
  | .callResponse _ => 0
  | .powerOn => 0
  | .firmwareVerify _ => 0
  | .configurationVerify _ => 0
  | .diePowerUp _ _ => 0
  | .bootSelfTest => 0
  | .serviceEntrySetup => 0
  | .bringupLinkTraining _ => 0
  | .attestationRequest _ => 0
  | .powerLimitExceeded => 0
  | .thermalShutdown => 0
  | .illegalInstruction _ => 0
  | .instructionFetchFault _ => 0
  | .engineIllegalInstruction _ => 0
  | .engineFetchFault _ => 0
  | .accessResponse _ _ => 0
  | .powerBelowLimit => 0
  | .wenlekWindowAccess _ _ _ => 0

/-- Whether an instruction is a compact one (R230). -/
def Instr.isCompact : Instr → Bool
  | .cNop | .cAdd _ _ | .cSub _ _ | .cAnd _ _ | .cOr _ _ | .cXor _ _ | .cMov _ _ | .cAddi _ _ | .cLi _ _ | .cSlli _ _
  | .cSrli _ _ | .cCinc _ _ | .cLd _ _ _ | .cSd _ _ _ | .cLw _ _ _ | .cSw _ _ _ | .cBeqz _ _ | .cBnez _ _ | .cJ _
  | .cJr _ | .cYield | .cMdone => true
  | _ => false

/-- The instruction of a word numbered as the opcode table numbers it: 16 bits a compact halfword, 32 bits a core word,
or an engine word where the core's length rule (bit 0, R211) or its tables leave it to the engine's own opcode space
(R66; log 6). -/
noncomputable def decodeTableWord (nbits w : Nat) : Option Instr :=
  if nbits = 16 then decodeCompact w
  else if nbits = 32 then
    if w % 2 = 1 then (decodeCore w).or (decodeEngine w) else decodeEngine w
  else none

end Sys2Proof
end

