-- ==== Sys2Proof/Machine/Fetch.lean ====
section
/-! DEFINITION. Issue selection (R341), instruction fetch of slots (R99, R197, R211) and of copy engines (R63). -/

namespace Sys2Proof.Machine

/-! Selection. -/

/-- A slot that has a context which may issue: not halted, not held for service, for a park frame or for the records of a
wait-graph fault. -/
def Slot.able (y : Slot) : Bool :=
  (y.holds == .thread || y.holds == .activation) && !y.halted && y.svc.isNone && y.parkWant.isNone && y.graphFault.isNone

/-- The slot is between two instructions, or at one that waits: none that has issued stalls, nothing it asked for is on its way or
has come back unused, and no lock has been granted to it. -/
def atBoundary (s : State) (c k : Nat) : Bool :=
  (s.slot c k).replies.isEmpty && (s.slot c k).kept.isNone && (s.slot c k).graphFault.isNone && (s.flights.all fun f => !(f.core == c && f.slot == k && f.op != 1))
    && (s.links.all fun p => p.2.requests.all fun r => !(r.core == c && r.slot == k && r.op != 2))
    && s.cores.all fun (p : Nat × Core) => p.2.locks.all fun (q : Nat × LockInfo) =>
        q.2.waiters.all fun w => !(w.granted && w.party == s.partyAt c k)

/-- A TSTOP of the tenant takes in the tile of the core (R389). -/
def stopping (s : State) (c tenant : Nat) : Bool :=
  s.stops.any fun p => p.tenant == tenant && p.tiles.contains (globalTile c)

/-- The slots a core may issue from in this cycle (R341). -/
def ableSlots (s : State) (c : Nat) (stalled : List Nat) : List Nat :=
  (List.range (min 7 (numSlots c))).filter fun k => (s.slot c k).able && !stalled.contains k
    && !((s.slot c k).mode == .user && stopping s c (s.slot c k).tenant && atBoundary s c k)

/-- The slots a core tries in this cycle, in order: by falling priority, within one priority cyclically from the slot after that
priority's pointer (R341). -/
def candidates (s : State) (c : Nat) (stalled : List Nat) : List Nat :=
  let l := ableSlots s c stalled
  (List.range 16).reverse.flatMap fun p =>
    let at_ := l.filter fun k => (s.slot c k).prio == p
    let ptr := SMap.get 6 (s.core c).rr p
    (at_.filter fun k => decide (ptr < k)) ++ at_.filter fun k => !decide (ptr < k)

/-- The contexts that core `c` tries in this cycle: its slots' in their order, or, where it is a member of a composition, the composed
core in the lead's slot (R341, R345). -/
def contenders (s : State) (c : Nat) (stalled : List Nat) : List (Nat × Nat) :=
  match (s.core c).comp with
  | some g =>
    if g.running && g.lead != c then (if (ableSlots s g.lead stalled).contains g.slot then [(g.lead, g.slot)] else [])
    else (candidates s c stalled).map fun k => (c, k)
  | none => (candidates s c stalled).map fun k => (c, k)

/-- Core `c` is about to issue the context of slot `q`: the pointer of its priority moves to it, and the issue ends no owner handler
(R341). -/
def setPointer (c : Nat) (q : Nat × Nat) (s : State) : State :=
  (s.modCore q.1 fun x => { x with rr := SMap.put x.rr (s.slot q.1 q.2).prio q.2 }).modCore c fun x => { x with ended := false }

/-- A slot's instruction is in a hardware wait that its own retry ends (R351); waits on service (0x12, 0x13) are left otherwise. -/
def Slot.waits (y : Slot) : Bool := y.wait.mode != 0 && y.wait.reason != 0x0F && y.wait.reason != 0x12 && y.wait.reason != 0x13

/-- Whether the attempt that led from one state to another issued: the slot was not ready when its instruction waits, or still
stalls after it issued in an earlier cycle (R341). -/
def issuedIn (c k : Nat) (s t : State) : Bool :=
  let x := s.slot c k
  let y := t.slot c k
  !(x.uid == y.uid && x.pcc == y.pcc && (y.waits || (x.kept.isSome && y.kept == x.kept)))

/-- A spawned thread issues its first instruction: its spawn is no longer outstanding (R302). -/
def firstIssue (c k : Nat) (s : State) : State :=
  if s.spawned.isEmpty then s
  else { s with spawned := s.spawned.filter fun p => p.2.1 != (s.slot c k).uid }

/-- A slot has not issued: the pointers, the mark of the last issue and its outstanding spawn are as they were. -/
def notIssued (c : Nat) (q : Nat × Nat) (s t : State) : State :=
  ({ t with spawned := s.spawned }.modCore q.1 fun x => { x with rr := (s.core q.1).rr }).modCore c fun x =>
    { x with ended := (s.core c).ended }

/-! Asynchronous causes (R369). -/

/-- The cause that a slot takes at this boundary, outside a trap: a revoked cure, a geometry change of a command it issued,
a fault of the engine it kicked, in that order (R369, R151, R84). -/
def dueCause (s : State) (c k : Nat) : Option Pend :=
  let y := s.slot c k
  if y.inTrap || !atBoundary s c k then none
  else match y.pend with
    | p :: _ => some p
    | [] => match (s.mx c).geomPend.find? fun p => p.1 == y.uid with
      | some p => some ⟨0x0E, p.2⟩
      | none => ((s.eng c).interrupts.find? fun p => p.1 == y.uid).map fun p => ⟨0x0F, p.2⟩

/-- A pending cause is no longer pending. -/
def forget (c k : Nat) (p : Pend) (s : State) : State :=
  let u := (s.slot c k).uid
  match p.cause with
  | 0x0E => s.modMx c fun x => { x with geomPend := x.geomPend.erase (u, p.tval) }
  | 0x0F => s.modEng c fun e => { e with interrupts := e.interrupts.erase (u, p.tval) }
  | _ => s.modSlot c k fun y => { y with pend := y.pend.erase p }

/-- A pending cause is taken at the slot's next instruction, or at the one it waits in (R84, R151, R157). -/
def takePending (c k : Nat) (p : Pend) (s : State) : State :=
  trapAt c k p.cause p.tval.toNat (s.slot c k).pc (forget c k p s)

/-- A slot that can take a pending cause of the given number takes it. -/
def deliverCause (c cause : Nat) (s : State) : State :=
  match (List.range 7).find? fun k => (s.slot c k).able && (dueCause s c k).any fun p => p.cause == cause with
  | some k => match dueCause s c k with
    | some p => takePending c k p s
    | none => s
  | none => s

/-! Fetch. -/

/-- The halfword at a checked address, as the home, the bank or the link gives it (R53, R92, R197). -/
def fetchHalf (w : Who) (va : Nat) (s : State) : Res Nat :=
  (locate w va 0 false s).bind fun src s =>
    let give (r : Reply) (s : State) : Res Nat :=
      if r.poison then .exc (.poison va) s else .ok (leNat r.bytes) s
    match src with
    | .host _ _ | .peer _ _ =>
      let s := askRemote w src va 2 false s
      match findReply w va 2 s with
      | some r => give r s
      | none => .stall s
    | _ => give (takeAt s src va 2) s

/-- The instruction at the program counter of a slot, and its length in bytes (R211). -/
def fetchSlot (c k : Nat) (s : State) : Res (Nat × Nat) :=
  let y := s.slot c k
  let w := whoSlot s c k
  (memCheck w y.pcc y.pc 2 4 2 4 s).bind fun va s => (fetchHalf w va s).bind fun h s =>
    if h % 2 = 0 then .ok (h, 2) s
    else (memCheck w y.pcc y.pc 4 4 2 4 s).bind fun va s => (fetchHalf w ((va + 2) % 2 ^ 52) s).bind fun g s =>
      .ok (h + 65536 * g, 4) s

/-- The cause an access's exception stands for (R257). -/
def Exc.cause : Exc → Nat
  | .vec cause _ => cause
  | .svc cause _ _ => cause
  | .park _ _ => 0x07
  | .poison _ => 0x09

/-- The instruction of fetched bits. -/
noncomputable def decodeFetched (p : Nat × Nat) : Option Instr := if p.2 = 2 then decodeCompact p.1 else decodeCore p.1

/-- The agent of a copy engine (R41, R61). -/
def whoEngine (s : State) (c : Nat) : Who :=
  let e := s.eng c
  ⟨c, 16, engineParty c, engineParty c, e.domain, e.tenant, e.tenant⟩

/-- A copy engine waits with a record (R62, R71 to R73). -/
def engineWait (c reason target : Nat) (s : State) : State :=
  s.modEng c fun e => { e with
    state := .blocked
    wait := if e.wait.same 1 reason [target] then e.wait else WaitRec.mk' e.wait.gen 1 reason false [target] }

/-- The engine cause of an access's exception (R81, R92). -/
def Exc.engineCause : Exc → Nat
  | .vec cause _ => if cause = 0x06 then 0x06 else 0x04
  | .svc cause _ _ => if cause = 0x06 then 0x03 else 0x02
  | .park _ _ => 0x01
  | .poison _ => 0x0A

/-- The engine instruction at EPC (R63); the exception carries an engine cause. -/
def fetchEngine (c : Nat) (s : State) : Res Nat :=
  let e := s.eng c
  let w := whoEngine s c
  if e.epc % 4 ≠ 0 then .exc (.vec 0x06 e.epc) s
  else if !e.fetchCap.tag || decide (e.epc < e.fetchCap.base) || decide (e.fetchCap.top < e.epc + 4)
      || !e.fetchCap.canExec || (inWindow e.epc && (windowSrc s c e.epc 4).isNone) then .exc (.vec 0x04 e.epc) s
  else (needRights w e.epc 4 s).bind fun _ s => (fetchHalf w e.epc s).bind fun h s =>
    (fetchHalf w (e.epc + 2) s).bind fun g s => .ok (h + 65536 * g) s

/-- The command a sequencer is to execute now: the one it has started, or its oldest (R139). -/
def currentCommand (c : Nat) (s : State) : Option Cmd :=
  match (s.mx c).cur with
  | some x => some x.q.cmd
  | none => (s.mx c).queue.head?.map fun q => q.cmd

end Sys2Proof.Machine
end

