-- ==== Sys2Proof/Machine/Engine.lean ====
section
/-! DEFINITION. Copy engines (R61 to R87): scalar instructions, queues and semaphores, copies and their stops, the scout, and
the core's CEKICK, CEKICK.r, SEMW, SEMS (R318, R319). -/

namespace Sys2Proof.Machine

open Host (Outcome)

/-! The engine of the current core. -/

def Engine.reg (x : Engine) (n : Nat) : Word := SMap.get 0 x.e n
def Engine.setReg (x : Engine) (n : Nat) (v : Word) : Engine := { x with e := SMap.put x.e n v }

def State.engMe (s : State) : Engine := s.eng s.curCore
def State.modEngMe (s : State) (f : Engine → Engine) : State := s.modEng s.curCore f

/-- The engine instruction completes (R62): the next one follows. -/
def Engine.next (x : Engine) : Engine :=
  { x with
    epc := (x.epc + 4) % 2 ^ 52
    state := .running
    wait := if x.wait.mode = 0 then x.wait else x.wait.clear
    waitCount := none
    stopping := none
    replies := [] }

/-- A deposit or a CSR write has changed counter `n` of a core: an EWAIT whose value the count has reached completes at that change
(R73). -/
def noteCount (c n : Nat) (s : State) : State :=
  match (s.eng c).waitCount with
  | some (m, v) => if m = n ∧ v ≤ SMap.get 0 (s.core c).cnt n then s.modEng c Engine.next else s
  | none => s

def engNext (s : State) : State := s.modEngMe Engine.next

/-- The engine waits, and tries its instruction again at its next turn. -/
def engWait (reason target : Nat) (s : State) : State := engineWait s.curCore reason target s

/-- The engine waits for a queue, or for semaphore `n - 16` (R71, R72). -/
def engWaitFor (reason target n : Nat) (s : State) : State :=
  (engWait reason target s).modEngMe fun x => { x with waitArg := n }

/-! Stopping (R81 to R84). -/

/-- The sectors of a bitmap, as four words. -/
def bitmapWords (l : List Nat) : List Nat :=
  let b := l.foldl (fun n i => n + 2 ^ (i % 256)) 0
  (List.range 4).map fun i => bits b (64 * i) 64

/-- Bytes requested and bytes done as a record holds them (R81, R85): the low 32 bits of each (DESIGN CHOICE, log 108). -/
def countWord (total done : Nat) : Nat := total % 2 ^ 32 + done % 2 ^ 32 * 2 ^ 32

/-- Post an engine's fault record (R81); `none` while the ring has no space, else word 0. -/
def engineRecord (c cause va : Nat) (write : Bool) (total done : Nat) (marked : List Nat) (s : State) :
    Option (Nat × State) :=
  let e := s.eng c
  let w0 := write.toNat * 2 ^ 15 + cause * 256 + 3
  let r := rec1 e.tenant (engineParty c) w0 (va :: countWord total done :: bitmapWords marked) s.clock
  match (if s.records.any fun q => q.tenant == e.tenant then none else postNow r s) with
  | some (q, s) => some (engineParty c * 2 ^ 32 + q * 2 ^ 16 + w0, s)
  | none => none

/-- The engine is FAULTED, and its kicker gets the interrupt (R82, R84). -/
def engineFaulted (c word : Nat) (s : State) : State :=
  s.modEng c fun e => { e with
    state := .faulted
    wait := WaitRec.mk' e.wait.gen 1 0x12 false [serviceParty c]
    interrupts := e.interrupts ++ [(e.kickUid, BitVec.ofNat 64 word)]
    waitCount := none
    replies := [] }

/-- An instruction that moves nothing stops the engine without effect (R82); `total` is what a copy asks for (R81). While the record
waits for ring space the engine goes no further (R378). -/
def engineStop (c cause va : Nat) (write : Bool) (total : Nat) (s : State) : State :=
  match engineRecord c cause va write total 0 [] s with
  | some (w, s) => engineFaulted c w s
  | none => s.modEng c fun e => { e with stopping := some (cause, va, write, total) }

/-- An instruction that is no copy stops the engine (R82). -/
def engineFault (c cause va : Nat) (write : Bool) (s : State) : State := engineStop c cause va write 0 s

/-- An access's exception: a migrating page makes the engine wait (R24, R78), any other stops it. -/
def engineRaise (e : Exc) (write : Bool) (s : State) : State :=
  match e with
  | .park flags va => if 2 ^ 15 ≤ flags then engWait 0x12 (serviceParty s.curCore) s
                      else engineFault s.curCore 0x01 va write s
  | x => engineFault s.curCore x.engineCause x.at_ write s

/-! Reach (R65). -/

/-- The engine cause of an access outside the reach: 0x04 bounds, 0x05 permission. -/
def reachCheck (r : Reg) (a n need : Nat) : Option Nat :=
  if !r.tag || decide (2 ^ 52 ≤ a) || decide (a < r.base) || decide (r.top < a + n) then some 0x04
  else if r.perms &&& need ≠ need then some 0x05
  else none

/-- Rights of an access whose reach has been checked, over every region of 512 MiB it touches, and the bank window (R92). -/
def engineAccess (w : Who) (a n need : Nat) (s : State) : Res Nat :=
  if badWindow w a n s then .exc (.vec 0x14 a) s
  else (needRegions w a n need s).bind fun _ s => .ok a s

def engineLoad (w : Who) (a n : Nat) (s : State) : Res Loaded :=
  (engineAccess w a n 1 s).bind fun a s => loadAt w a n 0 0 s
def engineStore (w : Who) (a scope : Nat) (data : List Byte) (s : State) : Res Unit :=
  (engineAccess w a data.length 2 s).bind fun a s => storeAt w a 0 scope data false s

/-! Scalar instructions (R68 to R70). -/

/-- A result for e[d]. -/
def engWrite (d : Nat) (f : Engine → Word) (s : State) : State := s.modEngMe fun e => e.next.setReg d (f e)

/-- ELI: a halfword, the other bits cleared or kept (R68). -/
def eliWord (old : Word) (imm hw : Nat) (k : Bool) : Word :=
  let new : Word := BitVec.ofNat 64 (imm * 2 ^ (16 * hw))
  if k then (old &&& ~~~(BitVec.ofNat 64 (0xFFFF * 2 ^ (16 * hw)))) ||| new else new

def execEli (d imm hw : Nat) (k : Bool) (s : State) : Outcome State Fault Refusal :=
  .next (engWrite d (fun e => eliWord (e.reg d) imm hw k) s)
def execEadd (d a b : Nat) (s : State) : Outcome State Fault Refusal :=
  .next (engWrite d (fun e => e.reg a + e.reg b) s)
def execEsub (d a b : Nat) (s : State) : Outcome State Fault Refusal :=
  .next (engWrite d (fun e => e.reg a - e.reg b) s)
def execEand (d a b : Nat) (s : State) : Outcome State Fault Refusal :=
  .next (engWrite d (fun e => e.reg a &&& e.reg b) s)
def execEaddi (d a : Nat) (imm : Int) (s : State) : Outcome State Fault Refusal :=
  .next (engWrite d (fun e => e.reg a + immWord imm) s)
def execEshl (d a amt : Nat) (s : State) : Outcome State Fault Refusal :=
  .next (engWrite d (fun e => e.reg a <<< amt) s)
def execEshr (d a amt : Nat) (s : State) : Outcome State Fault Refusal :=
  .next (engWrite d (fun e => e.reg a >>> amt) s)

/-- EPC moves by a multiple of four bytes (R70). -/
def Engine.jump (x : Engine) (off : Int) : Engine := { x.next with epc := toField 52 ((x.epc : Int) + off * 4) }

/-- The conditions of EB: 0 zero, 1 not zero, 2 signed less (R70). -/
def ebTaken (cond : Nat) (a b : Word) : Bool :=
  match cond with
  | 0 => a == 0
  | 1 => a != 0
  | _ => BitVec.slt a b

def execEb (cond a b : Nat) (off : Int) (s : State) : Outcome State Fault Refusal :=
  .next (s.modEngMe fun e => if ebTaken cond (e.reg a) (e.reg b) then e.jump off else e.next)
def execEj (off : Int) (s : State) : Outcome State Fault Refusal := .next (s.modEngMe fun e => e.jump off)

/-! Loads, stores and queues (R71). -/

/-- The checks of ELD, EST and EDONE before the access leaves, in R81's order: bounds of the reach or of the bank window, permission,
alignment. -/
def eldCheck (s : State) (a n need : Nat) : Option Nat :=
  match reachCheck s.engMe.reach a n need with
  | some 0x04 => some 0x04
  | r => if badWindow (whoEngine s s.curCore) a n s then some 0x04
         else match r with
           | some cause => some cause
           | none => if a % n ≠ 0 then some 0x07 else none

/-- The address e[a] + imm. -/
def engAddr (e : Engine) (a : Nat) (imm : Int) : Nat := (e.reg a + immWord imm).toNat

def execEld (d a f : Nat) (imm : Int) (s : State) : Outcome State Fault Refusal :=
  let e := s.engMe
  let va := engAddr e a imm
  let n := 2 ^ f
  match eldCheck s va n 1 with
  | some cause => .next (engineFault s.curCore cause va false s)
  | none =>
    match engineLoad (whoEngine s s.curCore) va n s with
    | .exc x _ => .next (engineRaise x false s)
    | .stall t => .next t
    | .ok x t =>
      match x.poison with
      | some p => .next (engineFault s.curCore 0x0A p false s)
      | none => .next (engWrite d (fun _ => BitVec.ofNat 64 (leNat x.bytes)) t)

def execEst (d a f : Nat) (imm : Int) (s : State) : Outcome State Fault Refusal :=
  let e := s.engMe
  let va := engAddr e a imm
  let n := 2 ^ f
  match eldCheck s va n 2 with
  | some cause => .next (engineFault s.curCore cause va true s)
  | none =>
    match engineStore (whoEngine s s.curCore) va 0 (leBytes n (e.reg d).toNat) s with
    | .exc x _ => .next (engineRaise x true s)
    | .stall t => .next t
    | .ok _ t => .next (engNext t)

/-- ELD.Q; a word that carries an error is poison that an ELD consumes, with address 0 (R81, R383; DESIGN CHOICE, log 76). -/
def execEldQ (d q : Nat) (s : State) : Outcome State Fault Refusal :=
  match (s.core s.curCore).queue q with
  | [] => .next (engWaitFor 0x01 (anyParty s.curCore) q s)
  | v :: _ =>
    let t := s.modCore s.curCore fun x => x.popWord (16 + q)
    if (s.core s.curCore).badWord (16 + q) 1 then .next (engineFault s.curCore 0x0A 0 false t)
    else .next (engWrite d (fun _ => v) t)

def execEstQ (d q : Nat) (s : State) : Outcome State Fault Refusal :=
  if 8 ≤ (s.core s.curCore).load q then .next (engWaitFor 0x02 (anyParty s.curCore) q s)
  else .next (engNext (s.modCore s.curCore fun x => x.setQueue q (x.queue q ++ [s.engMe.reg d])))

/-! Semaphores, counters, fences (R72 to R74). -/

def semOf (s : State) (n : Nat) : Nat := SMap.get 0 (s.core s.curCore).sem n
def setSem (n v : Nat) (s : State) : State := s.modCore s.curCore fun x => { x with sem := SMap.put x.sem n v }

/-- Every earlier access of the engine is performed. -/
def drainEngine (s : State) : State := drainAgent s.curCore 16 s

def execSemwEngine (n : Nat) (s : State) : Outcome State Fault Refusal :=
  if semOf s n = 0 then .next (engWaitFor 0x0B (anyParty s.curCore) (16 + n) s)
  else .next (engNext (setSem n (semOf s n - 1) s))

/-- An earlier write of the engine to a host or peer page still awaits its acknowledgement: it is not yet performed (R184). -/
def engineWrites (s : State) (c : Nat) : Bool := hostWritesOf s (engineParty c)

def execSemsEngine (n : Nat) (s : State) : Outcome State Fault Refusal :=
  if 65535 ≤ semOf s n then .next (engWaitFor 0x0B (anyParty s.curCore) (24 + n) s)
  else
    let t := drainEngine s
    if engineWrites t t.curCore then .next (engWaitFor 0x0B (anyParty s.curCore) (24 + n) t)
    else .next (engNext (setSem n (semOf s n + 1) t))

def execEwait (n a : Nat) (s : State) : Outcome State Fault Refusal :=
  let v := (s.engMe.reg a).toNat
  if v ≤ SMap.get 0 (s.core s.curCore).cnt n then .next (engNext s)
  else .next ((engWait 0x05 (serviceParty s.curCore) s).modEngMe fun e => { e with waitCount := some (n, v) })

def execEfence (x : Nat) (s : State) : Outcome State Fault Refusal :=
  let t := drainScope s.curCore 16 (x + 1) s
  if x = 4 ∧ engineWrites t t.curCore then .next t else .next (engNext t)

/-! Barrier groups (R80). A record of a fault without a faulting address has word 1 = 0 and write 0 (DESIGN CHOICE, log 108). -/

/-- The group is the engine's tenant's and in byte mode. -/
def boundGroup (s : State) (g : Nat) : Bool :=
  let x := s.group g
  x.tenant == some s.engMe.tenant && x.valid && x.byteMode

def execBarbBind (a : Nat) (s : State) : Outcome State Fault Refusal :=
  let v := (s.engMe.reg a).toNat
  if 1024 ≤ v then .next (engineFault s.curCore 0x08 0 false s)
  else if !boundGroup s v then .next (engineFault s.curCore 0x0B 0 false s)
  else .next (s.modEngMe fun e => { e.next with group := some v })

def execBarbUnbind (s : State) : Outcome State Fault Refusal :=
  .next (s.modEngMe fun e => { e.next with group := none })

def execBarbAdd (a b : Nat) (s : State) : Outcome State Fault Refusal :=
  let v := (s.engMe.reg a).toNat
  if 1024 ≤ v then .next (engineFault s.curCore 0x08 0 false s)
  else if !boundGroup s v then .next (engineFault s.curCore 0x0B 0 false s)
  else
    let t := drainEngine s
    if engineWrites t t.curCore then .next t
    else match arriveBytes v s.engMe.tenant ((s.engMe.reg b).toNat % 2 ^ 32) t with
      | some t => .next (engNext t)
      | none => .next (engineFault s.curCore 0x0B 0 false s)

/-! EDONE (R64). -/

/-- The mailbox store of the EDONE in progress has been made. -/
def mailboxWritten (s : State) : Bool := s.engMe.replies.any fun r => r.bytes.isEmpty

/-- The stream ends once the mailbox store has been performed. -/
def endStream (s : State) : State :=
  if engineWrites s s.curCore then s.modEngMe fun e => { e with replies := [⟨e.mailbox, [], [], false, 0⟩] }
  else s.modEngMe fun e => { e.next with group := none, state := .idle }

def execEdone (a : Nat) (s : State) : Outcome State Fault Refusal :=
  let e := s.engMe
  if mailboxWritten s then .next (endStream s)
  else match eldCheck s e.mailbox 8 2 with
  | some cause => .next (engineFault s.curCore cause e.mailbox true s)
  | none =>
    let t := drainEngine s
    if engineWrites t t.curCore then .next t
    else match engineStore (whoEngine t t.curCore) e.mailbox 5 (leBytes 8 (e.reg a).toNat) t with
      | .exc x _ => .next (engineRaise x true s)
      | .stall t => .next t
      | .ok _ t => .next (endStream (drainEngine t))

/-! Copies (R76 to R78). -/

/-- Lowest and highest byte of `n` pieces of `len` bytes at `base`, `stride` apart. -/
def extent (base n len : Nat) (stride : Int) : Int × Int :=
  let last := (base : Int) + stride * ((n : Int) - 1)
  (min (base : Int) last, max (base : Int) last + len)

/-- The reach over an extent: bounds, then permission. -/
def extentCheck (r : Reg) (x : Int × Int) (need : Nat) : Option Nat :=
  if x.1 < 0 then some 0x04 else reachCheck r x.1.toNat (x.2 - x.1).toNat need

/-- A progress record's place: a scratchpad bank of the own core through the self window, 64-byte aligned (R85). -/
def progressAt (s : State) (c a : Nat) : Option Nat :=
  if a % 64 = 0 ∧ 0xFFFFFFFFC0000 ≤ a ∧ a < 2 ^ 52 ∧ bankRole s c (a % 2 ^ 18 / 8192) = 0 then some (a % 2 ^ 18) else none

/-- Write a copy's progress record (R85); a bank that is no longer scratchpad gets nothing. -/
def progressWrite (c : Nat) (x : Copy) (status done va : Nat) (marked : List Nat) (s : State) : State :=
  match (if x.progress = 0 then none else progressAt s c x.progress) with
  | some off =>
    let l := (x.lastWord / 256 % 2 ^ 24 * 256 + status) :: countWord x.total done :: va :: bitmapWords marked ++ [x.pc]
    physWrite (localKey c off) (l.map (leBytes 8)).flatten false s
  | none => s

/-- The lowest cause by R81's priority. -/
def firstCause (l : List (Option Nat)) : Option Nat :=
  let has (c : Nat) : Bool := l.contains (some c)
  [0x04, 0x05, 0x08, 0x09].find? has

/-- Start a copy once every earlier access of the stream is performed (R75, R76, R77, R85), or stop on the first of its causes. -/
def startCopy (x : Copy) (checks : List (Option Nat)) (va : Nat) (write : Bool) (s : State) : State :=
  let c := s.curCore
  if x.total = 0 ∧ !checks.contains (some 0x08) then engNext s
  else match firstCause checks with
    | some cause => engineStop c cause va write x.total s
    | none =>
      let s := drainEngine s
      if engineWrites s c then s
      else progressWrite c x 1 0 0 [] (s.modEng c fun e => { e with copy := some x, scouted := [] })

/-- Cause 0x08 of a progress-record address that R85 does not allow. -/
def progressCheck (s : State) (a : Nat) : Option Nat :=
  if a = 0 ∨ (progressAt s s.curCore a).isSome then none else some 0x08

/-- BLK (R76). Of a stop before the first transfer the record names the extent at fault, and the destination for causes 0x08 and
0x09 (DESIGN CHOICE, log 108). -/
def execBlk (d a b x : Nat) (s : State) : Outcome State Fault Refusal :=
  let e := s.engMe
  let g := (e.reg b).toNat
  let h := (e.reg (b + 1)).toNat
  let rows := bits g 32 32
  let len := bits g 0 32
  let ds := sext 32 (bits h 32 32)
  let ss := sext 32 (bits h 0 32)
  let dst := (e.reg d).toNat
  let src := (e.reg a).toNat
  let prog := (e.reg x).toNat
  let de := extent dst rows len ds
  let se := extent src rows len ss
  let cp : Copy := ⟨0, dst, src, rows, len, ds, ss, 0, 0, rows * len, prog, e.epc, 0, none, 0, none, none, 0, 0, 0, [], none, 0⟩
  let empty := rows * len == 0
  let sc := if empty then none else extentCheck e.reach se 1
  let dc := if empty then none else extentCheck e.reach de 2
  let checks := [sc, dc, if empty then none else progressCheck s prog, if 2 ^ 32 ≤ rows * len then some 0x08 else none,
    if !empty && decide (se.1 < de.2) && decide (de.1 < se.2) then some 0x09 else none]
  let onSrc := sc.isSome && sc == firstCause checks
  .next (startCopy cp checks (if onSrc then src else dst) (!onSrc) s)

/-- GATH and SCAT: the list's extent is checked at the start, the elements as they are moved (R77). A stop before the first
element names the list (DESIGN CHOICE, log 108). -/
def listCopy (kind d a b x : Nat) (s : State) : State :=
  let e := s.engMe
  let g := (e.reg (b + 1)).toNat
  let list := (e.reg b).toNat % 2 ^ 52
  let k := bits g 32 4
  let count := bits g 0 32
  let prog := (e.reg x).toNat
  let total := count * 2 ^ k
  let cp : Copy := ⟨kind, (e.reg d).toNat, (e.reg a).toNat, count, 0, 0, 0, list, 2 ^ k, total, prog, e.epc, 0, none, 0, none, none,
    0, 0, 0, [], none, 0⟩
  startCopy cp
    [if total = 0 then none else reachCheck e.reach list (4 * count) 1,
     if g / 2 ^ 36 ≠ 0 ∨ 8 < k then some 0x08 else none,
     if total = 0 then none else progressCheck s prog] list false s

def execGath (d a b x : Nat) (s : State) : Outcome State Fault Refusal := .next (listCopy 1 d a b x s)
def execScat (d a b x : Nat) (s : State) : Outcome State Fault Refusal := .next (listCopy 2 d a b x s)

/-- Source and destination address of byte `p` of the stream, with the element's index word. The sums are not reduced modulo 2^64: one
that leaves the address space is outside every reach (DESIGN CHOICE, log 121). -/
def Copy.addr (x : Copy) (idx p : Nat) : Nat × Nat :=
  match x.kind with
  | 0 =>
    let i : Int := ((p / x.rowBytes : Nat) : Int)
    ((x.src + i * x.sstride).toNat + p % x.rowBytes, (x.dst + i * x.dstride).toNat + p % x.rowBytes)
  | 1 => (x.src + idx * x.esize + p % x.esize, x.dst + p)
  | _ => (x.src + p, x.dst + idx * x.esize + p % x.esize)

/-- Source and destination pages of byte `p`. -/
def Copy.pages (x : Copy) (idx p : Nat) : Nat × Nat := ((x.addr idx p).1 / 65536, (x.addr idx p).2 / 65536)

/-- Bytes left of the row or the element at byte `p`. -/
def Copy.rest (x : Copy) (p : Nat) : Nat := if x.kind = 0 then x.rowBytes - p % x.rowBytes else x.esize - p % x.esize

/-- The address of a byte on one side. -/
def sideAddr (write : Bool) (a : Nat × Nat) : Nat := if write then a.2 else a.1

/-- A byte of the faulted span whose sector is marked on either side. -/
def Copy.isMarked (x : Copy) (a : Nat × Nat) : Bool :=
  x.marked.any fun m => sideAddr m.1 a / 256 % 256 == m.2

/-- A byte that a replay does not transfer again (R86). -/
def Copy.skips (x : Copy) (a : Nat × Nat) : Bool := decide (x.pos < x.spanEnd) && x.isMarked a

/-- The checks of an element before it is moved (R77). -/
def elementCheck (e : Engine) (x : Copy) (idx : Nat) : Option (Nat × Nat × Bool) :=
  if x.kind = 0 then none
  else
    let a := x.addr idx (x.pos / x.esize * x.esize)
    match reachCheck e.reach a.1 x.esize 1 with
    | some cause => some (cause, a.1, false)
    | none => (reachCheck e.reach a.2 x.esize 2).map fun cause => (cause, a.2, true)

/-- A transfer's exception: a migrating page makes the copy wait, any other is the fault that stops it (R78, R82). -/
def copyFault (x : Copy) (e : Exc) (write : Bool) (s : State) : State :=
  match e with
  | .park flags va => if 2 ^ 15 ≤ flags then engWait 0x12 (serviceParty s.curCore) s
      else s.modEngMe fun y => { y with copy := some { x with fault := some (0x01, va, write) } }
  | e => s.modEngMe fun y => { y with copy := some { x with fault := some (e.engineCause, e.at_, write) } }

/-- What travels with the bytes of a copy (R30, R102): the poison of their granule, and the tags of whole granules. -/
def carryMarks (w : Who) (a : Nat × Nat) (n : Nat) (v : Loaded) (src : Src) (s : State) : State :=
  let s := if v.poison.isSome then carryPoison w src a.2 n s else s
  if a.1 % 16 ≠ a.2 % 16 then s
  else (v.tags.zipIdx).foldl (fun s p =>
    let g := a.2 / 16 * 16 + 16 * p.2
    if p.1 && decide (a.2 ≤ g ∧ g + 16 ≤ a.2 + n) then tagMark (src.plus (g - a.2)) g s else s) s

/-- Whether the agent's bytes at `a` are on a host or peer page. -/
def onLinkPage (w : Who) (a : Nat) (write : Bool) (s : State) : Bool :=
  match locate w a 0 write s with
  | .ok src _ => isLink src
  | _ => false

/-- The parts of a bulk access: at most 16 bytes each (R75, R92, R165), of a host or peer page one per sector. -/
def fineParts (l : List (Nat × Nat × Src)) : List (Nat × Nat × Src) :=
  l.flatMap fun p =>
    if isLink p.2.2 then [p]
    else (splitBlocks 16 18 p.1 p.2.1).map fun q => (q.1, q.2, p.2.2.plus (q.1 - p.1))

/-- A bulk read of an engine or a sequencer, in parts without an order of their own. -/
def bulkLoad (w : Who) (a n : Nat) (s : State) : Res (List Reply) :=
  (engineAccess w a n 1 s).bind fun a s =>
    loadParts w 0 false false false (if onLinkPage w a false s then parts w a n else splitBlocks 16 (n / 16 + 2) a n) s

/-- A bulk write: its parts have no order of their own, but come after earlier parts of the agent to the same bytes (R77). -/
def bulkStore (w : Who) (a : Nat) (data : List Byte) (s : State) : Res Unit :=
  let n := data.length
  let whole (va : Nat) : Bool := decide (a ≤ va / 64 * 64) && decide (va / 64 * 64 + 64 ≤ a + n)
  let s := drainWhere (fun f => f.core == w.core && f.slot == w.slot && decide (f.va < a + n) && decide (a < f.va + f.bytes.length)) s
  (engineAccess w a n 2 s).bind fun a s => (locateParts w 0 true (parts w a n) s).bind fun l s0 =>
    match storeParts w 0 false false whole (fineParts l) data s0 with
    | some s => .ok () s
    | none => .stall s0

/-- The sectors of an engine's transfers in flight (R78). -/
def inTransfer (s : State) (c : Nat) : Nat :=
  let own := (s.flights.filter fun f => f.core == c && f.slot == 16).map fun f => f.va / 256
  let out := s.links.flatMap fun p => (p.2.requests.filter fun r => r.core == c && r.slot == 16).map fun r => r.va / 256
  (own ++ out).eraseDups.length

/-- Where the pieces moved in a row into a destination granule of 64 bytes have come to (R30). -/
def Copy.advance (x : Copy) (a n : Nat) (bad : Bool) : Option (Nat × Bool) :=
  if a % 64 = 0 then some (a + n, bad)
  else match x.front with
    | some (e, p) => if e = a then some (a + n, p || bad) else none
    | none => none

/-- The pieces of a copy have overwritten the whole granule that ends at `e`, none of them poisoned: its poison is cleared (R30). -/
def cleanGranule (w : Who) (front : Option (Nat × Bool)) (s : State) : State :=
  match front with
  | some (e, false) =>
    if e % 64 ≠ 0 then s
    else match locate w (e - 64) 0 true s with
      | .ok src t => if poisonAt t src (e - 64) 64 then setPoison src (e - 64) 64 false (drainAgent w.core w.slot t) else s
      | _ => s
  | _ => s

/-- The copy after `n` bytes of its stream with index word `idx`: the span that they lie in (R78). -/
def Copy.moved (x : Copy) (idx n : Nat) (front : Option (Nat × Bool)) : Copy :=
  { x with
    pos := x.pos + n
    spanAt := if x.spanPages = some (x.pages idx x.pos) then x.spanAt else x.pos
    spanPages := some (x.pages idx x.pos)
    front := front }

/-- Move the next bytes of a copy, with the index word of their element: at most one 64-byte granule of each side, so that marks
travel with their granule (R30). -/
def copyPiece (idx : Nat) (x : Copy) (s : State) : State :=
  let c := s.curCore
  let w := whoEngine s c
  match elementCheck (s.eng c) x idx with
  | some f => s.modEngMe fun y => { y with copy := some { x with fault := some f } }
  | none =>
    let a := x.addr idx x.pos
    let n := min (x.rest x.pos) (min (64 - a.1 % 64) (64 - a.2 % 64))
    let next (front : Option (Nat × Bool)) (t : State) : State := t.modEngMe fun y => { y with
      copy := some (x.moved idx n front), state := .running, replies := []
      wait := if y.wait.mode = 0 then y.wait else y.wait.clear }
    if x.skips a then next none s
    else match bulkLoad w a.1 n s with
      | .exc e _ => copyFault x e false s
      | .stall t => t
      | .ok rs t =>
        let v := loadedOf rs
        let front := x.advance a.2 n v.poison.isSome
        match bulkStore w a.2 v.bytes t with
        | .exc e _ => copyFault x e true s
        | .stall t => t
        | .ok _ t =>
          if v.poison.isSome || v.tags.any id then
            match locate w a.2 0 true (drainAgent c 16 t) with
            | .ok src t => next front (carryMarks w a n v src t)
            | _ => next front t
          else next front (cleanGranule w front t)

/-- The next bytes of the copy in progress, in stream order (R78). An element's index word is read once, before it is moved (R77).
With 64 sector transfers in flight none is issued. -/
def copyStep (x : Copy) (s : State) : State :=
  let el := x.pos / x.esize
  if 64 ≤ inTransfer s s.curCore then s
  else if x.kind = 0 then copyPiece 0 x s
  else match x.word.filter fun p => p.1 == el with
    | some p => copyPiece p.2 x s
    | none => match engineLoad (whoEngine s s.curCore) (x.list + 4 * el) 4 s with
      | .exc e _ => copyFault x e false s
      | .stall t => t
      | .ok v t => match v.poison with
        | some p => copyFault x (.poison p) false s
        | none =>
          let x := { x with word := some (el, leNat v.bytes) }
          copyPiece (leNat v.bytes) x (t.modEngMe fun y => { y with copy := some x, replies := [] })

/-- SECTOR_ACCESS: a transfer of a core's copy is performed at its homes (R53, R78). -/
def execSectorAccess (c : Nat) (s : State) : Outcome State Fault Refusal :=
  let s := { s with curCore := c }
  match s.engMe.copy with
  | some x => if x.fault.isSome ∨ x.total ≤ x.pos ∨ s.engMe.state = .faulted then .next s else .next (copyStep x s)
  | none => .next s

/-! Spans (R78). -/

def spanStart (pg : Nat → Nat × Nat) : Nat → Nat
  | 0 => 0
  | n + 1 => if pg n = pg (n + 1) then spanStart pg n else n + 1

/-- The end of the span of byte `p`, looking at most `fuel` bytes on. -/
def spanEnd (pg : Nat → Nat × Nat) : Nat → Nat → Nat
  | 0, p => p + 1
  | fuel + 1, p => if pg (p + 1) = pg p then spanEnd pg fuel (p + 1) else p + 1

/-- The sectors of a page of the span whose bytes in the span are all done, in this run or before (R81, R86); none for GATH and
SCAT. -/
def doneSectors (x : Copy) (write : Bool) (lo hi : Nat) : List Nat :=
  if x.kind ≠ 0 then []
  else
    let sec (p : Nat) : Nat := sideAddr write (x.addr 0 p) / 256 % 256
    let span := (List.range (hi - lo)).map fun i => lo + i
    (List.range 256).filter fun n =>
      let l := span.filter fun p => sec p == n
      !l.isEmpty && l.all fun p => decide (p < x.pos) || (decide (p < x.spanEnd) && x.isMarked (x.addr 0 p))

/-- A stopped copy (R82, R86): it stands at the start of the span that holds the fault; its bytes done are those of the spans before
and, in a BLK, those marked, whose marks add to those of earlier stops in the same span. A fault of an index word lies in the span in
progress (DESIGN CHOICE, log 122). -/
def Copy.stopped (x : Copy) (write : Bool) : Copy :=
  if x.kind = 0 then
    let pg := x.pages 0
    let lo := spanStart pg x.pos
    let hi := Machine.spanEnd pg (x.total - 1 - x.pos) x.pos
    let new := (doneSectors x write lo hi).map fun n => (write, n)
    let y := { x with
      marked := new ++ (if x.spanEnd = hi then x.marked.filter fun m => !new.contains m else []), spanEnd := hi }
    { y with
      pos := lo, fault := none, spanPages := none, front := none
      done := lo + ((List.range (hi - lo)).filter fun i => y.isMarked (y.addr 0 (lo + i))).length }
  else
    let new := (x.word.filter fun p => p.1 == x.pos / x.esize).any fun p => x.spanPages != some (x.pages p.2 x.pos)
    let lo := if new then x.pos else x.spanAt
    { x with pos := lo, spanAt := lo, spanPages := none, word := none, front := none, fault := none, done := lo }

/-- The bitmap of a stopped copy for the page at fault. -/
def Copy.bitmap (x : Copy) (write : Bool) : List Nat := (x.marked.filter fun m => m.1 == write).map Prod.snd

/-- COPY_STOP: a faulted copy stops once its transfers are done, posts, arrives, and raises its interrupt (R82). -/
def execCopyStop (c : Nat) (s : State) : Outcome State Fault Refusal :=
  match (s.eng c).copy with
  | none => .next s
  | some x =>
    match x.fault with
    | none => .next s
    | some (cause, va, write) =>
      let s0 := drainAgent c 16 s
      if engineWrites s0 c then .next s0
      else
        let x := x.stopped write
        match engineRecord c cause va write x.total x.done (x.bitmap write) s0 with
        | none => .next s
        | some (word, t) =>
          let x := { x with lastWord := word }
          let t := progressWrite c x 3 x.done va (x.bitmap write) t
          let t := match (t.eng c).group with
            | some g => (arriveBytes g (t.eng c).tenant (x.done - x.arrived) t).getD t
            | none => t
          let x := { x with arrived := if (t.eng c).group.isSome then max x.arrived x.done else x.arrived }
          .next (engineFaulted c word (t.modEng c fun e => { e with copy := some x }))

/-- A copy in progress stops for TSTOP as under R82, without record, arrival or interrupt (R87): its progress record says stopped; a
fault that was about to stop it is met again, or not, when the stream goes on. One that meets no fault stands at its next byte, with
VA and bitmap 0 (DESIGN CHOICE, log 109). -/
def stopCopy (c : Nat) (s : State) : State :=
  match (s.eng c).copy with
  | none => s
  | some x =>
    if (s.eng c).state = .faulted then s
    else
      let left := (List.range (x.spanEnd - x.pos)).filter fun i => x.isMarked (x.addr 0 (x.pos + i))
      let (x, va, marks) := match x.fault with
        | some (_, va, write) => let y := x.stopped write
                                 (y, va, y.bitmap write)
        | none => ({ x with done := x.pos + left.length }, 0, [])
      progressWrite c x 3 x.done va marks (s.modEng c fun e => { e with copy := some x })

/-- COPY_COMPLETE: every part of a copy is performed at its home; it arrives and the stream goes on (R75, R80, R85). -/
def execCopyComplete (c : Nat) (s : State) : Outcome State Fault Refusal :=
  match (s.eng c).copy with
  | none => .next s
  | some x =>
    let t := drainAgent c 16 s
    if x.fault.isSome ∨ x.pos < x.total ∨ (s.eng c).state = .faulted ∨ engineWrites t c then .next s
    else
      let t := progressWrite c x 2 x.total 0 [] t
      let t := match (t.eng c).group with
        | some g => (arriveBytes g (t.eng c).tenant (x.total - x.arrived) t).getD t
        | none => t
      .next (t.modEng c fun e => { e.next with copy := none })

/-! The scout (R79). -/

def execScout (n : Nat) (s : State) : Outcome State Fault Refusal :=
  .next (s.modEngMe fun e => { e.next with scout := n })

/-- The first `need` distinct pages of pieces `i`, `i + 1`, … of a stream, in stream order; `f` gives a piece's first and last page,
or `none` past the end. -/
def pagesAhead (need : Nat) (f : Nat → Option (Nat × Nat)) : Nat → Nat → List Nat → List Nat
  | 0, _, l => l
  | fuel + 1, i, l =>
    if need ≤ l.length then l.take need
    else match f i with
      | none => l
      | some (a, b) =>
        let new := ((List.range (min need (b - a + 1))).map fun j => a + j).filter fun p => !l.contains p
        pagesAhead need f fuel (i + 1) (l ++ new)

/-- Index word `i` of a copy: the one its front has read, else as memory holds it now; `none` where it cannot be read at once. The
scout moves no data, so in a list on a host or peer page it follows only the word that the front has read (DEDUCED, log 123). -/
def indexWord (s : State) (c : Nat) (x : Copy) (i : Nat) : Option Nat :=
  if x.rows ≤ i then none
  else match x.word.filter fun p => p.1 == i with
    | some p => some p.2
    | none => match loadAt (whoEngine s c) (x.list + 4 * i) 4 0 0 { s with late := false } with
      | .ok v _ => some (leNat v.bytes)
      | _ => none

/-- The pages that the scout translates for a copy at its front, with the write mark: of each stream of addresses the page of the
front and those up to n pages beyond it. -/
def scoutPages (s : State) (c : Nat) (x : Copy) : List (Nat × Bool) :=
  let n := (s.eng c).scout + 1
  let span (a len : Nat) : Option (Nat × Nat) := some (a / 65536, (a + len - 1) / 65536)
  let row := x.pos / x.rowBytes
  let rows (base : Nat) (stride : Int) (i : Nat) : Option (Nat × Nat) :=
    let off := if i = row then x.pos % x.rowBytes else 0
    if x.rows ≤ i then none else span ((base + (i : Int) * stride).toNat + off) (x.rowBytes - off)
  let el := x.pos / x.esize
  let along (base : Nat) (i : Nat) : Option (Nat × Nat) := if i = 0 then span (base + x.pos) (x.total - x.pos) else none
  let list (i : Nat) : Option (Nat × Nat) := if i = 0 then span (x.list + 4 * el) (4 * (x.rows - el)) else none
  let elems (base : Nat) (i : Nat) : Option (Nat × Nat) := (indexWord s c x i).bind fun k => span (base + k * x.esize) x.esize
  let go (f : Nat → Option (Nat × Nat)) (i : Nat) (wr : Bool) : List (Nat × Bool) :=
    (pagesAhead n f (x.rows + 1) i []).map fun p => (p, wr)
  match x.kind with
  | 0 => go (rows x.src x.sstride) row false ++ go (rows x.dst x.dstride) row true
  | 1 => go (along x.dst) 0 true ++ go list 0 false ++ go (elems x.src) el false
  | _ => go (along x.src) 0 false ++ go list 0 false ++ go (elems x.dst) el true

/-- The next page that the scout of a copy translates, as a source or as a destination. -/
def scoutNext (s : State) (c : Nat) (x : Copy) : Option (Nat × Bool) :=
  (scoutPages s c x).find? fun p => (s.eng c).scouted.all fun q => q.1 != p.1 || q.2.1 != p.2

/-- SCOUT_TRANSLATION: the scout of a copy in progress translates its next page, or posts a record for it, one for a page; word 1
names the page's first byte (DESIGN CHOICE, log 124). -/
def execScoutTranslation (c : Nat) (s : State) : Outcome State Fault Refusal :=
  match (s.eng c).copy with
  | none => .next s
  | some x =>
    if (s.eng c).scout = 0 ∨ (s.eng c).state = .faulted ∨ x.total ≤ x.pos then .next s
    else match scoutNext s c x with
      | none => .next s
      | some (page, write) =>
        let w := whoEngine s c
        let va := page * 65536
        let posted := (s.eng c).scouted.any fun q => q.1 == page && q.2.2
        let note (bad : Bool) (t : State) : State := t.modEng c fun e => { e with scouted := (page, write, bad) :: e.scouted }
        match (if inWindow va then Res.ok () s else (needRights w va (if write then 2 else 1) s).bind fun _ t =>
            (homeOf w va t).bind fun _ t => .ok () t) with
        | .ok _ t | .stall t => .next (note false t)
        | .exc e t =>
          let cause := match e with
            | .park _ _ => 0x01
            | x => x.engineCause
          let r := rec1 (s.eng c).tenant (engineParty c) (write.toNat * 2 ^ 15 + cause * 256 + 4) [va] t.clock
          .next (if posted then note true t else queueRecord r (note true t))

/-! Faults of the fetch (R63, R67), and the interrupt (R84). -/

def execEngineIllegalInstruction (_ : Nat) (s : State) : Outcome State Fault Refusal :=
  .next (engineFault s.curCore 0x06 s.engMe.epc false s)
def execEngineFetchFault (cause : Nat) (s : State) : Outcome State Fault Refusal :=
  .next (engineFault s.curCore cause s.engMe.epc false s)
def execEngineInterrupt (c : Nat) (s : State) : Outcome State Fault Refusal := .next (deliverCause c 0x0F s)

/-! The core's side (R318, R319). -/

/-- A kick (R63): the engine's whole state is set. -/
def kickEngine (entry mailbox reach : Reg) (s : State) : State :=
  let y := s.me
  let party := s.partyAt s.curCore s.curSlot
  s.modEngMe fun e => { e with
    fetchCap := entry, epc := entry.cursor, reach := reach, mailbox := mailbox.cursor
    kicker := party, kickUid := y.uid, domain := y.domain, tenant := y.tenant
    e := [(1, BitVec.ofNat 64 reach.cursor)]
    scout := 0, group := none, copy := none, scouted := [], replies := []
    state := .running, dead := false, waitCount := none, stopping := none
    wait := if e.wait.mode = 0 ∧ e.dead = false then e.wait else e.wait.clear }

/-- The checks of CEKICK, in order (R318). -/
def kickCheck (entry mailbox reach : Reg) : Option (Nat × Nat) :=
  match capCheck entry entry.cursor 4 4 1, capCheck mailbox mailbox.cursor 8 2 8 with
  | some cause, _ => some (cause, entry.cursor)
  | none, some cause => some (cause, mailbox.cursor)
  | none, none => if reach.tag then none else some (0x02, reach.cursor)

/-- The engine runs a stream, or waits in one. -/
def Engine.busy (e : Engine) : Bool := e.state == .running || e.state == .blocked

def execCekick (a b g : Nat) (s : State) : Outcome State Fault Refusal :=
  if isKeystone s.curCore then .next (illegal s)
  else match issue [a, b, g] [] s with
    | .stop t => .next t
    | .go vs t =>
      let entry := vs.getD 0 .zero
      let mailbox := vs.getD 1 .zero
      let reach := vs.getD 2 .zero
      match kickCheck entry mailbox reach with
      | some (cause, v) => .next (trapMe cause v s)
      | none =>
        if t.engMe.busy then .next (waitFor 1 0x0B false [engineParty t.curCore] (unpop s t))
        else .next (exposing [a, b, g] [] s t fun u => complete 4 (kickEngine entry mailbox reach (drainMe u)))

/-- Resume a FAULTED engine (R86): a stopped copy writes its progress record again. -/
def resumeEngine (c : Nat) (s : State) : State :=
  let s := s.modEng c fun e => { e with
    state := .running, wait := e.wait.clear, waitCount := none
    replies := e.replies.filter fun r => r.bytes.isEmpty }
  match (s.eng c).copy with
  | some x => progressWrite c x 1 x.done 0 [] s
  | none => s

def execCekickR (s : State) : Outcome State Fault Refusal :=
  if isKeystone s.curCore then .next (illegal s)
  else
    .next (exposing [] [] s s fun u =>
      let t := drainMe u
      complete 4 (if t.engMe.state = .faulted then resumeEngine t.curCore t else t))

def execSemw (n : Nat) (s : State) : Outcome State Fault Refusal :=
  if semOf s n = 0 then .next (waitFor 1 0x0B false [engineParty s.curCore] (s.modMe fun y => { y with waitArg := some n }))
  else .next (exposing [] [] s s fun t => complete 4 (setSem n (semOf t n - 1) t))

def execSems (n : Nat) (s : State) : Outcome State Fault Refusal :=
  if 65535 ≤ semOf s n then .next (waitFor 1 0x0B false [engineParty s.curCore] (s.modMe fun y => { y with waitArg := some (n + 8) }))
  else .next (exposing [] [] s s fun t => complete 4 (setSem n (semOf t n + 1) (drainMe t)))

end Sys2Proof.Machine
end

