-- ==== Sys2Proof/Machine/Numbers.lean ====
section
/-! DEFINITION. Number formats (R116 to R120), rounding and NaNs (R118, R119), format tables (R121 to R127), the FP32 split
(R128). Values are exact: a sign, a magnitude and a power of two. -/

namespace Sys2Proof.Machine

/-- A floating-point format (R116): exponent and mantissa widths, bias. -/
structure Fmt where
  eb : Nat
  mb : Nat
  bias : Nat
  deriving DecidableEq, Repr

def fp64 : Fmt := ⟨11, 52, 1023⟩
def fp32 : Fmt := ⟨8, 23, 127⟩
def fp16 : Fmt := ⟨5, 10, 15⟩
def bf16 : Fmt := ⟨8, 7, 127⟩
def e8m10 : Fmt := ⟨8, 10, 127⟩

def Fmt.width (f : Fmt) : Nat := 1 + f.eb + f.mb

/-- A value: NaN with its sign and payload as its format holds it, infinity, or ± mag × 2^exp. -/
inductive FVal where
  | nan (neg : Bool) (payload : Nat)
  | inf (neg : Bool)
  | fin (neg : Bool) (mag : Nat) (exp : Int)
  deriving DecidableEq, Repr

/-- The value of bits in a format (R116). -/
def Fmt.read (f : Fmt) (x : Nat) : FVal :=
  let neg := bit x (f.eb + f.mb)
  let e := bits x f.mb f.eb
  let m := bits x 0 f.mb
  if e = 2 ^ f.eb - 1 then (if m = 0 then .inf neg else .nan neg (m % 2 ^ (f.mb - 1)))
  else if e = 0 then .fin neg m (1 - (f.bias : Int) - f.mb)
  else .fin neg (2 ^ f.mb + m) ((e : Int) - f.bias - f.mb)

def Fmt.sign (f : Fmt) (neg : Bool) : Nat := neg.toNat * 2 ^ (f.eb + f.mb)
def Fmt.infBits (f : Fmt) (neg : Bool) : Nat := f.sign neg + (2 ^ f.eb - 1) * 2 ^ f.mb
def Fmt.nanBits (f : Fmt) (neg : Bool) (payload : Nat) : Nat := f.infBits neg + 2 ^ (f.mb - 1) + payload

/-- Divide by 2^s with ties to even; `sticky` says that something was lost below already. -/
def roundShift (mag s : Nat) (sticky : Bool) : Nat :=
  if s = 0 then mag
  else
    let q := mag / 2 ^ s
    let r := mag % 2 ^ s
    let half := 2 ^ (s - 1)
    if half < r ∨ (r = half ∧ (sticky ∨ q % 2 = 1)) then q + 1 else q

/-- RoundToNearestEven of ± mag × 2^exp, plus less than one unit when `sticky` (R118). -/
def Fmt.round (f : Fmt) (neg : Bool) (mag : Nat) (exp : Int) (sticky : Bool) : Nat :=
  if mag = 0 then f.sign neg
  else
    let low : Int := 1 - (f.bias : Int) - f.mb
    let q : Int := max low ((Nat.log2 mag : Int) + exp - f.mb)
    let m := if q ≤ exp then mag * 2 ^ (exp - q).toNat else roundShift mag (q - exp).toNat sticky
    let v := (q - low).toNat * 2 ^ f.mb + m
    if (2 ^ f.eb - 1) * 2 ^ f.mb ≤ v then f.infBits neg else f.sign neg + v

/-- An exact dyadic sum: mantissa as an integer at the lower of two exponents. -/
def addExact (a : Int × Int) (b : Int × Int) : Int × Int :=
  let e := min a.2 b.2
  (a.1 * 2 ^ (a.2 - e).toNat + b.1 * 2 ^ (b.2 - e).toNat, e)

def signedMag (neg : Bool) (mag : Nat) : Int := if neg then -(mag : Int) else mag

/-- Round an exact number; an exact zero is +0. -/
def Fmt.roundExact (f : Fmt) (x : Int × Int) : Nat := f.round (decide (x.1 < 0)) x.1.natAbs x.2 false

/-! NaNs (R119). -/

/-- The FP32-equivalent payload of a payload of a format. -/
def Fmt.toPayload32 (f : Fmt) (p : Nat) : Nat := if 23 ≤ f.mb then p / 2 ^ (f.mb - 23) else p * 2 ^ (23 - f.mb)
def Fmt.ofPayload32 (f : Fmt) (p : Nat) : Nat := if 23 ≤ f.mb then p * 2 ^ (f.mb - 23) else p / 2 ^ (23 - f.mb)

/-- NaNMeet over the NaN operands' payloads: the one whose FP32-equivalent payload is smaller; of FP64 payloads that agree in it the
smaller one, so that the set of NaNs alone decides (R135; DESIGN CHOICE, log 134). -/
def nanMeet (f : Fmt) : List Nat → Nat
  | [] => 0
  | [p] => p
  | p :: l => let q := nanMeet f l
              if f.toPayload32 q < f.toPayload32 p ∨ (f.toPayload32 q = f.toPayload32 p ∧ q < p) then q else p

def FVal.payload? : FVal → Option Nat
  | .nan _ p => some p
  | _ => none

/-- The NaN that NaN operands give, if there is one (R119). -/
def nanOf (f : Fmt) (l : List FVal) : Option Nat :=
  match l.filterMap FVal.payload? with
  | [] => none
  | ps => some (f.nanBits false (nanMeet f ps))

/-- A created NaN: core number and lane index (R119). -/
def Fmt.newNan (f : Fmt) (core lane : Nat) : Nat := f.nanBits false (f.ofPayload32 (core * 512 + lane % 512))

/-! Arithmetic of one lane (R283). `who` is the core number and the lane index. -/

def FVal.neg : FVal → FVal
  | .nan n p => .nan (!n) p
  | .inf n => .inf (!n)
  | .fin n m e => .fin (!n) m e

/-- A sum of two non-NaN values: `none` for ∞ − ∞. -/
def addVal (f : Fmt) (a b : FVal) : Option Nat :=
  match a, b with
  | .inf x, .inf y => if x = y then some (f.infBits x) else none
  | .inf x, _ => some (f.infBits x)
  | _, .inf y => some (f.infBits y)
  | .fin n m e, .fin n' m' e' =>
    if m = 0 ∧ m' = 0 then some (f.sign (n && n'))
    else some (f.roundExact (addExact (signedMag n m, e) (signedMag n' m', e')))
  | _, _ => none

/-- An exact product of two non-NaN values: `none` for 0 × ∞. -/
def mulVal (a b : FVal) : Option FVal :=
  match a, b with
  | .inf x, .inf y => some (.inf (x != y))
  | .inf x, .fin n m _ => if m = 0 then none else some (.inf (x != n))
  | .fin n m _, .inf y => if m = 0 then none else some (.inf (n != y))
  | .fin n m e, .fin n' m' e' => some (.fin (n != n') (m * m') (e + e'))
  | _, _ => none

/-- Bits of a non-NaN value. -/
def Fmt.write (f : Fmt) : FVal → Nat
  | .nan n p => f.nanBits n p
  | .inf n => f.infBits n
  | .fin n m e => f.round n m e false

def fpAdd (f : Fmt) (who : Nat × Nat) (a b : FVal) : Nat :=
  (nanOf f [a, b]).getD ((addVal f a b).getD (f.newNan who.1 who.2))

def fpMul (f : Fmt) (who : Nat × Nat) (a b : FVal) : Nat :=
  (nanOf f [a, b]).getD (((mulVal a b).map f.write).getD (f.newNan who.1 who.2))

/-- A × B + D, rounded once. -/
def fpFma (f : Fmt) (who : Nat × Nat) (a b d : FVal) : Nat :=
  (nanOf f [a, b, d]).getD (((mulVal a b).bind fun p => addVal f p d).getD (f.newNan who.1 who.2))

/-- A / B: a quotient of more bits than any format, and whether a remainder is left. -/
def fpDiv (f : Fmt) (who : Nat × Nat) (a b : FVal) : Nat :=
  (nanOf f [a, b]).getD (match a, b with
    | .inf _, .inf _ => f.newNan who.1 who.2
    | .inf x, .fin n _ _ => f.infBits (x != n)
    | .fin n _ _, .inf y => f.sign (n != y)
    | .fin n m e, .fin n' m' e' =>
      if m' = 0 then (if m = 0 then f.newNan who.1 who.2 else f.infBits (n != n'))
      else f.round (n != n') (m * 2 ^ 128 / m') (e - e' - 128) (decide (m * 2 ^ 128 % m' ≠ 0))
    | _, _ => 0)

/-- The integer square root below 2^n, bit by bit. -/
def isqrt (x : Nat) : Nat → Nat → Nat
  | 0, r => r
  | n + 1, r => if (r + 2 ^ n) * (r + 2 ^ n) ≤ x then isqrt x n (r + 2 ^ n) else isqrt x n r

def fpSqrt (f : Fmt) (who : Nat × Nat) (a : FVal) : Nat :=
  (nanOf f [a]).getD (match a with
    | .inf n => if n then f.newNan who.1 who.2 else f.infBits false
    | .fin n m e =>
      if m = 0 then f.sign n
      else if n then f.newNan who.1 who.2
      else
        let t := 128 + (e % 2).toNat
        let x := m * 2 ^ t
        let r := isqrt x 128 0
        f.round false r ((e - t) / 2) (decide (r * r ≠ x))
    | .nan _ _ => 0)

/-- Order of non-NaN values with −0 below +0: the value doubled, plus one for +0 and above. -/
def ltExact (a b : FVal) : Bool :=
  match a, b with
  | .inf x, .inf y => x && !y
  | .inf x, _ => x
  | _, .inf y => !y
  | .fin n m e, .fin n' m' e' =>
    let d := (addExact (signedMag n' m', e') (-(signedMag n m), e)).1
    decide (0 < d)
  | _, _ => false

def isZero : FVal → Bool
  | .fin _ m _ => m == 0
  | _ => false

def isNeg : FVal → Bool
  | .nan n _ => n
  | .inf n => n
  | .fin n _ _ => n

/-- Below in the order that puts −0 below +0 (R123, R283). -/
def ltTotal (a b : FVal) : Bool := ltExact a b || (isZero a && isZero b && isNeg a && !isNeg b)

def isNan : FVal → Bool
  | .nan _ _ => true
  | _ => false

def fpMin (f : Fmt) (a b : FVal) : Nat := (nanOf f [a, b]).getD (f.write (if ltTotal b a then b else a))
def fpMax (f : Fmt) (a b : FVal) : Nat := (nanOf f [a, b]).getD (f.write (if ltTotal a b then b else a))
def fpAbs (f : Fmt) (a : FVal) : Nat := (nanOf f [a]).getD (f.write (if isNeg a then a.neg else a))
def fpNeg (f : Fmt) (a : FVal) : Nat := (nanOf f [a]).getD (f.write a.neg)

/-! Conversions (R118, R289). -/

/-- A finite value to the nearest integer, ties to even. -/
def toNearest (neg : Bool) (mag : Nat) (exp : Int) : Int :=
  signedMag neg (if 0 ≤ exp then mag * 2 ^ exp.toNat else roundShift mag (-exp).toNat false)

def clampInt (w : Nat) (sgn : Bool) (x : Int) : Int :=
  if sgn then max (-(2 ^ (w - 1))) (min (2 ^ (w - 1) - 1) x) else max 0 (min (2 ^ w - 1) x)

/-- SatInt (R118). -/
def satInt (w : Nat) (sgn : Bool) : FVal → Int
  | .nan _ _ => 0
  | .inf neg => if neg then (if sgn then -(2 ^ (w - 1)) else 0) else (if sgn then 2 ^ (w - 1) - 1 else 2 ^ w - 1)
  | .fin n m e => clampInt w sgn (toNearest n m e)

/-- An integer rounded to a format. -/
def Fmt.ofInt (f : Fmt) (x : Int) : Nat := f.round (decide (x < 0)) x.natAbs 0 false

/-- Between floating formats; a NaN keeps its payload's high bits, its sign is cleared (R119). -/
def convert (src dst : Fmt) (x : Nat) : Nat :=
  match src.read x with
  | .nan _ p => dst.nanBits false (dst.ofPayload32 (src.toPayload32 p))
  | v => dst.write v

/-- ToE8M10 (R117), signs and NaN mantissas kept. -/
def toE8M10 (src : Fmt) (x : Nat) : Nat :=
  match src.read x with
  | .nan n _ => e8m10.infBits n + bits x 0 src.mb * 2 ^ (10 - src.mb)
  | v => e8m10.write v

/-- SplitFP32 (R128): both parts, rounded toward zero; x − hi of equal terms is +0 (R118). -/
def splitFp32 (x : Nat) : FVal × FVal :=
  match fp32.read x with
  | .fin n m e =>
    let trunc (m : Nat) (e : Int) : Nat × Int :=
      let low : Int := 1 - 127 - 10
      let q : Int := max low ((Nat.log2 m : Int) + e - 10)
      if q ≤ e then (m, e) else (m / 2 ^ (q - e).toNat, q)
    let h := trunc m e
    let r := (addExact ((m : Int), e) (-(h.1 : Int), h.2))
    let d := if r.1 = 0 then (0, r.2) else trunc r.1.natAbs r.2
    (.fin n h.1 h.2, .fin (n && r.1 != 0) d.1 d.2)
  | v => (v, .fin false 0 0)

/-! Format tables (R121 to R127). -/

def Table.value (t : Table) (c : Nat) : FVal := e8m10.read (t.decode.getD c 0)

def countUp (a n : Nat) : List Nat := (List.range n).map fun i => a + i
def countDown (a n : Nat) : List Nat := (List.range n).map fun i => a - i

/-- The decode entry of a small minifloat code of `n` bits; that of a NaN code has quiet bit 1 and payload 0 (DESIGN CHOICE, log
141). -/
def miniEntry (f : Fmt) (nan : Nat → Bool) (inf : Nat → Bool) (c : Nat) : Nat :=
  let n := bit c (f.eb + f.mb)
  if nan c then e8m10.nanBits n 0
  else if inf c then e8m10.infBits n
  else
    let e := bits c f.mb f.eb
    let m := bits c 0 f.mb
    if e = 0 then e8m10.round n m (1 - (f.bias : Int) - f.mb) false
    else e8m10.round n (2 ^ f.mb + m) ((e : Int) - f.bias - f.mb) false

/-- The ROM tables (R127). -/
def romTable (t4 : Bool) (id : Nat) : Table :=
  match t4, id with
  | false, 0 => ⟨(List.range 256).map (miniEntry ⟨4, 3, 7⟩ (fun c => c % 128 == 0x7F) (fun _ => false)),
      countDown 0xFE 127 ++ countUp 0 127, false⟩
  | false, 1 => ⟨(List.range 256).map (miniEntry ⟨5, 2, 15⟩ (fun c => decide (0x7D ≤ c % 128)) (fun c => c % 128 == 0x7C)),
      countDown 0xFC 125 ++ countUp 0 125, true⟩
  | false, 2 => ⟨(List.range 256).map fun c => e8m10.ofInt (sext 8 c), countUp 128 128 ++ countUp 0 128, false⟩
  | false, _ => ⟨(List.range 256).map fun c : Nat => e8m10.ofInt (c : Int), countUp 0 256, false⟩
  | true, 0 => ⟨(List.range 16).map (miniEntry ⟨2, 1, 1⟩ (fun _ => false) (fun _ => false)),
      countDown 15 8 ++ countUp 0 8, false⟩
  | true, _ => ⟨(List.range 16).map fun c => e8m10.ofInt (sext 4 c), countUp 8 8 ++ countUp 0 8, false⟩

/-- A table of 1,280 bytes; `none` when malformed (R123, R124). -/
def memTable (t4 : Bool) (b : List Byte) : Option Table :=
  let word (i : Nat) : Nat := leNat ((b.drop (4 * i)).take 4)
  let used := if t4 then 16 else 256
  let raw := (List.range used).map word
  let count := bits (word 0) 19 9
  let inf := bit (word 1) 19
  let t : Table := ⟨raw.map fun w => w % 2 ^ 19, ((b.drop 1024).take count).map BitVec.toNat, inf⟩
  let rising : List FVal → Bool := fun l => (l.zip l.tail).all fun p => ltTotal p.1 p.2
  let has (v : FVal) : Bool := t.order.any fun c => t.value c == v
  if bits (word 0) 28 4 = 0 ∧ bits (word 1) 20 12 = 0 ∧ (raw.drop 2).all (fun w => w / 2 ^ 19 == 0)
      ∧ 1 ≤ count ∧ count ≤ used ∧ t.order.all (fun c => decide (c < used) && !isNan (t.value c)) ∧ t.order.Nodup
      ∧ rising (t.order.map t.value) ∧ count = ((List.range used).filter fun c => !isNan (t.value c)).length
      ∧ (inf = false ∨ (has (.inf true) && has (.inf false)) = true)
  then some t else none

/-- Whether `n` bytes from a local offset lie in scratchpad or TOB banks (R122). -/
def tableBanks (bankrole : Word) (off n : Nat) : Bool :=
  decide (off + n ≤ 2 ^ 18) &&
    (List.range (touched 8192 off n)).all fun i => bits bankrole.toNat (2 * (off / 8192 + i)) 2 != 1

/-- The table a pointer names on a core (R121 to R125); the reader gives local bytes. -/
def pointerTable (t4 : Bool) (p : Nat) (bankrole : Word) (rd : Nat → Nat → List Byte) : Option Table :=
  if bits p 18 46 ≠ 0 ∨ bits p 4 2 ≠ 0 then none
  else if bit p 0 then
    if bits p 6 12 = 0 ∧ bits p 1 3 < (if t4 then 2 else 4) then some (romTable t4 (bits p 1 3)) else none
  else if bits p 1 3 ≠ 0 then none
  else
    let off := bits p 6 12 * 64
    if tableBanks bankrole off 1280 then memTable t4 (rd off 1280) else none

/-- The value of `x` doubled away from `y`: x + (x − y), exact. -/
def stepBeyond (x y : FVal) : FVal :=
  match x, y with
  | .fin n m e, .fin n' m' e' =>
    let d := addExact (2 * signedMag n m, e) (-(signedMag n' m'), e')
    .fin (decide (d.1 < 0)) d.1.natAbs d.2
  | _, _ => x

/-- |x − v| as an exact number. -/
def distance (x v : FVal) : Nat × Int :=
  match x, v with
  | .fin n m e, .fin n' m' e' => let d := addExact (signedMag n m, e) (-(signedMag n' m'), e')
                                 (d.1.natAbs, d.2)
  | _, _ => (0, 0)

/-- The codes of the last two finite entries of a list in value order, outermost first. -/
def lastFinite (t : Table) (l : List Nat) : List Nat :=
  (l.filter fun c => match t.value c with | .fin _ _ _ => true | _ => false).reverse

/-- EncodeTable (R126): the code of a value. -/
def encodeTable (t : Table) (used : Nat) (v : FVal) : Nat :=
  match v with
  | .nan n _ =>
    let nans := (List.range used).filter fun c => isNan (t.value c)
    ((nans.find? fun c => isNeg (t.value c) == n).or nans.head?).getD 0
  | _ =>
    let same (x : FVal) : Bool := !(ltTotal x v) && !(ltTotal v x)
    match t.order.find? fun c => same (t.value c) with
    | some c => c
    | none =>
      match (if isZero v then t.order.find? fun c => isZero (t.value c) else none) with
      | some c => c
      | none =>
        let lo := (t.order.filter fun c => ltExact (t.value c) v).getLast?
        let hi := t.order.find? fun c => ltExact v (t.value c)
        let virt (out : List Nat) (x : FVal) : Option FVal :=
          match x with
          | .inf _ => match out with
            | a :: b :: _ => if t.infinity then some (stepBeyond (t.value a) (t.value b)) else none
            | _ => none
          | y => some y
        match lo, hi with
        | _, none => t.order.getLastD 0
        | none, _ => t.order.headD 0
        | some a, some b =>
          let even : Nat :=
            if a % 2 = 0 ∧ b % 2 = 1 then a else if b % 2 = 0 ∧ a % 2 = 1 then b else min a b
          match virt (lastFinite t t.order.reverse) (t.value a), virt (lastFinite t t.order) (t.value b) with
          | none, none => even
          | none, _ => b
          | _, none => a
          | some x, some y =>
            let dx := distance x v
            let dy := distance y v
            let d := (addExact ((dx.1 : Int), dx.2) (-(dy.1 : Int), dy.2)).1
            if d < 0 then a else if 0 < d then b else even

end Sys2Proof.Machine
end

