-- ==== Sys2Proof/Machine/MatrixMath.lean ====
section
/-! DEFINITION. What a matrix unit computes: geometry (R147 to R149), sums (R131 to R134), operands in local memory (R166 to
R170), output formats (R179). -/

namespace Sys2Proof.Machine

/-! Geometry. -/

/-- Spalled cells of a physical row (R147). -/
def Mx.spallsIn (x : Mx) (r : Nat) : Nat := (x.spalled.filter fun p => p.1 == r).length

/-- Unretired rows, ascending; the first 32 of them are the logical rows (R147). -/
def Mx.goodRows (x : Mx) : List Nat := (List.range 34).filter fun r => decide (x.spallsIn r < 2)
def Mx.retired (x : Mx) : List Nat := (List.range 34).filter fun r => decide (2 ≤ x.spallsIn r)
def Mx.offline (x : Mx) : Bool := decide (x.goodRows.length < 16)
def Mx.mg (x : Mx) : Nat := min 32 x.goodRows.length

/-- The physical cells of a row that are its logical columns 0 to 31: the cells that are not spalled, in ascending order (R147). -/
def Mx.cellsOf (x : Mx) (r : Nat) : List Nat := ((List.range 33).filter fun c => !x.spalled.contains (r, c)).take 32

/-- Physical row and cell of a logical row and column (R147); in the second of two passes rows from Mg on run on rows 0 on (R150). -/
def Mx.cellAt (x : Mx) (i j : Nat) : Nat × Nat :=
  let r := (x.goodRows.take x.mg).getD (i % x.mg) 0
  (r, (x.cellsOf r).getD (j % 32) 0)

/-- MXGEOM (R149). -/
def Mx.geom (x : Mx) : Word :=
  let steered := ((x.goodRows.take x.mg).filter fun r => x.spallsIn r == 1).length
  let passes := if x.offline then 0 else if x.native || x.mg == 32 then 1 else 2
  BitVec.ofNat 64 (x.generation * 2 ^ 32 + min 2 x.retired.length * 2 ^ 24 + steered * 2 ^ 16 + x.native.toNat * 2 ^ 14
    + passes * 2 ^ 12 + (if x.offline then 0 else 32 * 64 + x.mg))

/-- The fault map's image (R148): 36 doublewords. -/
def Mx.image (x : Mx) : List Nat :=
  let sum (l : List Nat) : Nat := l.foldl (fun n i => n + 2 ^ i) 0
  (x.generation * 2 ^ 32 + sum (x.retired.filter (· < 32))) :: sum ((x.retired.filter (32 ≤ ·)).map (· - 32))
    :: (List.range 34).map fun r => sum (((x.spalled.filter fun p => p.1 == r).map fun p => p.2).eraseDups)

/-- A new fault map: the generation advances where the map changes (R149, R152). -/
def Mx.remap (x : Mx) (cells : List (Nat × Nat)) : Mx :=
  let l := (List.range 34).flatMap fun r => ((List.range 33).filter fun c => cells.contains (r, c)).map fun c => (r, c)
  if l = x.spalled then x else { x with spalled := l, generation := (x.generation + 1) % 2 ^ 16 }

/-- Sequence `a` is at or below `b` (R138). -/
def seqLe (a b : Nat) : Bool := decide ((b + 2 ^ 32 - a % 2 ^ 32) % 2 ^ 32 < 2 ^ 31)

/-! Accumulators. -/

def Mx.acc (x : Mx) (n : Nat) : SMap (BitVec 32) := if n = 0 then x.acc0 else x.acc1
def Mx.setAcc (x : Mx) (n : Nat) (a : SMap (BitVec 32)) : Mx := if n = 0 then { x with acc0 := a } else { x with acc1 := a }
def Mx.poison (x : Mx) (n : Nat) : Bool := if n = 0 then x.poison0 else x.poison1
def Mx.setPoison (x : Mx) (n : Nat) (p : Bool) : Mx := if n = 0 then { x with poison0 := p } else { x with poison1 := p }

/-- Element (i, j) of an accumulator. -/
def accElem (a : SMap (BitVec 32)) (i j : Nat) : Nat := (SMap.get (0 : BitVec 32) a (32 * i + j)).toNat

/-- An accumulator given element by element. -/
def accMap (f : Nat → Nat → Nat) : SMap (BitVec 32) :=
  (List.range 1024).map fun n => (n, BitVec.ofNat 32 (f (n / 32) (n % 32)))

/-! Sums (R131 to R134). -/

/-- The product terms at one k (R128, R131): whether a NaN arises there, and the terms. -/
def productTerms (wide : Bool) (a b : Nat) : Bool × List FVal :=
  let f := if wide then fp32 else e8m10
  let x := f.read a
  let y := f.read b
  if isNan x || isNan y then (true, [])
  else
    let special (v : FVal) : Bool := isZero v || (match v with | .inf _ => true | _ => false)
    if wide && !special x && !special y then
      let p := splitFp32 a
      let q := splitFp32 b
      (false, [mulVal p.1 q.1, mulVal p.1 q.2, mulVal p.2 q.1].filterMap id)
    else match mulVal x y with
      | some v => (false, [v])
      | none => (true, [])

/-- A NaN that the unit creates (R134). -/
def unitNan (core k : Nat) : Nat := fp32.nanBits false (core * 512 + k % 512)

/-- An exact sum of finite terms, scaled by a power of two. -/
def exactSum (l : List FVal) (shift : Int) : Int × Int :=
  let s := l.foldl (fun t v => match v with
    | .fin n m e => addExact t (signedMag n m, e)
    | _ => t) ((0 : Int), (0 : Int))
  (s.1, s.2 + shift)

/-- One group added to an accumulator element (R131, R132); `scale` holds the two scale bytes. -/
def groupStep (core acc : Nat) (l : List (Nat × Bool × List FVal)) (scale : Option (Nat × Nat)) : Nat :=
  let av := fp32.read acc
  if isNan av then acc
  else match l.find? fun p => p.2.1 with
    | some p => unitNan core p.1
    | none =>
      if scale.any fun p => p.1 == 255 || p.2 == 255 then unitNan core ((l.map fun p => p.1).headD 0)
      else
        let infs := l.flatMap fun p => p.2.2.filterMap fun v => match v with
          | .inf n => some (p.1, n)
          | _ => none
        match infs with
        | (k, n) :: rest =>
          match rest.find? fun q => q.2 != n with
          | some q => unitNan core q.1
          | none => match av with
            | .inf m => if m = n then acc else unitNan core k
            | _ => fp32.infBits n
        | [] => match av with
          | .fin n m e =>
            let terms := l.flatMap fun p => p.2.2
            let s := exactSum terms (match scale with | some p => (p.1 : Int) + p.2 - 254 | none => 0)
            if s.1 = 0 ∧ m = 0 then fp32.sign (n && terms.all fun v => isZero v && isNeg v)
            else fp32.roundExact (addExact (signedMag n m, e) s)
          | _ => acc

/-- The operands of a multiplication: elements of A and B, scale bytes, whether a block of 32 is present, the mode. -/
structure MulArgs where
  int : Bool
  wide : Bool
  a : Nat → Nat → Nat
  b : Nat → Nat → Nat
  scaled : Bool
  sa : Nat → Nat → Nat
  sb : Nat → Nat → Nat
  present : Nat → Bool

/-- The groups from `g0` to `g1 - 1` over K values of k added to element (i, j) (R131, R133). -/
def sumGroups (x : MulArgs) (core K g0 g1 i j acc : Nat) : Nat :=
  (List.range (g1 - g0)).foldl (fun acc n =>
    let g := g0 + n
    if !x.present (4 * g / 32) then acc
    else
      let ks := ((List.range 4).map fun d => 4 * g + d).filter fun k => decide (k < K)
      if x.int then toField 32 (ks.foldl (fun t k => t + sext 32 (x.a i k) * sext 32 (x.b k j)) (acc : Int))
      else groupStep core acc (ks.map fun k => (k, productTerms x.wide (x.a i k) (x.b k j)))
        (if x.scaled then some (x.sa i (4 * g / 32), x.sb (4 * g / 32) j) else none)) acc

/-- An accumulator after groups `g0` to `g1 - 1` (R175): rows at and beyond `rows` are unchanged. -/
def mulAcc (x : MulArgs) (core rows K g0 g1 : Nat) (a : SMap (BitVec 32)) : SMap (BitVec 32) :=
  accMap fun i j => if i < rows then sumGroups x core K g0 g1 i j (accElem a i j) else accElem a i j

/-! Local operands (R166 to R170). -/

def localNat (s : State) (c off n : Nat) : Nat := leNat (physBytes s (localKey c off) n)
def localPoison (s : State) (c off n : Nat) : Bool := physPoison s (localKey c off) n

/-- Element `i` of width `w` bits from a local offset, low nibble first. -/
def localElem (s : State) (c off w i : Nat) : Nat :=
  if w = 4 then bits (localNat s c (off + i / 2) 1) (i % 2 * 4) 4 else localNat s c (off + i * (w / 8)) (w / 8)

/-- All the bytes lie in TOB banks (R166). -/
def tobBanks (role : Word) (off n : Nat) : Bool :=
  decide (off + n ≤ 2 ^ 18) &&
    (List.range (touched 8192 off n)).all fun i => bits role.toNat (2 * (off / 8192 + i)) 2 == 2

/-- Width of an element format in bits; 0 for a code that is none (R167). -/
def fmtWidth (f : Nat) : Nat :=
  match f with
  | 0 => 16 | 1 => 16 | 2 => 32 | 3 => 8 | 4 => 4 | _ => 0

def fmtTable (f : Nat) : Bool := f == 3 || f == 4

/-- A decoded element (R167): E8M10 bits, FP32 bits for format 2, an integer's 32 bits in integer mode (R133). -/
def decodeElem (f : Nat) (int : Bool) (tab : Option Table) (ptr x : Nat) : Nat :=
  if int then (if f = 4 then toField 32 (sext 4 x) else if bits ptr 1 3 = 3 then x else toField 32 (sext 8 x))
  else match f with
    | 0 => toE8M10 fp16 x
    | 1 => toE8M10 bf16 x
    | 2 => x
    | _ => match tab with
      | some t => t.decode.getD x 0
      | none => 0

/-- A table pointer that integer mode accepts (R133): a ROM table i8 or n8 for T8, i4 for T4. -/
def intTable (f ptr : Nat) : Bool :=
  bit ptr 0 && (match f with
    | 3 => bits ptr 1 3 == 2 || bits ptr 1 3 == 3
    | 4 => bits ptr 1 3 == 1
    | _ => false)

/-- A scale array (R137, R170): malformed pointer or out of its banks. -/
def scaleBad (role : Word) (ptr skip n : Nat) : Bool :=
  bits ptr 18 46 != 0 || bits ptr 0 6 != 0 || !tableBanks role (bits ptr 6 12 * 64 + skip) n

/-! Compressed rows (R169). -/

/-- Row pointer p(i). -/
def csrPtr (s : State) (c aux i : Nat) : Nat := localNat s c (aux + 2 * i) 2

/-- Column index of entry `e`. -/
def csrCol (s : State) (c aux rows e : Nat) : Nat := localNat s c (aux + 2 * (rows + 1) + 2 * e) 2

/-- The operand is malformed, but for its columns. -/
def csrPtrsBad (s : State) (c aux rows : Nat) : Bool :=
  csrPtr s c aux 0 != 0 || decide (16384 < csrPtr s c aux rows)
    || (List.range rows).any fun i => decide (csrPtr s c aux (i + 1) < csrPtr s c aux i)

/-- The operand is malformed (R169). -/
def csrBad (s : State) (c aux rows K : Nat) : Bool :=
  csrPtrsBad s c aux rows || (List.range rows).any fun i =>
    let l := (List.range (csrPtr s c aux (i + 1) - csrPtr s c aux i)).map fun e => csrCol s c aux rows (csrPtr s c aux i + e)
    l.any (fun k => decide (K ≤ k)) || (l.zip l.tail).any fun p => decide (p.2 ≤ p.1)

/-- The entry of row `i` and column `k`. -/
def csrEntry (s : State) (c aux rows i k : Nat) : Option Nat :=
  ((List.range (csrPtr s c aux (i + 1) - csrPtr s c aux i)).map fun e => csrPtr s c aux i + e).find? fun e =>
    csrCol s c aux rows e == k

/-! Block-sparse panels (R168). -/

def blockPresent (s : State) (c aux q : Nat) : Bool := bit (localNat s c (aux + q / 8) 1) (q % 8)
def blocksBefore (s : State) (c aux q : Nat) : Nat := ((List.range q).filter fun p => blockPresent s c aux p).length

/-! Results (R146, R178, R179). -/

/-- The unbiased exponent of a finite non-zero value (R146). -/
def unbiased : FVal → Option Int
  | .fin _ m e => if m = 0 then none else some ((Nat.log2 m : Int) + e)
  | _ => none

/-- The largest of some exponents. -/
def maxExp (l : List Int) : Option Int :=
  match l with
  | [] => none
  | a :: l => some (l.foldl max a)

/-- The largest unbiased exponent over rows `first` to `first + n - 1`. -/
def accExp (a : SMap (BitVec 32)) (first n : Nat) : Option Int :=
  maxExp ((List.range (32 * n)).filterMap fun i => unbiased (fp32.read (accElem a (first + i / 32) (i % 32))))

/-- E_t of a table: the exponent of its largest finite entry (R146). -/
def tableExp (t : Table) : Int := (maxExp (t.decode.filterMap fun x => unbiased (e8m10.read x))).getD 0

/-- The shared scale (R146). -/
def sharedScale (t : Table) (l : List Int) : Nat :=
  match maxExp l with
  | none => 127
  | some e => (max 0 (min 254 (e - tableExp t + 127))).toNat

/-- v × 2^(127 − s) (R118). -/
def scaleBy (s : Nat) : FVal → FVal
  | .fin n m e => .fin n m (e + 127 - s)
  | v => v

/-- Bits of an output element (R179). -/
def outBits (ofmt : Nat) : Nat :=
  match ofmt with
  | 0 => 32 | 1 => 16 | 2 => 16 | 3 => 8 | 4 => 4 | 5 => 8 | 6 => 8 | _ => 16

/-- An accumulator element in an output format (R179). -/
def outElem (ofmt : Nat) (tab : Option Table) (s x : Nat) : Nat :=
  match ofmt with
  | 0 => x
  | 1 => convert fp32 fp16 x
  | 2 => convert fp32 bf16 x
  | 3 => match tab with | some t => encodeTable t 256 (scaleBy s (fp32.read x)) | none => 0
  | 4 => match tab with | some t => encodeTable t 16 (scaleBy s (fp32.read x)) | none => 0
  | 5 => toField 8 (clampInt 8 true (sext 32 x))
  | 6 => toField 8 (clampInt 8 false (sext 32 x))
  | _ => toField 16 (clampInt 16 true (sext 32 x))

/-- The bytes of one output row. -/
def outRow (ofmt : Nat) (tab : Option Table) (s : Nat) (a : SMap (BitVec 32)) (i : Nat) : List Byte :=
  let w := outBits ofmt
  leBytes (4 * w) ((List.range 32).foldl (fun n j => n + outElem ofmt tab s (accElem a i j) * 2 ^ (w * j)) 0)

end Sys2Proof.Machine
end

