-- ==== Sys2Proof/Machine/Matrix.lean ====
section
/-! DEFINITION. The matrix sequencer: acceptance and start (R138 to R140), tokens (R161, R163), rings (R143, R172), the commands
(R171 to R181), geometry stops, scans and cures (R151 to R159). -/

namespace Sys2Proof

/-! Fields of a command (R160). -/

def Cmd.word (x : Cmd) (i : Nat) : Nat :=
  (match i with
  | 0 => x.w0 | 1 => x.w1 | 2 => x.w2 | 3 => x.w3 | 4 => x.w4 | 5 => x.w5 | 6 => x.w6 | _ => x.w7).toNat

def Cmd.field (x : Cmd) (i lo n : Nat) : Nat := bits (x.word i) lo n
def Cmd.count (x : Cmd) : Nat := x.field 0 32 32
def Cmd.acc (x : Cmd) : Nat := x.field 0 16 1
def Cmd.flag (x : Cmd) (i : Nat) : Bool := bit (x.word 0) (8 + i)

/-- Word 0 breaks its layout (R160): reserved bits, flags outside the mask, an accumulator that is not named. -/
def Cmd.bad0 (x : Cmd) (mask : Nat) (acc : Bool) (count : Bool) : Bool :=
  x.field 0 17 15 != 0 || (!acc && x.acc != 0) || x.field 0 8 8 &&& (255 - mask) != 0 || count

/-- Count outside its range. -/
def Cmd.countBad (x : Cmd) (lo hi : Nat) : Bool := decide (x.count < lo) || decide (hi < x.count)

/-- The first word that holds an offending bit or field, as status 0x06 reports it (R161, R163); words from `n` on must be
0. -/
def Cmd.illegal (x : Cmd) (l : List Bool) : Option (Nat × Nat) :=
  let all := l ++ (List.range (8 - l.length)).map fun i => x.word (l.length + i) != 0
  match all.findIdx? id with
  | some i => some (6, i)
  | none => none

/-- A command that reads operands or tables in local memory: MX.LDB, MX.MMA, MX.MMAR, MX.STC. -/
def Cmd.readsLocal (x : Cmd) : Bool := x.op == 5 || x.op == 6 || x.op == 8 || x.op == 0x0B

end Sys2Proof

namespace Sys2Proof.Machine

open Host (Outcome)

/-! Completion (R139, R163). -/

def mxRun (c : Nat) (s : State) : State :=
  s.modMx c fun x => { x with wait := if x.wait.mode = 0 then x.wait else x.wait.clear }

/-- The token goes to q4 when it has room; else the sequencer waits, without a record (R104, R139). -/
def pushToken (c : Nat) (s : State) : State :=
  match (s.mx c).token with
  | none => s
  | some w =>
    if 8 ≤ (s.core c).load 4 then mxRun c s
    else mxRun c ((s.modCore c fun x => x.setQueue 4 (x.queue 4 ++ [w])).modMx c fun x => { x with token := none })

/-- The sequencer waits (R145). -/
def mxWait (c reason target : Nat) (s : State) : State :=
  s.modMx c fun x => { x with
    wait := if x.wait.same 1 reason [target] then x.wait else WaitRec.mk' x.wait.gen 1 reason false [target] }

/-- The started command completes with a status (R139, R161) once its stores are performed, those to hosts and peers acknowledged
(R184): its token is pushed. -/
def mxComplete (c : Nat) (x : Started) (status detail : Nat) (s : State) : State :=
  let t := drainAgent c 17 s
  if hostWritesOf t (seqParty c) then mxRun c (t.modMx c fun m => { m with cur := some x })
  else
    let word := BitVec.ofNat 64 (detail * 2 ^ 48 + x.q.cmd.op * 2 ^ 40 + status * 2 ^ 32 + x.q.seq)
    pushToken c (t.modMx c fun m => { m with
      cur := none, token := some word, done := x.q.seq, idleSince := s.clock, ramped := false, replies := []
      wait := if m.wait.mode = 0 then m.wait else m.wait.clear })

/-- Keep the started command's progress. -/
def setCur (c : Nat) (x : Started) (s : State) : State := s.modMx c fun m => { m with cur := some x }

/-! Start (R140, R161). -/

/-- The next command may start: nothing pending, not halted, not in a scan or stopped by TSTOP, no change of bank roles due, and
the power within its limit (R90, R139, R154, R389, R419). -/
def mayStartCmd (s : State) (c : Nat) : Bool :=
  let x := s.mx c
  (s.core c).rolePend.isNone && !stopping s c (s.core c).vtabTenant && !s.wenlek.powerHold && x.token.isNone && !x.halted && !x.scanning && !x.testing

/-- The table a command samples, when it uses one; a poisoned granule of it counts for nothing (DESIGN CHOICE, log 135). -/
def sampleTable (s : State) (c : Nat) (t4 : Bool) (ptr : Nat) : Option Table :=
  pointerTable t4 ptr (s.core c).bankrole fun off n => physBytes s (localKey c off) n

/-- Geometry stop (R151): the queue is cancelled, the first command's context gets cause 0x0E. -/
def geometryStop (c : Nat) (q : Queued) (s : State) : State :=
  s.modMx c fun x => { x with
    queue := x.queue.map fun r => { r with cancelled := true }
    geomPend := x.geomPend ++ [(q.uid, x.geom)]
    seen := x.generation }

/-- Start the oldest command (R140): it leaves the queue and samples its pointers; one that is cancelled, or on a unit offline or
with a changed geometry, has its status. -/
def startCmd (c : Nat) (cmd : Cmd) (s : State) : Option (Started × State) :=
  match (s.mx c).queue with
  | [] => none
  | q :: rest =>
    if !mayStartCmd s c then none
    else
      let x := s.mx c
      let k := s.core c
      let q := { q with cmd := cmd }
      let s := s.modMx c fun m => { m with queue := rest, syncDone := false }
      let st : Started := ⟨q, 0, 0, 0, false, false, k.fmta.toNat, k.fmtb.toNat, k.fmtc.toNat, none, none, none, k.scla.toNat,
        k.sclb.toNat, x.acc cmd.acc, [], none, none, decide (x.idleSince + 12000 < s.clock)⟩
      let stop (n : Nat) (s : State) : Option (Started × State) :=
        let st := { st with status := n, sampled := true, ramp := false }
        some (st, setCur c st s)
      if q.cancelled then stop 5 s
      else if x.offline then stop 4 s
      else if x.native && x.generation != x.seen then stop 5 (geometryStop c q s)
      else some (st, setCur c st (s.modMx c fun m => { m with seen := m.generation }))

/-- Read one 16-byte part of the core's local memory, once. -/
def readPart (s : State) (c : Nat) (m : SMap (List Byte × Bool)) (i : Nat) : SMap (List Byte × Bool) :=
  if SMap.has m i || decide (2 ^ 14 ≤ i) then m
  else SMap.put m i (physBytes s (localKey c (16 * i)) 16, physPoison s (localKey c (16 * i)) 16)

/-- The local memory as a command sees it: the parts it has read as they were then, the others as they are (R182). -/
def Started.overlay (x : Started) (c : Nat) (s : State) : State :=
  let clean (i : Nat) : Bool := (List.range 4).all fun j => (SMap.find x.parts (i / 4 * 4 + j)).any fun p => !p.2
  x.parts.foldl (fun s p =>
    let key := localKey c (16 * p.1)
    { s with mem := putBytes s.mem key p.2.1
             poison := if p.2.2 then SMap.set false s.poison (key / 64) true
                       else if clean p.1 then SMap.set false s.poison (key / 64) false else s.poison }) s

/-- A command's access has failed (R165): it completes with status 0x07 once its accesses are done, and posts its record. -/
def mxStop (c : Nat) (x : Started) (f : Nat × Nat × Nat × Nat) (s : State) : State :=
  let (cause, va, requested, done) := f
  let s := mxComplete c { x with fault := some f } 7 cause s
  if (s.mx c).cur.isSome then s
  else queueRecord (rec1 x.q.tenant (seqParty c) (cause * 256 + 7)
    [va, requested % 2 ^ 32 + done * 2 ^ 32, x.q.seq + x.q.cmd.op * 2 ^ 32] s.clock) s

/-- The fields of a multiplication, over K values of k. -/
structure MulCmd where
  cmd : Cmd
  K : Nat
  tob : Bool

def MulCmd.form (m : MulCmd) : Nat := m.cmd.field 0 11 2
def MulCmd.int (m : MulCmd) : Bool := m.cmd.flag 1
def MulCmd.scaled (m : MulCmd) : Bool := m.cmd.flag 0 && !m.cmd.flag 1
def MulCmd.aoff (m : MulCmd) : Nat := m.cmd.field 1 0 18
def MulCmd.afmt (m : MulCmd) : Nat := m.cmd.field 1 20 4
def MulCmd.rows (m : MulCmd) : Nat := m.cmd.field 1 24 6
def MulCmd.aux (m : MulCmd) : Nat := m.cmd.field 1 32 18
def MulCmd.boff (m : MulCmd) : Nat := m.cmd.field 2 0 18
def MulCmd.bfmt (m : MulCmd) : Nat := m.cmd.field 2 20 4
def MulCmd.wa (m : MulCmd) : Nat := fmtWidth m.afmt

/-- Bytes of the auxiliary array (R168, R169). -/
def MulCmd.auxBytes (m : MulCmd) (s : State) (c : Nat) : Nat :=
  match m.form with
  | 0 => 0
  | 1 => (m.K / 32 + 7) / 8
  | _ => 2 * (m.rows + 1) + (if csrPtrsBad s c m.aux m.rows then 0 else 2 * csrPtr s c m.aux m.rows)

/-- MX.MMA and MX.MMAR as multiplications (R175, R176). -/
def mulOf (x : Cmd) : Option MulCmd :=
  if x.op = 6 then some ⟨x, x.count, x.flag 2⟩ else if x.op = 8 then some ⟨x, 32 * x.count, false⟩ else none

/-- The 16-byte parts of local memory that hold `n` bytes from `off`. -/
def partsAt (off n : Nat) : List Nat := (List.range (touched 16 off n)).map fun i => off / 16 + i

/-- The parts of the auxiliary array of a command, which it reads when it checks it (R182). -/
def auxParts (x : Cmd) (s : State) (c : Nat) : List Nat :=
  match mulOf x with
  | some m => if m.form = 0 ∨ 4096 < x.count then [] else partsAt m.aux (m.auxBytes s c)
  | none => []

/-- Go on with a started command. It may read some parts of local memory first; once it has sampled its tables, `check` decides its
status, and a unit that has been idle ramps before it is executed (R140, R159, R161). -/
def goCmd (cmd : Cmd) (t4 : Bool × Bool × Bool) (check : Started → State → Option (Nat × Nat))
    (body : Started → State → State) (x : Started) (s : State) : State :=
  let c := s.curCore
  match x.fault with
  | some f => mxStop c x f s
  | none =>
    match (if cmd.readsLocal && x.status == 0 then Config.readsFirst s.tick else none) with
    | some l => setCur c { x with parts := l.foldl (readPart s c) x.parts } s
    | none =>
      let go (x : Started) (s : State) : State := if x.ramp && !(s.mx c).ramped then mxRun c s else body x s
      if x.sampled then go x s
      else
        let v := x.overlay c s
        let x := { x with
          parts := (auxParts cmd v c).foldl (readPart s c) x.parts
          sampled := true, tabA := sampleTable v c t4.1 x.ptrA, tabB := sampleTable v c t4.2.1 x.ptrB
          tabC := sampleTable v c t4.2.2 x.ptrC }
        let x := match check x v with
          | some (n, d) => { x with status := n, detail := d }
          | none => x
        go x (setCur c x s)

/-- Run a command on the current core's unit: start it if none has started, then go on with it. `t4` says which of FMTA, FMTB, FMTC
is read as a T4 table. -/
def runCmd (cmd : Cmd) (t4 : Bool × Bool × Bool) (check : Started → State → Option (Nat × Nat))
    (body : Started → State → State) (s : State) : State :=
  let c := s.curCore
  match (s.mx c).cur with
  | some x => goCmd cmd t4 check body x s
  | none => match startCmd c cmd s with
    | some (x, t) => goCmd cmd t4 check body x t
    | none => pushToken c s

/-- A failing command that is no ring command completes at once; status 0x02 poisons the accumulator it names (R161). -/
def mxFail (c : Nat) (x : Started) (named : Bool) (s : State) : State :=
  let s := if x.status = 2 && named then s.modMx c fun m => m.setPoison x.q.cmd.acc true else s
  mxComplete c x x.status x.detail s

/-- A command whose effect is whole at once. -/
def simpleCmd (cmd : Cmd) (check : Started → State → Option (Nat × Nat)) (named : Bool)
    (effect : Started → State → Nat × Nat × State) (s : State) : State :=
  let c := s.curCore
  runCmd cmd (false, false, false) check (fun x t =>
    if x.status ≠ 0 then mxFail c x named t
    else
      let (n, d, t) := effect x t
      mxComplete c x n d t) s

/-! Configuration commands (R171, R172). -/

def execMxNop (cmd : Cmd) (s : State) : Outcome State Fault Refusal :=
  .next (simpleCmd cmd (fun _ _ => cmd.illegal [cmd.bad0 0 false (cmd.countBad 0 0)]) false (fun _ t => (0, 0, t)) s)

def execMxMode (cmd : Cmd) (s : State) : Outcome State Fault Refusal :=
  .next (simpleCmd cmd (fun _ _ => cmd.illegal [cmd.bad0 1 false (cmd.countBad 0 0)]) false (fun _ t =>
    (0, 0, t.modMx t.curCore fun x => { x with native := cmd.flag 0, seen := x.generation })) s)

def execMxZero (cmd : Cmd) (s : State) : Outcome State Fault Refusal :=
  .next (simpleCmd cmd (fun _ _ =>
      cmd.illegal [cmd.bad0 3 false (cmd.countBad 0 0) || (!cmd.flag 0 && !cmd.flag 1)]) false (fun _ t =>
    (0, 0, t.modMx t.curCore fun x =>
      let x := if cmd.flag 0 then (x.setAcc 0 []).setPoison 0 false else x
      if cmd.flag 1 then (x.setAcc 1 []).setPoison 1 false else x)) s)

/-- MX.RING's fields break their ranges (R172). -/
def ringBad (c : Nat) (cmd : Cmd) : Bool :=
  let n := cmd.field 1 0 7
  let core (x : Nat) : Bool := decide (x < numSmall) && coreDie x == coreDie c && x != c
  if cmd.flag 0 then cmd.word 1 != 0
  else decide (n < 2) || decide (64 < n) || decide (n ≤ cmd.field 1 8 7) || decide (n ≤ cmd.field 1 16 7)
    || !core (cmd.field 1 32 13) || !core (cmd.field 1 48 13) || cmd.field 1 7 1 != 0 || cmd.field 1 15 1 != 0
    || cmd.field 1 23 9 != 0 || cmd.field 1 45 3 != 0 || cmd.field 1 61 3 != 0

/-- The configuration an MX.RING gives. -/
def ringOf (x : Cmd) : Option Ring :=
  if x.flag 0 then none
  else some ⟨x.field 1 0 7, x.field 1 8 7, x.field 1 32 13, x.field 1 48 13, x.field 1 16 7⟩

/-- Ring `v` of a unit names member `c`, whose ring is `r`, as its predecessor (R172). -/
def Ring.follows (v : Ring) (c : Nat) (r : Ring) : Bool := v.pred == c && v.size == r.size && v.pos == (r.pos + 1) % r.size

/-- A unit that leaves its ring by MX.RING: the first tile and the first partial that its predecessor has sent it since that one's own
MX.RING count for the steps to come, those it sent under an earlier configuration itself do not (R172). -/
def leaveRing (c : Nat) (s : State) : State :=
  match (s.mx c).ring with
  | none => s
  | some r =>
    let s := s.modMx r.succ fun u => { u with ringFirst := SMap.del u.ringFirst c, redFirst := SMap.del u.redFirst c }
    let u := s.mx r.pred
    if u.ring.any (fun p => p.succ == c) then
      s.modMx c fun x => { x with
        ringFirst := if x.ringRecv = x.ringDone + 1 ∧ u.ringSent = 1 then SMap.put x.ringFirst r.pred x.back else x.ringFirst
        redFirst := match x.redIn with
          | some p => if u.redDone = 1 ∧ u.redSent = 1 then SMap.put x.redFirst r.pred p else x.redFirst
          | none => x.redFirst }
    else s

def execMxRing (cmd : Cmd) (s : State) : Outcome State Fault Refusal :=
  .next (simpleCmd cmd (fun _ t => cmd.illegal [cmd.bad0 1 false (cmd.countBad 0 0), ringBad t.curCore cmd]) false
    (fun _ t => (0, 0, (leaveRing t.curCore t).modMx t.curCore fun x => { x with
      ring := ringOf cmd, back := Latch.empty, ringSent := 0, ringRecv := 0, ringDone := 0, redIn := none, syncs := 0, redDone := 0,
      redSent := 0, report := none, shared := none })) s)

/-! Memory accesses of commands (R165). -/

/-- The agent of a sequencer under a command. -/
def whoSeq (c : Nat) (q : Queued) : Who := ⟨c, 17, seqParty c, seqParty c, q.domain, q.tenant, q.tenant⟩

/-- The cause of an extent outside the reach (R65, R165). -/
def reachCause (r : Reg) (x : Int × Int) (perms : Nat) : Option Nat :=
  capCheck r x.1 (x.2 - x.1).toNat perms 1

/-- The cause a token and a record give for an access that failed (R163): one that names no bank is out of bounds, 0x03 (DESIGN
CHOICE, log 110). -/
def Exc.mxCause (e : Exc) : Nat := if e.cause = 0x14 then 0x03 else e.cause

/-- A command's access fails (R165): a migrating page makes it wait, anything else ends the command with status 0x07. -/
def mxAccessFault (c : Nat) (x : Started) (e : Exc) (requested done : Nat) (s : State) : State :=
  match e with
  | .park flags va => if 2 ^ 15 ≤ flags then mxWait c 0x12 (serviceParty c) (setCur c x s)
                      else mxStop c x (0x07, va, requested, done) s
  | e => mxStop c x (e.mxCause, e.at_, requested, done) s

/-! MX.LDA (R173). -/

def execMxLda (cmd : Cmd) (s : State) : Outcome State Fault Refusal :=
  let n := cmd.count
  let src := cmd.field 1 0 52
  let len := cmd.field 2 0 32
  let ss := sext 32 (cmd.field 2 32 32)
  let aoff := cmd.field 3 0 18
  let ds := cmd.field 3 32 18
  .next (runCmd cmd (false, false, false)
    (fun _ t => cmd.illegal [cmd.bad0 0 false (cmd.countBad 1 4096), cmd.field 1 52 12 != 0,
      decide (len < 1) || decide (65536 < len),
      cmd.field 3 18 14 != 0 || cmd.field 3 50 14 != 0
        || !tobBanks (t.core t.curCore).bankrole aoff ((n - 1) * ds + len)])
    (fun x t =>
      let c := t.curCore
      let w := whoSeq c x.q
      if x.status ≠ 0 then mxFail c x false t
      else match (if x.steps = 0 then reachCause x.q.reach (extent src n len ss) 1 else none) with
        | some cause => mxAccessFault c x (.vec cause src) (n * len) 0 t
        | none =>
          let row (r : Started × Option State × State) (i : Nat) : Started × Option State × State :=
            let (x, stop, t) := r
            if stop.isSome ∨ i < x.steps then r
            else
              let a := ((src : Int) + i * ss).toNat
              match bulkLoad w a len t with
              | .exc e _ => (x, some (mxAccessFault c x e (n * len) (i * len) t), t)
              | .stall u => (x, some (setCur c x u), t)
              | .ok rs u =>
                let key := localKey c (aoff + i * ds)
                let u := physWrite key (loadedOf rs).bytes false u
                let u := rs.foldl (fun u r => if r.poison then { u with
                  poison := setMarks u.poison ((key + (r.va - a)) / 64) (touched 64 (key + (r.va - a)) r.bytes.length) true } else u) u
                let u := u.modMx c fun m => { m with replies := [] }
                ({ x with steps := i + 1, detail := if rs.any Reply.poison then 5 else x.detail }, none, u)
          let (x, stop, t) := (List.range n).foldl row (x, none, t)
          match stop with
          | some t => t
          | none => mxComplete c x (if x.detail = 0 then 0 else 1) x.detail t) s)

/-! MX.LDB (R174). -/

def tableOf (f : Nat) (t : Option Table) : Bool := fmtTable f && t.isNone

def execMxLdb (cmd : Cmd) (s : State) : Outcome State Fault Refusal :=
  let n := cmd.count
  let off := cmd.field 1 0 18
  let f := cmd.field 1 20 4
  let w := fmtWidth f
  let scaled := cmd.flag 0
  let int := cmd.flag 1
  let block := cmd.field 1 32 7
  .next (runCmd cmd (false, f == 4, false)
    (fun x t =>
      let role := (t.core t.curCore).bankrole
      match cmd.illegal [cmd.bad0 3 false (cmd.countBad 1 32), cmd.field 1 18 2 != 0 || cmd.field 1 24 8 != 0
          || cmd.field 1 39 25 != 0 || f == 2 || w == 0 || !tobBanks role off (n * 4 * w)] with
      | some r => some r
      | none =>
        if tableOf f x.tabB then some (2, 2)
        else if int && !intTable f x.ptrB then some (2, 5)
        else if scaled && !int && scaleBad role x.sclb (32 * block) 32 then some (2, 4)
        else none)
    (fun x t =>
      let c := t.curCore
      if x.status ≠ 0 then
        mxFail c x false (if x.status = 2 ∧ x.detail = 2 then
          t.modMx c fun m => { m with front := { m.front with full := true, int := int, poison := true } } else t)
      else
        let soff := bits x.sclb 6 12 * 64 + 32 * block
        let use := scaled && !int
        let v := x.overlay c t
        let bad := localPoison v c off (n * 4 * w) || (use && localPoison v c soff 32)
        let l : Latch := ⟨true, (List.range 1024).map fun i =>
            if i / 32 < n then decodeElem f int x.tabB x.ptrB (localElem v c (off + i / 32 * 4 * w) w (i % 32)) else 0,
          int, (List.range 32).map fun j => if use then localNat v c (soff + j) 1 else 127, bad⟩
        mxComplete c x (if bad then 1 else 0) (if bad then 5 else 0) (t.modMx c fun m => { m with front := l })) s)

/-! MX.MMA and MX.MMAR (R175, R176). -/

/-- Bytes of A values (R168, R169). -/
def MulCmd.aBytes (m : MulCmd) (s : State) (c : Nat) : Nat :=
  match m.form with
  | 0 => m.K * 4 * m.wa
  | 1 => blocksBefore s c m.aux (m.K / 32) * 128 * m.wa
  | _ => (csrPtr s c m.aux m.rows * m.wa + 7) / 8

/-- Words 1 and 2 of a multiplication break their layout or their banks (R166, R167, R175). -/
def MulCmd.bad1 (m : MulCmd) (s : State) (c : Nat) : Bool :=
  let role := (s.core c).bankrole
  m.cmd.field 1 18 2 != 0 || m.cmd.field 1 30 2 != 0 || m.cmd.field 1 50 14 != 0 || m.wa == 0
    || decide (m.rows < 1) || decide (32 < m.rows) || (m.form == 0 && m.aux != 0) || (m.afmt == 2 && !m.tob)
    || (m.form != 0 && !tableBanks role m.aux (m.auxBytes s c))
    || (!(m.form == 2 && csrPtrsBad s c m.aux m.rows) && !tobBanks role m.aoff (m.aBytes s c))
def MulCmd.bad2 (m : MulCmd) (s : State) (c : Nat) : Bool :=
  if m.tob then
    m.cmd.field 2 18 2 != 0 || m.cmd.field 2 24 40 != 0 || fmtWidth m.bfmt == 0
      || ((m.afmt == 2) != (m.bfmt == 2)) || !tobBanks (s.core c).bankrole m.boff (m.K * 4 * fmtWidth m.bfmt)
  else m.cmd.word 2 != 0

/-- The tile in the latch does not match the command's mode (R175, R136). -/
def tileMismatch (l : Latch) (int : Bool) : Bool := l.full && l.int != int

/-- Status of a multiplication at its start (R161). -/
def MulCmd.check (m : MulCmd) (bad0 noRing : Bool) (x : Started) (s : State) : Option (Nat × Nat) :=
  let c := s.curCore
  let u := s.mx c
  let k := s.core c
  let nq := (m.K + 31) / 32
  match m.cmd.illegal [bad0 || (m.form == 1 && m.K % 32 != 0), m.bad1 s c, m.bad2 s c] with
  | some r => some r
  | none =>
    if u.native && decide (u.mg < m.rows) then some (3, u.mg)
    else if tableOf m.afmt x.tabA then some (2, 1)
    else if m.tob && tableOf m.bfmt x.tabB then some (2, 2)
    else if m.int && (!intTable m.afmt x.ptrA || (m.tob && !intTable m.bfmt x.ptrB)) then some (2, 5)
    else if !m.tob && tileMismatch u.front m.int then some (2, 5)
    else if m.scaled && (scaleBad k.bankrole x.scla 0 (32 * nq) || (m.tob && scaleBad k.bankrole x.sclb 0 (32 * nq))) then
      some (2, 4)
    else if m.form == 2 && csrBad s c m.aux m.rows m.K then some (2, 6)
    else if noRing then some (2, 7)
    else none

/-- The operands of a multiplication; `k0` is the k of the latch tile's first row. -/
def MulCmd.args (m : MulCmd) (x : Started) (k0 : Nat) (s : State) : MulArgs :=
  let c := s.curCore
  let wb := fmtWidth m.bfmt
  let tile := (s.mx c).front
  let a (i k : Nat) : Nat :=
    let e (off n : Nat) : Nat := decodeElem m.afmt m.int x.tabA x.ptrA (localElem s c off m.wa n)
    match m.form with
    | 0 => e (m.aoff + k * 4 * m.wa) i
    | 1 => e (m.aoff + (blocksBefore s c m.aux (k / 32) * 32 + k % 32) * 4 * m.wa) i
    | _ => match csrEntry s c m.aux m.rows i k with
      | some n => e m.aoff n
      | none => 0
  { int := m.int, wide := m.afmt == 2 && m.tob
    a := a
    b := fun k j => if m.tob then decodeElem m.bfmt m.int x.tabB x.ptrB (localElem s c (m.boff + k * 4 * wb) wb j)
      else tile.elems.getD ((k - k0) * 32 + j) 0
    scaled := m.scaled
    sa := fun i q => localNat s c (bits x.scla 6 12 * 64 + 32 * q + i) 1
    sb := fun q j => if m.tob then localNat s c (bits x.sclb 6 12 * 64 + 32 * q + j) 1
      else if tile.full then tile.scales.getD j 127 else 127
    present := fun q => m.form != 1 || blockPresent s c m.aux q }

/-- A poisoned operand granule, scale byte or tile is read for blocks `q0` to `q1 - 1` (R142); of an absent block nothing is
(R168). The mark of a granule of a format table is none of these (DESIGN CHOICE, log 135). -/
def MulCmd.poisoned (m : MulCmd) (x : Started) (q0 q1 : Nat) (s : State) : Bool :=
  let c := s.curCore
  let bytes := (m.rows * m.wa + 7) / 8
  let col (base k : Nat) : Bool := localPoison s c (base + k * 4 * m.wa) bytes
  let blocks := ((List.range (q1 - q0)).map (q0 + ·)).filter fun q => m.form != 1 || blockPresent s c m.aux q
  let scales (ptr : Nat) : Bool := m.scaled && blocks.any fun q => localPoison s c (bits ptr 6 12 * 64 + 32 * q) 32
  (match m.form with
    | 0 => (List.range (min m.K (32 * q1) - 32 * q0)).any fun k => col m.aoff (32 * q0 + k)
    | 1 => localPoison s c m.aux (m.auxBytes s c) || blocks.any fun q =>
        (List.range 32).any fun k => col m.aoff (blocksBefore s c m.aux q * 32 + k)
    | _ => localPoison s c m.aux (m.auxBytes s c) || localPoison s c m.aoff (m.aBytes s c))
  || scales x.scla
  || (if m.tob then
      scales x.sclb
        || (List.range (min m.K (32 * q1) - 32 * q0)).any fun k => blocks.contains ((32 * q0 + k) / 32)
          && localPoison s c (m.boff + (32 * q0 + k) * 4 * fmtWidth m.bfmt) (4 * fmtWidth m.bfmt)
    else !blocks.isEmpty && (s.mx c).front.full && (s.mx c).front.poison)

/-- Multiply blocks `q0` to `q1 - 1` into the accumulator; the detail gathers what was poisoned (R163). -/
def MulCmd.apply (m : MulCmd) (x : Started) (q0 q1 : Nat) (s : State) : Started × State :=
  let c := s.curCore
  let n := m.cmd.acc
  let v := x.overlay c s
  let bad := m.poisoned x q0 q1 v
  let args := m.args x (32 * q0) v
  let s := s.modMx c fun u =>
    (u.setAcc n (mulAcc args c m.rows m.K (8 * q0) (min (8 * q1) ((m.K + 3) / 4)) (u.acc n))).setPoison n (u.poison n || bad)
  let d := x.detail ||| (if bad then 4 else 0)
  ({ x with detail := d }, s)

/-- The parts of the values and scales that the blocks `q0` to `q1 - 1` need, read once (R182). -/
def MulCmd.record (m : MulCmd) (x : Started) (q0 q1 : Nat) (s : State) : Started :=
  let c := s.curCore
  let v := x.overlay c s
  let blocks := ((List.range (q1 - q0)).map (q0 + ·)).filter fun q => m.form != 1 || blockPresent v c m.aux q
  let n := min m.K (32 * q1) - 32 * q0
  let scales (ptr : Nat) : List Nat :=
    if m.scaled then blocks.flatMap fun q => partsAt (bits ptr 6 12 * 64 + 32 * q) 32 else []
  let l := (match m.form with
    | 0 => partsAt (m.aoff + 128 * q0 * m.wa) (n * 4 * m.wa)
    | 1 => blocks.flatMap fun q => partsAt (m.aoff + blocksBefore v c m.aux q * 128 * m.wa) (128 * m.wa)
    | _ => partsAt m.aoff (m.aBytes v c)) ++ scales x.scla
    ++ (if m.tob then scales x.sclb ++ partsAt (m.boff + 128 * q0 * fmtWidth m.bfmt) (n * 4 * fmtWidth m.bfmt) else [])
  { x with parts := l.foldl (readPart s c) x.parts }

/-- A residue check may fail in a cell in use (R153): the accumulator is poisoned, the unit goes to the head of the scan order, a
record is posted. -/
def residueCheck (m : MulCmd) (x : Started) (s : State) : Started × State :=
  match Config.residue s.tick with
  | none => (x, s)
  | some (i, j, e) =>
    let c := s.curCore
    let p := (s.mx c).cellAt i j
    let s := s.modMx c fun u => { u.setPoison m.cmd.acc true with scanHead := true }
    ({ x with detail := x.detail ||| 2 },
      queueRecord (rec1 x.q.tenant (seqParty c) 6 [x.q.seq, p.1 + p.2 * 64 + e.toNat * 4096] s.clock) s)

/-- A multiplication ends: status 0x01 when its accumulator is poisoned (R161). -/
def MulCmd.finish (m : MulCmd) (x : Started) (s : State) : State :=
  let (x, s) := residueCheck m x s
  let p := (s.mx s.curCore).poison m.cmd.acc
  mxComplete s.curCore x (if p then 1 else 0) (if p then x.detail ||| 1 else 0) s

def execMxMma (cmd : Cmd) (s : State) : Outcome State Fault Refusal :=
  let m : MulCmd := ⟨cmd, cmd.count, cmd.flag 2⟩
  let hi := min (if m.tob then 4096 else 32) (if m.form = 2 then 512 else 4096)
  .next (runCmd cmd (m.afmt == 4, m.bfmt == 4, false)
    (fun x t => m.check (cmd.bad0 31 true (cmd.countBad 1 hi) || m.form == 3) false x t)
    (fun x t =>
      if x.status ≠ 0 then mxFail t.curCore x true t
      else
        let (x, t) := m.apply x 0 ((m.K + 31) / 32) t
        m.finish x t) s)

/-! Rotation steps (R143, R172). -/

/-- A unit in its first step takes the tile that its predecessor sent before this unit's MX.RING (R172). -/
def takeFirst (c : Nat) (r : Ring) (s : State) : State :=
  let x := s.mx c
  match SMap.find x.ringFirst r.pred, (s.mx r.pred).ring with
  | some l, some p => if x.ringRecv = 0 ∧ p.succ = c ∧ r.follows r.pred p = true then
      s.modMx c fun x => { x with back := l, ringRecv := 1, ringFirst := SMap.del x.ringFirst r.pred }
    else s
  | _, _ => s

/-- One attempt at the rotation step of a unit: its tile is taken when the successor can take it, and the step is over when
it has also received. -/
def rotateTry (c : Nat) (s : State) : State :=
  match (s.mx c).ring with
  | none => s
  | some r =>
    let s := takeFirst c r s
    let x := s.mx c
    let u := s.mx r.succ
    let takes := x.ringSent == x.ringDone && u.ring.any (fun v => v.follows c r) && u.ringRecv == x.ringDone && u.ringDone == u.ringRecv
    let s := if takes then
        (s.modMx r.succ fun u => { u with back := x.front, ringRecv := u.ringRecv + 1 }).modMx c fun x =>
          { x with ringSent := x.ringSent + 1 }
      else s
    let x := s.mx c
    if x.ringSent = x.ringDone + 1 ∧ x.ringRecv = x.ringDone + 1 then
      s.modMx c fun x => { x with front := x.back, back := Latch.empty, ringDone := x.ringDone + 1 }
    else s

/-- The unit's command is in a rotation step. -/
def rotating (s : State) (c : Nat) : Bool :=
  match (s.mx c).cur with
  | some x => x.waiting && (x.q.cmd.op == 7 || x.q.cmd.op == 8)
  | none => false

/-- A rotation step that is not over leaves the sequencer waiting for its neighbour (R145): for its predecessor while it lacks a tile,
also where its own is not taken yet (DESIGN CHOICE, log 136). -/
def ringWait (c : Nat) (s : State) : State :=
  match (s.mx c).ring with
  | none => s
  | some r =>
    if (s.mx c).ringRecv = (s.mx c).ringDone then mxWait c 0x0A (seqParty r.pred) s else mxWait c 0x0A (seqParty r.succ) s

/-- Go on with the rotation step of a command: `rest` says what follows it. -/
def rotateStep (c : Nat) (x : Started) (rest : Started → State → State) (s : State) : State :=
  let n := (s.mx c).ringDone
  let t := rotateTry c (setCur c { x with waiting := true } s)
  if (t.mx c).ringDone = n then ringWait c t
  else
    let x := { x with steps := x.steps + 1, waiting := false }
    rest x (setCur c x (mxRun c t))

/-- A ring command takes no part (R162): an opcode or count it does not have, or no ring. -/
def takesNoPart (s : State) (c : Nat) (x : Started) (countBad : Bool) : Bool :=
  (s.mx c).ring.isNone || (x.status == 6 && countBad)

/-- MX.ROT and MX.MMAR after a failing status: only the steps (R162). -/
def rotateOnly (x : Started) (named countBad : Bool) (s : State) : State :=
  let c := s.curCore
  if takesNoPart s c x countBad || x.q.cmd.count ≤ x.steps then mxFail c x named s
  else rotateStep c x (fun x t => if x.q.cmd.count ≤ x.steps then mxFail c x named t else t) s

def execMxRot (cmd : Cmd) (s : State) : Outcome State Fault Refusal :=
  let bad := cmd.countBad 1 4096
  .next (runCmd cmd (false, false, false)
    (fun _ t => match cmd.illegal [cmd.bad0 0 false bad] with
      | some r => some r
      | none => if (t.mx t.curCore).ring.isNone then some (2, 7) else none)
    (fun x t => rotateOnly x false bad t) s)

def execMxMmar (cmd : Cmd) (s : State) : Outcome State Fault Refusal :=
  let m : MulCmd := ⟨cmd, 32 * cmd.count, false⟩
  let bad := cmd.countBad 1 (if m.form = 2 then 16 else 128)
  .next (runCmd cmd (m.afmt == 4, false, false)
    (fun x t => m.check (cmd.bad0 27 true bad || m.form == 3) (t.mx t.curCore).ring.isNone x t)
    (fun x t =>
      let c := t.curCore
      if x.status ≠ 0 then rotateOnly x true bad t
      else if !x.waiting && decide (cmd.count ≤ x.steps) then m.finish x t
      else if !x.waiting && tileMismatch (t.mx c).front m.int then
        let x := { x with status := 2, detail := 5 }
        rotateOnly x true bad (setCur c x (t.modMx c fun u => u.setAcc cmd.acc x.before))
      else
        let (x, t) := if x.waiting then (x, t) else m.apply (m.record x x.steps (x.steps + 1) t) x.steps (x.steps + 1) t
        rotateStep c x (fun x t => if cmd.count ≤ x.steps then m.finish x t else t) t) s)

def execTokenPush (c : Nat) (s : State) : Outcome State Fault Refusal := .next (pushToken c s)

/-- ROTATION_STEP: a unit in a rotation step exchanges its tile (R143); its sequencer goes on at its next turn. -/
def execRotationStep (c : Nat) (s : State) : Outcome State Fault Refusal :=
  .next (match (s.mx c).cur with
    | some x => if rotating s c then
        let n := (s.mx c).ringDone
        let t := rotateTry c s
        if (t.mx c).ringDone = n then ringWait c t
        else setCur c { x with steps := x.steps + 1, waiting := false } (mxRun c t)
      else s
    | none => s)

/-! MX.RED (R177). -/

/-- The partial after a member's own accumulator. A NaN in it has sign 0 and its quiet bit set afterwards (R119), also where it
meets a number, which R134 has keep it unchanged (DESIGN CHOICE, log 137). -/
def addPartial (int : Bool) (core : Nat) (p : Partial) (a : SMap (BitVec 32)) (poison failed : Bool) : Partial :=
  if failed then p
  else
    let mine (i : Nat) : Nat := accElem a (i / 32) (i % 32)
    match p.elems with
    | none => ⟨some ((List.range 1024).map mine), p.poison || poison⟩
    | some l => ⟨some ((List.range 1024).map fun i =>
        if int then (l.getD i 0 + mine i) % 2 ^ 32
        else fpAdd fp32 (core, 0) (fp32.read (l.getD i 0)) (fp32.read (mine i))), p.poison || poison⟩

/-- Hand a partial to the successor, when it can take it. -/
def sendPartial (c : Nat) (p : Partial) (s : State) : Option State :=
  match (s.mx c).ring with
  | none => none
  | some r =>
    let u := s.mx r.succ
    if u.ring.any (fun v => v.follows c r) ∧ u.redIn.isNone ∧ u.redDone = (s.mx c).redDone then
      some ((s.modMx r.succ fun u => { u with redIn := some p }).modMx c fun x => { x with redSent := x.redSent + 1 })
    else none

/-- The partial that has come in for a member's exchange (R172, R177). -/
def partialIn (s : State) (c : Nat) (r : Ring) : Option Partial :=
  let x := s.mx c
  match x.redIn with
  | some p => some p
  | none => if x.redDone = 0 ∧ (s.mx r.pred).ring.any (fun p => p.succ == c && r.follows r.pred p) then SMap.find x.redFirst r.pred
            else none

/-- The member has used it. -/
def usePartial (c : Nat) (r : Ring) (s : State) : State :=
  s.modMx c fun x => if x.redIn.isSome then { x with redIn := none } else { x with redFirst := SMap.del x.redFirst r.pred }

def execMxRed (cmd : Cmd) (s : State) : Outcome State Fault Refusal :=
  let bad := cmd.countBad 0 0
  let n := cmd.acc
  .next (runCmd cmd (false, false, false)
    (fun _ t =>
      let size := match (t.mx t.curCore).ring with | some r => r.size | none => 128
      match cmd.illegal [cmd.bad0 2 true bad, decide (size ≤ cmd.field 1 0 7) || cmd.field 1 7 57 != 0] with
      | some r => some r
      | none => if (t.mx t.curCore).ring.isNone then some (2, 7) else none)
    (fun x t =>
      let c := t.curCore
      match (t.mx c).ring with
      | none => mxFail c x true t
      | some r =>
        if takesNoPart t c x bad then mxFail c x true t
        else
          let failed := x.status != 0
          let rel := (r.pos + r.size - cmd.field 1 0 7 % r.size) % r.size
          let own := (t.mx c).poison n
          let finish (x : Started) (t : State) : State :=
            let t := t.modMx c fun u => { u with redDone := u.redDone + 1 }
            if failed then mxFail c x true t
            else let p := (t.mx c).poison n
                 mxComplete c x (if p then 1 else 0) (if p then 1 else 0) t
          match (if rel = 1 then some ⟨none, false⟩ else partialIn t c r) with
          | none => mxWait c 0x0A (seqParty r.pred) t
          | some p =>
            let q := addPartial (cmd.flag 1) c p ((t.mx c).acc n) own failed
            if rel = 0 then
              let t := usePartial c r t
              finish x (if failed || p.elems.isNone then t else t.modMx c fun u =>
                (u.setAcc n (accMap fun i j => (q.elems.getD []).getD (32 * i + j) 0)).setPoison n q.poison)
            else match sendPartial c q t with
              | some t => finish x (if rel = 1 then t else usePartial c r t)
              | none => mxWait c 0x0A (seqParty r.succ) t) s)

/-! MX.SCX (R178). -/

def execMxScx (cmd : Cmd) (s : State) : Outcome State Fault Refusal :=
  let sel := cmd.field 1 0 2
  .next (runCmd cmd (false, false, false)
    (fun _ _ => cmd.illegal [cmd.bad0 0 true (cmd.countBad 0 0),
      sel == 3 || cmd.field 1 2 6 != 0 || cmd.field 1 13 3 != 0 || cmd.field 1 21 43 != 0])
    (fun x t =>
      let c := t.curCore
      if x.status ≠ 0 then mxFail c x true t
      else if 8 ≤ (t.core c).load 5 then mxRun c t
      else
        let u := t.mx c
        let a := u.acc cmd.acc
        let w : Word := match sel with
          | 0 => BitVec.ofNat 64 (accElem a (cmd.field 1 8 5) (cmd.field 1 16 5))
          | 1 => match accExp a 0 32 with | some e => wrap e | none => 0x8000000000000000
          | _ => BitVec.ofNat 64 u.lastScale
        let p := u.poison cmd.acc
        mxComplete c x (if p then 1 else 0) (if p then 1 else 0)
          (t.modCore c fun k => k.setQueue 5 (k.queue 5 ++ [w]))) s)

/-! The scale keeper and MX.STC (R146, R179). -/

/-- The cores of a unit's ring by following successors, from the unit itself. -/
def ringCores (s : State) : Nat → Nat → List Nat
  | 0, _ => []
  | n + 1, c => c :: (match (s.mx c).ring with
    | some r => ringCores s n r.succ
    | none => [])

/-- The members of a unit's ring in ring position order, if their configurations agree. -/
def ringMembers (s : State) (c : Nat) : Option (List Nat) :=
  match (s.mx c).ring with
  | none => none
  | some r =>
    let l := ringCores s r.size c
    let at_ (i : Nat) : Nat := l.getD (i % r.size) c
    if l.length = r.size ∧ (List.range r.size).all (fun i =>
        (s.mx (at_ i)).ring == some ⟨r.size, (r.pos + i) % r.size, at_ (i + 1), at_ (i + r.size - 1), r.keeper⟩) then
      some (l.drop (r.size - r.pos) ++ l.take (r.size - r.pos)) else none

def ringKeeper (s : State) (c : Nat) : Nat :=
  match (s.mx c).ring, ringMembers s c with
  | some r, some l => l.getD r.keeper c
  | _, _ => c

/-- The cores of a unit's ring by following predecessors, from the unit itself. -/
def ringBack (s : State) : Nat → Nat → List Nat
  | 0, _ => []
  | n + 1, c => c :: (match (s.mx c).ring with
    | some r => ringBack s n r.pred
    | none => [])

/-- The member at a position of a unit's ring, as far as the configurations lead to it. -/
def memberAt (s : State) (c : Nat) (r : Ring) (p : Nat) : Option Nat :=
  match (ringCores s r.size c)[(p + r.size - r.pos) % r.size]? with
  | some d => some d
  | none => (ringBack s r.size c)[(r.pos + r.size - p) % r.size]?

/-- The keeper broadcasts the shared scale once every member has reported (R146). -/
def broadcastTry (k : Nat) (s : State) : State :=
  match ringMembers s k, (s.mx k).cur with
  | some l, some x =>
    if ringKeeper s k = k ∧ l.all (fun d => (s.mx d).report.isSome) then
      match x.tabC with
      | some t =>
        let v := sharedScale t (l.filterMap fun d => (s.mx d).report.getD none)
        l.foldl (fun s d => s.modMx d fun u => { u with report := none, shared := some v }) s
      | none => s
    else s
  | _, _ => s

def execScaleBroadcast (c : Nat) (s : State) : Outcome State Fault Refusal := .next (broadcastTry c s)

/-- The sequencer a member waits for in a ring-scaled store: the keeper's, or for the keeper that of the lowest member that has not
reported (R146); its successor's where no configuration leads there. -/
def scaleTarget (c : Nat) (s : State) : Nat :=
  match (s.mx c).ring with
  | none => seqParty c
  | some r =>
    let member := if r.keeper ≠ r.pos then memberAt s c r r.keeper
      else (List.range r.size).findSome? fun p =>
        if p = r.pos then none
        else (memberAt s c r p).bind fun d => if (s.mx d).report.isNone then some d else none
    seqParty (member.getD r.succ)

/-- Store bytes of a command, poisoned where its accumulator is. -/
def mxStore (w : Who) (a : Nat) (l : List Byte) (poison : Bool) (s : State) : Res Unit :=
  (bulkStore w a l s).bind fun _ s =>
    if poison then
      (locateParts w 0 true (parts w a l.length) (drainAgent w.core w.slot s)).bind fun ps s =>
        .ok () (ps.foldl (fun s p => carryPoison w p.2.2 p.1 p.2.1 s) s)
    else .ok () s

/-- MX.STC (R179). With smode 0 the byte at `sdest` is 127 (DESIGN CHOICE, log 138); a store that ends with status 0x07 is not the last
one for MX.SCX with sel 2 (DESIGN CHOICE, log 139). -/
def execMxStc (cmd : Cmd) (s : State) : Outcome State Fault Refusal :=
  let n := cmd.count
  let dest := cmd.field 1 0 52
  let stride := cmd.field 2 0 32
  let first := cmd.field 2 32 5
  let ofmt := cmd.field 2 40 4
  let smode := cmd.field 2 48 2
  let sfix := cmd.field 2 56 8
  let sdest := cmd.field 3 0 52
  let len := 4 * outBits ofmt
  let int := cmd.flag 1
  .next (runCmd cmd (false, false, ofmt == 4)
    (fun x t =>
      let bad2 := decide (stride < len) || cmd.field 2 37 3 != 0 || cmd.field 2 44 4 != 0 || cmd.field 2 50 6 != 0
        || decide (8 ≤ ofmt) || (decide (5 ≤ ofmt) && !int) || (decide (1 ≤ ofmt) && decide (ofmt ≤ 4) && int)
        || (smode != 0 && ofmt != 3 && ofmt != 4) || (smode == 1 && sfix == 255) || (smode != 1 && sfix != 0)
      match cmd.illegal [cmd.bad0 2 true (cmd.countBad 1 (32 - first)), cmd.field 1 52 12 != 0, bad2, cmd.field 3 52 12 != 0] with
      | some r => some r
      | none =>
        if (ofmt == 3 || ofmt == 4) && x.tabC.isNone then some (2, 3)
        else if smode == 3 && (t.mx t.curCore).ring.isNone then some (2, 8)
        else none)
    (fun x t =>
      let c := t.curCore
      let w := whoSeq c x.q
      if x.status ≠ 0 then mxFail c x true t
      else
        let a := (t.mx c).acc cmd.acc
        let p := (t.mx c).poison cmd.acc
        let total := n * len + (if sdest = 0 then 0 else 1)
        let t := if smode = 3 ∧ x.waiting = false then
            setCur c { x with waiting := true } (t.modMx c fun u => { u with report := some (accExp a first n), shared := none })
          else t
        let x := if smode = 3 then { x with waiting := true } else x
        let t := if smode = 3 ∧ x.scale.isNone then broadcastTry (ringKeeper t c) t else t
        match (match smode with
          | 1 => some sfix
          | 2 => some (match x.tabC with | some tb => sharedScale tb (accExp a first n).toList | none => 127)
          | 3 => x.scale.or (t.mx c).shared
          | _ => some 127) with
        | none => mxWait c 0x0A (scaleTarget c t) t
        | some sc =>
          let x := { x with scale := some sc }
          match (if x.steps ≠ 0 then none else
              match reachCause x.q.reach (extent dest n len stride) 2 with
              | some cause => some (cause, dest)
              | none => if sdest = 0 then none else (reachCause x.q.reach (sdest, sdest + 1) 2).map fun k => (k, sdest)) with
          | some (cause, va) => mxAccessFault c x (.vec cause va) total 0 t
          | none =>
            let row (r : Started × Option State × State) (i : Nat) : Started × Option State × State :=
              let (x, stop, t) := r
              if stop.isSome ∨ i < x.steps then r
              else
                let (va, data) := if i < n then (dest + i * stride, outRow ofmt x.tabC sc a (first + i))
                  else (sdest, [BitVec.ofNat 8 sc])
                match mxStore w va data p t with
                | .exc e _ => (x, some (mxAccessFault c x e total (i * len) t), t)
                | .stall u => (x, some (setCur c x u), t)
                | .ok _ u => ({ x with steps := i + 1 }, none, u)
            let (x, stop, t) := (List.range (if sdest = 0 then n else n + 1)).foldl row (x, none, mxRun c t)
            match stop with
            | some t => t
            | none =>
              let t := t.modMx c fun u => { u with
                lastScale := if smode = 0 then u.lastScale else sc
                shared := none }
              mxComplete c x (if p then 1 else 0) (if p then 1 else 0) t) s)

/-! MX.SYNC and MX.FMAP (R180, R181). -/

/-- A member stands in an MX.SYNC that it has started under its present configuration and that is not over. -/
def inSync (x : Mx) : Bool := !x.syncDone && x.cur.any fun y => y.q.cmd.op == 0x0C && y.waiting

/-- A member starts its MX.SYNC; the last one to start ends it for all, when as many have gone before it since each member's
MX.RING (R172, R180). -/
def startSync (c : Nat) (x : Started) (s : State) : State :=
  if (s.mx c).syncDone then s
  else
    let s := setCur c { x with waiting := true } s
    match ringMembers s c with
    | some l => if l.all fun d => inSync (s.mx d) && (s.mx d).syncs == (s.mx c).syncs then
        l.foldl (fun s d => s.modMx d fun u => { u with syncDone := true, syncs := u.syncs + 1 }) s else s
    | none => s

def execMxSync (cmd : Cmd) (s : State) : Outcome State Fault Refusal :=
  let bad := cmd.countBad 0 0
  .next (runCmd cmd (false, false, false)
    (fun _ t => match cmd.illegal [cmd.bad0 0 false bad] with
      | some r => some r
      | none => if (t.mx t.curCore).ring.isNone then some (2, 7) else none)
    (fun x t =>
      let c := t.curCore
      if takesNoPart t c x bad then mxFail c x false t
      else
        let t := startSync c x t
        if (t.mx c).syncDone then mxComplete c x x.status x.detail t
        else match (t.mx c).ring with
          | some r => mxWait c 0x0A (seqParty r.pred) t
          | none => t) s)

def execMxFmap (cmd : Cmd) (s : State) : Outcome State Fault Refusal :=
  let dest := cmd.field 1 0 52
  .next (runCmd cmd (false, false, false)
    (fun _ _ => cmd.illegal [cmd.bad0 0 false (cmd.countBad 0 0), cmd.field 1 52 12 != 0 || dest % 8 != 0])
    (fun x t =>
      let c := t.curCore
      if x.status ≠ 0 then mxFail c x false t
      else if x.steps = 1 then mxComplete c x 0 0 t
      else match reachCause x.q.reach (dest, dest + 288) 2 with
        | some cause => mxAccessFault c x (.vec cause dest) 288 0 t
        | none => match bulkStore (whoSeq c x.q) dest ((t.mx c).image.map (leBytes 8)).flatten t with
          | .exc e _ => mxAccessFault c x e 288 0 t
          | .stall t => t
          | .ok _ t => mxComplete c { x with steps := 1 } 0 0 t) s)

/-- A command with an opcode that is none completes with status 0x06 (R161). -/
def mxIllegal (cmd : Cmd) (s : State) : State :=
  runCmd cmd (false, false, false) (fun _ _ => some (6, 0)) (fun x t => mxFail t.curCore x false t) s

/-! Geometry traps, scans, ramps (R151, R154 to R159). -/

def execGeometryTrap (c : Nat) (s : State) : Outcome State Fault Refusal := .next (deliverCause c 0x0E s)

/-- The units of a die in the scan scheduler's order (R154). -/
def scanOrder (s : State) (die : Nat) : List Nat :=
  let l := (List.range 1536).map fun i => die * 1536 + (SMap.get 0 s.scanHead die + i) % 1536
  (l.filter fun c => (s.mx c).scanHead) ++ l

/-- The unit has a command past its cured mark, or stands at the head. -/
def wantsScan (x : Mx) : Bool := !x.scanning && (x.scanHead || !seqLe x.seq x.mark)

/-- SCAN_START: a scan slot of the die takes the next unit, which starts no further command (R154); the order goes on behind that
unit, also where it came from the head (DESIGN CHOICE, log 140). -/
def execScanStart (die : Nat) (s : State) : Outcome State Fault Refusal :=
  if 4 ≤ ((List.range 1536).filter fun i => (s.mx (die * 1536 + i)).scanning).length then .next s
  else match (scanOrder s die).find? fun c => wantsScan (s.mx c) with
    | some c => .next { s.modMx c fun x => { x with scanning := true, scanHead := false } with
        scanHead := SMap.put s.scanHead die ((c % 1536 + 1) % 1536) }
    | none => .next s

/-- The unit is drained for its scan. -/
def drained (x : Mx) : Bool := x.scanning && x.cur.isNone

def execScanPass (c : Nat) (s : State) : Outcome State Fault Refusal :=
  if drained (s.mx c) then
    .next (s.modMx c fun x => { x with mark := x.done, scanning := false, idleSince := s.clock, ramping := none, ramped := false })
  else .next s

/-- The number after a sequence number (R138). -/
def nextSeq (n : Nat) : Nat := if n = 2 ^ 32 - 1 then 1 else n + 1

/-- The revoked range that holds a sequence number (R156, R157). -/
def revokedBy (x : Mx) (n : Nat) : Option Revoked := (x.revoked.filterMap id).find? fun r => seqLe r.first n && seqLe n r.last

def Revoked.word (r : Revoked) : Nat := r.last * 2 ^ 32 + r.first

/-- SCAN_FAIL: the commands since the mark are revoked (R157, R158). -/
def execScanFail (c : Nat) (cells : List (Nat × Nat)) (s : State) : Outcome State Fault Refusal :=
  let x := s.mx c
  if !drained x then .next s
  else
    let none_ := seqLe x.done x.mark
    let r : Revoked := ⟨nextSeq x.mark, x.done⟩
    let y := { x with
      revoked := ((if none_ then none else some r) :: x.revoked).take 4
      mark := x.done, failures := min 65535 (x.failures + 1), scanning := false, idleSince := s.clock, ramping := none,
      ramped := false }
    let y := y.remap (x.spalled ++ cells)
    let s := s.modMx c fun _ => y
    let word := if none_ then 0 else r.word
    let tenant := (s.core c).vtabTenant
    let s := queueRecord (rec1 tenant (seqParty c) 5 [word, y.generation + x.generation * 2 ^ 16, y.geom.toNat] s.clock) s
    let waiting (k : Nat) : Bool := (s.slot c k).wait.reason == 0x0E && (s.slot c k).wait.mode != 0 && !none_
      && (match (s.slot c k).waitArg with | some n => seqLe r.first n && seqLe n r.last | none => false)
    .next ((List.range 7).foldl (fun t k => if waiting k then
      t.modSlot c k fun y => { y with pend := y.pend ++ [⟨0x0D, BitVec.ofNat 64 word⟩] } else t) s)

/-- A unit whose command has been sampled and awaits a ramp that has not begun (R140, R159). -/
def wantsRamp (s : State) (c : Nat) : Bool :=
  let x := s.mx c
  x.ramping.isNone && !x.ramped && x.cur.any fun y => y.ramp && y.sampled

/-- RAMP: a unit that has been idle ramps for 512 cycles before its next command is executed; at most four units of a tile do at once, and those
waiting begin in core order (R159). -/
def execRamp (c : Nat) (s : State) : Outcome State Fault Refusal :=
  let tile := (List.range 32).map fun i => c / 32 * 32 + i
  .next (match (s.mx c).ramping with
    | some t => if t + 512 ≤ s.clock then s.modMx c fun x => { x with ramping := none, ramped := true } else s
    | none =>
      if (tile.filter fun d => (s.mx d).ramping.isSome).length < 4 ∧ tile.find? (wantsRamp s) = some c then
        s.modMx c fun x => { x with ramping := some s.clock }
      else s)

/-! The core's side (R317). -/

def wordAt (v : BitVec 512) (i : Nat) : Word := BitVec.extractLsb' (64 * i) 64 v

def cmdOf (v : BitVec 512) : Cmd :=
  ⟨wordAt v 0, wordAt v 1, wordAt v 2, wordAt v 3, wordAt v 4, wordAt v 5, wordAt v 6, wordAt v 7⟩

/-- MXQ (R138, R139, R317). -/
def execMxq (a b : Nat) (s : State) : Outcome State Fault Refusal :=
  if isKeystone s.curCore then .next (illegal s)
  else match issue [b] [] s with
    | .stop t => .next t
    | .go vs t =>
      let c := t.curCore
      if 2 ≤ (t.mx c).queue.length then .next (waitFor 1 0x0A false [seqParty c] (unpop s t))
      else
        .next (exposing [b] [] s t fun t =>
          let t := drainMe t
          let y := t.me
          let n := nextSeq (t.mx c).seq
          let q : Queued := ⟨cmdOf (y.vr a), vs.getD 0 .zero, n, t.partyAt c t.curSlot, y.uid, y.tenant, y.domain, false⟩
          complete 4 (t.modMx c fun x => { x with queue := x.queue ++ [q], seq := n }))

/-- A sequence operand that names no command: 0, or not at or below MXSEQ (R156, R317). -/
def seqBad (x : Mx) (n : Nat) : Bool := n == 0 || !seqLe n x.seq

def execMxwait (a : Nat) (s : State) : Outcome State Fault Refusal :=
  if isKeystone s.curCore then .next (illegal s)
  else match issue [a] [] s with
    | .stop t => .next t
    | .go vs t =>
      let c := t.curCore
      let n := (vs.getD 0 .zero).nat % 2 ^ 32
      if seqBad (t.mx c) n then .next (trapMe 0x01 n s)
      else if seqLe n (t.mx c).done then .next (complete 4 t)
      else .next (waitFor 1 0x0A false [seqParty c] ((unpop s t).modMe fun y => { y with waitArg := some (2 ^ 32 + n) }))

def execMxcure (a : Nat) (s : State) : Outcome State Fault Refusal :=
  if isKeystone s.curCore then .next (illegal s)
  else match issue [a] [] s with
    | .stop t => .next t
    | .go vs t =>
      let c := t.curCore
      let n := (vs.getD 0 .zero).nat % 2 ^ 32
      if seqBad (t.mx c) n then .next (trapMe 0x01 n s)
      else match revokedBy (t.mx c) n with
        | some r => .next (trapMe 0x0D r.word s)
        | none =>
          if seqLe n (t.mx c).mark then .next (complete 4 t)
          else .next (waitFor 1 0x0E false [serviceParty c] ((unpop s t).modMe fun y => { y with waitArg := some n }))

end Sys2Proof.Machine
end

