-- ==== Sys2Proof/Machine/Csr.lean ====
section
/-! DEFINITION. Control and status registers (R111 to R113, R322): reads, writes, and the registers whose writes have rules of
their own (R33, R89, R90, R94 to R96, R329, R357, R380). -/

namespace Sys2Proof.Machine

open Host (Outcome)

/-- The current context is not in user mode (R10). -/
def svcMode (s : State) : Bool := s.me.mode != .user

/-! Reading (R111). -/

def vtabWord (x : Core) : Nat := x.vtabTenant * 2 ^ 32 + x.vtabOffset * 2 ^ 12 + x.vtabEnable.toNat
def faultqWord (s : State) (c : Nat) : Nat :=
  let x := s.core c
  x.fqEnable.toNat * 2 ^ 40 + x.fqType * 2 ^ 32 + (postWaits s c).toNat * 2 ^ 16 + x.fqSeq
def wdidleWord (x : Core) : Nat := x.wdOff.toNat * 64 + x.wdExp

/-- TIME: nanoseconds since package reset, of the 1.2 GHz clock (R113). -/
def timeOf (s : State) : Nat := s.clock * 5 / 6 % 2 ^ 64

/-- Clock cycles of a core since its die left reset: keystones run at 1.8 GHz, small cores at 1.2 GHz (R3, R113). -/
def cyclesOf (s : State) (c : Nat) : Nat :=
  let n := s.clock - SMap.get 0 s.dieReset (coreDie c)
  (if isKeystone c then n * 3 / 2 else n) % 2 ^ 64

/-- A slot's register (R112, R113). -/
def slotCsr (n c k : Nat) (s : State) : Option Nat :=
  let y := s.slot c k
  match n with
  | 0x000 => some y.status
  | 0x001 => some y.prio
  | 0x002 => some y.tvec
  | 0x003 => some y.tcause
  | 0x004 => some y.tval.toNat
  | 0x005 => some y.tpc
  | 0x006 => some y.waitr.toNat
  | 0x007 => some (s.partyAt c k)
  | 0x008 => some c
  | 0x009 => some y.tenant
  | 0x00A => some (cyclesOf s c)
  | 0x00B => some (timeOf s)
  | 0x00C => some y.spawnlim
  | _ => none

/-- A core's register (R89, R94, R95, R137, R138, R149, R155, R329, R357, R380); BANKROLE and the matrix registers are
absent on a keystone (R88, R110). -/
def coreCsr (n c : Nat) (s : State) : Option Nat :=
  let x := s.core c
  let small (v : Word) : Option Nat := if isKeystone c then none else some v.toNat
  if 0x110 ≤ n ∧ n ≤ 0x11F then some (SMap.get 0 x.cnt (n - 0x110))
  else match n with
  | 0x100 => small x.bankrole
  | 0x101 => some (x.arrbase * 64)
  | 0x102 => some (x.spill * 2 ^ 32 + x.arrcap)
  | 0x103 => some (vtabWord x)
  | 0x104 => some (faultqWord s c)
  | 0x105 => some (wdidleWord x)
  | 0x200 => small x.fmta
  | 0x201 => small x.fmtb
  | 0x202 => small x.fmtc
  | 0x203 => small x.scla
  | 0x204 => small x.sclb
  | 0x205 => small x.mx.geom
  | 0x206 => small (BitVec.ofNat 64 x.mx.seq)
  | 0x207 => small (BitVec.ofNat 64 (x.mx.failures * 2 ^ 32 + x.mx.mark))
  | _ => none

/-- A service register (R33, R39, R403, R408). -/
def serviceCsr (n : Nat) (s : State) : Option Nat :=
  if 0x820 ≤ n ∧ n ≤ 0x83F then some ((s.link (n - 0x820)).leqRing * 4096 + (s.link (n - 0x820)).leqSize)
  else match n with
  | 0x800 => some (s.ptroot * 65536)
  | 0x801 => some (s.ptwinBase * 2 ^ 42 + s.ptwinSet)
  | 0x802 => some (s.drbase * 65536)
  | 0x803 => some (s.hrtbase * 65536)
  | _ => none

/-- A register as the current slot reads it; `none` for a number that names none here. Service registers read 0 in user
mode (R33). -/
def csrValue (n : Nat) (s : State) : Option Nat :=
  if n < 0x100 then slotCsr n s.curCore s.curSlot s
  else if n < 0x800 then coreCsr n s.curCore s
  else (serviceCsr n s).map fun v => if svcMode s then v else 0

/-! Writing. -/

/-- RO registers (R111). -/
def csrReadOnly (n : Nat) : Bool := (decide (6 ≤ n) && decide (n ≤ 11)) || (decide (0x205 ≤ n) && decide (n ≤ 0x207))

/-- A write that is an illegal instruction: no such register, an RO register, a service register in user mode, an illegal
field (R33, R89, R95, R111, R357, R380). -/
def csrIllegal (n v : Nat) (s : State) : Bool :=
  (csrValue n s).isNone || csrReadOnly n || (decide (0x800 ≤ n) && !svcMode s)
    || (n == 0x100 && (List.range 32).any fun b => bits v (2 * b) 2 == 3)
    || (n == 0x102 && decide (64 < bits v 0 7))
    || (n == 0x104 && bit v 40 && decide (0xF0 ≤ bits v 32 8))
    || (n == 0x105 && (decide (bits v 0 6 < 12) || decide (40 < bits v 0 6)))

/-- The banks of a BANKROLE value with a given role. -/
def banksOf (v : Word) (role : Nat) : List Nat := (List.range 32).filter fun b => bits v.toNat (2 * b) 2 == role

/-- Bank roles change (R90): a bank that leaves cache gives its dirty sectors back to the slice and reads as zero. -/
def setRoles (c : Nat) (v : Word) (s : State) : State :=
  let leaving := (banksOf (s.core c).bankrole 1).filter fun b => bits v.toNat (2 * b) 2 != 1
  let s := (s.lines.filter fun p => p.1 / 2 ^ 42 == c && leaving.contains p.2.bank && !p.2.bankValid.isEmpty).foldl
    (fun s p => leaveBanks p.1 s) s
  let s := leaving.foldl (fun s b =>
    let a := localKey c (8192 * b)
    { s with
      mem := s.mem.filter fun q => !(decide (a ≤ q.1) && decide (q.1 < a + 8192))
      tags := s.tags.filter fun q => !(decide (a / 16 ≤ q.1) && decide (q.1 < (a + 8192) / 16))
      poison := s.poison.filter fun q => !(decide (a / 64 ≤ q.1) && decide (q.1 < (a + 8192) / 64)) }) s
  s.modCore c fun x => { x with bankrole := v, rolePend := none }

/-- A started command reads or writes banks: LDA, LDB, MMA, MMAR, SCX, STC. -/
def usesBanks (x : Mx) : Bool :=
  match x.cur with
  | some q => [0x04, 0x05, 0x06, 0x08, 0x0A, 0x0B].contains q.q.cmd.op
  | none => false

/-- A bank leaves TOB under a started command (R90). -/
def tobBusy (c : Nat) (v : Word) (s : State) : Bool :=
  let x := s.core c
  usesBanks x.mx && (banksOf x.bankrole 2).any fun b => bits v.toNat (2 * b) 2 != 2

/-- A role change has to wait: another is pending, or a bank leaves TOB under a started command (R90). -/
def rolesWait (v : Word) (s : State) : Bool :=
  (s.core s.curCore).rolePend.isSome || tobBusy s.curCore v s

/-- The pending role change of the slot's instruction has taken effect (R90). -/
def rolesDone (s : State) : Bool := s.me.replies.any fun r => r.bytes.isEmpty

/-- A write to ARRBASE or the capacity: pending while the array holds frames (R96). -/
def setArray (c : Nat) (base cap : Option Nat) (s : State) : State :=
  s.modCore c fun x =>
    let old := x.arrPend.getD (x.arrbase, x.arrcap)
    let new := (base.getD old.1, cap.getD old.2)
    if x.arrivals.any fun a => a.spilled.isNone then { x with arrPend := some new }
    else { x with arrbase := new.1, arrcap := new.2, arrPend := none }

/-- The effect of a legal write of `v`, BANKROLE's wait apart (R112, R113 and the rules of each core register). -/
def csrWrite (n v : Nat) (s : State) : State :=
  let c := s.curCore
  if n < 0x100 then s.modMe fun y => match n with
    | 0x000 => { y with autoMig := bit v 7, domain := if y.mode = .user then y.domain else bits v 16 8 }
    | 0x001 => { y with prio := bits v 0 4 }
    | 0x002 => { y with tvec := bits v 1 51 * 2 }
    | 0x003 => { y with tcause := bits v 0 8 }
    | 0x004 => { y with tval := BitVec.ofNat 64 v }
    | 0x005 => { y with tpc := bits v 0 52 }
    | 0x00C => { y with spawnlim := bits v 0 16 }
    | _ => y
  else if n < 0x800 then
    if 0x110 ≤ n ∧ n ≤ 0x11F then
      noteCount c (n - 0x110) (s.modCore c fun x => { x with cnt := SMap.put x.cnt (n - 0x110) (bits v 0 32) })
    else match n with
    | 0x100 => setRoles c (BitVec.ofNat 64 v) s
    | 0x101 => setArray c (some (bits v 6 12)) none s
    | 0x102 => setArray c none (some (bits v 0 7)) (s.modCore c fun x =>
        { x with spill := if bits v 32 16 = 0 then x.spill else 0 })
    | 0x103 => s.modCore c fun x => { x with
        vtabOffset := bits v 12 8, vtabEnable := bit v 0, vtabTenant := if svcMode s then bits v 32 8 else x.vtabTenant }
    | 0x104 => s.modCore c fun x => { x with fqEnable := bit v 40, fqType := bits v 32 8 }
    | 0x105 => s.modCore c fun x => { x with wdOff := bit v 6, wdExp := bits v 0 6 }
    | 0x200 => s.modCore c fun x => { x with fmta := BitVec.ofNat 64 v }
    | 0x201 => s.modCore c fun x => { x with fmtb := BitVec.ofNat 64 v }
    | 0x202 => s.modCore c fun x => { x with fmtc := BitVec.ofNat 64 v }
    | 0x203 => s.modCore c fun x => { x with scla := BitVec.ofNat 64 v }
    | 0x204 => s.modCore c fun x => { x with sclb := BitVec.ofNat 64 v }
    | _ => s
  else if 0x820 ≤ n ∧ n ≤ 0x83F then
    s.modLink (n - 0x820) fun x => { x with leqRing := bits v 12 36, leqSize := bits v 0 5 }
  else match n with
    | 0x800 => { s with ptroot := bits v 16 32 }
    | 0x801 => { s with ptwinBase := if 0x3FC ≤ bits v 42 10 then s.ptwinBase else bits v 42 10, ptwinSet := bits v 0 6 }
    | 0x802 => { s with drbase := bits v 16 32 }
    | 0x803 => { s with hrtbase := bits v 16 32 }
    | _ => s

/-- A CSR write of `v` by an instruction that reads `reads`, from state `t`; `s` is the state before issue (R322). A write to a
register of core scope exposes an activation (R382). A change of bank roles takes effect once; the slot stays in RUN until then
(R90). -/
def csrPut (n v : Nat) (reads : List Nat) (s t : State) : State :=
  if csrIllegal n v t then illegal s
  else
    let write (t : State) : State :=
      if n ≠ 0x100 then complete 4 (csrWrite n v t)
      else if rolesDone t then complete 4 t
      else if rolesWait (BitVec.ofNat 64 v) t then
        stallOp reads [] s (t.modCore t.curCore fun x =>
          { x with rolePend := some (x.rolePend.getD (t.curSlot, BitVec.ofNat 64 v)) })
      else complete 4 (csrWrite n v t)
    if 0x100 ≤ n ∧ n < 0x800 then exposing reads [] s t write else write t

/-- CSRW, CSRSET, CSRCLR: `f` gives the new value from the old one and the operand. -/
def csrOp (n a : Nat) (f : Nat → Nat → Nat) (s : State) : State :=
  match csrValue n s with
  | none => illegal s
  | some old =>
    if csrReadOnly n || (decide (0x800 ≤ n) && !svcMode s) then illegal s
    else match issue [a] [] s with
      | .stop t => t
      | .go vs t => csrPut n (f old (vs.getD 0 .zero).word.toNat) [a] s t

def execCsrr (d csr : Nat) (s : State) : Outcome State Fault Refusal :=
  match csrValue csr s with
  | none => .next (illegal s)
  | some _ => match issue [] [d] s with
    | .stop t => .next t
    | .go _ t => .next (complete 4 (writeField d (.ofNat ((csrValue csr t).getD 0)) t))

def execCsrw (csr a : Nat) (s : State) : Outcome State Fault Refusal := .next (csrOp csr a (fun _ x => x) s)
def execCsrset (csr a : Nat) (s : State) : Outcome State Fault Refusal := .next (csrOp csr a (fun o x => o ||| x) s)
def execCsrclr (csr a : Nat) (s : State) : Outcome State Fault Refusal :=
  .next (csrOp csr a (fun o x => o &&& (2 ^ 64 - 1 - x)) s)

/-! The writes that have rows of their own in the opcode table: the current slot writes `v`. -/

def execBankroleWrite (v : Nat) (s : State) : Outcome State Fault Refusal := .next (csrPut 0x100 v [] s s)
def execArrbaseWrite (v : Nat) (s : State) : Outcome State Fault Refusal := .next (csrPut 0x101 v [] s s)
def execArrcapWrite (v : Nat) (s : State) : Outcome State Fault Refusal := .next (csrPut 0x102 v [] s s)
def execCntWrite (n v : Nat) (s : State) : Outcome State Fault Refusal := .next (csrPut (0x110 + n) v [] s s)
def execStatusWrite (v : Nat) (s : State) : Outcome State Fault Refusal := .next (csrPut 0x000 v [] s s)
def execVtabWrite (v : Nat) (s : State) : Outcome State Fault Refusal := .next (csrPut 0x103 v [] s s)
def execFaultqWrite (v : Nat) (s : State) : Outcome State Fault Refusal := .next (csrPut 0x104 v [] s s)
def execWdidleWrite (v : Nat) (s : State) : Outcome State Fault Refusal := .next (csrPut 0x105 v [] s s)
def execPtwinWrite (v : Nat) (s : State) : Outcome State Fault Refusal := .next (csrPut 0x801 v [] s s)

/-- BANKROLE_CHANGE: a pending change takes effect once no started command reads a bank that leaves TOB; the instruction that wrote
it completes after that (R90). Slot number 8 stands for the debugger (R393). -/
def execBankroleChange (c : Nat) (s : State) : Outcome State Fault Refusal :=
  match (s.core c).rolePend with
  | some (k, v) =>
    if tobBusy c v s then .next s
    else
      let t := setRoles c v s
      .next (if k < 8 then t.modSlot c k fun y => { y with replies := y.replies ++ [⟨0x100, [], [], false, 0⟩] } else t)
  | none => .next s

end Sys2Proof.Machine
end

