-- ==== Sys2Proof/Machine/Debug.lean ====
section
/-! DEFINITION. The debug port of the Wenlek controller (R392, R393). What it reads goes to `Wenlek.reports`: a leading 2, the core,
the slot, the register, value and tag; or a leading 3, the core, the queue or port, and the entries, oldest first. -/

namespace Sys2Proof.Machine

open Host (Outcome)

/-- The slots that the debug port halts: 0 to 6 of a small core, the four contexts of a keystone (R392). -/
def debugSlots (c : Nat) : List Nat := List.range (min 7 (numSlots c))

/-- A slot stops at its next instruction boundary (R392); with an instruction in progress, at its end. One that waits stops in its
wait, and reads its operands again at resume. -/
def haltSlot (c k : Nat) (s : State) : State :=
  if (s.slot c k).halted then s
  else if (s.slot c k).wait.mode ≠ 0 ∨ atBoundary s c k then
    (giveBack c k s).modSlot c k fun y => { y with halted := true, stepping := false, wait := y.wait.bump, overCount := 0 }
  else s.modSlot c k fun y => { y with stepping := true }

/-- DEBUG_HALT: slots, copy engine and matrix sequencer halt separately (R392). -/
def execDebugHalt (c : Nat) (slots engine seq : Bool) (s : State) : Outcome State Fault Refusal :=
  let t := s.modCore c fun x => { x with debugger := true }
  let t := if slots then (debugSlots c).foldl (fun t k => haltSlot c k t) t else t
  let t := if engine ∧ (t.eng c).halted = false then t.modEng c fun e => { e with halted := true, wait := e.wait.bump } else t
  .next (if seq ∧ (t.mx c).halted = false then t.modMx c fun x => { x with halted := true, wait := x.wait.bump } else t)

/-! Registers (R393). The spec gives the debugger's registers no numbers: 0 to 15 are c0 to c15, 16 PCC, 32 to 63 v0 to v31, 65
to 71 k1 to k7, 0x1000 + n CSR n (DESIGN CHOICE, log 16). -/

/-- Act for a slot, in service mode where a register's rule asks for it. -/
def asDebugger (c k : Nat) (f : State → State) (s : State) : State :=
  let m := (s.slot c k).mode
  let t := f ({ s with curCore := c, curSlot := k }.modMe fun y => { y with mode := .service })
  { t.modMe fun y => { y with mode := m } with curCore := s.curCore, curSlot := s.curSlot }

/-- A register's value and tag; `none` for a number that names none. -/
def debugRead (c k r : Nat) (s : State) : Option (Nat × Bool) :=
  let y := s.slot c k
  if r < 16 then some ((y.cr r).nat, (y.cr r).tag)
  else if r = 16 then some (y.pcc.nat, y.pcc.tag)
  else if 32 ≤ r ∧ r < 64 then some ((y.vr (r - 32)).toNat, false)
  else if 65 ≤ r ∧ r < 72 then some ((y.kr (r - 64)).toNat, false)
  else if 0x1000 ≤ r then
    let n := r - 0x1000
    (if n < 0x100 then slotCsr n c k s else if n < 0x800 then coreCsr n c s else serviceCsr n s).map fun v => (v, false)
  else none

def execDebugReadRegister (c k r : Nat) (s : State) : Outcome State Fault Refusal :=
  match debugRead c k r s with
  | some (v, tag) =>
    if (s.slot c k).halted then .next { s with wenlek := { s.wenlek with
      reports := s.wenlek.reports ++ [[2, c, k, r, v, tag.toNat]] } } else .next s
  | none => .next s

/-- The tag of a written register: kept when the debugger names a tagged source that it read from this device (R393). -/
def debugTag (s : State) (v : Nat) (src : Option Nat) : Bool :=
  match src with
  | none => false
  | some i => match s.wenlek.reports[i]? with
    | some [2, _, _, _, u, 1] => u == v % 2 ^ 128
    | _ => false

def debugWrite (c k r v : Nat) (tag : Bool) (s : State) : State :=
  if r < 16 then s.modSlot c k fun y => y.setC r ⟨BitVec.ofNat 128 v, tag⟩
  else if r = 16 then (leaveBlocked c k s).modSlot c k fun y => { y with pcc := ⟨BitVec.ofNat 128 v, tag⟩ }
  else if 32 ≤ r ∧ r < 64 then s.modSlot c k fun y => y.setV (r - 32) (BitVec.ofNat 512 v)
  else if 65 ≤ r ∧ r < 72 then s.modSlot c k fun y => y.setK (r - 64) (BitVec.ofNat 64 v)
  else if 0x1000 ≤ r then
    asDebugger c k (fun t =>
      let n := r - 0x1000
      let v := v % 2 ^ 64
      if csrIllegal n v t then t
      else if n = 0x100 ∧ rolesWait (BitVec.ofNat 64 v) t then
        t.modCore c fun x => { x with rolePend := some (x.rolePend.getD (8, BitVec.ofNat 64 v)) }
      else csrWrite n v t) s
  else s

def execDebugWriteRegister (c k r v : Nat) (src : Option Nat) (s : State) : Outcome State Fault Refusal :=
  if (s.slot c k).halted then .next (debugWrite c k r v (debugTag s v src) s) else .next s

/-! Queues and ports: 0 to 7 are q0 to q7, 8 to 11 the port inputs (R393). -/

/-- Every slot of the core that can halt is halted. -/
def coreHalted (s : State) (c : Nat) : Bool := (debugSlots c).all fun k => (s.slot c k).halted

def execDebugReadQueue (c q : Nat) (s : State) : Outcome State Fault Refusal :=
  if !coreHalted s c || decide (12 ≤ q) || absentField c (16 + q) then .next s
  else
    let l := if q < 8 then (s.core c).queue q else (s.core c).port (q - 8)
    .next { s with wenlek := { s.wenlek with reports := s.wenlek.reports ++ [3 :: c :: q :: l.map BitVec.toNat] } }

def execDebugReplaceQueue (c q : Nat) (ws : List Nat) (s : State) : Outcome State Fault Refusal :=
  if !coreHalted s c || decide (12 ≤ q) || absentField c (16 + q) || decide (depthOf (16 + q) < ws.length) then .next s
  else
    let l : List Word := ws.map (BitVec.ofNat 64)
    .next (s.modCore c fun x =>
      { (if q < 8 then x.setQueue q l else x.setPort (q - 8) l) with qerr := x.qerr.filter fun e => e.1 != 16 + q })

/-- DEBUG_STEP: the slot leaves HALT for one instruction (R393). -/
def execDebugStep (c k : Nat) (s : State) : Outcome State Fault Refusal :=
  if (s.slot c k).halted ∧ ((s.slot c k).holds = .thread ∨ (s.slot c k).holds = .activation) then
    .next (s.modSlot c k fun y => { y with halted := false, stepping := true, wait := y.wait.bump, overCount := 0 })
  else .next s

/-- DEBUG_RESUME: each party returns to its state before the halt; idle counts restart (R366, R393). -/
def execDebugResume (c : Nat) (s : State) : Outcome State Fault Refusal :=
  let wake (k : Nat) (t : State) : State := t.modSlot c k fun y =>
    if y.halted then { y with
      halted := false, stepping := false, wait := y.wait.bump, waitSince := t.clock, overCount := 0 }
    else { y with stepping := false }
  let t := (debugSlots c).foldl (fun t k => wake k t) s
  let t := if (t.eng c).halted then t.modEng c fun e => { e with halted := false, wait := e.wait.bump } else t
  .next (if (t.mx c).halted then t.modMx c fun x => { x with halted := false, wait := x.wait.bump } else t)

end Sys2Proof.Machine
end

