-- ==== Sys2Proof/Machine/Integer.lean ====
section
/-! DEFINITION. Integer instructions (R237 to R242) and their compact forms (R231). -/

namespace Sys2Proof.Machine

open Host (Outcome)

/-! Arithmetic (R238, R239). -/

def mulHigh (a b : Word) : Word := BitVec.ofInt 64 (a.toInt * b.toInt / 2 ^ 64)
def mulHighU (a b : Word) : Word := BitVec.ofNat 64 (a.toNat * b.toNat / 2 ^ 64)

/-- Quotient and remainder toward zero; a zero divisor gives all ones and the dividend (R239). -/
def divS (a b : Word) : Word := if b = 0 then 0xFFFFFFFFFFFFFFFF else BitVec.ofInt 64 (a.toInt.tdiv b.toInt)
def divU (a b : Word) : Word := if b = 0 then 0xFFFFFFFFFFFFFFFF else BitVec.ofNat 64 (a.toNat / b.toNat)
def remS (a b : Word) : Word := if b = 0 then a else BitVec.ofInt 64 (a.toInt.tmod b.toInt)
def remU (a b : Word) : Word := if b = 0 then a else BitVec.ofNat 64 (a.toNat % b.toNat)

/-- The shift amount: bits [5:0] (R238). -/
def amount (b : Word) : Nat := b.toNat % 64

def shl (a b : Word) : Word := a <<< amount b
def shr (a b : Word) : Word := a >>> amount b
def sar (a b : Word) : Word := a.sshiftRight (amount b)
def rotL (a b : Word) : Word := a.rotateLeft (amount b)
def rotR (a b : Word) : Word := a.rotateRight (amount b)

def minS (a b : Word) : Word := if BitVec.sle a b then a else b
def maxS (a b : Word) : Word := if BitVec.sle a b then b else a
def minU (a b : Word) : Word := if a ≤ b then a else b
def maxU (a b : Word) : Word := if a ≤ b then b else a

/-- Zero bits above the highest one bit of the low `n` bits (R238). -/
def clzNat : Nat → Nat → Nat
  | 0, _ => 0
  | n + 1, v => if v / 2 ^ n % 2 = 1 then 0 else 1 + clzNat n v

/-- Zero bits below the lowest one bit of `n` bits. -/
def ctzNat : Nat → Nat → Nat
  | 0, _ => 0
  | n + 1, v => if v % 2 = 1 then 0 else 1 + ctzNat n (v / 2)

/-- One bits among the low `n`. -/
def popNat : Nat → Nat → Nat
  | 0, _ => 0
  | n + 1, v => v % 2 + popNat n (v / 2)

def clz (a : Word) : Word := BitVec.ofNat 64 (clzNat 64 a.toNat)
def ctz (a : Word) : Word := BitVec.ofNat 64 (ctzNat 64 a.toNat)
def popc (a : Word) : Word := BitVec.ofNat 64 (popNat 64 a.toNat)

/-! ALU-R. -/

def execAdd (d a b : Nat) (s : State) : Outcome State Fault Refusal := .next (intOp2 4 d a b (· + ·) s)
def execSub (d a b : Nat) (s : State) : Outcome State Fault Refusal := .next (intOp2 4 d a b (· - ·) s)
def execMul (d a b : Nat) (s : State) : Outcome State Fault Refusal := .next (intOp2 4 d a b (· * ·) s)
def execMulh (d a b : Nat) (s : State) : Outcome State Fault Refusal := .next (intOp2 4 d a b mulHigh s)
def execMulhu (d a b : Nat) (s : State) : Outcome State Fault Refusal := .next (intOp2 4 d a b mulHighU s)
def execDiv (d a b : Nat) (s : State) : Outcome State Fault Refusal := .next (intOp2 4 d a b divS s)
def execDivu (d a b : Nat) (s : State) : Outcome State Fault Refusal := .next (intOp2 4 d a b divU s)
def execRem (d a b : Nat) (s : State) : Outcome State Fault Refusal := .next (intOp2 4 d a b remS s)
def execRemu (d a b : Nat) (s : State) : Outcome State Fault Refusal := .next (intOp2 4 d a b remU s)
def execAnd (d a b : Nat) (s : State) : Outcome State Fault Refusal := .next (intOp2 4 d a b (· &&& ·) s)
def execOr (d a b : Nat) (s : State) : Outcome State Fault Refusal := .next (intOp2 4 d a b (· ||| ·) s)
def execXor (d a b : Nat) (s : State) : Outcome State Fault Refusal := .next (intOp2 4 d a b (· ^^^ ·) s)
def execAndn (d a b : Nat) (s : State) : Outcome State Fault Refusal :=
  .next (intOp2 4 d a b (fun x y => x &&& ~~~y) s)
def execSll (d a b : Nat) (s : State) : Outcome State Fault Refusal := .next (intOp2 4 d a b shl s)
def execSrl (d a b : Nat) (s : State) : Outcome State Fault Refusal := .next (intOp2 4 d a b shr s)
def execSra (d a b : Nat) (s : State) : Outcome State Fault Refusal := .next (intOp2 4 d a b sar s)
def execRol (d a b : Nat) (s : State) : Outcome State Fault Refusal := .next (intOp2 4 d a b rotL s)
def execRor (d a b : Nat) (s : State) : Outcome State Fault Refusal := .next (intOp2 4 d a b rotR s)
def execSlt (d a b : Nat) (s : State) : Outcome State Fault Refusal :=
  .next (intOp2 4 d a b (fun x y => boolWord (condLt x y)) s)
def execSltu (d a b : Nat) (s : State) : Outcome State Fault Refusal :=
  .next (intOp2 4 d a b (fun x y => boolWord (condLtu x y)) s)
def execMin (d a b : Nat) (s : State) : Outcome State Fault Refusal := .next (intOp2 4 d a b minS s)
def execMax (d a b : Nat) (s : State) : Outcome State Fault Refusal := .next (intOp2 4 d a b maxS s)
def execMinu (d a b : Nat) (s : State) : Outcome State Fault Refusal := .next (intOp2 4 d a b minU s)
def execMaxu (d a b : Nat) (s : State) : Outcome State Fault Refusal := .next (intOp2 4 d a b maxU s)
def execClz (d a : Nat) (s : State) : Outcome State Fault Refusal := .next (intOp1 4 d a clz s)
def execCtz (d a : Nat) (s : State) : Outcome State Fault Refusal := .next (intOp1 4 d a ctz s)
def execPopc (d a : Nat) (s : State) : Outcome State Fault Refusal := .next (intOp1 4 d a popc s)

/-- SEL reads a, b, g in that order; the result is untagged, all of bits [63:0] of the chosen source (R240). -/
def execSel (d a b g : Nat) (s : State) : Outcome State Fault Refusal :=
  match issue [a, b, g] [d] s with
  | .stop t => .next t
  | .go vs t =>
    let x := (vs.getD 0 .zero).word
    let y := (vs.getD 1 .zero).word
    .next (complete 4 (writeField d (.ofWord (if (vs.getD 2 .zero).word ≠ 0 then x else y)) t))

/-! ALU-I, ALU-I2, LIH (R241, R242). -/

def execAddi (d a : Nat) (imm : Int) (s : State) : Outcome State Fault Refusal :=
  .next (intOp1 4 d a (· + immWord imm) s)
def execSlli (d a amt : Nat) (s : State) : Outcome State Fault Refusal := .next (intOp1 4 d a (· <<< amt) s)
def execSrli (d a amt : Nat) (s : State) : Outcome State Fault Refusal := .next (intOp1 4 d a (· >>> amt) s)
def execSrai (d a amt : Nat) (s : State) : Outcome State Fault Refusal :=
  .next (intOp1 4 d a (fun x => x.sshiftRight amt) s)
def execAndi (d a : Nat) (imm : Int) (s : State) : Outcome State Fault Refusal :=
  .next (intOp1 4 d a (· &&& immWord imm) s)
def execOri (d a : Nat) (imm : Int) (s : State) : Outcome State Fault Refusal :=
  .next (intOp1 4 d a (· ||| immWord imm) s)
def execXori (d a : Nat) (imm : Int) (s : State) : Outcome State Fault Refusal :=
  .next (intOp1 4 d a (· ^^^ immWord imm) s)
def execSlti (d a : Nat) (imm : Int) (s : State) : Outcome State Fault Refusal :=
  .next (intOp1 4 d a (fun x => boolWord (condLt x (immWord imm))) s)
def execSltui (d a : Nat) (imm : Int) (s : State) : Outcome State Fault Refusal :=
  .next (intOp1 4 d a (fun x => boolWord (condLtu x (immWord imm))) s)

/-- LIH: SignExtend(imm20) × 4,096 (R242). -/
def execLih (d imm : Nat) (s : State) : Outcome State Fault Refusal :=
  match issue [] [d] s with
  | .stop t => .next t
  | .go _ t => .next (complete 4 (writeField d (.ofWord (wrap (sext 20 imm * 4096))) t))

/-! Compact forms: the same effect, two bytes long (R231). -/

def execCNop (s : State) : Outcome State Fault Refusal := .next (complete 2 s)
def execCAdd (d a : Nat) (s : State) : Outcome State Fault Refusal := .next (intOp2 2 d d a (· + ·) s)
def execCSub (d a : Nat) (s : State) : Outcome State Fault Refusal := .next (intOp2 2 d d a (· - ·) s)
def execCAnd (d a : Nat) (s : State) : Outcome State Fault Refusal := .next (intOp2 2 d d a (· &&& ·) s)
def execCOr (d a : Nat) (s : State) : Outcome State Fault Refusal := .next (intOp2 2 d d a (· ||| ·) s)
def execCXor (d a : Nat) (s : State) : Outcome State Fault Refusal := .next (intOp2 2 d d a (· ^^^ ·) s)
def execCAddi (d : Nat) (imm : Int) (s : State) : Outcome State Fault Refusal :=
  .next (intOp1 2 d d (· + immWord imm) s)
def execCLi (d : Nat) (imm : Int) (s : State) : Outcome State Fault Refusal :=
  .next (intOp1 2 d 29 (· + immWord imm) s)
def execCSlli (d amt : Nat) (s : State) : Outcome State Fault Refusal := .next (intOp1 2 d d (· <<< amt) s)
def execCSrli (d amt : Nat) (s : State) : Outcome State Fault Refusal := .next (intOp1 2 d d (· >>> amt) s)

end Sys2Proof.Machine
end

