-- ==== Sys2Proof/Machine/System.lean ====
section
/-! DEFINITION. System instructions (R323, R324): TRAP, SYSCALL, NOP, BREAK, ERET, and the exceptions of fetch and decode. -/

namespace Sys2Proof.Machine

open Host (Outcome)

/-- TRAP (R323): a service trap that resumes at the next instruction, whose address TPC takes. -/
def execTrap (i : Nat) (s : State) : Outcome State Fault Refusal :=
  .next (serviceTrap s.curCore s.curSlot 0x11 i (s.me.pc + 4) false false 0 (setTpc (s.me.pc + 4) s))

/-- SYSCALL (R323): a word that it reads for its token stays popped. -/
def execSyscall (i a : Nat) (s : State) : Outcome State Fault Refusal :=
  match issue [a] [] s with
  | .stop t => .next t
  | .go vs t =>
    let token := (vs.getD 0 .zero).nat % 2 ^ 16
    let u := setTpc (t.me.pc + 4) (t.modMe fun y => { y with kept := none })
    .next (serviceTrap u.curCore u.curSlot 0x10 (token * 2 ^ 16 + i) (u.me.pc + 4) false false 0 u)

def execNop (s : State) : Outcome State Fault Refusal := .next (complete 4 s)

/-- BREAK (R324): cause 0x12, or HALT on a core under a debugger that catches breakpoints. -/
def execBrk (s : State) : Outcome State Fault Refusal :=
  if (s.core s.curCore).debugger && Config.catchesBreaks s.curCore then
    .next (s.modMe fun y => { y.leaveWait s.clock with
      halted := true, stepping := false, wait := { (y.leaveWait s.clock).wait with gen := (y.wait.gen + 1) % 2 ^ 16 } })
  else .next (trapMe 0x12 0 s)

/-! ERET (R324, R373). -/

/-- A frame place is free again; the first held slot in line takes it (R371, R337). -/
def freeFrame (ks p : Nat) (s : State) : State :=
  let s := s.modCore ks fun x => { x with frames := SMap.del x.frames p }
  placeNext ks s

/-- ERET in service mode: the action of the frame's release word on the origin, then the frame place and the context are
free (R373); the keystone's any-slot node changes once (R352). -/
def eretService (p : Nat) (s : State) : State :=
  let ks := s.curCore
  let at_ (off : Nat) : Nat := leNat (physBytes s (localKey ks (placeOff p + off)) 8)
  let word := at_ 0x178
  let u := s.modMe fun y => y.free s.clock .none
  let t := match SMap.find (u.core ks).frames p with
    | none => u
    | some o =>
      if (u.slot o.core o.slot).svc.isNone then freeFrame ks p u
      else match bits word 1 2 with
        | 0 => freeFrame ks p (restoreHeld ks p o u)
        | 1 =>
          let t := freeFrame ks p (restoreHeld ks p o u)
          trapAt o.core o.slot (bits word 8 8) (at_ 0x188) (t.slot o.core o.slot).pc t
        | _ => killSlot o.core o.slot 0 (freeFrame ks p u)
  bumpOnce ks s (bumpCore ks t)

def execEret (s : State) : Outcome State Fault Refusal :=
  let y := s.me
  if y.mode = .user then .next (if y.inTrap then eretUser s else illegal s)
  else match y.origin with
    | some p => .next (eretService p s)
    | none => .next (illegal s)

/-! Exceptions of fetch and decode. -/

/-- ILLEGAL_INSTRUCTION: the fetched bits name no instruction (R232). -/
def execIllegalInstruction (enc : Nat) (s : State) : Outcome State Fault Refusal := .next (trapMe 0x01 enc s)

/-- The bytes that the fetch at the program counter of a slot asks for: four once its first halfword is that of a long instruction
(R211). -/
def fetchSize (c k : Nat) (s : State) : Nat :=
  let w := whoSlot s c k
  match (memCheck w (s.slot c k).pcc (s.slot c k).pc 2 4 2 4 s).bind fun va s => fetchHalf w va s with
  | .ok h _ => if h % 2 = 0 then 2 else 4
  | _ => 2

/-- INSTRUCTION_FETCH_FAULT (R99, R211): the exception of the fetch at the program counter, as the fetch meets it; a fetch
that meets none any more does nothing. -/
def execInstructionFetchFault (cause : Nat) (s : State) : Outcome State Fault Refusal :=
  let acc : Acc := ⟨s.me.pc, fetchSize s.curCore s.curSlot s, false, true⟩
  match fetchSlot s.curCore s.curSlot s with
  | .exc e _ => if e.cause = cause then .next (raise acc e s) else .next s
  | _ => .next s

end Sys2Proof.Machine
end

