-- ==== Sys2Proof/Machine/WaitGraph.lean ====
section
/-! DEFINITION. The wait-for graph (R349 to R367): what the walker reads, probes, their confirm pass, and the delivery of
deadlock and dead-party faults. -/

namespace Sys2Proof.Machine

open Host (Outcome)

/-! A wait whose condition already holds: its party is no longer in WAIT, although it has not yet issued again (R349). -/

/-- The queue or port that a slot waits for has what it needs (R105). -/
def queueMet (s : State) (c k n : Nat) : Bool :=
  let f := n % 64
  if f < 32 then decide (n / 64 ≤ available s c f) && !behind s c k f
  else decide (pushedTo s c (f - 32) + n / 64 ≤ depthOf (f - 32)) && !behind s c k f

/-- The channel that a party id of kind 3 names, while it is open (R310). -/
def chanOfParty (s : State) (p : Nat) : Option ChanInfo :=
  match pWhere p with
  | none => none
  | some c => match SMap.find (s.core c).chans (pIndex p) with
    | some i => if i.isOpen && !bit (chanWord s i 0) 63 then some i else none
    | none => none

/-- Entries in a channel's ring. -/
def chanEntries (s : State) (i : ChanInfo) : Nat :=
  let w := chanWord s i 1
  (bits w 32 32 + 2 ^ 32 - bits w 0 32) % 2 ^ 32

/-- The registered producers of a channel that have not ended (R354). -/
def liveProducers (s : State) (i : ChanInfo) : List Nat :=
  let w := chanWord s i 2
  ((List.range 8).filter fun p => bit w p && !bit w (8 + p)).map fun p => chanProducer s i p

/-- The wait of a CHPUT (reason 8) or CHGET (reason 7) is over (R312). -/
def chanMet (s : State) (reason p : Nat) : Bool :=
  match chanOfParty s p with
  | none => true
  | some i =>
    if reason = 8 then decide (chanEntries s i < bits (chanWord s i 0) 0 17)
    else decide (chanEntries s i ≠ 0) || (bits (chanWord s i 2) 0 8 != 0 && (liveProducers s i).isEmpty)

/-- A lock waiter has been granted (R270). -/
def lockGranted (s : State) (party : Nat) : Bool :=
  s.cores.any fun (p : Nat × Core) => p.2.locks.any fun (q : Nat × LockInfo) =>
    q.2.waiters.any fun w => w.party == party && w.granted

/-- The condition that a slot waits for holds. -/
def slotMet (s : State) (c k : Nat) : Bool :=
  let y := s.slot c k
  let arg := y.waitArg
  match y.wait.reason with
  | 0x01 | 0x02 | 0x03 | 0x04 => arg.any fun n => queueMet s c k n
  | 0x06 => match y.barGroup with
    | some (_, g, n) => (s.group g).past c n
    | none => false
  | 0x07 | 0x08 => y.chanWait.any fun p => chanMet s y.wait.reason p
  | 0x09 => lockGranted s (s.partyAt c k)
  | 0x0A => match arg with
    | none => decide ((s.mx c).queue.length < 2)
    | some n => if 2 ^ 32 ≤ n then seqLe (n - 2 ^ 32) (s.mx c).done else queueMet s c k n
  | 0x0B => match arg with
    | none => !(s.eng c).busy
    | some n => if n < 8 then decide (0 < SMap.get 0 (s.core c).sem n) else decide (SMap.get 0 (s.core c).sem (n - 8) < 65535)
  | 0x0D => match (s.core c).comp with
    | some g => (composeWaits s c k g.size).isEmpty
    | none => false
  | 0x10 => (awaitsGrant s c k).isNone
  | 0x11 => spawnStatus { s with curCore := c, curSlot := k } == 0
  | _ => false

/-- The condition that a copy engine waits for holds (R71, R72). -/
def engineMet (s : State) (c : Nat) : Bool :=
  let e := s.eng c
  match e.wait.reason with
  | 0x01 => !((s.core c).queue e.waitArg).isEmpty
  | 0x02 => decide ((s.core c).load e.waitArg < 8)
  | 0x0B => if e.waitArg < 24 then decide (0 < SMap.get 0 (s.core c).sem (e.waitArg - 16))
            else decide (SMap.get 0 (s.core c).sem (e.waitArg - 24) < 65535) && !engineWrites s c
  | _ => false

/-- What a sequencer that waits in a command would do now. -/
def seqRetry (c : Nat) (cmd : Cmd) (s : State) : Outcome State Fault Refusal :=
  match cmd.op with
  | 0x07 => execMxRot cmd s
  | 0x08 => execMxMmar cmd s
  | 0x09 => execMxRed cmd s
  | 0x0A => execMxScx cmd s
  | 0x0B => execMxStc cmd s
  | 0x0C => execMxSync cmd s
  | _ => .next (mxRun c s)

/-- The condition that a matrix sequencer waits for holds (R139, R145). -/
def seqMet (s : State) (c : Nat) : Bool :=
  let t := { s with curCore := c }
  if (s.mx c).token.isSome then decide ((s.core c).load 4 < 8)
  else match currentCommand c t with
    | none => false
    | some cmd => match seqRetry c cmd t with
      | .next u => (u.mx c).wait.mode == 0 || (u.mx c).wait.targets != (s.mx c).wait.targets
      | _ => false

/-! What the walker reads (R350, R353 to R356). A node is a party id, or a group reference: its party id plus 2^32. -/

/-- What one read of a node gives: 0 not stuck, 1 waiting, 2 DEAD, 3 STOPPED, 4 HALT; for a waiting node its mode, its
targets and the reason of its edges; `group` marks a group node. -/
structure Reading where
  st : Nat
  gen : Nat
  reason : Nat
  group : Bool
  mode : Nat
  targets : List Nat
  deriving DecidableEq, Repr, Inhabited

/-- A read that ends its branch as not stuck. -/
def Reading.not (gen : Nat) : Reading := ⟨0, gen, 0, false, 0, []⟩

/-- A group node's expansion (R354). -/
def Reading.expand (gen reason mode : Nat) (l : List Nat) : Reading :=
  ⟨if l.isEmpty then 0 else 1, gen, reason, true, mode, l⟩

/-- The reasons that the walker reads as live (R353). -/
def liveReason (r : Nat) : Bool := r == 0x05 || r == 0x0E || r == 0x12 || r == 0x13

/-- A record as a node (R351, R353): `halted` and `met` are its party's. -/
def readRecord (r : WaitRec) (halted met : Bool) : Reading :=
  if halted then ⟨4, r.gen, r.reason, false, r.mode, []⟩
  else if r.mode = 0 ∨ met ∨ liveReason r.reason then .not r.gen
  else ⟨1, r.gen, r.reason, false, r.mode,
    if r.count = 0 then (r.targets.take 1).map (· + 2 ^ 32) else r.targets.take r.count⟩

/-- A channel whose consumer cannot be named: another party has also taken from it (R310, R354). -/
def sharedChan (s : State) (p : Nat) : Bool := (chanOfParty s p).any fun i => i.shared

/-- A party without a context shows the end state of its last one (R350). -/
def readTomb (t : Tomb) (gen : Nat) : Reading :=
  match t with
  | .stopped => ⟨3, gen, 0, false, 0, []⟩
  | .dead => ⟨2, gen, 0, false, 0, []⟩
  | .none => .not gen

/-- The context of a slot, or the tombstone of a free one (R350). -/
def readSlot (s : State) (c k : Nat) : Reading :=
  let y := s.slot c k
  if y.holds = .thread ∨ y.holds = .activation then
    if y.wait.reason = 0x08 ∧ y.wait.count ≠ 0 ∧ y.halted = false ∧ (y.chanWait.any (sharedChan s)) then .not y.wait.gen
    else readRecord y.wait y.halted (decide (y.wait.mode ≠ 0) && slotMet s c k)
  else readTomb y.tomb y.wait.gen

/-- The slot in which a task's activation runs. -/
def taskSlot (s : State) (id : Nat) : Option (Nat × Nat) :=
  s.cores.findSome? fun (p : Nat × Core) =>
    (p.2.slots.find? fun q => q.2.holds == .activation && q.2.task == some id).map fun q => (p.1, q.1)

/-- A running task is its activation's slot (R354). -/
def canonical (s : State) (n : Nat) : Nat :=
  if n < 2 ^ 32 ∧ pKind n = 5 then
    match taskSlot s n with
    | some (c, k) => slotParty c k
    | none => n
  else n

/-- The slot of the composed core that a core leads (R320). -/
def composedSlot (s : State) (c : Nat) : Option (Nat × Nat) :=
  match (s.core c).comp with
  | some g => if g.running then some (g.lead, g.slot) else none
  | none => none

/-- Slots 0 to 6 of a core, contexts 0 to 3 of a keystone, that hold a context (R354). -/
def heldContexts (s : State) (c : Nat) : List Nat :=
  (List.range (min 7 (numSlots c))).filter fun k => (s.slot c k).holds == .thread || (s.slot c k).holds == .activation

/-- The any-slot party of a core (R354). -/
def readAny (s : State) (c reason : Nat) : Reading :=
  let x := s.core c
  let pending := !x.arrivals.isEmpty || x.resv.any fun r => r.cls != .owner
  if reason ≠ 0x10 ∧ pending then .not x.gen
  else match x.comp with
    | some g => if g.running then .expand x.gen reason 3 [composedParty g.lead g.size]
                else .expand x.gen reason 3 ((heldContexts s c).map (slotParty c))
    | none => .expand x.gen reason 3 ((heldContexts s c).map (slotParty c))

/-- A group reference (R354). -/
def readGroup (s : State) (p reason : Nat) : Reading :=
  match pKind p with
  | 3 => match chanOfParty s p with
    | none => .not 0
    | some i =>
      if reason = 7 then .expand i.gen 7 3 (liveProducers s i)
      else if reason = 8 ∧ i.consumer ∧ i.shared = false then .expand i.gen 8 1 [bits (chanWord s i 7) 0 32]
      else .not i.gen
  | 4 =>
    let g := s.group (pIndex p)
    if reason ≠ 6 ∨ g.valid = false ∨ g.byteMode then .not g.gen
    else .expand g.gen 6 2 ((g.members.filter fun m => decide (SMap.get 0 g.arrived m.1 < m.2)).map fun m => anyParty m.1)
  | 5 => match SMap.find s.tasks (taskIndex p) with
    | some x => .expand x.wait.gen 0x0C 2 (stillWaits s x)
    | none => .not 0
  | 6 => match pWhere p with
    | none => .not 0
    | some c =>
      let n := pIndex p
      let gen := (s.core c).cgen
      match (s.core c).comp with
      | some g => if g.running then .not gen
                  else .expand gen 0x0D 2 (((composeWaits s c g.slot n).filter fun q =>
                    (s.slot q.1 q.2).holds != .reserved).map fun q => slotParty q.1 q.2)
      | none => .not gen
  | _ => .not 0

/-- A party id as R9's table gives it, of a kind that has a state of its own; any other names nobody known (R355). -/
def known (n : Nat) : Bool :=
  match pKind n, pWhere n with
  | 0, some c => n == slotParty c (pIndex n) && (pIndex n == 0x7FFF || decide (pIndex n < numSlots c))
  | 1, some c => n == engineParty c && !isKeystone c
  | 2, some c => n == seqParty c && !isKeystone c
  | 5, _ => decide (pIndex n < 256) && n == taskParty (pDie n * 48 + pTile n) (pIndex n) && decide (pTile n < 48)
  | 6, some c => n == composedParty c (pIndex n) && !isKeystone c && (pIndex n == 2 || pIndex n == 4 || pIndex n == 8)
  | 7, _ => decide (pIndex n < 4096) && decide (pCore n < 32) && n == hostParty (pCore n) (pIndex n)
  | _, _ => false

/-- One read of a node, reached by an edge of the given reason (R350, R353 to R356). -/
def readNode (s : State) (n reason : Nat) : Reading :=
  if 2 ^ 32 ≤ n then readGroup s (n - 2 ^ 32) reason
  else if !known n then .not 0
  else match pKind n with
    | 0 => match pWhere n with
      | none => .not 0
      | some c =>
        if pIndex n = 0x7FFF then readAny s c reason
        else if pIndex n = 7 then .not 0
        else if (s.slot c (pIndex n)).composed then .not (s.slot c (pIndex n)).wait.gen
        else readSlot s c (pIndex n)
    | 1 => match pWhere n with
      | none => .not 0
      | some c =>
        let e := s.eng c
        if e.dead then ⟨2, e.wait.gen, 0, false, 0, []⟩
        else readRecord e.wait (e.halted && e.copy.isNone) (decide (e.wait.mode ≠ 0) && engineMet s c)
    | 2 => match pWhere n with
      | none => .not 0
      | some c => readRecord (s.mx c).wait ((s.mx c).halted && (s.mx c).cur.isNone) (decide ((s.mx c).wait.mode ≠ 0) && seqMet s c)
    | 5 => match SMap.find s.tasks (taskIndex n) with
      | some x => match x.st with
        | .pending => readRecord x.wait false (stillWaits s x).isEmpty
        | .stopped => ⟨3, x.wait.gen, 0, false, 0, []⟩
        | .dead => ⟨2, x.wait.gen, 0, false, 0, []⟩
        | _ => .not x.wait.gen
      | none => .not 0
    | 6 => match pWhere n with
      | none => .not 0
      | some c =>
        let t := SMap.get (.none, 0) (s.core c).ctombs (pIndex n)
        let ended := readTomb t.1 t.2
        match composedSlot s c with
        | some q => if q.1 = c ∧ s.partyAt c q.2 = n then readSlot s c q.2 else ended
        | none => ended
    | 7 => if (s.link (pCore n)).deadReq.contains (pIndex n) then ⟨2, 0, 0, false, 0, []⟩ else .not 0
    | _ => .not 0

/-! The probe (R360). -/

/-- What exploration has read: visits, nodes in first-visit order with the reason of the edge, generation and state read, and their
chain entry (R363), the nodes one of whose targets lay on the path. -/
structure Explored where
  visits : Nat
  seen : List (Nat × (Nat × Nat × Nat) × Nat)
  closes : List Nat
  deriving DecidableEq, Repr, Inhabited

/-- A chain entry without its closes bit (R363). -/
def chainEntry (n : Nat) (r : Reading) : Nat :=
  let kind := if r.group then 1 else if r.st = 2 then 2 else if r.st = 3 then 3 else 0
  n % 2 ^ 32 * 2 ^ 32 + r.gen * 2 ^ 16 + (if kind < 2 then r.reason * 256 + r.mode * 16 else 0) + kind * 64

/-- The results of a node's targets so far: stop, over budget, a cycle, the chain. -/
structure Targets where
  stop : Bool
  spent : Bool
  cycle : Bool
  chain : List Nat
  deriving DecidableEq, Repr, Inhabited

/-- Explore(p) of R360: 0 NOT, 1 CYCLE, 2 DEADEND, 3 OVER, with the nodes that support a stuck result. With `dead`, HALT
nodes count as DEAD (R366). The fuel is above the budget of 64 visits, so it is never used up. -/
def explore (s : State) (dead : Bool) : Nat → List Nat → Nat → Nat → Explored → Nat × List Nat × Explored
  | 0, _, _, _, x => (3, [], x)
  | fuel + 1, path, p, reason, x =>
    if 64 ≤ x.visits then (3, [], x)
    else
      let n := canonical s p
      let r := readNode s n reason
      let x := { x with
        visits := x.visits + 1
        seen := if x.seen.any (fun e => e.1 == n) then x.seen else x.seen ++ [(n, (reason, r.gen, r.st), chainEntry n r)] }
      if path.contains n then (1, [n], x)
      else if r.st = 2 ∨ r.st = 3 ∨ (dead ∧ r.st = 4) then (2, [n], x)
      else if r.st ≠ 1 ∨ r.targets.isEmpty then (0, [], x)
      else
        let one (a : Targets × Explored) (t : Nat) : Targets × Explored :=
          let (f, x) := a
          if f.stop then a
          else
            let (res, l, x) := explore s dead fuel (n :: path) t r.reason x
            let x := if res == 1 && (path.contains (canonical s t) || canonical s t == n) then { x with closes := n :: x.closes } else x
            if r.mode = 3 then
              (if res = 0 then { f with stop := true }
                else { f with spent := f.spent || res == 3, cycle := f.cycle || res == 1, chain := f.chain ++ l }, x)
            else if res = 1 ∨ res = 2 then ({ f with stop := true, cycle := res == 1, chain := l }, x)
            else ({ f with spent := f.spent || res == 3 }, x)
        let (f, x) := r.targets.foldl one (⟨false, false, false, []⟩, x)
        if r.mode = 3 then
          if f.stop then (0, [], x) else if f.spent then (3, [], x) else (if f.cycle then 1 else 2, n :: f.chain, x)
        else if f.stop then (if f.cycle then 1 else 2, n :: f.chain, x) else (if f.spent then 3 else 0, [], x)

def exploreFrom (s : State) (dead : Bool) (origin : Nat) : Nat × List Nat × Explored :=
  explore s dead 66 [] origin 0 ⟨0, [], []⟩

/-- The entries of a chain in first-visit order (R360, R363). -/
def chainOf (l : List Nat) (x : Explored) : List Nat :=
  (x.seen.filter fun e => l.contains e.1).map fun e => e.2.2 + (x.closes.contains e.1).toNat * 8

/-! Origins (R357, R358). -/

/-- The slot of an origin: a thread slot, or the lead's slot of a composed core. -/
def originSlot (s : State) (p : Nat) : Option (Nat × Nat) :=
  match pKind p, pWhere p with
  | 0, some c => if pIndex p < 7 ∧ pIndex p < numSlots c ∧ s.partyAt c (pIndex p) = p then some (c, pIndex p) else none
  | 6, some c => match composedSlot s c with
    | some q => if s.partyAt q.1 q.2 = p then some q else none
    | none => none
  | _, _ => none

/-- The pending task of an origin. -/
def originTask (s : State) (p : Nat) : Option Task :=
  if pKind p = 5 ∧ p = taskParty (taskIndex p / 256) (taskIndex p % 256) then
    match SMap.find s.tasks (taskIndex p) with
    | some x => if x.st = .pending then some x else none
    | none => none
  else none

/-- An origin's core, tenant, the time its idle count began. -/
def originOf (s : State) (p : Nat) : Option (Nat × Nat × Nat) :=
  match originSlot s p, originTask s p with
  | some (c, k), _ => some (c, (s.slot c k).tenant, (s.slot c k).waitSince)
  | none, some x => some (x.home, x.tenant, x.waitSince)
  | none, none => none

/-- The origin's idle count starts again. -/
def restartCount (p : Nat) (s : State) : State :=
  match originSlot s p with
  | some (c, k) => s.modSlot c k fun y => { y with waitSince := s.clock }
  | none => { s with tasks := s.tasks.map fun (q : Nat × Task) =>
      (q.1, if q.1 = taskIndex p then { q.2 with waitSince := s.clock } else q.2) }

/-- The walker of a die runs at most 16 probes (R359); those that only wait for their records are over. -/
def running (s : State) (die : Nat) : Nat := (s.probes.filter fun x => pDie x.origin == die && decide (x.stage < 2)).length

/-- A party is in WAIT as the walker reads it, live reasons included. -/
def inWait (s : State) (p : Nat) : Bool :=
  match originSlot s p, originTask s p with
  | some (c, k), _ =>
    let y := s.slot c k
    (y.holds == .thread || y.holds == .activation) && y.wait.mode != 0 && !y.halted && !slotMet s c k
  | none, some x => !(stillWaits s x).isEmpty
  | none, none => false

/-- A node bears an accused mark at its generation (R361). -/
def isAccused (s : State) (n gen : Nat) : Bool :=
  match SMap.find s.accused n with
  | some m => m.1 == gen
  | none => false

/-- PROBE_REQUEST: a party whose idle count has reached its threshold requests a probe (R357, R358). -/
def execProbeRequest (p : Nat) (s : State) : Outcome State Fault Refusal :=
  match originOf s p with
  | none => .next s
  | some (c, tenant, since) =>
    let x := s.core c
    if !inWait s p || decide (s.clock < since + 2 ^ x.wdExp) then .next s
    else
      let t := restartCount p s
      if isAccused s p (readNode s p 0).gen || s.stops.any (fun q => q.tenant == tenant) || x.wdOff then .next t
      else .next { t with probeReq := t.probeReq ++ [p] }

/-- The three parts of a chain record (R363): `word0` is the origin's as read. -/
def chainParts (origin cause visits result word0 clock : Nat) (l : List Nat) : List (List Nat) :=
  let e (i n : Nat) : List Nat := (List.range n).map fun j => l.getD (i + j) 0
  [[origin * 2 ^ 32 + cause * 256 + 8,
      visits * 2 ^ 16 + (decide (result = 1)).toNat * 2 ^ 9 + (decide (16 < l.length)).toNat * 2 ^ 8 + min 16 l.length,
      word0] ++ e 0 4 ++ [clock],
    [1 * 256 + 0x0A] ++ e 4 6 ++ [clock], [2 * 256 + 0x0A] ++ e 10 6 ++ [clock]]

/-- Word 0 of an origin's record. -/
def originWord (s : State) (p : Nat) : Nat :=
  match originSlot s p, originTask s p with
  | some (c, k), _ => (s.slot c k).wait.word0
  | none, some x => x.wait.word0
  | none, none => 0

/-- A probe that ends over its budget; the 16th in a row posts a suspicion record (R364). -/
def overBudget (p : Nat) (x : Explored) (s : State) : State :=
  let count := match originSlot s p, originTask s p with
    | some (c, k), _ => (s.slot c k).overCount + 1
    | none, some y => y.overCount + 1
    | none, none => 0
  let set (n : Nat) (s : State) : State := match originSlot s p with
    | some (c, k) => s.modSlot c k fun y => { y with overCount := n }
    | none => { s with tasks := s.tasks.map fun (q : Nat × Task) =>
        (q.1, if q.1 = taskIndex p then { q.2 with overCount := n } else q.2) }
  if count < 16 then set count s
  else match originOf s p with
    | some (_, tenant, _) =>
      queueRecord (rec1 tenant p 9 (16 :: originWord s p :: (List.range 4).map fun i =>
        ((x.seen[i]?).map fun e => e.2.2).getD 0) s.clock) (set 0 s)
    | none => s

/-- The count of probes over budget in a row starts again. -/
def settleCount (p : Nat) (s : State) : State :=
  match originSlot s p with
  | some (c, k) => s.modSlot c k fun y => { y with overCount := 0 }
  | none => { s with tasks := s.tasks.map fun (q : Nat × Task) =>
      (q.1, if q.1 = taskIndex p then { q.2 with overCount := 0 } else q.2) }

/-- A chain through HALT nodes goes to the die's debug report queue (R366, R394). -/
def debugReport (p visits result : Nat) (l : List Nat) (s : State) : State :=
  let die := pDie p
  let q := SMap.get [] s.debugReports die
  let r := (chainParts p 0 visits result (originWord s p) s.clock l).flatten
  if 8 ≤ q.length then { s with debugOver := SMap.put s.debugOver die true }
  else { s with debugReports := SMap.put s.debugReports die (q ++ [r]) }

/-- The accused marks of nodes whose generation is still the accused one (R361). -/
def liveMarks (s : State) : SMap (Nat × Nat) := s.accused.filter fun m => (readNode s m.1 0).gen == m.2.1

/-- PROBE: the walker of the die takes its oldest request and explores the graph from it (R359, R360, R364, R366). A probe that ends
in a debug report does not count as one over budget (DESIGN CHOICE, log 125). -/
def execProbe (p : Nat) (s : State) : Outcome State Fault Refusal :=
  if (s.probeReq.find? fun q => pDie q == pDie p) ≠ some p ∨ 16 ≤ running s (pDie p) then .next s
  else
    let t := { s with probeReq := s.probeReq.erase p }
    match originOf t p with
    | none => .next t
    | some (_, tenant, _) =>
      let (res, l, x) := exploreFrom t false p
      if res = 1 ∨ res = 2 then
        let nodes := x.seen.map fun e => (e.1, e.2.1)
        let y : Probe := ⟨p, tenant, t.clock, nodes, x.visits, res, originWord t p, chainOf l x, 0, t.tick⟩
        .next { settleCount p t with probes := t.probes ++ [y] }
      else
        let (res', l', x') := exploreFrom t true p
        .next (if res' = 1 ∨ res' = 2 then debugReport p x'.visits res' (chainOf l' x') (settleCount p t)
          else if res = 3 then overBudget p x t else settleCount p t)

/-! Confirm and delivery (R361, R362). -/

/-- A probe ends without a fault; the marks it has set are cleared (R359, R361). -/
def abandonProbe (x : Probe) (s : State) : State :=
  { s with
    probes := s.probes.erase x
    accused := if x.stage = 1 then s.accused.filter fun m => m.2.2 != x.mark else s.accused }

/-- The confirm pass over every recorded node but the origin, in ascending order (R361); `none` where it is abandoned. -/
def confirmNodes (s : State) (x : Probe) : Option (SMap (Nat × Nat)) :=
  let l := ((x.nodes.filter fun n => n.1 != x.origin).mergeSort fun a b => decide (a.1 % 2 ^ 32 ≤ b.1 % 2 ^ 32))
  l.foldl (fun m n => match m with
    | none => none
    | some a =>
      let r := readNode s n.1 n.2.1
      if r.gen = n.2.2.1 ∧ r.st = n.2.2.2 ∧ isAccused s n.1 r.gen = false then some (SMap.put a n.1 (r.gen, x.mark))
      else none)
    (some s.accused)

/-- CONFIRM: the confirm pass of the probe from this origin (R359, R361). -/
def execConfirm (p : Nat) (s : State) : Outcome State Fault Refusal :=
  match s.probes.find? fun x => x.origin == p && x.stage == 0 with
  | none => .next s
  | some x =>
    if x.start + 32768 < s.clock then .next (abandonProbe x s)
    else match confirmNodes s x with
      | some m => .next { s with
          accused := m
          probes := s.probes.map fun y => if y = x then { y with stage := 1 } else y }
      | none => .next (abandonProbe x s)

/-- PROBE_ABANDON: a probe whose exploration and confirm pass take more than 32,768 cycles (R359). -/
def execProbeAbandon (p : Nat) (s : State) : Outcome State Fault Refusal :=
  match s.probes.find? fun x => x.origin == p && decide (x.stage < 2) && decide (x.start + 32768 < s.clock) with
  | some x => .next (abandonProbe x s)
  | none => .next s

/-- The cause of a wait-graph fault: a deadlock, or an end at dead parties (R360). -/
def Probe.cause (x : Probe) : Nat := if x.result = 1 then 0x0A else 0x0B

def Probe.record (x : Probe) (clock : Nat) : Rec :=
  ⟨x.tenant, x.origin, chainParts x.origin x.cause x.visits x.result x.word0 clock x.chain⟩

/-- Delivery is committed (R362): the origin's wait is over; a task is DEAD. -/
def commitFault (x : Probe) (gen : Nat) (s : State) : State :=
  let s := { s with accused := SMap.put s.accused x.origin (gen, x.mark) }
  match originSlot s x.origin with
  | some (c, k) =>
    let s := leaveBlocked c k (leaveLock c k (leaveCompose c k s))
    let s := s.modSlot c k fun y => { y.endWait s.clock with graphFault := some ⟨x.cause, 0⟩ }
    { s with probes := s.probes.map fun y => if y = x then { y with stage := 2 } else y }
  | none =>
    let s := queueRecord (x.record s.clock) { s with probes := s.probes.erase x }
    endTask x.origin x.cause false s

/-- The records are performed, and the origin takes its trap (R362). -/
def postFault (x : Probe) (s : State) : State :=
  match (if s.records.any fun q => q.tenant == x.tenant then none else postNow (x.record s.clock) s) with
  | none => s
  | some (q, t) =>
    let t := { t with probes := t.probes.erase x }
    match originSlot t x.origin with
    | some (c, k) => if (t.slot c k).graphFault.isNone then t else
        trapAt c k x.cause (x.origin * 2 ^ 32 + q * 2 ^ 16 + x.cause * 256 + 8) (t.slot c k).pc
          (t.modSlot c k fun y => { y with graphFault := none })
    | none => t

/-- FAULT_DELIVERY: the origin is read again last, and its fault is delivered if it is unchanged and bears no other probe's
mark, so that of two probes over one chain exactly one completes (R361, R362). -/
def execFaultDelivery (p : Nat) (s : State) : Outcome State Fault Refusal :=
  match s.probes.find? fun x => x.origin == p && decide (1 ≤ x.stage) with
  | none => .next s
  | some x =>
    if x.stage = 2 then .next (postFault x s)
    else if x.start + 32768 < s.clock then .next (abandonProbe x s)
    else
      let r := readNode s p 0
      if r.st = 1 ∧ x.nodes.any (fun n => n.1 == p && n.2.2.1 == r.gen) ∧ isAccused s p r.gen = false then
        let t := commitFault x r.gen s
        .next (if (originSlot s p).isSome then postFault { x with stage := 2 } t else t)
      else .next (abandonProbe x s)

end Sys2Proof.Machine
end

