-- ==== Sys2Proof/Machine/Service.lean ====
section
/-! DEFINITION. Service instructions (R44 to R47, R325, R388 to R390): PINVAL, PLBINV, TSTOP, TRESUME, MXTEST, PKILL. All of
them are illegal in user mode (R10). -/

namespace Sys2Proof.Machine

open Host (Outcome)

/-! PINVAL (R45, R46). -/

/-- Operands that make PINVAL an illegal instruction (R45). -/
def pinvalIllegal (st len : Nat) : Bool :=
  st % 65536 != 0 || len == 0 || len % 65536 != 0 || decide (2 ^ 42 < len) || decide (2 ^ 52 < st + len)
    || decide (0xFF * 2 ^ 44 < st + len)

/-- The leaf entry of `va` in the tables now, with its level; its placement set may be malformed. -/
def leafNow (s : State) (va : Nat) : Option (Nat × Nat) :=
  let e0 := tableRead s (s.ptroot * 65536 + va / 2 ^ 42 % 1024 * 8) 8
  if !ptePointer s e0 then none
  else
    let e1 := tableRead s (pteFrame e0 + va / 2 ^ 29 % 8192 * 8) 8
    if bit e1 0 && bit e1 1 then some (e1, 1)
    else if !ptePointer s e1 then none
    else
      let e2 := tableRead s (pteFrame e1 + va / 2 ^ 16 % 8192 * 8) 8
      if bit e2 0 then some (e2, 2) else none

/-- The page of `va` is a 512 MiB page, as the tables or a walk cache have it. -/
def bigPage (s : State) (va : Nat) : Bool :=
  ((leafNow s va).any fun p => p.2 == 1)
  || s.walkCache.any fun p => (SMap.find p.2 (walkKey 1 va)).any fun e => bit e 1

/-- The range with every 512 MiB page that it covers in part (R45). -/
def widen (s : State) (st len : Nat) : Nat × Nat :=
  (if bigPage s st then st / 2 ^ 29 * 2 ^ 29 else st,
    if bigPage s (st + len - 1) then ((st + len - 1) / 2 ^ 29 + 1) * 2 ^ 29 else st + len)

/-- Bytes that an entry of a level of the walk maps. -/
def levelSize (level : Nat) : Nat :=
  match level with
  | 0 => 2 ^ 42
  | 1 => 2 ^ 29
  | _ => 2 ^ 16

/-- The `i`-th unit of `size` bytes meets a range. -/
def meets (size i lo hi : Nat) : Bool := decide (i * size < hi) && decide (lo < (i + 1) * size)

/-- Purge walk caches, placement caches and PLB entries of a range, on every core and die (R45); a scout's translations are in them. -/
def purge (lo hi : Nat) (s : State) : State :=
  { s with
    walkCache := s.walkCache.map fun (p : Nat × List (Nat × Nat)) =>
      (p.1, p.2.filter fun e => !meets (levelSize (e.1 / 2 ^ 40)) (e.1 % 2 ^ 40) lo hi)
    cores := s.cores.map fun (p : Nat × Core) => (p.1, { p.2 with
      pcache := p.2.pcache.filter fun e => !meets 65536 e.1 lo hi
      plb := p.2.plb.filter fun e => !meets (2 ^ 29) e.2.1 lo hi }) }

/-- Drop every sector of a line without writing it back. -/
def dropLine (home va : Nat) (s : State) : State :=
  ((s.line home va).valid).foldl (fun s sec => dropSector home (va / 1024 * 1024 + 256 * sec) s) s

/-- The page's current entry has its discard mark (R26). -/
def discarded (s : State) (va : Nat) : Bool := (leafNow s va).any fun p => pteDiscard p.1

/-- The cut of every home (R45): sectors of a discarded page are dropped, the others written back and dropped. -/
def cut (lo hi : Nat) (s : State) : State :=
  (s.lines.map fun p => p.1).foldl (fun s key =>
    let va := key % 2 ^ 42 * 1024
    if lo ≤ va ∧ va < hi then
      if discarded s va then dropLine (key / 2 ^ 42) va s else evictLine (key / 2 ^ 42) va s
    else s) s

/-- A slot has an operation in an owner queue, or a store in its commit buffer, to a range: checked, and not yet performed. -/
def checkedBy (s : State) (c k lo hi : Nat) : Bool :=
  let hit (va : Nat) : Bool := decide (lo ≤ va) && decide (va < hi)
  (s.flights.any fun f => f.op == 3 && f.core == c && f.slot == k && hit f.va) || (s.slot c k).commit.any fun b => hit b.va

/-- The slots with such accesses of a domain, or of any, and the model's names of their contexts. -/
def checkedSlots (s : State) (dom : Option Nat) (lo hi : Nat) : List (Nat × Nat × Nat) :=
  s.cores.flatMap fun (p : Nat × Core) => p.2.slots.filterMap fun (q : Nat × Slot) =>
    if (dom.all fun d => q.2.domain == d) && checkedBy s p.1 q.1 lo hi then some (p.1, q.1, q.2.uid) else none

/-- Accesses of the range that were on a link, in an owner queue or in a commit buffer when the purge began are still there. -/
def Inval.waits (v : Inval) (s : State) : Bool :=
  (v.pend.any fun q => (s.slot q.1 q.2.1).uid == q.2.2 && checkedBy s q.1 q.2.1 v.lo v.hi) ||
  s.links.any fun p => p.2.requests.any fun r => decide (v.lo ≤ r.va) && decide (r.va < v.hi) && decide (r.since ≤ v.since)

/-- The purge of a slot that is waiting, if there is one. -/
def invalOf (s : State) (c k : Nat) : Option Inval := s.invals.find? fun v => v.core == c && v.slot == k

/-- Slot `k` of core `c` completes its PINVAL or PLBINV. -/
def invalDone (c k : Nat) (s : State) : State :=
  { s with invals := s.invals.filter fun v => !(v.core == c && v.slot == k) }.modSlot c k fun y => y.complete s.clock 4

/-- The purge `v` of the current slot has been made in state `t`: it completes, or waits in RUN for accesses on links. -/
def afterPurge (v : Inval) (s t : State) (reads : List Nat) : State :=
  if v.waits t then stallOp reads [] s { t with invals := t.invals ++ [v] } else complete 4 t

def execPinval (a b : Nat) (s : State) : Outcome State Fault Refusal :=
  if !svcMode s then .next (illegal s)
  else match invalOf s s.curCore s.curSlot with
    | some v => .next (if v.waits s then s else invalDone s.curCore s.curSlot s)
    | none => match issue [a, b] [] s with
      | .stop t => .next t
      | .go vs t =>
        let st := (vs.getD 0 .zero).cursor
        let len := (vs.getD 1 .zero).word.toNat
        if pinvalIllegal st len then .next (illegal s)
        else
          let t := drainMe t
          if hostWritesOf t (t.agentAt t.curCore t.curSlot) then .next (stallOp [a, b] [] s t)
          else
            let (lo, hi) := widen t st len
            let t := settle (fun f => decide (lo ≤ f.va) && decide (f.va < hi)) t
            let t := cut lo hi (purge lo hi t)
            .next (afterPurge ⟨t.curCore, t.curSlot, lo, hi, t.clock, true, []⟩ s t [a, b])

def execPinvalComplete (c k : Nat) (s : State) : Outcome State Fault Refusal :=
  match invalOf s c k with
  | some v => .next (if v.waits s then s else invalDone c k s)
  | none => .next s

/-- PLBINV (R47): `dom` and `region` are `none` for every domain and every region. -/
def purgeRights (dom region : Option Nat) (s : State) : State :=
  let hit (e : Nat × Nat × Nat) : Bool := (dom.all fun d => e.1 == d) && region.all fun r => e.2.1 == r
  { s with cores := s.cores.map fun (p : Nat × Core) => (p.1, { p.2 with plb := p.2.plb.filter fun e => !hit e }) }

def execPlbinv (a b : Nat) (s : State) : Outcome State Fault Refusal :=
  if !svcMode s then .next (illegal s)
  else match invalOf s s.curCore s.curSlot with
    | some v => .next (if v.waits s then s else invalDone s.curCore s.curSlot s)
    | none => match issue [a, b] [] s with
      | .stop t => .next t
      | .go vs t =>
        let x := (vs.getD 0 .zero).word.toNat
        let region := if b = 29 then none else some (bits (vs.getD 1 .zero).word.toNat 29 23)
        let (lo, hi) := match region with
          | some r => (r * 2 ^ 29, (r + 1) * 2 ^ 29)
          | none => (0, 2 ^ 52)
        let t := settle (fun f => decide (lo ≤ f.va) && decide (f.va < hi)) t
        let dom := if bit x 8 then none else some (bits x 0 8)
        let t := purgeRights dom region t
        .next (afterPurge ⟨t.curCore, t.curSlot, lo, hi, t.clock, false, checkedSlots t dom lo hi⟩ s t [a, b])

/-! TSTOP and TRESUME (R325, R388 to R391). -/

/-- The core belongs to the tenant, or a user-mode context, a copy engine's stream or a matrix command of the tenant is on it. -/
def ownedBy (x : Core) (t : Nat) : Bool :=
  (x.vtabEnable && x.vtabTenant == t)
    || (x.slots.any fun q => q.2.tenant == t && q.2.mode == .user && (q.2.holds == .thread || q.2.holds == .activation))
    || (x.engine.state != .idle && x.engine.tenant == t)
    || (x.mx.queue.any fun q => q.tenant == t) || x.mx.cur.any fun y => y.q.tenant == t

/-- The tiles that the operand of TSTOP or TRESUME names, out of those whose cores `l` lists. -/
def stopTiles (x : Nat) (l : List Nat) : List Nat :=
  if bit x 8 then (l.map globalTile).eraseDups
  else if bits x 9 6 < 48 then [bits x 15 2 * 48 + bits x 9 6] else []

/-- The state field of a tenant's control block (R377). -/
def setTenantState (t v : Nat) (s : State) : State :=
  let a := blockAddr s t + 32
  tableWrite a 8 (tableRead s a 8 / 4 * 4 + v) s

/-- Messages of the tenant to the tiles leave the network for the absence buffer, oldest first (R389, R391). -/
def drainNet (t : Nat) (tiles : List Nat) (s : State) : State :=
  let hit (m : Msg) : Bool := m.tenant == t && m.peer.isNone && tiles.contains (globalTile m.dst)
  let l := (s.held.filter fun h => hit h.msg).map (fun h => h.msg) ++ (s.nacks.filter fun n => hit n.msg).map (fun n => n.msg)
    ++ s.net.filter hit
  let s := { s with
    held := s.held.filter fun h => !hit h.msg
    nacks := s.nacks.filter fun n => !hit n.msg
    net := s.net.filter fun m => !hit m
    grants := s.grants.filter fun g => !(tiles.contains (globalTile g.1) && ownedBy (s.core g.1) t) }
  l.foldl (fun s m => netSend { m with granted := false } s) s

/-- The cores of some tiles that a tenant has. -/
def ownedCores (s : State) (t : Nat) (tiles : List Nat) : List Nat :=
  (s.cores.filter fun p => tiles.contains (globalTile p.1) && ownedBy p.2 t).map fun p => p.1

/-- TSTOP begins: state 1, the tiles absent, messages drained, reservations given up, scans requested (R389). -/
def beginStop (t : Nat) (tiles : List Nat) (s : State) : State :=
  let s := setTenantState t 1 s
  let s := { s with
    absent := s.absent ++ (tiles.map fun g => (t, g)).filter fun p => !s.absent.contains p
    stops := s.stops ++ [⟨s.curCore, s.curSlot, t, tiles⟩] }
  let s := drainNet t tiles s
  (ownedCores s t tiles).foldl (fun s c => s.modCore c fun x => { x with
    resv := x.resv.filter fun r => 64 ≤ r.slot
    gen := if x.resv.any (fun r => r.cls != .owner && decide (r.slot < 64)) then (x.gen + 1) % 2 ^ 16 else x.gen
    slots := x.slots.map fun (q : Nat × Slot) => (q.1, if q.2.holds = .reserved then { q.2 with holds := .empty, resvFor := none } else q.2)
    mx := if seqLe x.mx.done x.mx.mark then x.mx else { x.mx with scanHead := true } }) s

/-- Nothing of an agent is on its way. -/
def quiet (s : State) (c k : Nat) : Bool :=
  (s.flights.all fun f => !(f.core == c && f.slot == k && f.op != 1))
    && s.links.all fun p => p.2.requests.all fun r => !(r.core == c && r.slot == k)

/-- Every slot, engine and matrix unit of the core has come to its stop, and every access of theirs is performed, those to hosts and
peers acknowledged (R196, R389). -/
def coreStopped (s : State) (t c : Nat) : Bool :=
  let x := s.core c
  ((List.range 8).all fun k => (s.slot c k).tenant != t || (s.slot c k).mode != .user
      || (atBoundary s c k && !hostWritesOf s (s.agentAt c k)))
    && quiet s c 16 && x.mx.cur.isNone && !x.mx.scanning && seqLe x.mx.done x.mx.mark

/-- Copy `n` bytes of memory with their tags and poison marks, from `a` to `b`. -/
def copyPhys (a b n : Nat) (s : State) : State :=
  let inside (lo g k : Nat) : Bool := decide (lo / g ≤ k) && decide (k < (lo + n) / g)
  let move (g : Nat) (m : SMap Bool) : SMap Bool :=
    (m.filter fun p => inside a g p.1).foldl (fun r p => SMap.set false r (p.1 - a / g + b / g) p.2)
      (m.filter fun p => !inside b g p.1)
  { s with
    mem := (s.mem.filter fun p => inside a 1 p.1).foldl (fun r p => SMap.set 0 r (p.1 - a + b) p.2)
      (s.mem.filter fun p => !inside b 1 p.1)
    tags := move 16 s.tags
    poison := move 64 s.poison }

/-- A tenant's save area, and core C's block in it (R377, R388). -/
def saveBlock (s : State) (t c : Nat) : Nat := bits (tableRead s (blockAddr s t + 32) 8) 19 29 * 2 ^ 19 + c * 0x80000

/-- A context's slot frame (R375), at `a`. -/
def writeSlotFrame (party a : Nat) (y : Slot) (s : State) : State :=
  writeFrame (fun off l g s => physWrite (a + off) l g s) (fullFrame party y 3 0 0 0) y s

/-- What a small core holds besides its contexts is saved with it and given up (R388, R389). -/
def clearCore (x : Core) : Core :=
  { x with
    vtabEnable := false
    arrivals := [], backoff := [], blocked := [], comp := none
    cgen := if x.comp.isSome then (x.cgen + 1) % 2 ^ 16 else x.cgen
    engine := { Engine.reset with wait := if x.engine.wait.mode = 0 then x.engine.wait else x.engine.wait.clear }
    mx := { x.mx with queue := [], token := none, ring := none, ringFirst := [], redIn := none, redFirst := [], geomPend := [], wait := x.mx.wait.clear, replies := [] } }

/-- Probes over parties of core `c` that are stopped, whose slots are those of `l`, are abandoned (R389). -/
def stopProbes (c : Nat) (l : List Nat) (s : State) : State :=
  let ids := l.map (s.partyAt c) ++ if isKeystone c then [] else [engineParty c, seqParty c]
  (s.probes.filter fun x => decide (x.stage < 2) && x.nodes.any fun n => ids.contains n.1).foldl (fun s x => abandonProbe x s) s

/-- Core `c` is saved and released (R388, R389); a keystone only gives up its contexts and a vector table of the tenant. -/
def saveCore (t c : Nat) (s : State) : State :=
  let mine (y : Slot) : Bool := y.tenant == t && y.mode == .user && (y.holds == .thread || y.holds == .activation)
  let s := (List.range 18).foldl (fun s k => drainAgent c k s) (stopProbes c ((List.range 8).filter fun k => mine (s.slot c k)) s)
  let s := (List.range 8).foldl (fun s k =>
    if mine (s.slot c k) then removeWaiter (s.partyAt c k) true (abandon c k s) else s) s
  let s := (List.range 8).foldl (fun s k =>
    if mine (s.slot c k) then s.modCore (tileKeystone (globalTile c)) fun x => x.dropFrame c k else s) s
  let s := if isKeystone c then s else stopCopy c s
  let b := saveBlock s t c
  let s := if isKeystone c then s else copyPhys (localKey c 0) b 0x40000 s
  let s := if isKeystone c then s else physWrite (b + 0x40000) (List.replicate 0x10000 0) false s
  let s := (List.range 8).foldl (fun s k =>
    if mine (s.slot c k) then writeSlotFrame (s.partyAt c k) (b + 0x50000 + 8192 * k) (s.slot c k) s else s) s
  let x := s.core c
  let y := if isKeystone c then { x with vtabEnable := x.vtabEnable && x.vtabTenant != t } else clearCore x
  { s with saved := SMap.put s.saved c { x with
      slots := x.slots.filter fun q => mine q.2
      engine := { x.engine with stopping := none, replies := x.engine.replies.filter fun r => r.bytes.isEmpty } } }.setCore c { y with
    slots := x.slots.map fun (q : Nat × Slot) => (q.1, if mine q.2 then q.2.free s.clock .none else q.2)
    gen := (x.gen + 1) % 2 ^ 16 }

/-- The stop of slot `k` of core `c` can end. -/
def stopReady (p : Stop) (s : State) : Bool := (ownedCores s p.tenant p.tiles).all fun c => coreStopped s p.tenant c

/-- Every frame is written, the tiles are released, and the TSTOP completes. -/
def endStop (p : Stop) (s : State) : State :=
  let s := (ownedCores s p.tenant p.tiles).foldl (fun s c => saveCore p.tenant c s) s
  { s with stops := s.stops.filter fun q => !(q.core == p.core && q.slot == p.slot) }.modSlot p.core p.slot fun y =>
    y.complete s.clock 4

def stopOf (s : State) (c k : Nat) : Option Stop := s.stops.find? fun p => p.core == c && p.slot == k

def execTstop (a : Nat) (s : State) : Outcome State Fault Refusal :=
  if !svcMode s then .next (illegal s)
  else match stopOf s s.curCore s.curSlot with
    | some p => .next (if stopReady p s then endStop p s else s)
    | none => match issue [a] [] s with
      | .stop t => .next t
      | .go vs t =>
        let x := (vs.getD 0 .zero).word.toNat
        let tenant := bits x 0 8
        let tiles := stopTiles x ((t.cores.filter fun p => ownedBy p.2 tenant).map fun p => p.1)
        let t := stallOp [a] [] s (beginStop tenant tiles t)
        let p : Stop := ⟨t.curCore, t.curSlot, tenant, tiles⟩
        .next (if stopReady p t then endStop p t else t)

def execTstopComplete (c k : Nat) (s : State) : Outcome State Fault Refusal :=
  match stopOf s c k with
  | some p => .next (if stopReady p s then endStop p s else s)
  | none => .next s

/-- The check of an 8,192-byte frame holds (R375). -/
def frameOk (s : State) (a : Nat) : Bool :=
  leNat (physBytes s (a + 0x1F8) 8) == crc64 (physBytes s a 0x1F8 ++ physBytes s (a + 0x200) 0x1E00)

/-- A saved context returns to its slot; one whose frame fails its check or holds poison is DEAD, with a restore-error
record (R390). -/
def restoreSlot (t c k a : Nat) (y : Slot) (s : State) : State :=
  let bad := !frameOk s a
  let poisoned := physPoison s a 8192
  let z := readFullFrame (fun off n => leNat (physBytes s (a + off) n)) (fun off => physTag s (a + off)) y
  let s := s.setSlot c k { z with
    wait := { z.wait with gen := (z.wait.gen + 1) % 2 ^ 16 }, waitSince := s.clock, overCount := 0 }
  if bad || poisoned then
    let party := s.partyAt c k
    queueRecord (rec1 t party 0x090E [a, bad.toNat + poisoned.toNat * 2] s.clock) (killSlot c k 0x09 s)
  else s

/-- What a small core holds besides its contexts, as it was saved (R388, R390). -/
def Core.restored (x o : Core) : Core :=
  { x with
    q := o.q, ports := o.ports, qerr := o.qerr, sem := o.sem, cnt := o.cnt, bankrole := o.bankrole, arrbase := o.arrbase, arrcap := o.arrcap
    spill := o.spill, arrPend := o.arrPend, arrivals := o.arrivals, backoff := o.backoff, comp := o.comp
    vtabTenant := o.vtabTenant, vtabOffset := o.vtabOffset, vtabEnable := o.vtabEnable
    fqEnable := o.fqEnable, fqType := o.fqType, fqSeq := o.fqSeq, wdOff := o.wdOff, wdExp := o.wdExp
    fmta := o.fmta, fmtb := o.fmtb, fmtc := o.fmtc, scla := o.scla, sclb := o.sclb
    cgen := if o.comp.isSome then (x.cgen + 1) % 2 ^ 16 else x.cgen
    engine := { o.engine with wait := if o.engine.busy then o.engine.wait else o.engine.wait.bump }
    mx := { o.mx with
      spalled := x.mx.spalled, generation := x.mx.generation, failures := x.mx.failures, scanning := x.mx.scanning, testing := x.mx.testing
      scanHead := x.mx.scanHead, halted := x.mx.halted, wait := { o.mx.wait with gen := (o.mx.wait.gen + 1) % 2 ^ 16 }
      idleSince := x.mx.idleSince, ramping := x.mx.ramping, ramped := x.mx.ramped } }

/-- Where a core block holds word `i` of queue or port `q`, in the layout that the model gives its private part (R388; DESIGN CHOICE,
log 133). -/
def blockWord (q i : Nat) : Nat := 0x40000 + 128 * q + 8 * i

/-- What poisoned granules of a core block leave poisoned: queue and port words, accumulators, the operand latch (R390). -/
def blockPoison (s : State) (b : Nat) (x : Core) : Core :=
  let bad (off n : Nat) : Bool := physPoison s (b + off) n
  let words (q : Nat) : List (Nat × Nat) :=
    ((List.range (if q < 8 then x.queue q else x.port (q - 8)).length).filter fun i =>
      bad (blockWord q i) 8 && !x.qerr.contains (16 + q, i)).map fun i => (16 + q, i)
  { x with
    qerr := x.qerr ++ (List.range 12).flatMap words
    mx := { x.mx with
      poison0 := x.mx.poison0 || bad 0x41000 4096, poison1 := x.mx.poison1 || bad 0x42000 4096
      front := { x.mx.front with poison := x.mx.front.poison || (x.mx.front.full && bad 0x43000 4096) }
      back := { x.mx.back with poison := x.mx.back.poison || (x.mx.back.full && bad 0x44000 4096) } } }

/-- A context that was held for a service trap and whose frame has gone since waits for a frame place again (DEDUCED, log 115). -/
def holdAgain (c k : Nat) (s : State) : State :=
  if (s.slot c k).svc.isSome && !(s.core (tileKeystone (globalTile c))).frames.any fun p => p.2.core == c && p.2.slot == k
  then placeFrame c k s else s

/-- Core `c` is restored from its block (R388, R390); its engine goes on as CEKICK.r would (R87). -/
def restoreCore (t c : Nat) (o : Core) (s : State) : State :=
  let b := saveBlock s t c
  let s := if isKeystone c then s else copyPhys b (localKey c 0) 0x40000 s
  let s := { s with saved := SMap.del s.saved c }.modCore c fun x =>
    { (if isKeystone c then x else blockPoison s b (x.restored o)) with gen := (x.gen + 1) % 2 ^ 16 }
  let s := o.slots.foldl (fun s q => holdAgain c q.1 (restoreSlot t c q.1 (b + 0x50000 + 8192 * q.1) q.2 s)) s
  if !isKeystone c && o.engine.busy then resumeEngine c s else s

/-- The absence buffer is replayed in buffer order (R391). -/
def replayAbsence (t : Nat) (s : State) : State :=
  let (a, n) := absenceBuf s t
  let l := SMap.get [] s.absence t
  let s := if n = 0 then s else tableWrite (a + 8) 8 (tableRead s a 8) s
  l.foldl (fun s m => netSend m s) { s with absence := SMap.put s.absence t [] }

/-- TRESUME (R390): the tiles' cores are restored, the tiles are no longer absent, the buffer is replayed. -/
def resumeTenant (t : Nat) (tiles : List Nat) (s : State) : State :=
  let l := s.saved.filter fun p => tiles.contains (globalTile p.1) && ownedBy p.2 t
  let s := l.foldl (fun s p => restoreCore t p.1 p.2 s) s
  let s := { s with absent := s.absent.filter fun p => !(p.1 == t && tiles.contains p.2) }
  let s := replayAbsence t s
  if s.absent.any fun p => p.1 == t then s else setTenantState t 0 s

def execTresume (a : Nat) (s : State) : Outcome State Fault Refusal :=
  if !svcMode s then .next (illegal s)
  else match issue [a] [] s with
    | .stop t => .next t
    | .go vs t =>
      let x := (vs.getD 0 .zero).word.toNat
      let tenant := bits x 0 8
      let tiles := if bit x 8 then (t.absent.filter fun p => p.1 == tenant).map fun p => p.2 else stopTiles x []
      .next (complete 4 (resumeTenant tenant tiles t))

/-! MXTEST and PKILL (R325). -/

/-- MXTEST: the unit of package core a[12:0] drains as for a scan, and the self-test gives its fault map (R152). -/
def execMxtest (a : Nat) (s : State) : Outcome State Fault Refusal :=
  if !svcMode s then .next (illegal s)
  else match issue [a] [] s with
    | .stop t => .next t
    | .go vs t =>
      let c := bits (vs.getD 0 .zero).word.toNat 0 13
      if numSmall ≤ c then .next (illegal s)
      else if (t.mx c).cur.isSome || (t.mx c).scanning then
        .next (stallOp [a] [] s (t.modMx c fun x => { x with testing := true }))
      else
        .next (complete 4 (t.modMx c fun x => { x.remap (Config.selfTest t.tick) with
          testing := false, idleSince := t.clock, ramping := none, ramped := false }))

/-- A killed engine's stream is abandoned, and it is DEAD until its next kick (R325, R349). -/
def killEngine (c : Nat) (s : State) : State :=
  s.modEng c fun e => { e with
    state := .idle, copy := none, group := none, replies := [], interrupts := [], dead := true, waitCount := none, stopping := none
    wait := e.wait.clear }

def execPkill (a : Nat) (s : State) : Outcome State Fault Refusal :=
  if !svcMode s then .next (illegal s)
  else match issue [a] [] s with
    | .stop t => .next t
    | .go vs t =>
      let p := (vs.getD 0 .zero).nat % 2 ^ 32
      if pKind p = 1 then match pWhere p with
        | some c =>
          if isKeystone c || p != engineParty c then .next (complete 4 t)
          else .next (complete 4 (killEngine c (orphan c 16 t)))
        | none => .next (complete 4 t)
      else if pKind p = 7 then
        if p = hostParty (pCore p) (pIndex p) ∧ pCore p < 32 ∧ pIndex p < 4096 then
          .next (complete 4 (t.modLink (pCore p) fun x => { x with deadReq := x.deadReq.erase (pIndex p) ++ [pIndex p] }))
        else .next (complete 4 t)
      else .next (killOp a true s)

end Sys2Proof.Machine
end

