-- ==== Sys2Proof/Machine/Arrival.lean ====
section
/-! DEFINITION. Messages at their receiver (R93, R95, R328 to R334, R338): vector tables, deposits, activations, the arrival
queue. -/

namespace Sys2Proof.Machine

open Host (Outcome)

/-- What becomes of a message at its receiver: accepted, refused with a class, or failed with a reason (R331, R381). -/
inductive Arrive where
  | done (s : State)
  | refuse (cls : RClass) (s : State)
  | fail (reason : Nat) (s : State)

/-! Descriptors (R327, R328). -/

def descWord (s : State) (t i : Nat) : Nat := tableRead s (descAddr s t + 8 * i) 8

/-- A capability of a descriptor, at word `i`. -/
def descCap (s : State) (t i : Nat) : Reg :=
  ⟨BitVec.ofNat 128 (tableRead s (descAddr s t + 8 * i) 16), tableTag s (descAddr s t + 8 * i)⟩

/-- The descriptor keeps R328's layout. -/
def descOk (s : State) (t : Nat) : Bool :=
  let w := descWord s t
  bits (w 0) 48 16 == 0 && bits (w 0) 0 11 == 0 && bits (w 1) 52 12 == 0 && bits (w 3) 52 12 == 0 && bits (w 3) 5 11 == 0
    && decide (12 ≤ bits (w 3) 0 5) && decide (bits (w 3) 0 5 ≤ 20)
    && (descCap s t 4).tag && (descCap s t 4).canExec && (descCap s t 6).tag
    && w 10 / 2 ^ 34 == 0 && w 11 == 0 && w 12 == 0 && w 13 == 0 && w 14 == 0 && w 15 == 0

/-- The stack capability of slot `k` of core `c` (R334). -/
def slotStack (s : State) (t c k : Nat) : Reg :=
  let size := 2 ^ bits (descWord s t 3) 0 5
  let base := bits (descWord s t 3) 16 36 * 65536 + (8 * c + k) * size
  match lengthCode size with
  | some (x, l) => mkCap 0x5B x l base (base + size)
  | none => .zero

/-! Scratchpad. -/

/-- `n` bytes at a local offset lie wholly in scratchpad (R88, R91). -/
def scratch (s : State) (c off n : Nat) : Bool :=
  if isKeystone c then decide (off + n ≤ 2 ^ 20)
  else decide (off + n ≤ 2 ^ 18)
    && (List.range ((off + n - 1) / 8192 - off / 8192 + 1)).all fun i => bankRole s c (off / 8192 + i) == 0

def localWord (s : State) (c off : Nat) : Nat := leNat (physBytes s (localKey c off) 8)

/-! Vector-table entries (R330). -/

/-- The table at `offset` that entry `t` is read from lies in scratchpad. -/
def entryThere (s : State) (c offset t : Nat) : Bool := scratch s c (offset * 4096 + 16 * t) 16

structure Entry where
  w0 : Nat
  w1 : Nat
  deriving DecidableEq, Repr

def entryAt (s : State) (c offset t : Nat) : Entry :=
  ⟨localWord s c (offset * 4096 + 16 * t), localWord s c (offset * 4096 + 16 * t + 8)⟩

def Entry.mode (e : Entry) : Nat := bits e.w1 6 2
def Entry.urgent (e : Entry) : Bool := bits e.w1 4 2 == 1
def Entry.cls (e : Entry) : RClass := if e.urgent then .urgent else .general

/-- The entry is disabled or breaks R330; `domains` is the descriptor's domain count. -/
def Entry.bad (e : Entry) (domains : Nat) : Bool :=
  e.mode == 0 || bits e.w0 52 12 != 0 || bit e.w0 0 || e.w1 / 2 ^ 34 != 0 || bits e.w1 26 6 != 0
    || decide (2 ≤ bits e.w1 4 2) || (e.urgent && decide (bits e.w1 0 4 < 14)) || decide (8 < bits e.w1 12 4)
    || decide (domains < bits e.w1 32 2)

def domainCount (s : State) (t : Nat) : Nat := bits (descWord s t 10) 32 2

/-! Deposits (R93). -/

/-- Header and payload go to the receive buffer's next slot and the counter counts; `none` when the slot is not in
scratchpad. -/
def deposit (c : Nat) (e : Entry) (m : Msg) (s : State) : Option State :=
  let n := bits e.w1 8 4
  let cnt := SMap.get 0 (s.core c).cnt n
  let slot := bits e.w1 16 10 * 256 + cnt % 2 ^ bits e.w1 12 4 * 256
  if !scratch s c slot 256 then none
  else
    let data := ((m.header.toNat :: m.payload.map BitVec.toNat).map (leBytes 8)).flatten
    some (noteCount c n ((physWrite (localKey c slot) data false s).modCore c fun x =>
      { x with cnt := SMap.put x.cnt n ((cnt + 1) % 2 ^ 32) }))

/-! Slots (R335, R336). -/

/-- Slots that take a class (R326, R335). -/
def slotsOf (c : Nat) (urgent : Bool) : List Nat :=
  if isKeystone c then [0, 1, 2, 3] else if urgent then [6] else [0, 1, 2, 3, 4, 5]

/-- A free slot of a class, the lowest; none while the core is in a composition or the slot is halted. -/
def freeSlot (s : State) (c : Nat) (urgent : Bool) : Option Nat :=
  if (s.core c).comp.isSome then none
  else (slotsOf c urgent).find? fun k => (s.slot c k).holds == .empty && !(s.slot c k).halted

/-- A released parked context that may take a slot of a class: TRESUME comes first (R376, R389). -/
def parkedReady (s : State) (c : Nat) (urgent : Bool) : Option Parked :=
  (s.core c).parked.find? fun p => p.released && !p.slot.composed && (p.slot.holds == .activation && p.slot.urgent) == urgent
    && !s.absent.contains (p.slot.tenant, globalTile c)

/-- What waits for a general slot of a core besides the reservation list: arrivals in order, released parked contexts in the order of
their release. -/
inductive Waiting where
  | arrival (a : Arrival)
  | parked (p : Parked)
  deriving DecidableEq, Repr

def arrivalReady (s : State) (c : Nat) (urgent : Bool) : Option Arrival :=
  if urgent then none else (s.core c).arrivals.head?.filter fun a => !stopping s c a.msg.tenant

/-- An arrival and a released context take freed slots in turn, the arrival first (R376; DESIGN CHOICE, log 131). -/
def waitingFor (s : State) (c : Nat) (urgent : Bool) : Option Waiting :=
  match arrivalReady s c urgent, parkedReady s c urgent with
  | some a, some p => some (if (s.core c).parkTurn then .parked p else .arrival a)
  | some a, none => some (.arrival a)
  | none, p => p.map .parked

/-- The first reservation that a slot of a class serves; a keystone's contexts serve both classes. -/
def firstResv (s : State) (c : Nat) (urgent : Bool) : Option Resv :=
  (s.core c).resv.find? fun r => if isKeystone c then r.cls == .general || r.cls == .urgent
    else r.cls == (if urgent then .urgent else .general)

/-- A free slot for a message that holds no reservation: none while an entry of the list or an arrival waits for one (R336). -/
def openSlot (s : State) (c : Nat) (urgent : Bool) : Option Nat :=
  if (firstResv s c urgent).isSome || (waitingFor s c urgent).isSome then none else freeSlot s c urgent

/-- The slot that a granted message has reserved (R336). -/
def reservedSlot (s : State) (c : Nat) (m : Msg) : Option Nat :=
  if !m.granted || m.frame.isSome then none
  else (List.range 7).find? fun k => (s.slot c k).holds == .reserved
    && (s.slot c k).resvFor.any fun r => r.core == m.srcCore && r.slot == m.srcSlot

/-- The slot of a class for a message: its own reservation, or a free one. -/
def slotFor (s : State) (c : Nat) (urgent : Bool) (m : Msg) : Option Nat :=
  match reservedSlot s c m with
  | some k => if (slotsOf c urgent).contains k then some k else openSlot s c urgent
  | none => openSlot s c urgent

/-- A reservation that its message does not use is free again. -/
def unreserve (c : Nat) (m : Msg) (s : State) : State :=
  match reservedSlot s c m with
  | some k => s.modSlot c k fun y => { y with holds := .empty, resvFor := none }
  | none => s

/-- A slot given to a new context: every register untagged zero (R115, R334), the tombstone replaced (R350). -/
def Slot.fresh (y : Slot) (clock uid : Nat) : Slot :=
  { Slot.empty with
    wait := { y.wait.clear with gen := (y.wait.gen + 1) % 2 ^ 16 }
    waitSince := clock, ctxCount := y.ctxCount + 1, uid := uid, halted := y.halted }

/-- Put a context into a slot; a context without a name of its own gets the next. -/
def place (c k uid : Nat) (f : Slot → Slot) (s : State) : State :=
  let u := if uid = 0 then s.nextUid else uid
  bumpCore c { s.setSlot c k (f ((s.slot c k).fresh s.clock u)) with
    nextUid := if uid = 0 then s.nextUid + 1 else s.nextUid }

/-- Start an activation in slot `k` (R334). -/
def startActivation (c k t : Nat) (e : Entry) (m : Msg) (start : Bool) (s : State) : State :=
  let args : List (Nat × Reg) :=
    if start then (List.range 6).map fun i => (i, Reg.ofWord (m.payload.getD i 0)) else []
  let task := if pKind m.sender = 5 then some m.sender else none
  let s := (unreserve c m s)
  let s := place c k 0 (fun y => { y with
    holds := .activation
    tenant := t
    pcc := (descCap s t 4).withCursor (bits e.w0 1 51 * 2)
    c := args ++ [(12, slotStack s t c k), (13, descCap s t 6), (15, descCap s t 8)]
    domain := bits (descWord s t 10) (8 * bits e.w1 32 2) 8
    prio := bits e.w1 0 4
    spawnlim := 16
    header := m.header
    payload := m.payload
    sender := m.sender
    urgent := e.urgent
    redeliveries := m.redeliver
    trigger := some { m with granted := false }
    task := task }) s
  match task with
  | some id => match SMap.find s.tasks (taskIndex id) with
    | some x => { s with tasks := SMap.put s.tasks (taskIndex id) { x with st := .running } }
    | none => s
  | none => s

/-- Deposit or activate by an entry that is not bad, in R331's order: a free slot, the deposit of mode 3, the descriptor (R328). -/
def byEntry (c t : Nat) (e : Entry) (m : Msg) (start : Bool) (s : State) : Arrive :=
  if e.mode = 2 then
    if pKind m.sender = 5 then .fail 7 s
    else match deposit c e m s with
      | some s => .done (unreserve c m s)
      | none => .fail 3 s
  else match slotFor s c e.urgent m with
    | none => .refuse e.cls (unreserve c m s)
    | some k =>
      match (if e.mode = 3 ∧ m.redeliver = 0 then deposit c e m s else some s) with
      | none => .fail 3 s
      | some s => if descOk s t then .done (startActivation c k t e m start s) else .fail 6 s

/-- A program message (R331); tenant 256 passes without a tenant check (R378). -/
def arriveProgram (c : Nat) (m : Msg) (s : State) : Arrive :=
  let x := s.core c
  let t := if m.tenant = 256 then x.vtabTenant else m.tenant % 256
  let n := m.header.toNat % 256
  if !x.vtabEnable || x.vtabTenant != t || !entryThere s c x.vtabOffset n then .fail 2 s
  else
    let e := entryAt s c x.vtabOffset n
    if e.bad (domainCount s t) then .fail (if pKind m.sender = 5 then 7 else 1) s else byEntry c t e m false s

/-- The sender of a start message is a host requester or a keystone context (R333). -/
def startSender (m : Msg) : Bool :=
  (pKind m.sender == 7 && bits m.sender 12 3 == 0) || (pKind m.sender == 0 && decide (numSmall ≤ m.srcCore))

/-- A start message (R333); one for a tenant that has been torn down fails (R299). -/
def arriveStart (c : Nat) (m : Msg) (s : State) : Arrive :=
  let h := m.header.toNat
  let t := bits h 56 8
  let offset := bits h 48 8
  let foreign := (List.range 7).any fun k =>
    ((s.slot c k).holds == .thread || (s.slot c k).holds == .activation) && (s.slot c k).tenant != t
  if tenantState s t = 2 then .fail 5 s
  else if bits h 40 8 ≠ 0 ∨ bit h 13 ∨ startSender m = false ∨ foreign ∨ scratch s c (offset * 4096) 4096 = false then .fail 10 s
  else
    let e := entryAt s c offset 0xFC
    if e.bad (domainCount s t) || e.mode != 1 then .fail 1 s
    else byEntry c t e m true (s.modCore c fun x => { x with vtabTenant := t, vtabOffset := offset, vtabEnable := true })

/-! The arrival queue (R95, R96, R338). -/

/-- Frames in the array. -/
def inArray (x : Core) : Nat := (x.arrivals.filter fun a => a.spilled.isNone).length

/-- Frames kept for arrivals that have been granted and are on their way again (R337, R338). -/
def promised (s : State) (c : Nat) : Nat :=
  (s.grants.filter fun g => g.1 == c && g.2.cls == .arrival).length
    + (s.net.filter fun m => m.dst == c && m.peer.isNone && m.granted && m.frame.isSome).length

/-- The array takes frames: no write to it is pending and it lies wholly in scratchpad. -/
def arrayOpen (s : State) (c : Nat) : Bool :=
  let x := s.core c
  decide (0 < x.arrcap) && x.arrPend.isNone && scratch s c (x.arrbase * 64) (320 * x.arrcap)

/-- The array has a free frame for a message. -/
def arrayRoom (s : State) (c : Nat) (granted : Bool) : Bool :=
  arrayOpen s c && decide (inArray (s.core c) + (if granted then 0 else promised s c) < (s.core c).arrcap)

/-- Lines of a region whose home is the core, in ascending order. -/
def regionLines (s : State) (c t base pages : Nat) : List Nat :=
  (List.range (pages * 64)).filterMap fun i =>
    let va := base + 1024 * i
    match (walk s (coreDie c) va t).1 with
    | .leaf e _ _ => match placementSet s t (pteSet e) with
      | some p => if homeIn p va = c then some va else none
      | none => none
    | _ => none

/-- The frames of the overflow ring (R338). -/
def ringFrames (s : State) (c t : Nat) : List Nat :=
  (regionLines s c t (bits (descWord s t 1) 16 36 * 65536) (bits (descWord s t 1) 0 16)).flatMap fun a => [a, a + 320, a + 640]

/-- The next free frame of the overflow ring, after the last arrival that was written there. -/
def ringNext (s : State) (c t : Nat) : Option Nat :=
  let l := ringFrames s c t
  let used := (s.core c).arrivals.filterMap fun a => a.spilled
  if l.length ≤ used.length then none
  else match used.getLast? with
    | some a => some (l.getD ((l.idxOf a + 1) % l.length) 0)
    | none => l.head?

/-- The 320 bytes of a migration frame; 192 for a light one (R115). -/
def frame320 (f : Frame) : List Byte :=
  let reg (i : Nat) : Reg := SMap.get Reg.zero f.c i
  let status := f.domain % 256 * 2 ^ 16 + f.autoMig.toNat * 128 + f.inTrap.toNat * 8
  let tags := (List.range 16).foldl (fun n i => n + (reg i).tag.toNat * 2 ^ i) (f.pcc.tag.toNat * 2 ^ 16)
  let pair (r : Reg) : List Nat := [r.nat % 2 ^ 64, r.nat / 2 ^ 64]
  (([f.party * 2 ^ 32 + f.full.toNat, status] ++ pair f.pcc ++ [tags, f.prio, f.tvec, f.spawnlim]
    ++ ((List.range (if f.full then 16 else 8)).map fun i => pair (reg i)).flatten).map (leBytes 8)).flatten

/-- The agent that writes and reads frames of tenant `t` at core `c`. -/
def whoFrame (c t : Nat) : Who := ⟨c, 19, anyParty c, anyParty c, 0, t, t⟩

/-- The record of a fault that a frame's write meets (R338). -/
def frameFault (e : Exc) (t party va : Nat) (s : State) : State :=
  match e with
  | .park flags a => queueRecord (rec1 t party (flags + 256 + 1) (pageWords a va 320) s.clock) s
  | .svc _ a level => queueRecord (rec1 t party (level * 0x2000 + 256 + 2) (pageWords a va 320) s.clock) s
  | _ => queueRecord (rec1 t party (256 + 1) (pageWords va va 320) s.clock) s

/-- A migrated or spawned context enters the arrival queue (R95, R338). Where no frame is in the array, the next goes to its first
place (DESIGN CHOICE, log 111). -/
def enterQueue (c : Nat) (m : Msg) (f : Frame) (s : State) : Arrive :=
  let x := s.core c
  if arrayRoom s c m.granted then
    let n := if inArray x = 0 then 0 else x.arrNext % x.arrcap
    let s := physWrite (localKey c (x.arrbase * 64 + 320 * n)) (frame320 f) false s
    .done (bumpCore c (s.modCore c fun x => { x with arrNext := n + 1, arrivals := x.arrivals ++ [⟨m, n, none⟩] }))
  else match ringNext s c m.tenant with
    | none => .refuse .arrival s
    | some a => match storeAt (whoFrame c m.tenant) a 0 0 (frame320 f) false s with
      | .ok _ s => .done (bumpCore c (s.modCore c fun x => { x with
          spill := min 65535 (x.spill + 1), arrivals := x.arrivals ++ [⟨m, 0, some a⟩] }))
      | .stall s => .refuse .arrival s
      | .exc e _ => .refuse .arrival (frameFault e m.tenant m.sender a s)

/-- A spawn that fails is no longer outstanding, and its thread no longer live (R328, R332). -/
def spawnGone (m : Msg) (s : State) : State :=
  addLive m.tenant (-1) { s with spawned := s.spawned.filter fun p => m.frame.all fun f => p.2.1 != f.uid }

/-- A migration or spawn arrives (R331, R332). A returned frame stands in interfaces and lists under a number of its own, which is no
slot's. -/
def arriveContext (c : Nat) (m : Msg) (f : Frame) (s : State) : Arrive :=
  let x := s.core c
  if !x.vtabEnable || x.vtabTenant != m.tenant then
    let s := failMsg 8 m s
    if m.header.toNat % 256 = 0xFE then .done (spawnGone m s)
    else .done (netSend { m with dst := m.srcCore, srcCore := c, srcSlot := 512 + 16 * m.srcCore + m.srcSlot % 16, granted := false } s)
  else enterQueue c m f s

/-- A message of an owner type enters the owner queue of a small core (R331, R339); its effect is hardware's own. -/
def arriveOwner (m : Msg) (s : State) : Arrive :=
  if isKeystone m.dst then .fail 1 s
  else if !ownerRoom s m.dst && !m.granted then .refuse .owner s
  else .done (addFlight ⟨4, m.srcCore, 20, .bank m.dst 0, 0, [], 0, false, 0, false, 0, 0, 0, none, none, none⟩ s)

/-- A message at its receiver (R331). -/
def arrive (m : Msg) (s : State) : Arrive :=
  let n := m.header.toNat % 256
  if m.tenant < 256 ∧ tenantState s m.tenant = 2 then .fail 5 s
  else if 0xF0 ≤ n ∧ n ≤ 0xFB then arriveOwner m s
  else if n = 0xFC then arriveStart m.dst m s
  else match m.frame with
    | some f => arriveContext m.dst m f s
    | none => if n < 0xF0 then arriveProgram m.dst m s else .fail 1 s

/-- Delivery has failed (R299, R315, R381): the record, and the end of a task. -/
def failArrival (reason : Nat) (m : Msg) (s : State) : State :=
  let s := failMsg reason m (unreserve m.dst m s)
  let s := if m.header.toNat % 256 = 0xFE ∧ m.frame.isSome then spawnGone m s else s
  if pKind m.sender = 5 then endTask m.sender 0x13 false s else s

/-- The receiver enters a refused sender in its reservation list, if there is room (R337): whether it did. -/
def reserve (c : Nat) (r : Resv) (s : State) : Bool × State :=
  let l := (s.core c).resv
  if 64 ≤ l.length then (false, s) else (true, bumpCore c (s.modCore c fun x => { x with resv := l ++ [r] }))

/-- A message is delivered between cores of the device: a refusal sends a negative acknowledgement (R331, R337). -/
def deliver (m : Msg) (s : State) : State :=
  match arrive m s with
  | .done s => s
  | .fail reason s => failArrival reason m s
  | .refuse cls s =>
    let (listed, s) := reserve m.dst ⟨m.srcCore, m.srcSlot, cls⟩ s
    { s with nacks := s.nacks ++ [⟨{ m with granted := false }, cls, listed⟩] }

end Sys2Proof.Machine
end

