-- ==== Sys2Proof/Machine/Scheduler.lean ====
section
/-! DEFINITION. The hardware scheduler: messages on their way, refusals, grants and resends (R336, R337, R340, R384, R391), free
slots and their dispatch (R334, R336, R372, R376), records waiting to be posted (R378). -/

namespace Sys2Proof.Machine

open Host (Outcome)

/-! Messages on their way. -/

/-- An earlier message of the same flow is still in the network or in an interface. -/
def overtaken (s : State) (i : Nat) (m : Msg) : Bool :=
  (s.net.take i).any (sameFlow m) || s.nacks.any (fun n => sameFlow m n.msg) || s.held.any (fun h => sameFlow m h.msg)
    || s.absentHeld.any (fun h => sameFlow m h.2)
    || s.links.any fun p => p.2.requests.any fun r => r.msg.any (sameFlow m)

/-- The address that names a core (R91, R296). -/
def coreAddress (c : Nat) : Nat :=
  0xFF * 2 ^ 44 + coreDie c * 2 ^ 42 + coreTile c * 2 ^ 36 + coreIn c * 2 ^ 30

/-- A message to a peer leaves on its link (R405, R412); to an absent peer it fails with reason 4. -/
def sendPeer (d : Nat) (m : Msg) (s : State) : Option State :=
  match peerLink s d m.srcCore m.dst with
  | none => some (failMsg 4 m s)
  | some link =>
    let data := (m.payload.map fun w => leBytes 8 w.toNat).flatten
    sendRequest link ⟨0, 4, coreAddress m.dst, 0, data.length, data, 0, m.header.toNat, 0, false, false, m.sender, m.sender, 19,
      m.srcCore, m.tenant, 0, some m, false, []⟩ s

/-- MESSAGE_ARRIVAL: message `i` of the network is delivered, in the order of its flow. -/
def execMessageArrival (i : Nat) (s : State) : Outcome State Fault Refusal :=
  match s.net[i]? with
  | none => .next s
  | some m =>
    if overtaken s i m then .next s
    else
      let t := { s with net := s.net.eraseIdx i }
      match m.peer with
      | some d => .next ((sendPeer d m t).getD s)
      | none => .next (deliver m t)

/-- NEGATIVE_ACKNOWLEDGEMENT: the sender's interface holds the message until its grant, or for 1,024 cycles (R337). It holds one
message of a slot; a second one waits to be taken in (R300). -/
def execNegativeAcknowledgement (i : Nat) (s : State) : Outcome State Fault Refusal :=
  match s.nacks[i]? with
  | none => .next s
  | some n =>
    if s.held.any fun h => h.msg.srcCore == n.msg.srcCore && h.msg.srcSlot == n.msg.srcSlot then .next s
    else .next { s with
      nacks := s.nacks.eraseIdx i
      held := s.held ++ [⟨n.msg, n.cls, if n.listed then none else some (s.clock + 1024)⟩] }

/-- A grant that finds no message gives its slot back (R336). -/
def dropGrant (c : Nat) (r : Resv) (s : State) : State :=
  match (List.range 7).find? fun k => (s.slot c k).holds == .reserved && (s.slot c k).resvFor == some r with
  | some k => s.modSlot c k fun y => { y with holds := .empty, resvFor := none }
  | none => s

/-- A response of the device (R405, R406): it carries the tag and requester of its request. -/
def respond (link device tag requester op status : Nat) (poison : Bool) (words data : List Nat) (s : State) : State :=
  let p : Packet := ⟨link, 0, device, status, max 1 data.length, tag, requester, false, false, false, poison, 0, op, 0, words, data⟩
  s.modLink link (Link.push p)

/-- The party id under which a link's requester stands in a reservation list: a peer device counts as one requester of its
link (R337, R409, R412). -/
def linkSender (link device requester : Nat) (peer : Bool) : Nat :=
  mkParty 7 0 0 link (if peer then 4096 + device else requester)

/-- The grant of a host requester or peer device: status 6 (R409). -/
def answerGrant (r : Resv) (s : State) : State :=
  let i := pIndex r.core
  if 4096 ≤ i then respond (pCore r.core) (i % 4096) r.slot 0xFFF 0x84 6 false [] [] s
  else respond (pCore r.core) 0 r.slot i 0x84 6 false [] [] s

/-- The operation refused at an owner queue that a grant is for (R339). -/
def grantedFlight (s : State) (c : Nat) (r : Resv) : Option Flight :=
  if r.cls != .owner then none
  else s.flights.find? fun f => f.refused == some none && f.src.owner == some c && f.core == r.core && f.slot == r.slot

/-- The message that a grant is for. -/
def grantedMsg (c : Nat) (r : Resv) (m : Msg) (cls : RClass) : Bool :=
  m.dst == c && m.peer.isNone && m.srcCore == r.core && m.srcSlot == r.slot && cls == r.cls

/-- GRANT: the grant reaches the sender's interface, which resends the message (R300, R337); a host requester is answered
with status 6 (R409); an operation refused at an owner queue enters it (R339). A message whose refusal has not come in keeps its
grant. -/
def execGrant (i : Nat) (s : State) : Outcome State Fault Refusal :=
  match s.grants[i]? with
  | none => .next s
  | some (c, r) =>
    let t := { s with grants := s.grants.eraseIdx i }
    if numCores ≤ r.core then .next (answerGrant r t)
    else match grantedFlight t c r with
      | some f => .next (addFlight { f with refused := none } { t with flights := t.flights.erase f })
      | none => match t.held.findIdx? fun h => grantedMsg c r h.msg h.cls && h.resendAt.isNone with
        | some j => match t.held[j]? with
          | some h => .next { t with held := t.held.eraseIdx j, net := { h.msg with granted := true } :: t.net }
          | none => .next (dropGrant c r t)
        | none =>
          if t.nacks.any fun n => grantedMsg c r n.msg n.cls && n.listed then .next s
          else if r.cls = .owner then .next (grantOwner c t)
          else .next (dropGrant c r t)

/-- REFUSAL_RESEND: a message or an owner operation refused with a full list is sent again after 1,024 cycles (R337). -/
def execRefusalResend (c k : Nat) (s : State) : Outcome State Fault Refusal :=
  match s.held.findIdx? fun h => h.msg.srcCore == c && h.msg.srcSlot == k && h.resendAt.any fun t => decide (t ≤ s.clock) with
  | some j => match s.held[j]? with
    | some h => .next { s with held := s.held.eraseIdx j, net := h.msg :: s.net }
    | none => .next s
  | none => match s.flights.find? fun f => f.core == c && f.slot == k && (f.refused.any fun r => r.any fun t => decide (t ≤ s.clock)) with
    | some f => .next (match f.src.owner with
      | some home => postOwner home { f with refused := none } { s with flights := s.flights.erase f }
      | none => s)
    | none => .next s

/-- REDELIVERY: the triggering message of a rolled-back activation is delivered again at core `c` (R384). -/
def execRedelivery (c : Nat) (s : State) : Outcome State Fault Refusal :=
  match (s.core c).backoff.findIdx? fun p => decide (p.1 ≤ s.clock) with
  | some j => match (s.core c).backoff[j]? with
    | some p => .next (deliver p.2 (s.modCore c fun x => { x with backoff := x.backoff.eraseIdx j }))
    | none => .next s
  | none => .next s

/-- The messages of a torn-down tenant leave its absence buffer with a record each (R391). -/
def dropTorn (t : Nat) (s : State) : State :=
  if tenantState s t = 2 then
    (SMap.get [] s.absence t).foldl (fun s m => failArrival 5 m s) { s with absence := SMap.put s.absence t [] }
  else s

/-- ABSENCE_RESEND: a message that found its absence buffer full tries again after 1,024 cycles, in the order of its flow (R391). -/
def execAbsenceResend (i : Nat) (s : State) : Outcome State Fault Refusal :=
  match s.absentHeld[i]? with
  | none => .next (s.absence.foldl (fun s p => dropTorn p.1 s) s)
  | some (due, m) =>
    if s.clock < due ∨ (s.absentHeld.take i).any (fun h => sameFlow m h.2) then .next s
    else
      let t := { s with absentHeld := s.absentHeld.eraseIdx i }
      let u := netSend m { t with absentHeld := t.absentHeld.take i }
      if i < u.absentHeld.length then .next { s with absentHeld := s.absentHeld.set i (s.clock + 1024, m) }
      else .next { u with absentHeld := t.absentHeld }

/-! Slots and their dispatch. -/

/-- A capability that arrives with a context keeps its tag only with its global bit (R115). -/
def arriveCap (r : Reg) : Reg := { r with tag := r.tag && r.isGlobal }

/-- A pending write to the array's registers takes effect once the array is empty (R96). -/
def settleArray (c : Nat) (s : State) : State :=
  s.modCore c fun x => match x.arrPend with
    | some (b, n) => if inArray x = 0 then { x with arrbase := b, arrcap := n, arrPend := none } else x
    | none => x

/-- A migration frame as memory holds it, 320 bytes or the 192 of a light one (R115); how it was routed and the model's name of the
context go with the message (log 2). -/
def readMigration (b : List Byte) (f : Frame) : Frame :=
  let n (off k : Nat) : Nat := leNat ((b.drop off).take k)
  let tags := n 0x20 8
  let full := bit (n 0 8) 0
  { f with
    full := full
    party := n 4 4
    domain := bits (n 8 8) 16 8
    autoMig := bit (n 8 8) 7
    inTrap := bit (n 8 8) 3
    pcc := ⟨BitVec.ofNat 128 (n 0x10 16), bit tags 16⟩
    c := (List.range (if full then 16 else 8)).map fun i => (i, ⟨BitVec.ofNat 128 (n (0x40 + 16 * i) 16), bit tags i⟩)
    prio := bits (n 0x28 8) 0 4
    tvec := bits (n 0x30 8) 0 52 / 2 * 2
    spawnlim := bits (n 0x38 8) 0 16 }

/-- A migrated thread takes slot `k` (R115, R334); a routed access goes on as .rem (R264, R332). -/
def startMigrated (c k : Nat) (m : Msg) (f : Frame) (s : State) : State :=
  place c k f.uid (fun y => { y with
    holds := .thread, tenant := m.tenant, domain := f.domain, autoMig := f.autoMig, inTrap := f.inTrap
    pcc := arriveCap f.pcc, c := f.c.map fun (p : Nat × Reg) => (p.1, arriveCap p.2)
    prio := f.prio, tvec := f.tvec, spawnlim := f.spawnlim, asRem := f.byRoute }) s

/-- A spawned thread takes slot `k` (R302, R334); a descriptor that breaks R328 starts nothing. -/
def startSpawned (c k : Nat) (m : Msg) (f : Frame) (s : State) : State :=
  if !descOk s m.tenant then failArrival 6 m s
  else place c k f.uid (fun y => { y with
    holds := .thread, tenant := m.tenant, domain := f.domain, pcc := arriveCap f.pcc
    c := ((f.c.filter fun p => p.1 < 4).map fun (p : Nat × Reg) => (p.1, arriveCap p.2))
      ++ [(13, descCap s m.tenant 6), (15, descCap s m.tenant 8)]
    prio := f.prio, spawnlim := f.spawnlim }) s

/-- The bytes of a waiting arrival's frame (R95, R338): in the array, or on its lines of the overflow ring, read at their home.
Where a line no longer translates the arrival waits; a poison mark on it is ignored (DESIGN CHOICE, log 106). -/
def arrivalBytes (c : Nat) (a : Arrival) (s : State) : Option (List Byte × State) :=
  match a.spilled with
  | none => some (physBytes s (localKey c ((s.core c).arrbase * 64 + 320 * a.pos)) 320, s)
  | some va => match loadAt (whoFrame c a.msg.tenant) va 320 0 0 s with
    | .ok v s => some (v.bytes, s)
    | _ => none

/-- The oldest arrival takes slot `k` (R336); its frame is read back. -/
def takeArrival (c k : Nat) (a : Arrival) (s : State) : State :=
  match arrivalBytes c a s, a.msg.frame with
  | some (b, s), some f0 =>
    let s := settleArray c (s.modCore c fun x => { x with arrivals := x.arrivals.erase a })
    let f := readMigration b f0
    if a.msg.header.toNat % 256 = 0xFE then startSpawned c k a.msg f s else startMigrated c k a.msg f s
  | _, _ => s

/-- Where byte `off` of a parked frame is: its home's copy, filled if need be (R374). -/
def frameSrc (c t : Nat) (l : List Nat) (off : Nat) (s : State) : Option (Src × State) :=
  match locate (whoFrame c t) (onLines l off) 0 false s with
  | .ok src s => some (src, s)
  | _ => none

/-- Fill every sector of a parked frame. -/
def fillFrame (c t : Nat) (l : List Nat) : List Nat → State → Option State
  | [], s => some s
  | off :: rest, s => match frameSrc c t l off s with
    | some (_, s) => fillFrame c t l rest s
    | none => none

/-- Bytes and tags of a filled parked frame. -/
def parkedNat (s : State) (c : Nat) (l : List Nat) (off n : Nat) : Nat := leNat (readAt s (frameAt s c l off) (onLines l off) n)

/-- A released parked context takes slot `k`: it resumes, takes the trap delivered to it, or is DEAD (R376). -/
def takeParked (c k : Nat) (p : Parked) (s : State) : State :=
  match fillFrame c p.slot.tenant p.lines ((List.range 32).map fun i => 256 * i) s with
  | none => s
  | some s =>
    let rd (off n : Nat) : Nat := parkedNat s c p.lines off n
    let tg (off : Nat) : Bool := tagAt s (frameAt s c p.lines off) (onLines p.lines off)
    let y := readFullFrame rd tg p.slot
    let word := rd 0x178 8
    let tval := rd 0x188 8
    let old := s.slot c k
    let s := s.modCore c fun x => { x with parked := x.parked.erase p }
    let s := bumpCore c (s.setSlot c k { y with
      wait := { y.wait.clear with gen := (old.wait.gen + 1) % 2 ^ 16 }
      waitr := BitVec.ofNat 64 y.wait.word0, waitSince := s.clock, decl := none, overCount := 0, parkWant := none
      replies := [], ctxCount := old.ctxCount + 1, halted := old.halted, tomb := .none })
    match bits word 1 2 with
    | 0 => s
    | 1 => trapAt c k (bits word 8 8) tval (s.slot c k).pc s
    | _ => killSlot c k 0 s

/-- A free slot is reserved for an entry of the list, and the grant goes to its sender (R336, R337). -/
def grantSlot (c k : Nat) (r : Resv) (s : State) : State :=
  let s := bumpCore c (s.modCore c fun x => { x with resv := x.resv.erase r })
  { s with grants := s.grants ++ [(c, r)] }.modSlot c k fun y => { y with holds := .reserved, resvFor := some r }

/-- What waits takes slot `k`; where an arrival and a released context both wait, the turn goes to the other (R376). -/
def takeWaiting (c k : Nat) (w : Waiting) (s : State) : State :=
  let s := if (arrivalReady s c false).isSome && (parkedReady s c false).isSome
    then s.modCore c fun x => { x with parkTurn := !x.parkTurn } else s
  match w with
  | .arrival a => takeArrival c k a s
  | .parked p => takeParked c k p s

/-- A freed slot of a class is given: to the reservation list or to what waits, a general slot in turn when both wait (R336), slot 6
first to the list (DESIGN CHOICE, log 112); `none` when nothing is to be given. The turn bit is the general slots'. -/
def giveSlot (c : Nat) (urgent : Bool) (s : State) : Option State :=
  let bit_ (b : Bool) (s : State) : State := if urgent then s else s.modCore c fun x => { x with turnBit := b }
  match freeSlot s c urgent with
  | none => none
  | some k =>
    match firstResv s c urgent, waitingFor s c urgent with
    | none, none => none
    | some r, none => some (grantSlot c k r (bit_ false s))
    | none, some w => some (takeWaiting c k w (bit_ false s))
    | some r, some w =>
      let turn := !urgent && (s.core c).turnBit
      let s := bit_ (!(s.core c).turnBit) s
      some (if turn then takeWaiting c k w s else grantSlot c k r s)

/-- A released context of a composed core returns to its lead slot, which the composition has kept (R320, R376). -/
def returnComposed (c : Nat) (s : State) : Option State :=
  match (s.core c).comp with
  | none => none
  | some g =>
    if g.lead ≠ c ∨ (s.slot c g.slot).holds ≠ .empty then none
    else ((s.core c).parked.find? fun p => p.released && p.slot.composed && !s.absent.contains (p.slot.tenant, globalTile c)).map
      fun p => takeParked c g.slot p s

/-- A frame of the arrival queue is free for the first refused arrival (R338). -/
def giveFrame (c : Nat) (s : State) : Option State :=
  match (s.core c).resv.find? fun r => r.cls == .arrival && decide (r.slot < 64) with
  | none => none
  | some r =>
    if arrayRoom s c false || (ringNext s c (s.core c).vtabTenant).isSome then
      some (bumpCore c { s.modCore c fun x => { x with resv := x.resv.erase r } with grants := s.grants ++ [(c, r)] })
    else none

/-- SLOT_DISPATCH: a core gives the first thing that it can give (R320, R336 to R338). -/
def execSlotDispatch (c : Nat) (s : State) : Outcome State Fault Refusal :=
  match returnComposed c s with
  | some t => .next t
  | none => match giveSlot c false s with
    | some t => .next t
    | none => match (if isKeystone c then none else giveSlot c true s) with
      | some t => .next t
      | none => .next ((giveFrame c s).getD s)

/-! Service contexts (R372). -/

/-- The oldest frame of a keystone that waits for a context and before which no call of its token is to be served (R323, R372). -/
def oldestFrame (s : State) (ks : Nat) : Option (Nat × Place) :=
  ((s.core ks).frames.filter fun p => !p.2.dispatched
      && !callBefore s (fun c k => !framed s true c k) p.2.core p.2.slot).foldl (fun b p => match b with
    | some q => if p.2.order < q.2.order then some p else some q
    | none => some p) none

/-- A keystone context that starts at its entry block (R372, R417). -/
def serviceContext (s : State) (c k : Nat) (y : Slot) : Slot :=
  let cap (off : Nat) : Reg := ⟨BitVec.ofNat 128 (leNat (physBytes s (localKey c off) 16)), physTag s (localKey c off)⟩
  { y with
    holds := .thread, mode := .service, pcc := cap 0, c := [(12, cap (0x10 + 16 * k))]
    domain := localWord s c 0x50 % 256, prio := localWord s c 0x50 / 256 % 16 }

/-- SERVICE_TRAP_DISPATCH: a held slot in line takes a free place, and the oldest frame goes to a free context of the keystone
(R371, R372). -/
def execServiceTrapDispatch (c : Nat) (s : State) : Outcome State Fault Refusal :=
  if !isKeystone c then .next s
  else
    let s0 := s
    let s := placeNext c s
    match oldestFrame s c with
    | none => .next s
    | some (p, o) =>
      if o.slot = 0xFFFF then .next (bumpOnce c s0 (freeFrame c p s))
      else match freeSlot s c false with
        | none => .next s
        | some k =>
          let base := 0xFFFFFFFF00000 + placeOff p
          let w (off : Nat) : Nat := localWord s c (placeOff p + off)
          let s := s.modCore c fun x => { x with frames := SMap.put x.frames p { o with dispatched := true } }
          .next (bumpOnce c s0 (place c k 0 (fun y =>
            let z := serviceContext s c k y
            { z with
              tenant := (s.slot o.core o.slot).tenant, origin := some p
              c := [(0, mkCap 0x1B 0 512 base base), (1, Reg.ofNat (w 0x180 % 256)), (2, Reg.ofNat (w 0x188)),
                (3, Reg.ofNat (w 0x140 / 2 ^ 32))] ++ z.c }) s))

/-! Parks and records that wait (R374, R378). -/

/-- PARK_FRAME_WAIT: a context that waits in its slot is parked once it can be (R374). -/
def execParkFrameWait (c k : Nat) (s : State) : Outcome State Fault Refusal := .next (tryPark c k s)

/-- FAULT_RECORD_POST: the oldest record of the tenant that waits is posted when the ring has space (R378). -/
def execFaultRecordPost (t : Nat) (s : State) : Outcome State Fault Refusal :=
  match s.records.find? fun r => r.tenant == t with
  | none => .next s
  | some r => match postNow r s with
    | some (_, u) => .next { u with records := u.records.erase r }
    | none => .next s

end Sys2Proof.Machine
end

