-- ==== Sys2Proof/Machine/MemoryEvents.lean ====
section
/-! DEFINITION. Hardware events of the memory system: walks and fills (R22, R34, R41, R54), accesses that arrive at their homes and
banks (R53, R58, R92, R187, R192), responses (R255), scrubbing (R29, R30, R60), the Wenlek controller's window (R16, R59). -/

namespace Sys2Proof.Machine

open Host (Outcome)

/-! Walks and fills. -/

/-- WALK: a die's walker walks an address and keeps the valid entries it has read (R34, R37); sets are those of the service table. -/
def execWalk (die va : Nat) (s : State) : Outcome State Fault Refusal := .next (cacheWalk die va (walk s die va 256).2 s)

/-- The agent that a core's caches fill for: its own tenant. -/
def whoCore (s : State) (c : Nat) : Who := whoFrame c (s.core c).vtabTenant

/-- PLACEMENT_CACHE_FILL (R22): a fault fills nothing; what the walk read is kept (R33, R37). -/
def execPlacementCacheFill (c va : Nat) (s : State) : Outcome State Fault Refusal :=
  match placementOf (whoCore s c) va s with
  | .ok _ t | .exc _ t | .stall t => .next t

/-- PLB_MISS (R41): a poisoned entry fills nothing; what the walk read is kept (R33). -/
def execPlbMiss (c dom va : Nat) (s : State) : Outcome State Fault Refusal :=
  match rightsOf { whoCore s c with dom := dom } va s with
  | .ok _ t | .exc _ t | .stall t => .next t

/-- SECTOR_FILL (R54): the home of an address fills its sector; a fault fills nothing. -/
def execSectorFill (c va : Nat) (s : State) : Outcome State Fault Refusal :=
  if inWindow va then .next s
  else match homeOf (whoCore s c) va s with
    | .ok h t =>
      if h ≠ c then .next s
      else match locate (whoCore s c) va 0 false t with
        | .ok _ t | .exc _ t => .next t
        | .stall _ => .next s
    | .exc _ t => .next t
    | .stall _ => .next s

/-- MISS_WAY_RELEASE: a set of a slice whose lines misses have waited for releases a line (R50). -/
def execMissWayRelease (tile set : Nat) (s : State) : Outcome State Fault Refusal :=
  .next (if s.missWait.contains (tile, set) then releaseWay tile set { s with missWait := s.missWait.erase (tile, set) } else s)

/-! Accesses on their way (R187). -/

/-- An earlier access of the same agent to some of the same bytes is still on its way (R187 rows 1 and 2, R412); other parts of one
instruction have no order. -/
def behindFlight (s : State) (i : Nat) (f : Flight) : Bool :=
  let len (g : Flight) : Nat := if g.op = 1 then g.bytes.length else g.size
  (s.flights.take i).any fun g => g.core == f.core && g.slot == f.slot && g.reply.isNone
    && decide (g.va < f.va + len f) && decide (f.va < g.va + len g)

/-- Another slot's instruction holds the line of an access (R281). -/
def lineTaken (s : State) (f : Flight) : Bool :=
  s.lineHolds.any fun h => h.2.2 == holdKey f.core f.va && !(h.1 == f.core && h.2.1 == f.slot)

/-- Flight `i`, a load or store, arrives and is performed, if the predicate admits it and nothing is before it: a store leaves the
list, a load keeps its reply. -/
def arriveFlight (i : Nat) (p : Flight → Bool) (s : State) : State :=
  match s.flights[i]? with
  | none => s
  | some f => if !p f || decide (2 ≤ f.op) || f.reply.isSome || behindFlight s i f || lineTaken s f then s else landFlight f s

/-- REMOTE_WORD_ACCESS: an access arrives at its home (R53). -/
def execRemoteWordAccess (i : Nat) (s : State) : Outcome State Fault Refusal :=
  .next (arriveFlight i (fun f => match f.src with | .cached _ _ => true | _ => false) s)

/-- BANK_WINDOW_ACCESS: an access arrives at another core's bank (R92). -/
def execBankWindowAccess (i : Nat) (s : State) : Outcome State Fault Refusal :=
  .next (arriveFlight i (fun f => match f.src with | .bank _ _ => true | _ => false) s)

/-- BY_STORE_ACK: memory acknowledges a .by access (R57, R58). -/
def execByStoreAck (i : Nat) (s : State) : Outcome State Fault Refusal :=
  .next (arriveFlight i (fun f => match f.src with | .frame _ _ => true | _ => false) s)

/-- A lock or channel operation in the owner slot of its home (R270, R310). -/
def serve (i : Instr) (s : State) : State :=
  match i with
  | .rwlr d a t => lockOp d a t false true s
  | .rwlw d a t => lockOp d a t true true s
  | .rwur a => unlockOp a false true s
  | .rwuw a => unlockOp a true true s
  | .chopen d a b => chopen d a b true s
  | .chprod a => chprod a true s
  | .chput a b => chput a b true s
  | .chget d g a => chget d g a true s
  | .cheos a => cheos a true s
  | .chclose a => chclose a true s
  | _ => s

/-- An operation of an owner queue runs (R192, R326): an atomic keeps its reply; a lock or channel operation acts for the slot that
asked; a message of an owner type is hardware's own. -/
def runOwner (f : Flight) (s : State) : State :=
  let gone : State := { s with flights := s.flights.erase f }
  match f.op, f.act with
  | 2, _ => landFlight f s
  | 3, some i => { serve i { gone with curCore := f.core, curSlot := f.slot } with curCore := s.curCore, curSlot := s.curSlot }
  | _, _ => gone

/-- OWNER_SLOT_HANDLER: slot 7 of a core runs the oldest operation of its owner queue (R192, R339), unless its line is held (R281).
When the issue before ended such a handler and another slot can issue, that one comes first (R341). -/
def execOwnerSlotHandler (c : Nat) (s : State) : Outcome State Fault Refusal :=
  if (s.core c).ended && !(ableSlots s c []).isEmpty then .next s
  else match ownerQueue s c with
    | [] => .next s
    | f :: _ =>
      if lineTaken s f then .next s
      else .next (grantOwner c ((runOwner f s).modCore c fun x => { x with ended := true }))

/-- ACCESS_RESPONSE: the oldest value that has been taken for an agent returns to it (R255). -/
def execAccessResponse (c k : Nat) (s : State) : Outcome State Fault Refusal :=
  match s.flights.findIdx? fun f => f.core == c && f.slot == k && f.reply.isSome with
  | some i => match s.flights[i]? with
    | some f => match f.reply with
      | some r => .next (addReply ⟨c, k, 0, 0, 0, 0, 0⟩ r { s with flights := s.flights.eraseIdx i })
      | none => .next s
    | none => .next s
  | none => .next s

/-! Scrubbing (R29, R30, R60). -/

/-- A memory-error record goes to the Wenlek controller. -/
def memoryError (a : Nat) (s : State) : State :=
  { s with wenlek := { s.wenlek with telemetry := s.wenlek.telemetry ++ [[0, a]] } }

/-- An uncorrectable error in the slice's copy of a granule (R52, R60): a clean sector is dropped, a dirty granule is poisoned with a
record. While the bank has the newer copy nothing is lost; while it has a clean copy the poison shows once that is gone. -/
def sliceError (home va : Nat) (s : State) : State :=
  let x := s.line home va
  let sec := sectorOf va
  if x.dirty.contains sec then
    if x.bankValid.contains sec then
      memoryError va { s with lines := SMap.put s.lines (lineKey home va) { x with hurt := va % 1024 / 64 :: x.hurt } }
    else memoryError va { s with cpoison := SMap.set false s.cpoison (cacheKey home va / 64) true }
  else if x.bankDirty.contains sec then s
  else dropSector home va s

/-- An uncorrectable error in a bank's copy of a granule (R60): a clean copy goes and leaves the slice's. -/
def bankError (home va : Nat) (s : State) : State :=
  let x := s.line home va
  let sec := sectorOf va
  if x.bankDirty.contains sec then memoryError va { s with cpoison := SMap.set false s.cpoison (cacheKey home va / 64) true }
  else if x.bankValid.contains sec then
    let s := showHurt (lineKey home va) (· == sec) s
    { s with lines := SMap.put s.lines (lineKey home va) { s.line home va with bankValid := x.bankValid.erase sec } }
  else s

/-- A word that stands in queue or port `q` of a core, ports from 8, is found bad (R383). -/
def wordError (c q i : Nat) (s : State) : State :=
  let l := if q < 8 then (s.core c).queue q else (s.core c).port (q - 8)
  if i < l.length ∧ (s.core c).qerr.contains (16 + q, i) = false then s.modCore c fun x => { x with qerr := x.qerr ++ [(16 + q, i)] }
  else s

/-- SCRUB: a granule is read and corrected, or found bad (R29, R30, R60; log 15). Granule numbers below 2^46 are memory's; from 2^46
they name a home's slice copy, from 2^61 its bank's copy, numbers from 2^60 the state of slot n mod 8 of core n div 8, and from
2^60 + 2^32 word n mod 32 of queue or port n div 32 mod 16 of core n div 512. Only memory's corrections are counted. -/
def execScrub (g : Nat) (bad : Bool) (s : State) : Outcome State Fault Refusal :=
  let copy (key : Nat) (f : Nat → Nat → State → State) : State :=
    if cachedAt s (key / 2 ^ 46) (key % 2 ^ 46 * 64) then f (key / 2 ^ 46) (key % 2 ^ 46 * 64) s else s
  if !bad then .next (if g < 2 ^ 46 then { s with wenlek := { s.wenlek with corrected := s.wenlek.corrected + 1 } } else s)
  else if g < 2 ^ 46 then
    if inTier s (g * 64) then .next (memoryError (g * 64) { s with poison := SMap.set false s.poison g true }) else .next s
  else if g < 2 ^ 60 then .next (copy (g - 2 ^ 46) sliceError)
  else if 2 ^ 60 + 2 ^ 32 ≤ g ∧ g < 2 ^ 61 then
    let n := g - 2 ^ 60 - 2 ^ 32
    .next (wordError (n / 512) (n / 32 % 16) (n % 32) s)
  else if g < 2 ^ 61 then .next (slotError ((g - 2 ^ 60) / 8) ((g - 2 ^ 60) % 8) s)
  else .next (copy (g - 2 ^ 61) bankError)

/-! Physical windows (R15, R16, R59). -/

/-- The place in memory that `n` bytes at a device physical address name; `none` for an error response: a reserved range,
nothing addressed, a cache-role bank (R16). -/
def physPlace (s : State) (a n : Nat) : Option Nat :=
  if inTier s a && inTier s (a + n - 1) && (inNear s a == inNear s (a + n - 1)) then some a
  else if 0x03FF00000000 ≤ a ∧ a + n ≤ 0x040000000000 then
    let off := a - 0x03FF00000000
    match coreAt (bits off 30 2) (bits off 24 6) (bits off 18 6) with
    | some c =>
      let o := bits off 0 18
      let last := o + n - 1
      if last < 2 ^ 18 && (List.range (touched 8192 o n)).all fun i => bankRole s c (o / 8192 + i) != 1 then some (localKey c o)
      else none
    | none => none
  else none

/-- Where the rest of the device physical map goes (R15): the bytes of a host window to its link, those of a peer window to the same
offset in the peer's own map, on its first link that is up (DESIGN CHOICE, log 128). The link and the address there; no link
and the device for an absent peer; `none` where `n` bytes lie in no one window. -/
def physAway (s : State) (a n : Nat) : Option (Option Nat × Nat) :=
  let z := a + n - 1
  if inHost a && inHost z && hostLink a == hostLink z then some (some (hostLink a), a)
  else if inPeer a && inPeer z && (a - 0xC00000000000) / 2 ^ 42 == (z - 0xC00000000000) / 2 ^ 42 then
    let d := (a - 0xC00000000000) / 2 ^ 42
    match peerLink s d 0 0 with
    | some link => some (some link, a % 2 ^ 42)
    | none => some (none, d)
  else none

/-- The Wenlek controller as an agent of the links: slot 22 is no slot. -/
def whoWenlek : Who := ⟨0, 22, 0xFFFFFFFF, 0xFFFFFFFF, 0, 0, 256⟩

/-- The controller's report of an access: 0 done, 1 an error, 2 poison; the address, the bytes read. -/
def wenlekReport (l : List Nat) (s : State) : State := { s with wenlek := { s.wenlek with reports := s.wenlek.reports ++ [l] } }

/-- WENLEK_WINDOW_ACCESS: the controller reads or writes through a physical window; what it reads goes to its reports, from a link
once the answer has come. -/
def execWenlekWindowAccess (a n : Nat) (data : Option (List Nat)) (s : State) : Outcome State Fault Refusal :=
  let n := match data with | some l => l.length | none => n
  match physPlace s a n with
  | some p => match data with
    | some l => .next (physWrite p (l.map fun b => BitVec.ofNat 8 b) false s)
    | none => .next (wenlekReport (0 :: a :: (physBytes s p n).map BitVec.toNat) s)
  | none => match physAway s a n with
    | none => .next (wenlekReport [1, a] s)
    | some (none, _) => .next (wenlekReport [2, a] s)
    | some (some link, b) =>
      let bytes : List Byte := (data.getD []).map fun b => BitVec.ofNat 8 b
      .next ((sendRequest link (mkRequest whoWenlek (if data.isSome then 2 else 1) b a n bytes 0 0 0 false false true) s).getD s)

end Sys2Proof.Machine
end

