-- ==== Sys2Proof/Machine/Vector.lean ====
section
/-! DEFINITION. Vector memory access (R278 to R281), vector arithmetic, permutation, reductions, conversions, sparse support and
masks (R276, R282 to R293). -/

namespace Sys2Proof.Machine

open Host (Outcome)

/-! Lanes (R108, R276). -/

/-- The element width of an ew field (R213). -/
def ewBits (ew : Nat) : Nat := 8 * 2 ^ ew

def laneCount (w : Nat) : Nat := 512 / w

def lane (x : BitVec 512) (w i : Nat) : Nat := bits x.toNat (w * i) w

/-- A register from its lanes, lane 0 first. -/
def ofLanes (w : Nat) : List Nat → Nat
  | [] => 0
  | x :: l => x % 2 ^ w + 2 ^ w * ofLanes w l

def vecOf (w : Nat) (l : List Nat) : BitVec 512 := BitVec.ofNat 512 (ofLanes w l)

def Slot.active (y : Slot) (k i : Nat) : Bool := (y.kr k).getLsbD i

/-- The active lanes of `n`. -/
def Slot.actives (y : Slot) (k n : Nat) : List Nat := (List.range n).filter (y.active k)

/-- Write the active lanes of vd; the others keep their contents. -/
def Slot.setLanes (y : Slot) (d k w : Nat) (f : Nat → Nat) : Slot :=
  y.setV d (vecOf w ((List.range (laneCount w)).map fun i => if y.active k i then f i else lane (y.vr d) w i))

/-- A vector instruction on vector registers only. -/
def vecOp (f : Slot → Slot) (s : State) : State := complete 4 (s.modMe f)

/-- A lane operation on two vectors. -/
def laneOp2 (w d a b k : Nat) (f : Nat → Nat → Nat → Nat) (s : State) : State :=
  vecOp (fun y => y.setLanes d k w fun i => f i (lane (y.vr a) w i) (lane (y.vr b) w i)) s

/-! Memory access (R278, R279). -/

/-- Check every part; each failure keeps its address, in lane order. -/
def checkParts (w : Who) (r : Reg) (n perms align need : Nat) : List Int → State → List (Exc × Int) × State
  | [], s => ([], s)
  | ea :: l, s =>
    match memCheck w r ea n perms align need s with
    | .ok _ s => checkParts w r n perms align need l s
    | .stall s => checkParts w r n perms align need l s
    | .exc e s => let (es, s) := checkParts w r n perms align need l s
                  ((e, ea) :: es, s)

/-- The priority of a cause in R257. -/
def causeRank (e : Exc) : Nat :=
  match e with
  | .vec c _ => if c = 0x14 then 6 else c
  | .svc c _ _ => if c = 0x06 then 7 else 8
  | .park _ _ => 9
  | .poison _ => 10

/-- The failure of the highest priority, the lowest lane first. -/
def worst : List (Exc × Int) → Option (Exc × Int)
  | [] => none
  | x :: l => match worst l with
    | some y => if causeRank y.1 < causeRank x.1 then some y else some x
    | none => some x

/-- One part of a vector load as it has gone so far: its value, none while that is to come, or the exception that it met. -/
inductive Part where
  | got (r : Reply)
  | due
  | bad (e : Exc)
  deriving DecidableEq, Repr

/-- Obtain the part of `n` bytes at `va` at its home (R279). -/
def obtain (w : Who) (n va : Nat) (s : State) : Part × State :=
  match findReply w va n s with
  | some r => (.got r, s)
  | none => match locate w va 0 false s with
    | .ok src s => match loadPart w 0 false (va, n, src) s with
      | (some r, s) => (.got r, s)
      | (none, s) => (.due, s)
    | .stall s => (.due, s)
    | .exc e s => (.bad e, s)

def obtainAll (w : Who) (n : Nat) : List Int → State → List (Int × Part) × State
  | [], s => ([], s)
  | ea :: l, s =>
    let (p, s) := obtain w n (vaOf ea) s
    let (ps, s) := obtainAll w n l s
    ((ea, p) :: ps, s)

def Part.exc (p : Int × Part) : Option (Exc × Int) :=
  match p.2 with
  | .bad e => some (e, p.1)
  | _ => none

/-- Load every part (R279): all are obtained at their homes first; what parts then meet ranks as in R257, poison last. -/
def loadMany (w : Who) (n : Nat) (eas : List Int) (s : State) : Res (List Nat) :=
  let r := obtainAll w n eas (eas.foldl (fun s ea => drainLine w.core w.slot (vaOf ea) s) s)
  if r.1.any (fun p => p.2 == .due) || awaits w r.2 then .stall r.2
  else match worst (r.1.filterMap Part.exc) with
    | some (e, _) => .exc e r.2
    | none =>
      let l := r.1.filterMap fun p => match p.2 with | .got x => some x | _ => none
      match l.find? Reply.poison with
      | some x => .exc (.poison x.bad) r.2
      | none => .ok (l.map fun x => leNat (overlay w x.va ⟨x.bytes, x.tags, none⟩ r.2).bytes) r.2

/-- Put a part before those of higher lines. -/
def byLine (p : Nat × Nat) : List (Nat × Nat) → List (Nat × Nat)
  | [] => [p]
  | q :: l => if q.1 / 1024 < p.1 / 1024 then q :: byLine p l else p :: q :: l

/-- Make every part of a store or atomic ready at its home, in ascending order of line address (R279, R281): the parts in their
own order, with their places. -/
def readyAll (w : Who) (l : List (Nat × Nat)) (s : State) : Res (List (Nat × Nat × Src)) :=
  let s := l.foldl (fun s p => drainLine w.core w.slot p.1 s) s
  (locateParts w 0 true (l.foldr byLine []) s).bind fun r s =>
    .ok (l.filterMap fun p => r.find? fun q => q.1 == p.1) s

/-- The parts of one instruction write the whole granule of 64 bytes that `va` lies in (R30). -/
def wholeGranule (l : List (Nat × Nat)) (va : Nat) : Bool :=
  (List.range 64).all fun i => l.any fun p => decide (p.1 ≤ va / 64 * 64 + i) && decide (va / 64 * 64 + i < p.1 + p.2)

/-- Stores of several parts as one instruction: all are ready before any is performed; an unexposed activation buffers them
when all are its own core's (R97, R279). -/
def storeMany (w : Who) (l : List (Nat × List Byte)) (s : State) : Res Unit :=
  let ps := l.map fun p => (p.1, p.2.length)
  let data := (l.map Prod.snd).flatten
  (readyAll w ps s).bind fun r t =>
    let y := t.slot w.core w.slot
    match (if y.holds = .activation ∧ y.exposed = false then buffered w 0 false (wholeGranule ps) r data t else none) with
    | some b => .ok () (t.modSlot w.core w.slot fun y => { y with commit := b })
    | none => (expose w.core w.slot t).bind fun _ t =>
      match storeParts w 0 false false (wholeGranule ps) r data t with
      | some t => .ok () t
      | none => .stall s

/-- The trap of a failed part; TVAL is its effective address. -/
def raisePart (n : Nat) (write : Bool) (e : Exc) (ea : Int) (s : State) : State :=
  raise ⟨toField 64 ea, n, write, false⟩ e s

/-- The address of the part that an exception belongs to. -/
def partOf (l : List Int) (n : Nat) (e : Exc) : Int :=
  (l.find? fun ea => vaOf ea ≤ e.at_ && e.at_ < vaOf ea + n).getD (l.headD 0)

/-- Each part of a vector access trains the predictor (R56, R183). -/
def trainParts (l : List Int) (n : Nat) (s : State) : State := l.foldl (fun s ea => trainMe (vaOf ea) n s) s

/-- A vector load: parts of `n` bytes at the addresses, written by `f` once all have returned. -/
def vecLoad (reads : List Nat) (r : Reg) (n align : Nat) (eas : List Int) (f : Slot → List Nat → Slot) (s t : State) :
    State :=
  let w := whoMe t
  let (bad, t) := checkParts w r n 1 align 1 eas t
  match worst bad with
  | some (e, ea) => raisePart n false e ea s
  | none => match loadMany w n eas t with
    | .ok vs t => complete 4 ((trainParts eas n t).modMe fun y => f y vs)
    | .stall t => stallOp reads [] s t
    | .exc e _ => raisePart n false e (partOf eas n e) s

/-- A vector store: the addresses that are checked, and the parts with their bytes. -/
def vecStore (reads : List Nat) (r : Reg) (n align : Nat) (eas : List Int) (l : List (Int × List Byte)) (s t : State) : State :=
  let w := whoMe t
  let (bad, t) := checkParts w r n 2 align 2 eas t
  match worst bad with
  | some (e, ea) => raisePart n true e ea s
  | none => match storeMany w (l.map fun p => (vaOf p.1, p.2)) t with
    | .ok _ t => complete 4 (trainParts (l.map Prod.fst) n t)
    | .stall t => stallOp reads [] s t
    | .exc e _ => raisePart n true e (partOf eas n e) s

/-- The four parts of VLD and VST. -/
def quarters (ea : Int) : List Int := [ea, ea + 16, ea + 32, ea + 48]

def execVld (d a : Nat) (imm : Int) (s : State) : Outcome State Fault Refusal :=
  match issue [a] [] s with
  | .stop t => .next t
  | .go vs t =>
    let r := vs.getD 0 .zero
    .next (vecLoad [a] r 16 16 (quarters (r.cursor + imm)) (fun y vs => y.setV d (vecOf 128 vs)) s t)

/-- Give the loaded elements to the active lanes, in lane order. -/
def Slot.fillLanes (y : Slot) (d k w : Nat) (vs : List Nat) : Slot :=
  y.setLanes d k w fun i => vs.getD ((y.actives k i).length) 0

/-- Lane addresses: strided by a register, or indexed by a vector scaled by the element (R278, R280). -/
def strideAt (r : Reg) (stride : Word) (i : Nat) : Int := r.cursor + i * stride.toInt
def indexAt (r : Reg) (x : BitVec 512) (w i : Nat) : Int := r.cursor + (lane x w i * (w / 8) : Nat)

def execVlds (d a x k ew : Nat) (s : State) : Outcome State Fault Refusal :=
  match issue [a, x] [] s with
  | .stop t => .next t
  | .go vs t =>
    let r := vs.getD 0 .zero
    let w := ewBits ew
    let eas := (t.me.actives k (laneCount w)).map (strideAt r (vs.getD 1 .zero).word)
    .next (vecLoad [a, x] r (w / 8) (w / 8) eas (fun y vs => y.fillLanes d k w vs) s t)

def execVgath (d a x k ew : Nat) (s : State) : Outcome State Fault Refusal :=
  match issue [a] [] s with
  | .stop t => .next t
  | .go vs t =>
    let r := vs.getD 0 .zero
    let w := ewBits ew
    let eas := (t.me.actives k (laneCount w)).map (indexAt r (t.me.vr x) w)
    .next (vecLoad [a] r (w / 8) (w / 8) eas (fun y vs => y.fillLanes d k w vs) s t)

def execVst (b a : Nat) (imm : Int) (s : State) : Outcome State Fault Refusal :=
  match issue [a] [] s with
  | .stop t => .next t
  | .go vs t =>
    let r := vs.getD 0 .zero
    let l := (quarters (r.cursor + imm)).zipIdx.map fun p => (p.1, leBytes 16 (lane (t.me.vr b) 128 p.2))
    .next (vecStore [a] r 16 16 (l.map Prod.fst) l s t)

/-- Parts of one instruction are unordered (R279): which one is last matters where a stride of 0 gives all one address. -/
def partOrder (stride : Word) (tick : Nat) (l : List α) : List α :=
  if stride = 0 then l.rotateLeft (Config.lastPart tick) else l

def execVsts (b a x k ew : Nat) (s : State) : Outcome State Fault Refusal :=
  match issue [a, x] [] s with
  | .stop t => .next t
  | .go vs t =>
    let r := vs.getD 0 .zero
    let stride := (vs.getD 1 .zero).word
    let w := ewBits ew
    let l := (t.me.actives k (laneCount w)).map fun i => (strideAt r stride i, leBytes (w / 8) (lane (t.me.vr b) w i))
    .next (vecStore [a, x] r (w / 8) (w / 8) (l.map Prod.fst) (partOrder stride t.tick l) s t)

/-- The active lanes whose index no higher active lane has (R278). -/
def lastLanes (y : Slot) (x k w : Nat) : List Nat :=
  let l := y.actives k (laneCount w)
  l.filter fun i => l.all fun j => !(decide (i < j) && lane (y.vr x) w i == lane (y.vr x) w j)

/-- Every active lane is checked; of the lanes with one index the highest is stored (R278, R279). -/
def execVscat (b a x k ew : Nat) (s : State) : Outcome State Fault Refusal :=
  match issue [a] [] s with
  | .stop t => .next t
  | .go vs t =>
    let r := vs.getD 0 .zero
    let w := ewBits ew
    let l := (lastLanes t.me x k w).map fun i => (indexAt r (t.me.vr x) w i, leBytes (w / 8) (lane (t.me.vr b) w i))
    .next (vecStore [a] r (w / 8) (w / 8) ((t.me.actives k (laneCount w)).map (indexAt r (t.me.vr x) w)) l s t)

/-! VSCATA (R281). -/

def fmtOf (ew : Nat) : Fmt := match ew with | 1 => fp16 | 2 => fp32 | _ => fp64

/-- A sum of two lane values: wrapping, or rounded once. -/
def scatSum (float : Bool) (ew core i : Nat) (x y : Nat) : Nat :=
  if float then fpAdd (fmtOf ew) (core, i) ((fmtOf ew).read x) ((fmtOf ew).read y) else (x + y) % 2 ^ ewBits ew

/-- The active lanes that are the first with their index. -/
def firstLanes (y : Slot) (x k w : Nat) : List Nat :=
  let l := y.actives k (laneCount w)
  l.filter fun i => l.all fun j => !(decide (j < i) && lane (y.vr x) w i == lane (y.vr x) w j)

/-- What the lanes of one index add up to, in ascending order. -/
def combined (y : Slot) (b x k ew core i : Nat) (float : Bool) : Nat :=
  let w := ewBits ew
  ((y.actives k (laneCount w)).filter fun j => decide (i < j) && lane (y.vr x) w j == lane (y.vr x) w i).foldl
    (fun v j => scatSum float ew core j v (lane (y.vr b) w j)) (lane (y.vr b) w i)

/-- The distinct elements: lane, address, sum. -/
def scatElems (y : Slot) (r : Reg) (b x k ew core : Nat) (float : Bool) : List (Nat × Int × Nat) :=
  (firstLanes y x k (ewBits ew)).map fun i =>
    (i, indexAt r (y.vr x) (ewBits ew) i, combined y b x k ew core i float)

/-- The mark that the device elements of this instruction are written and the others asked for: the lanes of those on links. -/
def scatDone (l : List Nat) : Reply := ⟨2 ^ 52, l.map (BitVec.ofNat 8), [], false, 0⟩

/-- The lanes of a mark, once it is there. -/
def scatMark (w : Who) (s : State) : Option (List Nat) :=
  ((repliesOf w s).find? fun r => r.va == 2 ^ 52).map fun r => r.bytes.map BitVec.toNat

/-- Ask for the update of every element on a link; `none` where a link cannot take one yet. An absent peer answers with poison. -/
def askLinks (w : Who) (n amo : Nat) : List (Nat × Int × Nat × Src) → State → Option State
  | [], s => some s
  | (i, ea, v, src) :: l, s =>
    let va := vaOf ea
    match (match src with
      | .host link pa => sendRequest link (mkRequest w 3 pa va n [] amo v 0 false false true) s
      | .peer d home => match peerLink s d w.core home with
        | some link => sendRequest link (mkRequest w 3 va va n [] amo v (if amo = 15 then w.core * 512 + i else 0) false false false) s
        | none => some (addReply w ⟨va, List.replicate n 0, [], true, va⟩ s)
      | _ => some s) with
    | some s => askLinks w n amo l s
    | none => none

/-- The lines of the device's own elements are held from now until the instruction ends; what was on its way to them has arrived
(R281). -/
def holdLines (w : Who) (l : List Nat) (s : State) : State :=
  let s := settle (fun f => decide (f.op ≤ 2) && l.contains (holdKey f.core f.va)) s
  { s with lineHolds := s.lineHolds ++ l.eraseDups.map fun n => (w.core, w.slot, n) }

/-- The instruction ends: its lines are released. -/
def releaseLines (w : Who) (s : State) : State :=
  { s with lineHolds := s.lineHolds.filter fun h => !(h.1 == w.core && h.2.1 == w.slot) }

/-- The end of a VSCATA.at whose device elements are written: every answer of a link is back, a poisoned one of the lowest lane
traps (R281). -/
def scatEnd (n : Nat) (elems : List (Nat × Int × Nat)) (far : List Nat) (s t : State) : State :=
  let w := whoMe t
  let l := elems.filter fun e => far.contains e.1
  if l.any fun e => (findReply w (vaOf e.2.1) n t).isNone then stallMe t
  else
    let t := releaseLines w t
    match l.find? fun e => ((findReply w (vaOf e.2.1) n t).map Reply.poison).getD false with
    | some e => raisePart n true (.poison (vaOf e.2.1)) e.2.1 (unpop s t)
    | none => complete 4 t

/-- VSCATA.at once its checks are passed: every element is read before any is written (R281). -/
def scatAtomic (a ew : Nat) (float : Bool) (elems : List (Nat × Int × Nat)) (s t : State) : State :=
  let w := whoMe t
  let n := ewBits ew / 8
  match readyAll w (elems.map fun e => (vaOf e.2.1, n)) t with
  | .exc e t => raisePart n true e (partOf (elems.map fun e => e.2.1) n e) (unpop s t)
  | .stall t => stallOp [a] [] s t
  | .ok places t =>
    let l := (elems.zip places).map fun p => (p.1.1, p.1.2.1, p.1.2.2, p.2.2.2)
    let far := l.filter fun e => isLink e.2.2.2
    let near := l.filter fun e => !isLink e.2.2.2
    let t := holdLines w (near.map fun e => holdKey w.core (vaOf e.2.1)) t
    match near.find? fun e => poisonAt t e.2.2.2 (vaOf e.2.1) n with
    | some e => raisePart n true (.poison ((poisonedAt t e.2.2.2 (vaOf e.2.1) n).getD 0)) e.2.1 (unpop s (releaseLines w t))
    | none =>
      let put (e : Nat × Int × Nat × Src) (t : State) : State :=
        let old := leNat (readAt t e.2.2.2 (vaOf e.2.1) n)
        writeAt e.2.2.2 (vaOf e.2.1) (leBytes n (scatSum float ew t.curCore e.1 old e.2.2.1)) false t
      let u := near.foldl (fun t e => put e t) t
      if far.isEmpty then complete 4 (releaseLines w u)
      else match askLinks w n (if float then 15 else 0) far u with
        | none => stallOp [a] [] s (releaseLines w t)
        | some u => stallOp [a] [] s (addReply w (scatDone (far.map Prod.fst)) u)

/-- VSCATA (R281). -/
def scatAdd (b a x k ew : Nat) (atm float : Bool) (s : State) : State :=
  match issue [a] [] s with
  | .stop t => t
  | .go vs t =>
    let r := vs.getD 0 .zero
    let w := whoMe t
    let n := ewBits ew / 8
    let elems := scatElems t.me r b x k ew t.curCore float
    match scatMark w t with
    | some far => scatEnd n elems far s t
    | none =>
      let eas := (t.me.actives k (laneCount (ewBits ew))).map (indexAt r (t.me.vr x) (ewBits ew))
      let onHosts := if atm && float then eas.filter fun ea => (capCheck r ea n 3 n).isNone && !inWindow (vaOf ea)
          && onHost w (vaOf ea) t else []
      let (bad, t) := checkParts w r n 3 n 3 eas t
      match worst (onHosts.map (fun ea => (.vec 0x05 (vaOf ea), ea)) ++ bad) with
      | some (e, ea) => raisePart n true e ea s
      | none =>
        if atm then exposing [a] [] s t fun t => scatAtomic a ew float elems s t
        else
          let eas := elems.map fun e => e.2.1
          match loadMany w n eas t with
          | .stall t => stallOp [a] [] s t
          | .exc e _ => raisePart n true e (partOf eas n e) s
          | .ok olds t =>
            let sums := (elems.zip olds).map fun p => (vaOf p.1.2.1, leBytes n (scatSum float ew t.curCore p.1.1 p.2 p.1.2.2))
            match storeMany w sums t with
            | .ok _ t => complete 4 (trainParts (eas ++ eas) n t)
            | .stall t => stallOp [a] [] s t
            | .exc e _ => raisePart n true e (partOf eas n e) s

def execVscataAdd (b a x k ew : Nat) (atm : Bool) (s : State) : Outcome State Fault Refusal :=
  .next (scatAdd b a x k ew atm false s)
def execVscataFadd (b a x k ew : Nat) (atm : Bool) (s : State) : Outcome State Fault Refusal :=
  .next (scatAdd b a x k ew atm true s)

/-! Integer arithmetic (R282). -/

def vint (d a b k ew : Nat) (f : Nat → Nat → Nat → Int) (s : State) : State :=
  let w := ewBits ew
  laneOp2 w d a b k (fun _ x y => toField w (f w x y)) s

def execVadd (d a b k ew : Nat) (s : State) : Outcome State Fault Refusal := .next (vint d a b k ew (fun _ x y => x + y) s)
def execVsub (d a b k ew : Nat) (s : State) : Outcome State Fault Refusal := .next (vint d a b k ew (fun _ x y => x - y) s)
def execVmul (d a b k ew : Nat) (s : State) : Outcome State Fault Refusal := .next (vint d a b k ew (fun _ x y => x * y) s)
def execVmulh (d a b k ew : Nat) (s : State) : Outcome State Fault Refusal :=
  .next (vint d a b k ew (fun w x y => sext w x * sext w y / 2 ^ w) s)
def execVmulhu (d a b k ew : Nat) (s : State) : Outcome State Fault Refusal :=
  .next (vint d a b k ew (fun w x y => (x * y / 2 ^ w : Nat)) s)
def execVmin (d a b k ew : Nat) (s : State) : Outcome State Fault Refusal :=
  .next (vint d a b k ew (fun w x y => min (sext w x) (sext w y)) s)
def execVmax (d a b k ew : Nat) (s : State) : Outcome State Fault Refusal :=
  .next (vint d a b k ew (fun w x y => max (sext w x) (sext w y)) s)
def execVminu (d a b k ew : Nat) (s : State) : Outcome State Fault Refusal :=
  .next (vint d a b k ew (fun _ x y => (min x y : Nat)) s)
def execVmaxu (d a b k ew : Nat) (s : State) : Outcome State Fault Refusal :=
  .next (vint d a b k ew (fun _ x y => (max x y : Nat)) s)
def execVabs (d a k ew : Nat) (s : State) : Outcome State Fault Refusal :=
  .next (vint d a a k ew (fun w x _ => (sext w x).natAbs) s)
def execVneg (d a k ew : Nat) (s : State) : Outcome State Fault Refusal := .next (vint d a a k ew (fun w x _ => -(sext w x)) s)
def execVand (d a b k ew : Nat) (s : State) : Outcome State Fault Refusal :=
  .next (vint d a b k ew (fun _ x y => (x &&& y : Nat)) s)
def execVor (d a b k ew : Nat) (s : State) : Outcome State Fault Refusal :=
  .next (vint d a b k ew (fun _ x y => (x ||| y : Nat)) s)
def execVxor (d a b k ew : Nat) (s : State) : Outcome State Fault Refusal :=
  .next (vint d a b k ew (fun _ x y => (x ^^^ y : Nat)) s)
def execVsll (d a b k ew : Nat) (s : State) : Outcome State Fault Refusal :=
  .next (vint d a b k ew (fun w x y => (x * 2 ^ (y % w) : Nat)) s)
def execVsrl (d a b k ew : Nat) (s : State) : Outcome State Fault Refusal :=
  .next (vint d a b k ew (fun w x y => (x / 2 ^ (y % w) : Nat)) s)
def execVsra (d a b k ew : Nat) (s : State) : Outcome State Fault Refusal :=
  .next (vint d a b k ew (fun w x y => sext w x / 2 ^ (y % w)) s)

/-! Floating-point arithmetic (R283). -/

/-- A lane operation on values: the core and lane give a created NaN's payload. -/
def vflt (d a b k ew : Nat) (f : Fmt → Nat × Nat → FVal → FVal → FVal → Nat) (s : State) : State :=
  let m := fmtOf ew
  let w := ewBits ew
  vecOp (fun y => y.setLanes d k w fun i =>
    f m (s.curCore, i) (m.read (lane (y.vr a) w i)) (m.read (lane (y.vr b) w i)) (m.read (lane (y.vr d) w i))) s

def execVaddFp (d a b k ew : Nat) (s : State) : Outcome State Fault Refusal :=
  .next (vflt d a b k ew (fun m c x y _ => fpAdd m c x y) s)
/-- A − B is A + (−B); a NaN of B is taken with its own payload. -/
def execVsubFp (d a b k ew : Nat) (s : State) : Outcome State Fault Refusal :=
  .next (vflt d a b k ew (fun m c x y _ => fpAdd m c x y.neg) s)
def execVmulFp (d a b k ew : Nat) (s : State) : Outcome State Fault Refusal :=
  .next (vflt d a b k ew (fun m c x y _ => fpMul m c x y) s)
def execVfma (d a b k ew : Nat) (s : State) : Outcome State Fault Refusal :=
  .next (vflt d a b k ew (fun m c x y z => fpFma m c x y z) s)
def execVfms (d a b k ew : Nat) (s : State) : Outcome State Fault Refusal :=
  .next (vflt d a b k ew (fun m c x y z => fpFma m c x y z.neg) s)
def execVdiv (d a b k ew : Nat) (s : State) : Outcome State Fault Refusal :=
  .next (vflt d a b k ew (fun m c x y _ => fpDiv m c x y) s)
def execVsqrt (d a k ew : Nat) (s : State) : Outcome State Fault Refusal :=
  .next (vflt d a a k ew (fun m c x _ _ => fpSqrt m c x) s)
def execVminFp (d a b k ew : Nat) (s : State) : Outcome State Fault Refusal :=
  .next (vflt d a b k ew (fun m _ x y _ => fpMin m x y) s)
def execVmaxFp (d a b k ew : Nat) (s : State) : Outcome State Fault Refusal :=
  .next (vflt d a b k ew (fun m _ x y _ => fpMax m x y) s)
def execVabsFp (d a k ew : Nat) (s : State) : Outcome State Fault Refusal :=
  .next (vflt d a a k ew (fun m _ x _ _ => fpAbs m x) s)
def execVnegFp (d a k ew : Nat) (s : State) : Outcome State Fault Refusal :=
  .next (vflt d a a k ew (fun m _ x _ _ => fpNeg m x) s)

/-! Compare and select (R284, R285). -/

/-- A mask of the active lanes of which a condition holds. -/
def maskOf (y : Slot) (k n : Nat) (p : Nat → Bool) : Word :=
  BitVec.ofNat 64 (ofLanes 1 ((List.range n).map fun i => (y.active k i && p i).toNat))

def vcmp (d a b k ew : Nat) (p : Nat → Nat → Nat → Bool) (s : State) : State :=
  let w := ewBits ew
  vecOp (fun y => y.setK d (maskOf y k (laneCount w) fun i => p w (lane (y.vr a) w i) (lane (y.vr b) w i))) s

def vcmpFp (d a b k ew : Nat) (p : FVal → FVal → Bool) (s : State) : State :=
  vcmp d a b k ew (fun _ x y => p ((fmtOf ew).read x) ((fmtOf ew).read y)) s

def unordered (x y : FVal) : Bool := isNan x || isNan y
def fpEq (x y : FVal) : Bool := !unordered x y && !ltExact x y && !ltExact y x

def execVcmpEq (d a b k ew : Nat) (s : State) : Outcome State Fault Refusal :=
  .next (vcmp d a b k ew (fun _ x y => x == y) s)
def execVcmpNe (d a b k ew : Nat) (s : State) : Outcome State Fault Refusal :=
  .next (vcmp d a b k ew (fun _ x y => x != y) s)
def execVcmpLt (d a b k ew : Nat) (s : State) : Outcome State Fault Refusal :=
  .next (vcmp d a b k ew (fun w x y => decide (sext w x < sext w y)) s)
def execVcmpLe (d a b k ew : Nat) (s : State) : Outcome State Fault Refusal :=
  .next (vcmp d a b k ew (fun w x y => decide (sext w x ≤ sext w y)) s)
def execVcmpLtu (d a b k ew : Nat) (s : State) : Outcome State Fault Refusal :=
  .next (vcmp d a b k ew (fun _ x y => decide (x < y)) s)
def execVcmpLeu (d a b k ew : Nat) (s : State) : Outcome State Fault Refusal :=
  .next (vcmp d a b k ew (fun _ x y => decide (x ≤ y)) s)
def execVcmpFeq (d a b k ew : Nat) (s : State) : Outcome State Fault Refusal := .next (vcmpFp d a b k ew fpEq s)
def execVcmpFne (d a b k ew : Nat) (s : State) : Outcome State Fault Refusal :=
  .next (vcmpFp d a b k ew (fun x y => !fpEq x y) s)
def execVcmpFlt (d a b k ew : Nat) (s : State) : Outcome State Fault Refusal :=
  .next (vcmpFp d a b k ew (fun x y => !unordered x y && ltExact x y) s)
def execVcmpFle (d a b k ew : Nat) (s : State) : Outcome State Fault Refusal :=
  .next (vcmpFp d a b k ew (fun x y => !unordered x y && !ltExact y x) s)
def execVcmpFuno (d a b k ew : Nat) (s : State) : Outcome State Fault Refusal := .next (vcmpFp d a b k ew unordered s)

/-- VSEL: the mask selects; every lane is written (R285). -/
def execVsel (d a b k ew : Nat) (s : State) : Outcome State Fault Refusal :=
  let w := ewBits ew
  .next (vecOp (fun y => y.setLanes d 0 w fun i => if y.active k i then lane (y.vr a) w i else lane (y.vr b) w i) s)

/-! Permutation (R286). -/

def execVbcast (d a k ew : Nat) (s : State) : Outcome State Fault Refusal :=
  match issue [a] [] s with
  | .stop t => .next t
  | .go vs t => .next (vecOp (fun y => y.setLanes d k (ewBits ew) fun _ => (vs.getD 0 .zero).nat) t)

def execVext (d a b ew : Nat) (s : State) : Outcome State Fault Refusal :=
  match issue [b] [d] s with
  | .stop t => .next t
  | .go vs t =>
    let w := ewBits ew
    let i := (vs.getD 0 .zero).word.toNat
    .next (complete 4 (writeField d (.ofNat (if i < laneCount w then lane (t.me.vr a) w i else 0)) t))

def execVins (d a b ew : Nat) (s : State) : Outcome State Fault Refusal :=
  match issue [a, b] [] s with
  | .stop t => .next t
  | .go vs t =>
    let i := (vs.getD 1 .zero).word.toNat
    .next (vecOp (fun y => y.setLanes d 0 (ewBits ew) fun j =>
      if j = i then (vs.getD 0 .zero).nat else lane (y.vr d) (ewBits ew) j) t)

def execVperm (d a b k ew : Nat) (s : State) : Outcome State Fault Refusal :=
  let w := ewBits ew
  .next (vecOp (fun y => y.setLanes d k w fun i =>
    let j := lane (y.vr b) w i
    if j < laneCount w then lane (y.vr a) w j else 0) s)

def execVslideUp (d a b k ew : Nat) (s : State) : Outcome State Fault Refusal :=
  match issue [b] [] s with
  | .stop t => .next t
  | .go vs t =>
    let w := ewBits ew
    let n := (vs.getD 0 .zero).word.toNat
    .next (vecOp (fun y => y.setLanes d k w fun i => if n ≤ i then lane (y.vr a) w (i - n) else 0) t)

def execVslideDn (d a b k ew : Nat) (s : State) : Outcome State Fault Refusal :=
  match issue [b] [] s with
  | .stop t => .next t
  | .go vs t =>
    let w := ewBits ew
    let n := (vs.getD 0 .zero).word.toNat
    .next (vecOp (fun y => y.setLanes d k w fun i => if i + n < laneCount w then lane (y.vr a) w (i + n) else 0) t)

def execVcompr (d a k ew : Nat) (s : State) : Outcome State Fault Refusal :=
  let w := ewBits ew
  .next (vecOp (fun y => y.setV d (vecOf w ((y.actives k (laneCount w)).map (lane (y.vr a) w)))) s)

def execVexpnd (d a k ew : Nat) (s : State) : Outcome State Fault Refusal :=
  let w := ewBits ew
  .next (vecOp (fun y => y.setLanes d 0 w fun i =>
    if y.active k i then lane (y.vr a) w (y.actives k i).length else 0) s)

/-! Reductions (R287, R288). -/

/-- A reduction of the active lanes to a register. -/
def vredOp (d a k ew : Nat) (f : Nat → List Nat → Reg) (s : State) : State :=
  match issue [] [d] s with
  | .stop t => t
  | .go _ t =>
    let w := ewBits ew
    complete 4 (writeField d (f w ((t.me.actives k (laneCount w)).map (lane (t.me.vr a) w))) t)

def execVredAdd (d a k ew : Nat) (s : State) : Outcome State Fault Refusal :=
  .next (vredOp d a k ew (fun w l => .ofWord (wrap (l.foldl (fun n x => n + sext w x) 0))) s)
def execVredMin (d a k ew : Nat) (s : State) : Outcome State Fault Refusal :=
  .next (vredOp d a k ew (fun w l => .ofWord (wrap (l.foldl (fun n x => min n (sext w x)) (2 ^ (w - 1) - 1)))) s)
def execVredMax (d a k ew : Nat) (s : State) : Outcome State Fault Refusal :=
  .next (vredOp d a k ew (fun w l => .ofWord (wrap (l.foldl (fun n x => max n (sext w x)) (-(2 ^ (w - 1)))))) s)
def execVredMinu (d a k ew : Nat) (s : State) : Outcome State Fault Refusal :=
  .next (vredOp d a k ew (fun w l => .ofNat (l.foldl min (2 ^ w - 1))) s)
def execVredMaxu (d a k ew : Nat) (s : State) : Outcome State Fault Refusal :=
  .next (vredOp d a k ew (fun _ l => .ofNat (l.foldl max 0)) s)
def execVredAnd (d a k ew : Nat) (s : State) : Outcome State Fault Refusal :=
  .next (vredOp d a k ew (fun w l => .ofNat (l.foldl (fun n x => n &&& x) (2 ^ w - 1))) s)
def execVredOr (d a k ew : Nat) (s : State) : Outcome State Fault Refusal :=
  .next (vredOp d a k ew (fun _ l => .ofNat (l.foldl (fun n x => n ||| x) 0)) s)
def execVredXor (d a k ew : Nat) (s : State) : Outcome State Fault Refusal :=
  .next (vredOp d a k ew (fun _ l => .ofNat (l.foldl (fun n x => n ^^^ x) 0)) s)

/-- One level of the tree: neighbours combine; the operation is told the lowest lane of its right-hand operand. -/
def treeLevel (p : Nat → Nat → Nat → Nat) (span : Nat) : List Nat → Nat → List Nat
  | x :: y :: l, i => p (i + span) x y :: treeLevel p span l (i + 2 * span)
  | l, _ => l

/-- The whole tree, over a power of two of lanes (R288). -/
def tree (p : Nat → Nat → Nat → Nat) : Nat → Nat → List Nat → Nat
  | 0, _, l => l.headD 0
  | n + 1, span, l => if l.length ≤ 1 then l.headD 0 else tree p n (2 * span) (treeLevel p span l 0)

def vredFp (d a k ew : Nat) (unit : Fmt → Nat) (p : Fmt → Nat → Nat → FVal → FVal → Nat) (s : State) : State :=
  match issue [] [d] s with
  | .stop t => t
  | .go _ t =>
    let w := ewBits ew
    let m := fmtOf ew
    let y := t.me
    let l := (List.range (laneCount w)).map fun i => if y.active k i then lane (y.vr a) w i else unit m
    complete 4 (writeField d (.ofNat (tree (fun i x z => p m t.curCore i (m.read x) (m.read z)) 6 1 l)) t)

def execVredFadd (d a k ew : Nat) (s : State) : Outcome State Fault Refusal :=
  .next (vredFp d a k ew (fun m => m.sign true) (fun m c i x y => fpAdd m (c, i) x y) s)
def execVredFmin (d a k ew : Nat) (s : State) : Outcome State Fault Refusal :=
  .next (vredFp d a k ew (fun m => m.infBits false) (fun m _ _ x y => fpMin m x y) s)
def execVredFmax (d a k ew : Nat) (s : State) : Outcome State Fault Refusal :=
  .next (vredFp d a k ew (fun m => m.infBits true) (fun m _ _ x y => fpMax m x y) s)

/-! Conversions (R289, R290). -/

/-- Width and kind of a VCVT type code: integer (signed or not) or a floating format (R227). -/
def cvtWidth (c : Nat) : Nat := match c with
  | 0 | 1 => 8 | 2 | 3 => 16 | 4 | 5 => 32 | 6 | 7 => 64 | 8 | 9 => 16 | 10 => 32 | _ => 64

def cvtFmt (c : Nat) : Option Fmt := match c with
  | 8 => some fp16 | 9 => some bf16 | 10 => some fp32 | 11 => some fp64 | _ => none

/-- One lane of VCVT (R289). -/
def cvtLane (src dst x : Nat) : Nat :=
  let ws := cvtWidth src
  let wd := cvtWidth dst
  let int (c w x : Nat) : Int := if c % 2 = 0 then sext w x else x
  match cvtFmt src, cvtFmt dst with
  | some f, some g => convert f g x
  | some f, none => toField wd (satInt wd (dst % 2 == 0) (f.read x))
  | none, some g => g.ofInt (int src ws x)
  | none, none => toField wd (clampInt wd (dst % 2 == 0) (int src ws x))

def execVcvt (d a k src dst : Nat) (s : State) : Outcome State Fault Refusal :=
  let ws := cvtWidth src
  let wd := cvtWidth dst
  let n := 512 / max ws wd
  .next (vecOp (fun y => y.setV d (vecOf wd ((List.range (laneCount wd)).map fun i =>
    if i < n then (if y.active k i then cvtLane src dst (lane (y.vr a) ws i) else lane (y.vr d) wd i)
    else if wd < ws then 0 else lane (y.vr d) wd i))) s)

/-- The floating side of VCVTT. -/
def cvttFmt (o : Nat) : Fmt := match o with | 0 => fp32 | 1 => fp16 | _ => bf16

/-- The local bytes of a core as one of its slots reads them. -/
def localBytes (s : State) (c k off n : Nat) : List Byte :=
  (overlay (whoSlot s c k) (selfWindow c off) ⟨physBytes s (localKey c off) n, [], none⟩ s).bytes

/-- A 16-byte part of a table that the slot has read in an earlier step (R125). -/
def tablePart (s : State) (i : Nat) : Option (List Byte) := (s.me.replies.find? fun r => r.va == 2 ^ 53 + i).map fun r => r.bytes

/-- The table a vector instruction names (R124, R290): the parts it has read as they were then, the others as they are (R125). -/
def slotTable (s : State) (t4 : Bool) (p : Nat) : Option Table :=
  pointerTable t4 p (if isKeystone s.curCore then 0 else (s.core s.curCore).bankrole) fun off n =>
    (List.range (n / 16)).flatMap fun i =>
      (tablePart s i).getD (localBytes s s.curCore s.curSlot (off + 16 * i) 16)

/-- The parts of a table in local memory that a vector instruction reads in this step before it goes on in a later one (R125). -/
def partsAhead (s : State) (p : Nat) : List Nat :=
  if bit p 0 then [] else (((Config.readsFirst s.tick).getD []).filter fun i => decide (i < 80) && (tablePart s i).isNone).eraseDups

/-- A vector instruction with a table: it may read some parts first, and it traps on a table that is malformed (R124, R125). -/
def withTable (t4 : Bool) (p : Nat) (b : Nat) (f : Table → State → State) (s t : State) : State :=
  match partsAhead t p with
  | [] => match slotTable t t4 p with
    | none => trapMe 0x01 p s
    | some tab => f tab t
  | l => stallOp [b] [] s (t.modMe fun y => { y with replies := y.replies ++ l.map fun i =>
      ⟨2 ^ 53 + i, localBytes t t.curCore t.curSlot (bits p 6 12 * 64 + 16 * i) 16, [], false, 0⟩ })

def execVcvttDec (d a b k : Nat) (t4 : Bool) (o : Nat) (s : State) : Outcome State Fault Refusal :=
  match issue [b] [] s with
  | .stop t => .next t
  | .go vs t =>
    let f := cvttFmt o
    let cw := if t4 then 4 else 8
    .next (withTable t4 (vs.getD 0 .zero).word.toNat b (fun tab t =>
      vecOp (fun y => y.setLanes d k f.width fun i => convert e8m10 f (tab.decode.getD (lane (y.vr a) cw i) 0)) t) s t)

def execVcvttEnc (d a b k : Nat) (t4 : Bool) (o : Nat) (s : State) : Outcome State Fault Refusal :=
  match issue [b] [] s with
  | .stop t => .next t
  | .go vs t =>
    let f := cvttFmt o
    let cw := if t4 then 4 else 8
    .next (withTable t4 (vs.getD 0 .zero).word.toNat b (fun tab t =>
      vecOp (fun y => y.setV d (vecOf cw ((List.range (512 / f.width)).map fun i =>
        if y.active k i then encodeTable tab (2 ^ cw) (f.read (lane (y.vr a) f.width i)) else lane (y.vr d) cw i))) t) s t)

/-! Sparse support (R291, R292). -/

def execVconf (d a k ew : Nat) (s : State) : Outcome State Fault Refusal :=
  let w := ewBits ew
  .next (vecOp (fun y => y.setLanes d 0 w fun i =>
    if y.active k i then
      ofLanes 1 ((List.range i).map fun j => (y.active k j && lane (y.vr a) w j == lane (y.vr a) w i).toNat)
    else 0) s)

def execVisect (d a b k : Nat) (s : State) : Outcome State Fault Refusal :=
  .next (vecOp (fun y =>
    let la := (List.range 16).map (lane (y.vr a) 32)
    let lb := (List.range 16).map (lane (y.vr b) 32)
    let m := min (la.getD 15 0) (lb.getD 15 0)
    let na := (la.filter (· ≤ m)).length
    let nb := (lb.filter (· ≤ m)).length
    let pos (x : Nat) : Option Nat := (List.range 16).find? fun j => lb.getD j 0 == x
    (y.setV d (vecOf 32 (la.map fun x => nb * 2 ^ 16 + na * 2 ^ 8 + (pos x).getD 0x1F))).setK k
      (BitVec.ofNat 64 (ofLanes 1 (la.map fun x => (pos x).isSome.toNat)))) s)

/-! Masks (R293). -/

def kop (d a b : Nat) (f : Word → Word → Word) (s : State) : State := vecOp (fun y => y.setK d (f (y.kr a) (y.kr b))) s

def execKopAnd (d a b : Nat) (s : State) : Outcome State Fault Refusal := .next (kop d a b (· &&& ·) s)
def execKopOr (d a b : Nat) (s : State) : Outcome State Fault Refusal := .next (kop d a b (· ||| ·) s)
def execKopXor (d a b : Nat) (s : State) : Outcome State Fault Refusal := .next (kop d a b (· ^^^ ·) s)
def execKopAndn (d a b : Nat) (s : State) : Outcome State Fault Refusal := .next (kop d a b (fun x y => x &&& ~~~y) s)
def execKopNot (d a : Nat) (s : State) : Outcome State Fault Refusal := .next (kop d a a (fun x _ => ~~~x) s)

def execKmovToMask (d a : Nat) (s : State) : Outcome State Fault Refusal :=
  match issue [a] [] s with
  | .stop t => .next t
  | .go vs t => .next (vecOp (fun y => y.setK d (vs.getD 0 .zero).word) t)

def execKmovFromMask (d a : Nat) (s : State) : Outcome State Fault Refusal :=
  match issue [] [d] s with
  | .stop t => .next t
  | .go _ t => .next (complete 4 (writeField d (.ofWord (t.me.kr a)) t))

def execKpop (d a : Nat) (s : State) : Outcome State Fault Refusal :=
  match issue [] [d] s with
  | .stop t => .next t
  | .go _ t => .next (complete 4 (writeField d (.ofNat ((List.range 64).filter fun i => (t.me.kr a).getLsbD i).length) t))

end Sys2Proof.Machine
end

