-- ==== Sys2Proof/Machine/Links.lean ====
section
/-! DEFINITION. The Nolbor links (R395 to R413): flits and replay, lane maps, training, link event records, requests of hosts and peer
devices, answers to the device's own requests, carried calls. -/

namespace Sys2Proof.Machine

open Host (Outcome)

/-! Sequence numbers and flits (R397 to R400). -/

/-- The last data flit accepted, as every flit acknowledges it (R397). -/
def Link.ackNow (x : Link) : Nat := (x.rxExpect + 2 ^ 14 - 1) % 2 ^ 14

/-- `a` is at or below `b`, modulo 2^14 (R399). -/
def flitLe (a b : Nat) : Bool := decide ((b + 2 ^ 14 - a % 2 ^ 14) % 2 ^ 14 < 2 ^ 13)

/-- An ack frees every flit at or below it (R399). -/
def Link.freed (a : Nat) (x : Link) : Link := { x with replay := x.replay.filter fun q => !flitLe q a }

/-- Waiting packets go out where there is room (R399). -/
def Link.goOn (x : Link) : Link := x.pump x.queue

/-- An ack at the transmitter (R399). -/
def Link.acked (a : Nat) (x : Link) : Link := (x.freed a).goOn

/-- Bits 31 to 0 of a flit's trailer (R397); whether the CRC over them and the payload holds at the receiver is what comes with
the flit. -/
def Flit.low (x : Flit) : Nat := x.kind * 2 ^ 28 + x.ack % 2 ^ 14 * 2 ^ 14 + x.seq % 2 ^ 14

/-- The lane and the bit slot that carry bit `b` of a flit striped over a lane map (R398). -/
def flitLane (map b : Nat) : Nat × Nat :=
  let l := (List.range 16).filter fun i => bit map i
  (l.getD (b % l.length) 0, b / l.length)

/-- Send a flit that is not a data flit: it carries the next data sequence to be sent (R397). -/
def Link.sendFlit (kind : Nat) (payload : List Nat) (x : Link) : Link :=
  { x with sent := x.sent ++ [⟨kind, payload, x.ackNow, x.txSeq⟩] }

/-- Send every buffered flit again, in sequence order (R399). -/
def Link.resend (x : Link) : Link := { x with sent := x.sent ++ x.replay.map fun q => ⟨1, [], x.ackNow, q⟩ }

/-- Cycles in 2 µs and in 10 ms at 1.2 GHz. -/
def us2 : Nat := 2400
def ms10 : Nat := 12000000

/-- An up link's own state changes; flits that reach a down link are lost. -/
def onUp (n : Nat) (f : Link → Link) (s : State) : State := if (s.link n).up then s.modLink n f else s

def execIdleFlit (n ack : Nat) (s : State) : Outcome State Fault Refusal := .next (onUp n (Link.acked (ack % 2 ^ 14)) s)

/-- A data flit at the receiver (R400): accepted in sequence, else discarded, with one replay request; `good` says that its CRC
holds on the lanes of the receiver's map. The first flit accepted after a restripe ends its exchange (R401). -/
def Link.receive (good : Bool) (seq : Nat) (clock : Nat) (x : Link) : Link :=
  if good ∧ seq % 2 ^ 14 = x.rxExpect then
    Link.sendFlit 0 [] { x with
      rxExpect := (x.rxExpect + 1) % 2 ^ 14, inbound := x.inbound + 1, rxOk := true, requestAt := none, mapPending := none, mapFails := 0, discarded := 0 }
  else if x.rxOk ∧ x.mapPending.isNone then
    Link.sendFlit 2 [] { x with rxOk := false, requestAt := some clock, discarded := x.discarded + 1 }
  else { x with discarded := x.discarded + 1 }

/-- The transmitter replays from ack + 1; new flits follow the replayed ones (R399). -/
def Link.replayFrom (ack : Nat) (x : Link) : Link := ((x.freed (ack % 2 ^ 14)).resend).goOn

def execReplayRequest (n ack : Nat) (s : State) : Outcome State Fault Refusal :=
  .next (onUp n (Link.replayFrom ack) s)

/-- Another replay request after 2 µs without the expected flit (R400). -/
def execReplayRequestTimeout (n : Nat) (s : State) : Outcome State Fault Refusal :=
  .next (onUp n (fun x => match x.requestAt with
    | some t => if t + us2 ≤ s.clock then Link.sendFlit 2 [] { x with requestAt := some s.clock } else x
    | none => x) s)

/-! Link event records (R403, R404, R432, R433). -/

/-- The ring of a link's event records: the host link that carries it, its address and size. It lies in the host window of that
link: a host's own, or any host's for a peer link. A ring elsewhere is none (R403, R432). -/
def eventRing (s : State) (n : Nat) : Option (Nat × Nat × Nat) :=
  let x := s.link n
  let a := x.leqRing * 4096
  let k := hostLink a
  let last := a + 63 + 64 * 2 ^ x.leqSize
  if decide (4 ≤ x.leqSize) && decide (x.leqSize ≤ 16) && inHost a && inHost last && hostLink last == k
      && (if x.role = .host then k == n else decide ((s.link k).role = .host)) then some (k, a, 2 ^ x.leqSize)
  else none

/-- A posted write of the device's own. -/
def eventWrite (n a : Nat) (l : List Byte) (rel : Bool) (s : State) : Option State :=
  sendRequest n ⟨0, 2, a, 0, l.length, l, 0, 0, 0, false, rel, 0xFFFFFFFF, 0xFFFFFFFF, 20, 0, 256, 0, none, true, []⟩ s

/-- Write a record and then the producer word, which a release tags (R404); `none` while the link cannot take them. -/
def eventPost (n : Nat) (l : List Nat) (s : State) : Option State :=
  let x := s.link n
  if !x.up then none
  else match eventRing s n with
    | none => some s
    | some (k, a, size) =>
      if size ≤ x.posted - min x.posted (Config.leqConsumed s.tick n) then some (s.modLink n fun x => { x with dropped := true })
      else
        let w1 := l.getD 1 0 % 2 ^ 32 + (x.posted + 1) % 2 ^ 30 * 2 ^ 32 + x.dropped.toNat * 2 ^ 62
        match eventWrite k (a + 64 + 64 * (x.posted % size)) ((l.set 1 w1).map (leBytes 8)).flatten false s with
        | none => none
        | some t => (eventWrite k a (leBytes 8 (x.posted + 1)) true t).map fun t =>
            t.modLink n fun x => { x with posted := x.posted + 1, dropped := false }

/-- Write the records that wait, oldest first (R404). -/
def flushEvents (n : Nat) : List (List Nat) → State → State
  | [], s => s.modLink n fun x => { x with waiting := [] }
  | l :: r, s => match eventPost n l s with
    | some t => flushEvents n r t
    | none => s.modLink n fun x => { x with waiting := l :: r }

/-- Link event records that wait for room on link `n` go out, those of other links with their ring in its window too (R404, R432). -/
def refill (n : Nat) (s : State) : State :=
  let mine (q : Nat × Link) : Bool := !q.2.waiting.isEmpty
    && (match eventRing s q.1 with | some (k, _, _) => k == n | none => q.1 == n)
  (s.links.filter mine).foldl (fun s q => flushEvents q.1 (s.link q.1).waiting s) s

/-- Post a link event record: a copy to the Wenlek controller at once, the ring's when the link can take it (R404). -/
def linkEventAt (time n kind dir new old replayed laser : Nat) (s : State) : State :=
  let x := s.link n
  let l := [new * 2 ^ 48 + old * 2 ^ 32 + dir * 2 ^ 16 + n * 2 ^ 8 + kind,
    replayed % 2 ^ 32 + (x.posted + x.waiting.length + 1) % 2 ^ 30 * 2 ^ 32, laser + x.lost % 2 ^ 32 * 2 ^ 32, time, 0, 0, 0,
    s.clock]
  let s := { s with wenlek := { s.wenlek with telemetry := s.wenlek.telemetry ++ [l] } }
  flushEvents n (x.waiting ++ [l]) (s.modLink n fun x => { x with lost := 0 })

def linkEvent (n kind dir new old replayed laser : Nat) (s : State) : State :=
  linkEventAt (timeOf s) n kind dir new old replayed laser s

/-- The receiver's record of the lane-map exchange that `x` has under way, with the data flits it has discarded since the last one
it accepted (R404, R433). -/
def mapRecord (n : Nat) (x : Link) (s : State) : State :=
  match x.mapPending with
  | some old => linkEventAt x.mapAt n (if old - (old &&& x.rxMap) = 0 then 2 else 1) 0 x.rxMap old x.discarded 0xFF s
  | none => s

/-- DATA_FLIT: the flit whose acceptance ends a lane-map exchange has its record posted (R401, R433). -/
def execDataFlit (n : Nat) (good : Bool) (seq ack : Nat) (s : State) : Outcome State Fault Refusal :=
  let t := onUp n (fun x => (if good then x.acked (ack % 2 ^ 14) else x).receive good seq s.clock) s
  .next (if (t.link n).mapPending.isNone then mapRecord n (s.link n) t else t)

/-! Lanes (R396, R401, R402). -/

def lanesOf (m : Nat) : List Nat := (List.range 16).filter fun l => bit m l

/-- The laser source that feeds all of these transmit lanes, or 0xFF (R396, R404). -/
def laserOf (n lost : Nat) : Nat :=
  match lanesOf lost with
  | [] => 0xFF
  | l :: r => if r.all fun i => i / 4 == l / 4 then 4 * n + l / 4 else 0xFF

/-- The link goes down in both directions (R402); `laser` as R404 names it. -/
def linkDown (n dir new old laser : Nat) (s : State) : State :=
  linkEvent n 3 dir new old 0 laser (s.modLink n fun x =>
    { x with up := false, downSince := s.clock, mapPending := none, mapFails := 0, requestAt := none })

/-- A lane-map flit: payload word 0 holds the new and the old map (R401). -/
def Link.sendMap (new old : Nat) (x : Link) : Link := x.sendFlit 3 [new + old * 2 ^ 16]

/-- When the far receiver detected the change that its lane-map flit announces: at or before the flit's receipt, and not in the flit
(DESIGN CHOICE, log 127). -/
def detectedAt (s : State) : Nat := min (Config.darkAt s.tick) (timeOf s)

/-- The record of a change of the transmit map from `old` to `m` (R404). -/
def txRecord (time n m old replayed : Nat) (s : State) : State :=
  let lost := old - (old &&& m)
  linkEventAt time n (if lost = 0 then 2 else 1) 1 m old replayed (laserOf n (if lost = 0 then m - (m &&& old) else lost)) s

/-- LANE_MAP: the far receiver has changed its map; the transmitter stripes over it and replays (R401). -/
def execLaneMap (n map ack : Nat) (s : State) : Outcome State Fault Refusal :=
  let x := s.link n
  let m := map % 2 ^ 16
  if !x.up || m == x.txMap then .next (onUp n (Link.replayFrom ack) s)
  else if (lanesOf m).length < 4 then .next (linkDown n 1 m x.txMap (laserOf n (x.txMap - (x.txMap &&& m))) ((mapRecord n x s).modLink n fun x => { x with txMap := m }))
  else
    let t := s.modLink n fun x => Link.replayFrom ack { x with txMap := m }
    .next (txRecord (detectedAt s) n m x.txMap (x.freed (ack % 2 ^ 14)).replay.length t)

/-- The receiver changes its map and tells the far transmitter; an exchange under way is superseded, with its record (R401). -/
def restripe (n m : Nat) (s : State) : State :=
  let x := s.link n
  mapRecord n x (s.modLink n fun y => Link.sendMap m x.rxMap { y with
    rxMap := m, mapPending := some x.rxMap, mapAt := timeOf s, mapSince := s.clock, mapFails := 0 })

/-- LOSS_OF_LIGHT: receive lanes go dark (R401, R402). -/
def execLossOfLight (n lanes : Nat) (s : State) : Outcome State Fault Refusal :=
  let x := s.link n
  let m := x.rxMap - (x.rxMap &&& lanes)
  if !x.up || m == x.rxMap then .next s
  else if (lanesOf m).length < 4 then
    .next (linkDown n 0 m x.rxMap 0xFF ((mapRecord n x s).modLink n fun x => { x with rxMap := m }))
  else .next (restripe n m s)

/-- LANE_MAP_RESEND: a lane-map flit without effect for 2 µs is sent again; after 8 failures the link is down (R401, R402). -/
def execLaneMapResend (n : Nat) (s : State) : Outcome State Fault Refusal :=
  let x := s.link n
  match x.mapPending with
  | none => .next s
  | some old =>
    if !x.up || decide (s.clock < x.mapSince + us2) then .next s
    else if 8 ≤ x.mapFails + 1 then .next (linkDown n 0 x.rxMap x.rxMap 0xFF (mapRecord n x s))
    else .next (s.modLink n fun y => Link.sendMap y.rxMap old { y with mapFails := y.mapFails + 1, mapSince := s.clock })

/-- LANE_REGAIN: a lane lit for 1 ms is added back by the same exchange (R402). -/
def execLaneRegain (n lane : Nat) (s : State) : Outcome State Fault Refusal :=
  let x := s.link n
  if !x.up || decide (16 ≤ lane) || bit x.rxMap lane then .next s
  else .next (restripe n (x.rxMap + 2 ^ lane) s)

/-- Training ends with the lanes that pass (R402): the link comes up, killed requesters are admitted again (R356), buffered flits
are replayed, a changed transmit map has its record, and waiting records are written (R404). -/
def trainLink (n rx tx : Nat) (s : State) : State :=
  let x := s.link n
  let r := rx % 2 ^ 16
  let t := tx % 2 ^ 16
  if x.role = .unused ∨ x.up ∨ (lanesOf r).length < 4 ∨ (lanesOf t).length < 4 then s
  else
    let u := s.modLink n fun y =>
      let z : Link := { y with
        up := true, rxMap := r, txMap := t, deadReq := [], mapPending := none, mapFails := 0, rxOk := true
        requestAt := none }
      z.resend.goOn
    let u := linkEvent n 4 0 r x.rxMap x.replay.length 0xFF u
    refill n (if t = x.txMap then u else txRecord (timeOf s) n t x.txMap x.replay.length u)

def execLinkTraining (n rx tx : Nat) (s : State) : Outcome State Fault Refusal := .next (trainLink n rx tx s)

/-! Losses (R381, R402, R410, R412). -/

/-- The failure record of a lost write: reason 9, or 11 with the host's status (R381); the link is 0xFF where a peer is absent
(R412). -/
def lostWrite (n reason status : Nat) (r : Request) (s : State) : State :=
  if 256 ≤ r.tenant then s
  else
    let dev := match linkDevice s n with
      | some d => 2 ^ 52 + d * 2 ^ 48
      | none => 0
    let link := match linkDevice s n with
      | some d => if (peerLink s d 0 0).isNone then 0xFF else n
      | none => n
    queueRecord (rec1 r.tenant r.party 0x130C [reason + dev, link + status * 256, r.va] s.clock) s

/-- An answer reaches the agent that asked (R410); slot 22 stands for the Wenlek controller, whose reports take it. -/
def giveReply (r : Request) (l : List Byte) (poison : Bool) (s : State) : State :=
  if r.slot = 18 then s
  else if r.slot = 22 then { s with wenlek := { s.wenlek with
    reports := s.wenlek.reports ++ [poison.toNat * 2 :: r.va :: l.map BitVec.toNat] } }
  else addReply ⟨r.core, r.slot, r.party, r.agent, 0, 0, r.tenant⟩ ⟨r.va, l, [], poison, r.va⟩ s

/-- A device request that a down link has held for 10 ms ends (R402): a read or atomic with poison, a write discarded, a
message without delivery; a packet that has not begun to leave never leaves. Calls wait (R413). -/
def loseRequest (n : Nat) (r : Request) (s : State) : State :=
  let s := s.modLink n fun x => { x with
    requests := x.requests.erase r, lost := x.lost + 1
    queue := x.queue.filter fun p => !(decide (p.op < 0x80) && p.tag == r.tag) }
  match r.op with
  | 1 | 3 => giveReply r (List.replicate r.length 0) true s
  | 2 => lostWrite n 9 0 r s
  | _ => match r.msg with
    | some m => failMsg 4 m { s with held := s.held.filter fun h => !(r.op == 6 && decide (h.msg = m)) }
    | none => s

/-- Another link to the same peer device is up: requests of a down one wait (R402, R412). -/
def peerPresent (s : State) (n : Nat) : Bool :=
  match linkDevice s n with
  | some d => (peerLink s d 0 0).isSome
  | none => false

/-- DOWN_LINK_TIMEOUT (R402). -/
def execDownLinkTimeout (n : Nat) (s : State) : Outcome State Fault Refusal :=
  let x := s.link n
  if x.up || peerPresent s n then .next s
  else .next ((x.requests.filter fun r => r.op != 5 && decide (max x.downSince r.since + ms10 ≤ s.clock)).foldl
    (fun s r => loseRequest n r s) s)

/-! Requesters (R408). -/

/-- A host requester's entry: tenant, domain, physical; `none` where it is disabled. -/
def hostEntry (s : State) (n r : Nat) : Option (Nat × Nat × Bool) :=
  let e := tableRead s (s.hrtbase * 65536 + 32768 * n + 8 * r) 8
  if bits e 25 39 ≠ 0 ∨ bits e 1 7 ≠ 0 ∨ bit e 0 = false ∨ (s.link n).deadReq.contains r then none
  else some (bits e 8 8, bits e 16 8, bit e 24)

/-- The agent of a host requester (R409) or peer device (R405): its slot, 21, is no slot. A host's check of rights uses and fills
core 0's PLB: the spec names none (DESIGN CHOICE, log 113). -/
def whoHost (n r t d : Nat) : Who := ⟨0, 21, hostParty n r, hostParty n r, d, t, t⟩
def whoPeer (d t : Nat) : Who := ⟨0, 21, peerParty d, peerParty d, 0, t, t⟩

/-- A packet's bytes. -/
def packetBytes (p : Packet) : List Byte := p.data.map (BitVec.ofNat 8)

/-- The answer to a packet. -/
def reply (p : Packet) (op status : Nat) (poison : Bool) (words : List Nat) (data : List Byte) (s : State) : State :=
  respond p.link p.device p.tag p.requester op status poison words (data.map BitVec.toNat)
    (s.modLink p.link fun x => { x with hostWait := x.hostWait.erase p })

/-- The packet cannot be performed yet: it waits, and the host sees only delay (R24, R407). -/
def delay (p : Packet) (s : State) : State :=
  s.modLink p.link fun x => { x with hostWait := if x.hostWait.contains p then x.hostWait else x.hostWait ++ [p] }

/-- Two packets of one requester of a link. -/
def sameRequester (p q : Packet) : Bool := q.requester == p.requester && q.device == p.device

/-- A lock operation of a peer device at a home here: 11 RWLR, 12 RWLW, 13 RWUR, 14 RWUW (log 12). -/
def lockPacket (p : Packet) : Bool := p.op == 0x03 && decide (11 ≤ p.atomicOp) && decide (p.atomicOp ≤ 14)

/-- A request beyond its requester's window, or with a tag that waits for an answer (R407). -/
def overrun (x : Link) (p : Packet) : Bool :=
  let l := x.hostWait.filter (sameRequester p)
  let bytes (q : Packet) : Nat := if q.op = 2 then q.data.length else 0
  !x.hostWait.contains p && (l.any (fun q => q.tag == p.tag) || decide (1024 ≤ l.length)
    || decide (524288 < (l.foldl (fun n q => n + bytes q) 0) + bytes p))

/-- An earlier packet of this requester waits: the link delivers in order (R199, R411). One that waits for a lock holds back
nothing: the lock's release may come after it. -/
def waitsBehind (x : Link) (p : Packet) : Bool :=
  (x.hostWait.takeWhile fun q => q != p).any fun q => sameRequester p q && !lockPacket q

/-- The flits of a packet have been accepted in sequence (R400): the packet that takes them, or one that has waited. -/
def takePacket (p : Packet) (s : State) : Option State :=
  let x := s.link p.link
  if x.hostWait.contains p then some s
  else if p.flits ≤ x.inbound then some (s.modLink p.link fun x => { x with inbound := x.inbound - p.flits })
  else none

/-- A request packet: status 9 before bring-up is complete (R414); on an up link a record of kind 5 for an op that is none,
status 9 for a disabled requester, status 8 beyond the window, else `f` with the agent and its physical right, in the order of its
requester; a peer needs no entry and may use the physical windows (R15, R16, R405 to R409). -/
def requestIn (p : Packet) (op rop : Nat) (f : Who → Bool → State → State) (s : State) : Outcome State Fault Refusal :=
  let x := s.link p.link
  let go (w : Who) (phys : Bool) : Outcome State Fault Refusal :=
    if overrun x p then .next (reply p rop 8 false [] [] s)
    else if waitsBehind x p then .next (delay p s)
    else .next (f w phys s)
  if s.wenlek.stage < 7 then .next (reply p rop 9 false [] [] s)
  else if !x.up || x.role == .unused then .next s
  else if p.op ≠ op then .next (linkEvent p.link 5 0 x.rxMap x.rxMap 0 0xFF s)
  else if x.role = .peer then go (whoPeer p.device p.tenant) true
  else match hostEntry s p.link p.requester with
    | none => .next (reply p rop 9 false [] [] s)
    | some (t, d, phys) => go (whoHost p.link p.requester t d) phys

/-- A request packet whose flits have come in. -/
def request (p : Packet) (op rop : Nat) (f : Who → Bool → State → State) (s : State) : Outcome State Fault Refusal :=
  match takePacket p s with
  | some t => requestIn p op rop f t
  | none => .next s

/-! Memory requests (R409). -/

/-- The places of a request's bytes: for a host the rights `need` first, 1 read, 2 write, 3 both (R40), then the translation. The
windows of a core's own banks name nothing here. -/
def requestParts (p : Packet) (w : Who) (need : Nat) (write : Bool) (n : Nat) (s : State) : Res (List (Nat × Nat × Src)) :=
  let check (s : State) : Res Unit :=
    if (s.link p.link).role = .peer then .ok () s
    else needRegions w p.address n need s
  if 0xFFFFFFFF00000 ≤ p.address + n - 1 then .exc (.vec 0x14 p.address) s
  else (check s).bind fun _ s => locateParts w 0 write (parts w p.address n) s

/-- The answer to a request whose access meets an exception (R409). One that meets a poisoned entry posts a record of kind 0x02
(R43) and takes status 3, as a translation fault does (DESIGN CHOICE, log 71). -/
def refuseAccess (p : Packet) (w : Who) (rop : Nat) (write : Bool) (e : Exc) (s : State) : State :=
  let post (kind flags va : Nat) (s : State) : State :=
    queueRecord (rec1 w.tenant w.party (flags + write.toNat * 256 + kind) (pageWords va p.address p.length) s.clock) s
  match e with
  | .park flags va => if 2 ^ 15 ≤ flags then delay p s else reply p rop 3 false [] [] (post 1 flags va s)
  | .svc cause va level => if cause = 0x06 then reply p rop 4 false [] [] s
                           else reply p rop 3 false [] [] (post 2 (level * 0x2000) va s)
  | .vec _ _ => reply p rop 1 false [] [] s
  | .poison _ => reply p rop 2 false [] [] s

/-! A request whose bytes lie outside the device goes out on their link like any agent's (R184, R410), and waits for the
answer. -/

/-- Read every part; `none` while an answer is still to come. -/
def readAway (w : Who) (acq : Bool) : List (Nat × Nat × Src) → State → Option (List Reply) × State
  | [], s => (some [], s)
  | q :: l, s =>
    let (r, s) := if isLink q.2.2 then loadPart w 0 acq q s
      else (some (takeAt s q.2.2 q.1 q.2.1), s)
    let (rs, s) := readAway w acq l s
    match r, rs with
    | some r, some rs => (some (r :: rs), s)
    | _, _ => (none, s)

/-- Send or perform every part of a write; `none` where the link cannot take it yet. -/
def writeAway (w : Who) (rel poison : Bool) : List (Nat × Nat × Src) → List Byte → State → Option State
  | [], _, s => some s
  | q :: l, data, s =>
    match (if isLink q.2.2 then storePart w 0 rel false false (data.take q.2.1) q s
        else some (writeAt q.2.2 q.1 (data.take q.2.1) false s)) with
    | some s => writeAway w rel poison l (data.drop q.2.1) (if poison then carryPoison w q.2.2 q.1 q.2.1 s else s)
    | none => none

/-- The mark that a requester's write has gone out. -/
def sentMark : Reply := ⟨2 ^ 52 + 2, [], [], false, 0⟩

/-- Every granule of these parts is poisoned, as the poison bit of a packet says (R405); status 2 says that some are (R406). -/
def allPoison (s : State) (l : List (Nat × Nat × Src)) : Bool :=
  l.all fun q => (splitBlocks 64 (q.2.1 / 64 + 2) q.1 q.2.1).all fun g => poisonAt s (q.2.2.plus (g.1 - q.1)) g.1 g.2

/-- A read of bytes outside the device. -/
def awayRead (p : Packet) (w : Who) (l : List (Nat × Nat × Src)) (t : State) : State :=
  match readAway w p.acquire l t with
    | (some rs, u) =>
      let bad := rs.any Reply.poison
      reply p 0x81 (if bad then 2 else 0) (rs.all Reply.poison) [] (rs.map Reply.bytes).flatten (setReplies w [] u)
    | (none, u) => delay p u

/-- The answer to a read of these parts: their bytes, and whether a granule is poisoned. -/
def readParts (p : Packet) (w : Who) (l : List (Nat × Nat × Src)) (t : State) : State :=
  if l.any fun q => isLink q.2.2 then awayRead p w l t
  else
    let bad := l.any fun q => poisonAt t q.2.2 q.1 q.2.1
    reply p 0x81 (if bad then 2 else 0) (allPoison t l) [] ((l.map fun q => readAt t q.2.2 q.1 q.2.1).flatten) t

/-- A write to bytes outside the device: acknowledged when the other side has acknowledged it (R184). -/
def awayWrite (p : Packet) (w : Who) (l : List (Nat × Nat × Src)) (s t : State) : State :=
  if (repliesOf w s).contains sentMark then
    if hostWritesOf s w.agent then delay p s else reply p 0x82 0 false [] [] (setReplies w [] s)
  else match writeAway w p.release p.poison l (packetBytes p) t with
    | some u => delay p (addReply w sentMark u)
    | none => delay p s

/-- The write of these parts, from state `s` with the places found in `t`: performed here, or sent on. -/
def writeParts (p : Packet) (w : Who) (l : List (Nat × Nat × Src)) (s t : State) : State :=
  if l.any fun q => isLink q.2.2 then awayWrite p w l s t
  else
    let put (a : List Byte × State) (q : Nat × Nat × Src) : List Byte × State :=
      let u := writeAt q.2.2 q.1 (a.1.take q.2.1) false a.2
      (a.1.drop q.2.1, if p.poison then poisonMark q.2.2 q.1 q.2.1 u else u)
    reply p 0x82 0 false [] [] (l.foldl put ((packetBytes p), t)).2

/-- The places of a physical request's bytes (R15, R16): in the device, or on another link; `none` for an error response. -/
def physParts (p : Packet) (n : Nat) (s : State) : Option (List (Nat × Nat × Src)) :=
  match physPlace s p.address n with
  | some a => some [(a, n, .frame 0 a)]
  | none => match physAway s p.address n with
    | some (some link, b) => some [(p.address, n, .host link b)]
    | some (none, d) => some [(p.address, n, .peer d 0)]
    | none => none

/-- LINK_READ. -/
def execLinkRead (p : Packet) (s : State) : Outcome State Fault Refusal :=
  request p 0x01 0x81 (fun w phys s =>
    if p.physical then
      if !phys then reply p 0x81 4 false [] [] s
      else match physParts p p.length s with
        | none => reply p 0x81 1 false [] [] s
        | some l => readParts p w l s
    else match requestParts p w 1 false p.length s with
      | .exc e _ => refuseAccess p w 0x81 false e s
      | .stall _ => delay p s
      | .ok l t => readParts p w l t) s

/-- POSTED_WRITE: tags are cleared, poisoned data is written poisoned. -/
def execPostedWrite (p : Packet) (s : State) : Outcome State Fault Refusal :=
  request p 0x02 0x82 (fun w phys s =>
    if p.physical then
      if !phys then reply p 0x82 4 false [] [] s
      else match physParts p p.length s with
        | none => reply p 0x82 1 false [] [] s
        | some l => writeParts p w l s s
    else match requestParts p w 2 true p.length s with
      | .exc e _ => refuseAccess p w 0x82 true e s
      | .stall _ => delay p s
      | .ok l t => writeParts p w l s t) s

/-- Operand and expected value of an atomic packet (R405). -/
def atomicArgs (p : Packet) : Nat × Nat :=
  let w (i : Nat) : Nat := p.words.getD i 0
  if p.atomicOp = 10 then (w 0 + w 1 * 2 ^ 64, w 2 + w 3 * 2 ^ 64) else (w 0 % 2 ^ (8 * p.length), w 1 % 2 ^ (8 * p.length))

/-- The update of a floating element of VSCATA.at for a peer device (R281, log 12): word 3 names the core and lane for a created
NaN (R119). -/
def linkFadd (p : Packet) (src : Src) (va n : Nat) (s : State) : Reply × State :=
  let (b, e) := atomicArgs p
  let f := fmtOf (if n = 4 then 2 else 3)
  let old := readAt s src va n
  if poisonAt s src va n then (⟨va, old, [], true, va⟩, s)
  else (⟨va, old, [], false, va⟩,
    writeAt src va (leBytes n (fpAdd f (e / 512, e % 512) (f.read (leNat old)) (f.read b))) false s)

/-- The widths and operations of an atomic packet (R406); those of locks and of floating updates come from peers only (log 12). -/
def atomicFit (p : Packet) (peer : Bool) : Bool :=
  (p.length == 4 || p.length == 8 || p.length == 16) && p.address % p.length == 0
    && (decide (p.atomicOp ≤ 10) || (peer && !p.physical && ((lockPacket p && p.length == 8) || (p.atomicOp == 15 && p.length ≤ 8))))

/-- The answer of an atomic packet: the old value. -/
def replyOld (p : Packet) (r : Reply) (s : State) : State :=
  let v := leNat r.bytes
  reply p 0x83 (if r.poison then 2 else 0) r.poison [v % 2 ^ 64, v / 2 ^ 64] [] s

/-- How a lock request of a peer device is told from its others, in the wait list at its home. -/
def lockTag (p : Packet) : Nat := 1 + p.link * 1024 + p.tag

/-- A peer's lock operation at the word's home (R270 to R273): a request that cannot be granted stands in the wait list, and its
packet waits until it is. -/
def linkLock (p : Packet) (w : Who) (src : Src) (va : Nat) (s : State) : State :=
  if poisonAt s src va 8 then replyOld p ⟨va, List.replicate 8 0, [], true, va⟩ s
  else if 13 ≤ p.atomicOp then replyOld p ⟨va, [], [], false, va⟩ (lockRelease w.party (p.atomicOp == 14) src va s)
  else
    let place := lockPlace src va
    match (lockInfo s place).waiters.find? fun x => x.party == w.party && x.tag == lockTag p with
    | some x =>
      if x.granted then
        replyOld p ⟨va, leBytes 8 1, [], false, va⟩
          (setLock place { lockInfo s place with waiters := (lockInfo s place).waiters.erase x } s)
      else delay p s
    | none => match lockRequest ⟨w.party, lockTag p, p.atomicOp == 12, false⟩ (p.words.getD 0 0 == 1) src va s with
      | (.value n, s) => replyOld p ⟨va, leBytes 8 n, [], false, va⟩ s
      | (.waits _ _, s) => delay p s

/-- An atomic packet on translated bytes of this device. -/
def linkAtomicAt (p : Packet) (w : Who) (src : Src) (va n : Nat) (s : State) : State :=
  let (b, e) := atomicArgs p
  if lockPacket p then linkLock p w src va s
  else
    let (r, t) := if p.atomicOp = 15 then linkFadd p src va n s else amoAt src va n p.atomicOp b e s
    replyOld p r t

/-- LINK_ATOMIC: performed at the owner slot; a width other than 4, 8 or 16 is an error (R192, R406). Bytes outside the device take
the atomics that a link carries there. -/
def execLinkAtomic (p : Packet) (s : State) : Outcome State Fault Refusal :=
  request p 0x03 0x83 (fun w phys s =>
    let (b, e) := atomicArgs p
    if !atomicFit p (decide ((s.link p.link).role = .peer)) then reply p 0x83 1 false [] [] s
    else if p.physical then
      if !phys then reply p 0x83 4 false [] [] s
      else match physParts p p.length s with
        | some [(a, n, .frame 0 _)] =>
          let (r, t) := amoAt (.frame 0 a) a n p.atomicOp b e s
          replyOld p r t
        | some [(a, n, .host link pa)] => match findReply w a n s with
          | some r => replyOld p r (setReplies w [] s)
          | none => if askedFor s w a then delay p s
                    else delay p ((sendRequest link (mkRequest w 3 pa a n [] p.atomicOp b e p.acquire p.release true) s).getD s)
        | some _ => replyOld p ⟨p.address, List.replicate p.length 0, [], true, p.address⟩ s
        | none => reply p 0x83 1 false [] [] s
    else match requestParts p w 3 (p.atomicOp != 13 && p.atomicOp != 14) p.length s with
      | .exc x _ => refuseAccess p w 0x83 true x s
      | .stall _ => delay p s
      | .ok l t => match l with
        | [(va, n, src)] =>
          if !isLink src then linkAtomicAt p w src va n t
          else if 10 < p.atomicOp then reply p 0x83 1 false [] [] s
          else match atomicAt w va n p.atomicOp b e (if p.release then 4 else 0) (if p.acquire then 4 else 0) t with
            | .ok r u => replyOld p r (setReplies w [] u)
            | .stall u => delay p u
            | .exc x _ => refuseAccess p w 0x83 true x s
        | _ => reply p 0x83 1 false [] [] s) s

/-! Messages (R299, R331, R337, R409, R412). -/

/-- The message of a packet. -/
def linkMsg (p : Packet) (w : Who) (dst : Nat) (peer : Bool) (s : State) : Msg :=
  let from_ := linkSender p.link p.device p.requester peer
  let mine (k : Nat) : Option Resv := match (s.slot dst k).resvFor with
    | some r => if r.core = from_ ∧ r.slot = p.tag ∧ (s.slot dst k).holds = .reserved then some r else none
    | none => none
  let hold := (List.range 7).findSome? mine
  let payload : List Word := (List.range (p.data.length / 8)).map fun i =>
    BitVec.ofNat 64 (leNat (((packetBytes p).drop (8 * i)).take 8))
  ⟨w.party, from_, p.tag, 0, w.tenant, dst, none, BitVec.ofNat 64 (p.words.getD 0 0),
    payload, none, 0, hold.isSome⟩

/-- An earlier message of the same requester and type class, to the same core, stands in its reservation list or has a slot kept for
it: later ones are refused after it (R299, R409). The resent message is known by its tag (DESIGN CHOICE, log 129). -/
def refusedBefore (m : Msg) (s : State) : Bool :=
  let l := (s.core m.dst).resv ++ (List.range 7).filterMap (fun k =>
    if (s.slot m.dst k).holds = .reserved then (s.slot m.dst k).resvFor else none) ++ (s.grants.filter fun g => g.1 == m.dst).map Prod.snd
  let mine (r : Resv) : Bool := r.core == m.srcCore && (r.cls == .urgent) == (typeClass m == 1)
    && r.cls != .owner
  !m.granted && l.any mine && !l.any fun r => mine r && r.slot == m.srcSlot

/-- LINK_MESSAGE: delivered, refused with a reservation, or failed. With the reservation list full it waits, as a sender's
interface would (R337). -/
def execLinkMessage (p : Packet) (s : State) : Outcome State Fault Refusal :=
  request p 0x04 0x84 (fun w _ s =>
    match (if inWindow p.address ∧ p.address < 0xFFFFFFFF00000 then windowAt 0 p.address else none) with
    | none => reply p 0x84 1 false [] [] s
    | some (dst, _) =>
      let peer := decide ((s.link p.link).role = .peer)
      let m := linkMsg p w dst peer s
      match (if refusedBefore m s then .refuse (if typeClass m = 1 then .urgent else .general) s else arrive m s) with
      | .done t => reply p 0x84 0 false [] [] t
      | .fail reason t => reply p 0x84 7 false [] [] (if peer then unreserve dst m t else failArrival reason m t)
      | .refuse cls t =>
        let (listed, t) := reserve dst ⟨m.srcCore, p.tag, cls⟩ t
        if listed then reply p 0x84 5 false [] [] t else delay p t) s

/-! Answers to the device's own requests (R406, R407, R410, R412). -/

/-- The request that an answer belongs to, once the answer's flits have come in (R400); its tag is free again (R407). -/
def answered (p : Packet) (ops : List Nat) (s : State) : Option (Request × State) :=
  match (s.link p.link).requests.find? (fun r => r.tag == p.tag && ops.contains r.op), takePacket p s with
  | some r, some t => if (s.link p.link).up then
      some (r, t.modLink p.link fun x => { x with requests := x.requests.erase r }) else none
  | _, _ => none

/-- READ_RESPONSE: the bytes, or poison where the read was not done. -/
def execReadResponse (p : Packet) (s : State) : Outcome State Fault Refusal :=
  match answered p [1] s with
  | none => .next s
  | some (r, t) =>
    let l := ((packetBytes p) ++ List.replicate r.length 0).take r.length
    .next (refill p.link (giveReply r l (p.status != 0 || p.poison) t))

/-- WRITE_ACKNOWLEDGEMENT: the write is performed, or refused with a record of reason 11. -/
def execWriteAcknowledgement (p : Packet) (s : State) : Outcome State Fault Refusal :=
  match answered p [2] s with
  | none => .next s
  | some (r, t) =>
    let t := if p.status = 1 ∨ p.status = 3 ∨ p.status = 4 then
        lostWrite p.link 11 p.status r (t.modLink p.link fun x => { x with lost := x.lost + 1 }) else t
    .next (refill p.link t)

/-- ATOMIC_RESPONSE: the old value, or poison. -/
def execAtomicResponse (p : Packet) (s : State) : Outcome State Fault Refusal :=
  match answered p [3] s with
  | none => .next s
  | some (r, t) =>
    let v := p.words.getD 0 0 % 2 ^ 64 + p.words.getD 1 0 % 2 ^ 64 * 2 ^ 64
    .next (refill p.link (giveReply r (leBytes r.length v) (p.status != 0 || p.poison) t))

/-- MESSAGE_ANSWER (R300, R412): a refused message waits in its sender's interface for status 6, which answers the same tag; it is
then sent again with that tag. -/
def execMessageAnswer (p : Packet) (s : State) : Outcome State Fault Refusal :=
  match answered p [4, 6] s with
  | none => .next s
  | some (r, t) => match r.msg with
    | none => .next t
    | some m =>
      let free (u : State) : State := { u with held := u.held.filter fun h => decide (h.msg ≠ m) }
      if p.status = 5 then
        let t := t.modLink p.link fun x => { x with requests := x.requests ++ [{ r with op := 6 }] }
        .next (if r.op = 6 then t else { t with held := t.held ++ [⟨m, .general, none⟩] })
      else if p.status = 6 then
        .next ((free t).modLink p.link fun x => Link.push ({ r with op := 4 }.packet t p.link)
          { x with requests := x.requests ++ [{ r with op := 4, since := t.clock }] })
      else if p.status = 0 then .next (free t)
      else .next (failMsg (Config.peerReason t.tick % 256) m (free t))

/-! Carried calls (R413). -/

/-- The fields of a call's word 2: token and tenant. -/
def callToken (p : Packet) : Nat := bits (p.words.getD 0 0) 0 16
def callTenant (p : Packet) : Nat := bits (p.words.getD 0 0) 32 8

/-- The link that a call of this token takes to a host whose list the configuration image gives. -/
def callLink (s : State) (p : Packet) : Bool :=
  match s.wenlek.config with
  | some c => c.config.hostLinks.any fun l => !l.isEmpty && l.getD (callToken p % l.length) 32 == p.link
  | none => false

/-- LINK_CALL: service code's call packet goes to the host on the link of its token. -/
def execLinkCall (p : Packet) (s : State) : Outcome State Fault Refusal :=
  if p.op ≠ 0x05 ∨ callLink s p = false then .next s
  else
    .next ((sendRequest p.link ⟨0, 5, 0, 0, 0, [], 0, callToken p, 0, false, false, 0xFFFFFFFF, 0xFFFFFFFF, 18, 0, callTenant p, 0,
      none, false, p.words⟩ s).getD s)

/-- CALL_RESPONSE: the results come back for service code, with tenant and token. -/
def execCallResponse (p : Packet) (s : State) : Outcome State Fault Refusal :=
  match answered p [5] s with
  | none => .next s
  | some (r, t) => .next (t.modLink p.link fun x => { x with results := x.results ++ [r.tenant :: r.operand :: p.words] })

end Sys2Proof.Machine
end

