-- ==== Sys2Proof/Machine/Platform.lean ====
section
/-! DEFINITION. Bring-up under the Wenlek controller (R414 to R417), attestation (R418), power and thermal limits (R419). -/

namespace Sys2Proof.Machine

open Host (Outcome)

/-- The Wenlek controller's state changes. -/
def State.modWenlek (s : State) (f : Wenlek → Wenlek) : State := { s with wenlek := f s.wenlek }

/-- Bring-up stands after stage `n` and has not stopped (R414). -/
def State.atStage (s : State) (n : Nat) : Bool := s.wenlek.stage == n && !s.wenlek.stopped && !s.wenlek.shutdown

/-- POWER_ON: power-on or a full reset; the controller starts from its ROM, or the module stays unpowered. Its non-volatile store
stays (R414, R415). -/
def execPowerOn (s : State) : Outcome State Fault Refusal :=
  .next { State.reset with
    tick := s.tick, turn := s.turn, late := s.late
    wenlek := { Wenlek.reset with
      stage := (Config.romStarts s.tick).toNat, lowFirmware := s.wenlek.lowFirmware, lowConfig := s.wenlek.lowConfig } }

/-! Images (R415, R416). -/

/-- The 24 round constants and the 25 rotation distances of Keccak-f[1600] (PRESUMED: FIPS 202, log 143). -/
def keccakRounds : List Nat :=
  [0x0000000000000001, 0x0000000000008082, 0x800000000000808A, 0x8000000080008000, 0x000000000000808B, 0x0000000080000001,
   0x8000000080008081, 0x8000000000008009, 0x000000000000008A, 0x0000000000000088, 0x0000000080008009, 0x000000008000000A,
   0x000000008000808B, 0x800000000000008B, 0x8000000000008089, 0x8000000000008003, 0x8000000000008002, 0x8000000000000080,
   0x000000000000800A, 0x800000008000000A, 0x8000000080008081, 0x8000000000008080, 0x0000000080000001, 0x8000000080008008]
def keccakTurns : List Nat :=
  [0, 1, 62, 28, 27, 36, 44, 6, 55, 20, 3, 10, 43, 25, 39, 41, 45, 15, 21, 8, 18, 2, 61, 56, 14]

def rotl64 (n x : Nat) : Nat := x * 2 ^ n % 2 ^ 64 + x / 2 ^ (64 - n)

/-- One round on 25 lanes; lane (x, y) stands at x + 5 * y (PRESUMED: FIPS 202, log 143). -/
def keccakRound (a : List Nat) (rc : Nat) : List Nat :=
  let lanes (f : Nat → Nat → Nat) : List Nat := (List.range 25).map fun i => f (i % 5) (i / 5)
  let at_ (l : List Nat) (x y : Nat) : Nat := l.getD (x % 5 + 5 * (y % 5)) 0
  let col := (List.range 5).map fun x => (List.range 5).foldl (fun n y => n ^^^ at_ a x y) 0
  let t := lanes fun x y => at_ a x y ^^^ col.getD ((x + 4) % 5) 0 ^^^ rotl64 1 (col.getD ((x + 1) % 5) 0)
  let b := lanes fun x y => rotl64 (at_ keccakTurns (x + 3 * y) x) (at_ t (x + 3 * y) x)
  let c := lanes fun x y => at_ b x y ^^^ ((2 ^ 64 - 1 - at_ b (x + 1) y) &&& at_ b (x + 2) y)
  c.set 0 (at_ c 0 0 ^^^ rc)

/-- A block of 136 bytes goes into the sponge. -/
def keccakAbsorb (a : List Nat) (block : List Byte) : List Nat :=
  keccakRounds.foldl keccakRound ((List.range 25).map fun i => a.getD i 0 ^^^ leNat ((block.drop (8 * i)).take 8))

/-- SHA3-256 of a list of bytes (R415; PRESUMED: FIPS 202, log 143). -/
def sha3 (l : List Byte) : List Byte :=
  let gap := 135 - l.length % 136
  let m := l ++ (if gap = 0 then [0x86] else 0x06 :: (List.replicate (gap - 1) 0 ++ [0x80]))
  let a := (List.range (m.length / 136)).foldl (fun a i => keccakAbsorb a ((m.drop (136 * i)).take 136)) (List.replicate 25 0)
  (a.take 4).flatMap (leBytes 8)

/-- The parts of an image (R415). -/
def imagePart (i : Image) (off n : Nat) : List Byte := (List.range n).map fun j => i.bytes.getD (off + j) 0
def imageWord (i : Image) (off n : Nat) : Nat := leNat (imagePart i off n)
def imageVersion (i : Image) : Nat := imageWord i 8 8
def imageDigest (i : Image) : List Byte := imagePart i 0x10 32
def imageBody (i : Image) : List Byte := imagePart i 0xA00 (imageWord i 4 4)

/-- An image is accepted for its stage (R415): word 0 has the kind, format 1 and zeros, the padding is 0, the signature verifies over
bytes 0x000 to 0x02F under the key whose digest is in ROM, the body's digest matches, the version is not too low. -/
def imageOk (kind low : Nat) (img : Image) : Bool :=
  imageWord img 0 4 == kind + 2 ^ 8 && img.bytes.length == 0xA00 + imageWord img 4 4 && (imagePart img 0x9A4 92).all (· == 0)
    && sha3 Config.vendorKey.toList == Config.vendorDigest.toList
    && Config.signatureOk Config.vendorKey.toList (imagePart img 0 0x30) (imagePart img 0x30 2420)
    && sha3 (imageBody img) == imageDigest img && decide (low ≤ imageVersion img)
    && Config.declares (imageBody img) == (img.config, img.entry)

/-- FIRMWARE_VERIFY (R414 stage 2). -/
def execFirmwareVerify (img : Image) (s : State) : Outcome State Fault Refusal :=
  if !s.atStage 1 then .next s
  else if imageOk 1 s.wenlek.lowFirmware img then
    .next (s.modWenlek fun w => { w with stage := 2, firmware := some img, lowFirmware := imageVersion img })
  else .next (s.modWenlek fun w => { w with stopped := true })

/-- The registers that stage 6 writes: PTROOT, PTWIN, DRBASE, HRTBASE, LEQ0 to LEQ31 (R414). -/
def serviceRegister (n : Nat) : Bool := (decide (0x800 ≤ n) && decide (n ≤ 0x803)) || (decide (0x820 ≤ n) && decide (n ≤ 0x83F))

/-- Every item of a configuration lies within its values (R416). -/
def configOk (b : ConfigBody) : Bool :=
  (if Config.bare then decide (1 ≤ b.nearGiB) && decide (b.nearGiB ≤ 128) else b.nearGiB == 128)
    && decide (b.farGiB ≤ 1536) && !(Config.noFar && b.farGiB != 0)
    && b.roles.length == 32
    && decide (b.peerLinks.length ≤ 16) && b.peerLinks.all (fun l => decide (l.length ≤ 8) && l.all fun n => decide (n < 32))
    && b.hostLinks.all (fun l => l.all fun n => decide (n < 32))
    && b.registers.all (fun r => serviceRegister r.1 && decide (r.2 < 2 ^ 64))
    && decide (600 ≤ b.powerLimit) && decide (b.powerLimit ≤ 2200)

/-- CONFIGURATION_VERIFY (R414 stage 3): the memory's capacities and the links' roles come from it. -/
def execConfigurationVerify (img : Image) (s : State) : Outcome State Fault Refusal :=
  if !s.atStage 2 then .next s
  else if imageOk 2 s.wenlek.lowConfig img && configOk img.config then
    let s := (List.range 32).foldl (fun s n => s.modLink n fun x => { x with role := img.config.roles.getD n .unused }) s
    .next ({ s with nearGiB := img.config.nearGiB, farGiB := img.config.farGiB }.modWenlek fun w =>
      { w with stage := 3, config := some img, lowConfig := imageVersion img })
  else .next (s.modWenlek fun w => { w with stopped := true })

/-! Stages 4 to 7 (R414). -/

/-- DIE_POWER_UP: the next die in order rises, or is held unpowered and reported. -/
def execDiePowerUp (die : Nat) (good : Bool) (s : State) : Outcome State Fault Refusal :=
  let done := s.wenlek.poweredDies.length + s.wenlek.heldDies.length
  if !s.atStage 3 || die != done || decide (4 ≤ die) then .next s
  else
    let t := if good then { s with dieReset := SMap.put s.dieReset die s.clock } else s
    .next (t.modWenlek fun w => { w with
      poweredDies := if good then w.poweredDies ++ [die] else w.poweredDies
      heldDies := if good then w.heldDies else w.heldDies ++ [die]
      telemetry := if good then w.telemetry else w.telemetry ++ [[1, die]]
      stage := if die = 3 then 4 else 3 })

/-- The matrix units of the powered dies. -/
def poweredUnits (s : State) : List Nat := s.wenlek.poweredDies.flatMap fun d => (List.range 1536).map fun i => d * 1536 + i

/-- BOOT_SELF_TEST: every unit gets the fault map that its self-test finds, generation 1, which the unit has seen (R136); its idle time
counts from the end of this scan (R159). -/
def execBootSelfTest (s : State) : Outcome State Fault Refusal :=
  if !s.atStage 4 then .next s
  else
    let test (s : State) (c : Nat) : State :=
      s.modMx c fun x => { x.remap (Config.selfTest (s.tick * 6144 + c)) with generation := 1, seen := 1, idleSince := s.clock }
    .next (((poweredUnits s).foldl test s).modWenlek fun w => { w with stage := 5 })

/-- The service entry block in a keystone (R417): its capabilities are written tagged. -/
def writeEntry (e : EntryBlock) (s : State) (c : Nat) : State :=
  let at_ (off : Nat) : Nat := localKey c off
  let s := physWrite (at_ 0) (List.replicate 4096 0) false s
  let s := physWrite (at_ 0) (leBytes 16 e.code) true s
  let s := (List.range 4).foldl (fun s i => physWrite (at_ (0x10 + 16 * i)) (leBytes 16 (e.stackCaps.getD i 0)) true s) s
  physWrite (at_ 0x51) (leBytes 1 (e.prio % 16)) false (physWrite (at_ 0x50) (leBytes 1 e.domain) false s)

/-- The keystones of the powered dies. -/
def poweredKeystones (s : State) : List Nat := s.wenlek.poweredDies.flatMap fun d => (List.range 48).map fun t => numSmall + d * 48 + t

/-- SERVICE_ENTRY_SETUP: entry blocks from the firmware, service registers from the configuration; a failure stops bring-up. -/
def execServiceEntrySetup (s : State) : Outcome State Fault Refusal :=
  if !s.atStage 5 then .next s
  else match (if Config.entriesSet s.tick then s.wenlek.firmware else none), s.wenlek.config with
    | some f, some c =>
      let s := (poweredKeystones s).foldl (writeEntry f.entry) s
      let s := c.config.registers.foldl (fun s r => csrWrite r.1 r.2 s) s
      .next (s.modWenlek fun w => { w with stage := 6 })
    | _, _ => .next (s.modWenlek fun w => { w with stopped := true })

/-- A keystone starts service code at its entry block (R414): context 0, without a frame (DESIGN CHOICE, log 144). -/
def startService (s : State) (c : Nat) : State := place c 0 0 (serviceContext s c 0) s

/-- BRINGUP_LINK_TRAINING: the declared links come up with the lanes that pass, those that fail are down; bring-up is complete and
the keystones start. -/
def execBringupLinkTraining (up : List (Nat × Nat × Nat)) (s : State) : Outcome State Fault Refusal :=
  if !s.atStage 6 then .next s
  else
    let train (s : State) (n : Nat) : State :=
      if (s.link n).role = .unused then s
      else
        let t := match up.find? (fun p => p.1 == n) with
          | some p => trainLink n p.2.1 p.2.2 s
          | none => s
        if (t.link n).up then t else t.modLink n fun x => { x with downSince := s.clock }
    let t := (List.range 32).foldl train s
    .next (((poweredKeystones t).foldl startService t).modWenlek fun w => { w with stage := 7 })

/-! Attestation (R418). -/

/-- The body digest and version of a running image. -/
def digestOf (i : Option Image) : List Byte := match i with | some x => imageDigest x | none => List.replicate 32 0
def versionOf (i : Option Image) : Nat := match i with | some x => imageVersion x | none => 0

/-- The counts of the report: offline units, units in two-pass geometry, dies held unpowered. -/
def attestCounts (s : State) : Nat :=
  let l := (poweredUnits s).map fun c => s.mx c
  let off := (l.filter Mx.offline).length
  let two := (l.filter fun x => !x.offline && bits x.geom.toNat 12 2 == 2).length
  off + two * 2 ^ 16 + s.wenlek.heldDies.length * 2 ^ 32

/-- The bytes 0x000 to 0x087 of the report. -/
def attestBody (nonce : Nat) (s : State) : List Byte :=
  leBytes 32 nonce ++ digestOf s.wenlek.firmware ++ digestOf s.wenlek.config ++ leBytes 8 (versionOf s.wenlek.firmware)
    ++ leBytes 8 (versionOf s.wenlek.config) ++ leBytes 16 Config.serial ++ leBytes 8 (attestCounts s)

/-- ATTESTATION_REQUEST: the signed report goes out of the management port. -/
def execAttestationRequest (nonce : Nat) (s : State) : Outcome State Fault Refusal :=
  let b := attestBody nonce s
  .next (s.modWenlek fun w => { w with reports := w.reports ++ [4 :: (b ++ (Config.sign b).toList).map BitVec.toNat] })

/-! Limits (R419). -/

def execPowerLimitExceeded (s : State) : Outcome State Fault Refusal := .next (s.modWenlek fun w => { w with powerHold := true })
def execPowerBelowLimit (s : State) : Outcome State Fault Refusal := .next (s.modWenlek fun w => { w with powerHold := false })

/-- The controller stands in for a core in the TSTOPs of a shutdown: number 6,336, slot t for tenant t. -/
def shutdownStops (s : State) : List Stop := s.stops.filter fun p => p.core == numCores

/-- Every tenant that has a core is stopped as TSTOP does (R389, R419). -/
def beginShutdown (s : State) : State :=
  let own (t : Nat) : List Nat := (s.cores.filter fun p => ownedBy p.2 t).map fun p => p.1
  let stop (u : State) (t : Nat) : State :=
    if (own t).isEmpty then u
    else
      let v := beginStop t ((own t).map globalTile).eraseDups { u with curCore := numCores, curSlot := t }
      { v with curCore := s.curCore, curSlot := s.curSlot }
  (List.range 256).foldl stop (s.modWenlek fun w => { w with
    shutdown := true, telemetry := w.telemetry ++ [[2, s.clock]] })

/-- A tenant's cores are saved for a shutdown. -/
def endShutdownStop (s : State) (p : Stop) : State :=
  let s := (ownedCores s p.tenant p.tiles).foldl (fun s c => saveCore p.tenant c s) s
  { s with stops := s.stops.erase p }

/-- The dies power down in reverse order: cached lines are written back first, so that no posted record is lost. -/
def powerDown (s : State) : State :=
  let s := s.lines.foldl (fun s p => evictLine (p.1 / 2 ^ 42) (p.1 % 2 ^ 42 * 1024) s) s
  { s with
    cores := [], flights := [], lineHolds := [], spawned := [], net := [], nacks := [], held := [], grants := [], missWait := []
    links := s.links.map fun (p : Nat × Link) => (p.1, { p.2 with up := false }) }.modWenlek fun w =>
      { w with stage := 0, poweredDies := [] }

/-- THERMAL_SHUTDOWN: telemetry, the stop of every tenant, and once all have stopped the dies power down (R419). -/
def execThermalShutdown (s : State) : Outcome State Fault Refusal :=
  let t := if s.wenlek.shutdown then s else beginShutdown s
  if (shutdownStops t).all fun p => stopReady p t then
    .next (powerDown ((shutdownStops t).foldl endShutdownStop t))
  else .next t

end Sys2Proof.Machine
end

