-- ==== Sys2Proof/Machine/Dispatch.lean ====
section
/-! DEFINITION. One arm per constructor of Instr. -/

namespace Sys2Proof.Machine

def exec (i : Instr) (s : State) : Host.Outcome State Fault Refusal :=
  match i with
  | .add d a b => Sys2Proof.Machine.execAdd d a b s
  | .sub d a b => Sys2Proof.Machine.execSub d a b s
  | .mul d a b => Sys2Proof.Machine.execMul d a b s
  | .mulh d a b => Sys2Proof.Machine.execMulh d a b s
  | .mulhu d a b => Sys2Proof.Machine.execMulhu d a b s
  | .div d a b => Sys2Proof.Machine.execDiv d a b s
  | .divu d a b => Sys2Proof.Machine.execDivu d a b s
  | .rem d a b => Sys2Proof.Machine.execRem d a b s
  | .remu d a b => Sys2Proof.Machine.execRemu d a b s
  | .and d a b => Sys2Proof.Machine.execAnd d a b s
  | .or d a b => Sys2Proof.Machine.execOr d a b s
  | .xor d a b => Sys2Proof.Machine.execXor d a b s
  | .andn d a b => Sys2Proof.Machine.execAndn d a b s
  | .sll d a b => Sys2Proof.Machine.execSll d a b s
  | .srl d a b => Sys2Proof.Machine.execSrl d a b s
  | .sra d a b => Sys2Proof.Machine.execSra d a b s
  | .rol d a b => Sys2Proof.Machine.execRol d a b s
  | .ror d a b => Sys2Proof.Machine.execRor d a b s
  | .slt d a b => Sys2Proof.Machine.execSlt d a b s
  | .sltu d a b => Sys2Proof.Machine.execSltu d a b s
  | .min d a b => Sys2Proof.Machine.execMin d a b s
  | .max d a b => Sys2Proof.Machine.execMax d a b s
  | .minu d a b => Sys2Proof.Machine.execMinu d a b s
  | .maxu d a b => Sys2Proof.Machine.execMaxu d a b s
  | .clz d a => Sys2Proof.Machine.execClz d a s
  | .ctz d a => Sys2Proof.Machine.execCtz d a s
  | .popc d a => Sys2Proof.Machine.execPopc d a s
  | .sel d a b g => Sys2Proof.Machine.execSel d a b g s
  | .addi d a imm => Sys2Proof.Machine.execAddi d a imm s
  | .slli d a amt => Sys2Proof.Machine.execSlli d a amt s
  | .srli d a amt => Sys2Proof.Machine.execSrli d a amt s
  | .srai d a amt => Sys2Proof.Machine.execSrai d a amt s
  | .andi d a imm => Sys2Proof.Machine.execAndi d a imm s
  | .ori d a imm => Sys2Proof.Machine.execOri d a imm s
  | .xori d a imm => Sys2Proof.Machine.execXori d a imm s
  | .slti d a imm => Sys2Proof.Machine.execSlti d a imm s
  | .sltui d a imm => Sys2Proof.Machine.execSltui d a imm s
  | .lih d imm => Sys2Proof.Machine.execLih d imm s
  | .csetb d a b => Sys2Proof.Machine.execCsetb d a b s
  | .cinc d a b => Sys2Proof.Machine.execCinc d a b s
  | .candp d a b => Sys2Proof.Machine.execCandp d a b s
  | .csub d a b => Sys2Proof.Machine.execCsub d a b s
  | .ctest d a b => Sys2Proof.Machine.execCtest d a b s
  | .cgetb d a => Sys2Proof.Machine.execCgetb d a s
  | .cgetl d a => Sys2Proof.Machine.execCgetl d a s
  | .cgetp d a => Sys2Proof.Machine.execCgetp d a s
  | .cgett d a => Sys2Proof.Machine.execCgett d a s
  | .cclr d a => Sys2Proof.Machine.execCclr d a s
  | .cmov d a => Sys2Proof.Machine.execCmov d a s
  | .cincI d a imm => Sys2Proof.Machine.execCincI d a imm s
  | .csetbI d a len => Sys2Proof.Machine.execCsetbI d a len s
  | .candpI d a mask => Sys2Proof.Machine.execCandpI d a mask s
  | .cpcrel d off => Sys2Proof.Machine.execCpcrel d off s
  | .lb d a imm => Sys2Proof.Machine.execLb d a imm s
  | .lbu d a imm => Sys2Proof.Machine.execLbu d a imm s
  | .lh d a imm => Sys2Proof.Machine.execLh d a imm s
  | .lhu d a imm => Sys2Proof.Machine.execLhu d a imm s
  | .lw d a imm => Sys2Proof.Machine.execLw d a imm s
  | .lwu d a imm => Sys2Proof.Machine.execLwu d a imm s
  | .ld d a imm => Sys2Proof.Machine.execLd d a imm s
  | .lcap d a imm => Sys2Proof.Machine.execLcap d a imm s
  | .sb b a imm => Sys2Proof.Machine.execSb b a imm s
  | .sh b a imm => Sys2Proof.Machine.execSh b a imm s
  | .sw b a imm => Sys2Proof.Machine.execSw b a imm s
  | .sd b a imm => Sys2Proof.Machine.execSd b a imm s
  | .sq b a imm => Sys2Proof.Machine.execSq b a imm s
  | .scap b a imm => Sys2Proof.Machine.execScap b a imm s
  | .lbX d a hint scope route => Sys2Proof.Machine.execLbX d a hint scope route s
  | .lbuX d a hint scope route => Sys2Proof.Machine.execLbuX d a hint scope route s
  | .lhX d a hint scope route => Sys2Proof.Machine.execLhX d a hint scope route s
  | .lhuX d a hint scope route => Sys2Proof.Machine.execLhuX d a hint scope route s
  | .lwX d a hint scope route => Sys2Proof.Machine.execLwX d a hint scope route s
  | .lwuX d a hint scope route => Sys2Proof.Machine.execLwuX d a hint scope route s
  | .ldX d a hint scope route => Sys2Proof.Machine.execLdX d a hint scope route s
  | .lq d a hint scope route => Sys2Proof.Machine.execLq d a hint scope route s
  | .lcapX d a hint scope route => Sys2Proof.Machine.execLcapX d a hint scope route s
  | .home d a => Sys2Proof.Machine.execHome d a s
  | .migr a => Sys2Proof.Machine.execMigr a s
  | .migrF a => Sys2Proof.Machine.execMigrF a s
  | .sbX b a hint scope route => Sys2Proof.Machine.execSbX b a hint scope route s
  | .shX b a hint scope route => Sys2Proof.Machine.execShX b a hint scope route s
  | .swX b a hint scope route => Sys2Proof.Machine.execSwX b a hint scope route s
  | .sdX b a hint scope route => Sys2Proof.Machine.execSdX b a hint scope route s
  | .sqX b a hint scope route => Sys2Proof.Machine.execSqX b a hint scope route s
  | .scapX b a hint scope route => Sys2Proof.Machine.execScapX b a hint scope route s
  | .amoadd d b a w aq rl scope => Sys2Proof.Machine.execAmoadd d b a w aq rl scope s
  | .amoand d b a w aq rl scope => Sys2Proof.Machine.execAmoand d b a w aq rl scope s
  | .amoor d b a w aq rl scope => Sys2Proof.Machine.execAmoor d b a w aq rl scope s
  | .amoxor d b a w aq rl scope => Sys2Proof.Machine.execAmoxor d b a w aq rl scope s
  | .amomin d b a w aq rl scope => Sys2Proof.Machine.execAmomin d b a w aq rl scope s
  | .amomax d b a w aq rl scope => Sys2Proof.Machine.execAmomax d b a w aq rl scope s
  | .amominu d b a w aq rl scope => Sys2Proof.Machine.execAmominu d b a w aq rl scope s
  | .amomaxu d b a w aq rl scope => Sys2Proof.Machine.execAmomaxu d b a w aq rl scope s
  | .amoswap d b a w aq rl scope => Sys2Proof.Machine.execAmoswap d b a w aq rl scope s
  | .cas d b a w aq rl scope => Sys2Proof.Machine.execCas d b a w aq rl scope s
  | .casq d b a aq rl scope => Sys2Proof.Machine.execCasq d b a aq rl scope s
  | .rwlr d a t => Sys2Proof.Machine.execRwlr d a t s
  | .rwlw d a t => Sys2Proof.Machine.execRwlw d a t s
  | .rwur a => Sys2Proof.Machine.execRwur a s
  | .rwuw a => Sys2Proof.Machine.execRwuw a s
  | .fence kinds scope => Sys2Proof.Machine.execFence kinds scope s
  | .beq a b off => Sys2Proof.Machine.execBeq a b off s
  | .bne a b off => Sys2Proof.Machine.execBne a b off s
  | .blt a b off => Sys2Proof.Machine.execBlt a b off s
  | .bge a b off => Sys2Proof.Machine.execBge a b off s
  | .bltu a b off => Sys2Proof.Machine.execBltu a b off s
  | .bgeu a b off => Sys2Proof.Machine.execBgeu a b off s
  | .jal d off => Sys2Proof.Machine.execJal d off s
  | .jalr d a imm => Sys2Proof.Machine.execJalr d a imm s
  | .vld d a imm => Sys2Proof.Machine.execVld d a imm s
  | .vlds d a w k ew => Sys2Proof.Machine.execVlds d a w k ew s
  | .vgath d a x k ew => Sys2Proof.Machine.execVgath d a x k ew s
  | .vst b a imm => Sys2Proof.Machine.execVst b a imm s
  | .vsts b a w k ew => Sys2Proof.Machine.execVsts b a w k ew s
  | .vscat b a x k ew => Sys2Proof.Machine.execVscat b a x k ew s
  | .vscataAdd b a x k ew atm => Sys2Proof.Machine.execVscataAdd b a x k ew atm s
  | .vscataFadd b a x k ew atm => Sys2Proof.Machine.execVscataFadd b a x k ew atm s
  | .vadd d a b k ew => Sys2Proof.Machine.execVadd d a b k ew s
  | .vsub d a b k ew => Sys2Proof.Machine.execVsub d a b k ew s
  | .vmul d a b k ew => Sys2Proof.Machine.execVmul d a b k ew s
  | .vmulh d a b k ew => Sys2Proof.Machine.execVmulh d a b k ew s
  | .vmulhu d a b k ew => Sys2Proof.Machine.execVmulhu d a b k ew s
  | .vmin d a b k ew => Sys2Proof.Machine.execVmin d a b k ew s
  | .vmax d a b k ew => Sys2Proof.Machine.execVmax d a b k ew s
  | .vminu d a b k ew => Sys2Proof.Machine.execVminu d a b k ew s
  | .vmaxu d a b k ew => Sys2Proof.Machine.execVmaxu d a b k ew s
  | .vabs d a k ew => Sys2Proof.Machine.execVabs d a k ew s
  | .vneg d a k ew => Sys2Proof.Machine.execVneg d a k ew s
  | .vand d a b k ew => Sys2Proof.Machine.execVand d a b k ew s
  | .vor d a b k ew => Sys2Proof.Machine.execVor d a b k ew s
  | .vxor d a b k ew => Sys2Proof.Machine.execVxor d a b k ew s
  | .vsll d a b k ew => Sys2Proof.Machine.execVsll d a b k ew s
  | .vsrl d a b k ew => Sys2Proof.Machine.execVsrl d a b k ew s
  | .vsra d a b k ew => Sys2Proof.Machine.execVsra d a b k ew s
  | .vaddFp d a b k ew => Sys2Proof.Machine.execVaddFp d a b k ew s
  | .vsubFp d a b k ew => Sys2Proof.Machine.execVsubFp d a b k ew s
  | .vmulFp d a b k ew => Sys2Proof.Machine.execVmulFp d a b k ew s
  | .vfma d a b k ew => Sys2Proof.Machine.execVfma d a b k ew s
  | .vfms d a b k ew => Sys2Proof.Machine.execVfms d a b k ew s
  | .vdiv d a b k ew => Sys2Proof.Machine.execVdiv d a b k ew s
  | .vsqrt d a k ew => Sys2Proof.Machine.execVsqrt d a k ew s
  | .vminFp d a b k ew => Sys2Proof.Machine.execVminFp d a b k ew s
  | .vmaxFp d a b k ew => Sys2Proof.Machine.execVmaxFp d a b k ew s
  | .vabsFp d a k ew => Sys2Proof.Machine.execVabsFp d a k ew s
  | .vnegFp d a k ew => Sys2Proof.Machine.execVnegFp d a k ew s
  | .vcmpEq d a b k ew => Sys2Proof.Machine.execVcmpEq d a b k ew s
  | .vcmpNe d a b k ew => Sys2Proof.Machine.execVcmpNe d a b k ew s
  | .vcmpLt d a b k ew => Sys2Proof.Machine.execVcmpLt d a b k ew s
  | .vcmpLe d a b k ew => Sys2Proof.Machine.execVcmpLe d a b k ew s
  | .vcmpLtu d a b k ew => Sys2Proof.Machine.execVcmpLtu d a b k ew s
  | .vcmpLeu d a b k ew => Sys2Proof.Machine.execVcmpLeu d a b k ew s
  | .vcmpFeq d a b k ew => Sys2Proof.Machine.execVcmpFeq d a b k ew s
  | .vcmpFne d a b k ew => Sys2Proof.Machine.execVcmpFne d a b k ew s
  | .vcmpFlt d a b k ew => Sys2Proof.Machine.execVcmpFlt d a b k ew s
  | .vcmpFle d a b k ew => Sys2Proof.Machine.execVcmpFle d a b k ew s
  | .vcmpFuno d a b k ew => Sys2Proof.Machine.execVcmpFuno d a b k ew s
  | .vsel d a b k ew => Sys2Proof.Machine.execVsel d a b k ew s
  | .vbcast d a k ew => Sys2Proof.Machine.execVbcast d a k ew s
  | .vext d a b ew => Sys2Proof.Machine.execVext d a b ew s
  | .vins d a b ew => Sys2Proof.Machine.execVins d a b ew s
  | .vperm d a b k ew => Sys2Proof.Machine.execVperm d a b k ew s
  | .vslideUp d a b k ew => Sys2Proof.Machine.execVslideUp d a b k ew s
  | .vslideDn d a b k ew => Sys2Proof.Machine.execVslideDn d a b k ew s
  | .vcompr d a k ew => Sys2Proof.Machine.execVcompr d a k ew s
  | .vexpnd d a k ew => Sys2Proof.Machine.execVexpnd d a k ew s
  | .vredAdd d a k ew => Sys2Proof.Machine.execVredAdd d a k ew s
  | .vredMin d a k ew => Sys2Proof.Machine.execVredMin d a k ew s
  | .vredMax d a k ew => Sys2Proof.Machine.execVredMax d a k ew s
  | .vredMinu d a k ew => Sys2Proof.Machine.execVredMinu d a k ew s
  | .vredMaxu d a k ew => Sys2Proof.Machine.execVredMaxu d a k ew s
  | .vredAnd d a k ew => Sys2Proof.Machine.execVredAnd d a k ew s
  | .vredOr d a k ew => Sys2Proof.Machine.execVredOr d a k ew s
  | .vredXor d a k ew => Sys2Proof.Machine.execVredXor d a k ew s
  | .vredFadd d a k ew => Sys2Proof.Machine.execVredFadd d a k ew s
  | .vredFmin d a k ew => Sys2Proof.Machine.execVredFmin d a k ew s
  | .vredFmax d a k ew => Sys2Proof.Machine.execVredFmax d a k ew s
  | .vcvt d a k src dst => Sys2Proof.Machine.execVcvt d a k src dst s
  | .vcvttDec d a b k t4 o => Sys2Proof.Machine.execVcvttDec d a b k t4 o s
  | .vcvttEnc d a b k t4 o => Sys2Proof.Machine.execVcvttEnc d a b k t4 o s
  | .vconf d a k ew => Sys2Proof.Machine.execVconf d a k ew s
  | .visect d a b k => Sys2Proof.Machine.execVisect d a b k s
  | .kopAnd d a b => Sys2Proof.Machine.execKopAnd d a b s
  | .kopOr d a b => Sys2Proof.Machine.execKopOr d a b s
  | .kopXor d a b => Sys2Proof.Machine.execKopXor d a b s
  | .kopAndn d a b => Sys2Proof.Machine.execKopAndn d a b s
  | .kopNot d a => Sys2Proof.Machine.execKopNot d a s
  | .kmovToMask d a => Sys2Proof.Machine.execKmovToMask d a s
  | .kmovFromMask d a => Sys2Proof.Machine.execKmovFromMask d a s
  | .kpop d a => Sys2Proof.Machine.execKpop d a s
  | .send d a b n rx => Sys2Proof.Machine.execSend d a b n rx s
  | .sendv d a b n rx => Sys2Proof.Machine.execSendv d a b n rx s
  | .sendb d a b n rx => Sys2Proof.Machine.execSendb d a b n rx s
  | .mlen d => Sys2Proof.Machine.execMlen d s
  | .msrc d => Sys2Proof.Machine.execMsrc d s
  | .spawn d a b => Sys2Proof.Machine.execSpawn d a b s
  | .spawnW d a b => Sys2Proof.Machine.execSpawnW d a b s
  | .kill a => Sys2Proof.Machine.execKill a s
  | .prio a => Sys2Proof.Machine.execPrio a s
  | .waitc n a => Sys2Proof.Machine.execWaitc n a s
  | .barr a => Sys2Proof.Machine.execBarr a s
  | .barw a => Sys2Proof.Machine.execBarw a s
  | .baraw a => Sys2Proof.Machine.execBaraw a s
  | .barset a b => Sys2Proof.Machine.execBarset a b s
  | .wdeclOne a => Sys2Proof.Machine.execWdeclOne a s
  | .wdeclAll a n => Sys2Proof.Machine.execWdeclAll a n s
  | .wdeclAny a n => Sys2Proof.Machine.execWdeclAny a n s
  | .chopen d a b => Sys2Proof.Machine.execChopen d a b s
  | .chprod a => Sys2Proof.Machine.execChprod a s
  | .chput a b => Sys2Proof.Machine.execChput a b s
  | .chget d g a => Sys2Proof.Machine.execChget d g a s
  | .cheos a => Sys2Proof.Machine.execCheos a s
  | .chclose a => Sys2Proof.Machine.execChclose a s
  | .tsub d a b n => Sys2Proof.Machine.execTsub d a b n s
  | .trel n => Sys2Proof.Machine.execTrel n s
  | .tretry a => Sys2Proof.Machine.execTretry a s
  | .mxq a b => Sys2Proof.Machine.execMxq a b s
  | .mxwait a => Sys2Proof.Machine.execMxwait a s
  | .mxcure a => Sys2Proof.Machine.execMxcure a s
  | .cekick a b g => Sys2Proof.Machine.execCekick a b g s
  | .semw n => Sys2Proof.Machine.execSemw n s
  | .sems n => Sys2Proof.Machine.execSems n s
  | .compose n => Sys2Proof.Machine.execCompose n s
  | .csrr d csr => Sys2Proof.Machine.execCsrr d csr s
  | .csrw csr a => Sys2Proof.Machine.execCsrw csr a s
  | .csrset csr a => Sys2Proof.Machine.execCsrset csr a s
  | .csrclr csr a => Sys2Proof.Machine.execCsrclr csr a s
  | .trap n => Sys2Proof.Machine.execTrap n s
  | .syscall n a => Sys2Proof.Machine.execSyscall n a s
  | .pinval a b => Sys2Proof.Machine.execPinval a b s
  | .plbinv a b => Sys2Proof.Machine.execPlbinv a b s
  | .tstop a => Sys2Proof.Machine.execTstop a s
  | .tresume a => Sys2Proof.Machine.execTresume a s
  | .mxtest a => Sys2Proof.Machine.execMxtest a s
  | .pkill a => Sys2Proof.Machine.execPkill a s
  | .fenceI => Sys2Proof.Machine.execFenceI s
  | .mdone => Sys2Proof.Machine.execMdone s
  | .exit => Sys2Proof.Machine.execExit s
  | .yield => Sys2Proof.Machine.execYield s
  | .killApply core slot => Sys2Proof.Machine.execKillApply core slot s
  | .wclr => Sys2Proof.Machine.execWclr s
  | .tdone => Sys2Proof.Machine.execTdone s
  | .cekickR => Sys2Proof.Machine.execCekickR s
  | .composeComplete core slot => Sys2Proof.Machine.execComposeComplete core slot s
  | .decompose => Sys2Proof.Machine.execDecompose s
  | .nop => Sys2Proof.Machine.execNop s
  | .brk => Sys2Proof.Machine.execBrk s
  | .eret => Sys2Proof.Machine.execEret s
  | .pinvalComplete core slot => Sys2Proof.Machine.execPinvalComplete core slot s
  | .tstopComplete core slot => Sys2Proof.Machine.execTstopComplete core slot s
  | .cNop => Sys2Proof.Machine.execCNop s
  | .cAdd d a => Sys2Proof.Machine.execCAdd d a s
  | .cSub d a => Sys2Proof.Machine.execCSub d a s
  | .cAnd d a => Sys2Proof.Machine.execCAnd d a s
  | .cOr d a => Sys2Proof.Machine.execCOr d a s
  | .cXor d a => Sys2Proof.Machine.execCXor d a s
  | .cMov d a => Sys2Proof.Machine.execCMov d a s
  | .cAddi d imm => Sys2Proof.Machine.execCAddi d imm s
  | .cLi d imm => Sys2Proof.Machine.execCLi d imm s
  | .cSlli d amt => Sys2Proof.Machine.execCSlli d amt s
  | .cSrli d amt => Sys2Proof.Machine.execCSrli d amt s
  | .cCinc d imm => Sys2Proof.Machine.execCCinc d imm s
  | .cLd d a off => Sys2Proof.Machine.execCLd d a off s
  | .cSd b a off => Sys2Proof.Machine.execCSd b a off s
  | .cLw d a off => Sys2Proof.Machine.execCLw d a off s
  | .cSw b a off => Sys2Proof.Machine.execCSw b a off s
  | .cBeqz a off => Sys2Proof.Machine.execCBeqz a off s
  | .cBnez a off => Sys2Proof.Machine.execCBnez a off s
  | .cJ off => Sys2Proof.Machine.execCJ off s
  | .cJr a => Sys2Proof.Machine.execCJr a s
  | .cYield => Sys2Proof.Machine.execCYield s
  | .cMdone => Sys2Proof.Machine.execCMdone s
  | .eli d imm hw k => Sys2Proof.Machine.execEli d imm hw k s
  | .eadd d a b => Sys2Proof.Machine.execEadd d a b s
  | .eaddi d a imm => Sys2Proof.Machine.execEaddi d a imm s
  | .esub d a b => Sys2Proof.Machine.execEsub d a b s
  | .eand d a b => Sys2Proof.Machine.execEand d a b s
  | .eshl d a amt => Sys2Proof.Machine.execEshl d a amt s
  | .eshr d a amt => Sys2Proof.Machine.execEshr d a amt s
  | .eb cond a b off => Sys2Proof.Machine.execEb cond a b off s
  | .ej off => Sys2Proof.Machine.execEj off s
  | .eld d a f imm => Sys2Proof.Machine.execEld d a f imm s
  | .eldQ d q => Sys2Proof.Machine.execEldQ d q s
  | .est d a f imm => Sys2Proof.Machine.execEst d a f imm s
  | .estQ d q => Sys2Proof.Machine.execEstQ d q s
  | .blk d a b x => Sys2Proof.Machine.execBlk d a b x s
  | .gath d a b x => Sys2Proof.Machine.execGath d a b x s
  | .scat d a b x => Sys2Proof.Machine.execScat d a b x s
  | .scout n => Sys2Proof.Machine.execScout n s
  | .ewait n a => Sys2Proof.Machine.execEwait n a s
  | .efence x => Sys2Proof.Machine.execEfence x s
  | .semwEngine n => Sys2Proof.Machine.execSemwEngine n s
  | .semsEngine n => Sys2Proof.Machine.execSemsEngine n s
  | .barbBind a => Sys2Proof.Machine.execBarbBind a s
  | .barbUnbind => Sys2Proof.Machine.execBarbUnbind s
  | .barbAdd a b => Sys2Proof.Machine.execBarbAdd a b s
  | .edone a => Sys2Proof.Machine.execEdone a s
  | .copyComplete core => Sys2Proof.Machine.execCopyComplete core s
  | .copyStop core => Sys2Proof.Machine.execCopyStop core s
  | .scoutTranslation core => Sys2Proof.Machine.execScoutTranslation core s
  | .engineInterrupt core => Sys2Proof.Machine.execEngineInterrupt core s
  | .mxNop c => Sys2Proof.Machine.execMxNop c s
  | .mxRing c => Sys2Proof.Machine.execMxRing c s
  | .mxMode c => Sys2Proof.Machine.execMxMode c s
  | .mxZero c => Sys2Proof.Machine.execMxZero c s
  | .mxLda c => Sys2Proof.Machine.execMxLda c s
  | .mxLdb c => Sys2Proof.Machine.execMxLdb c s
  | .mxMma c => Sys2Proof.Machine.execMxMma c s
  | .mxRot c => Sys2Proof.Machine.execMxRot c s
  | .mxMmar c => Sys2Proof.Machine.execMxMmar c s
  | .mxRed c => Sys2Proof.Machine.execMxRed c s
  | .mxScx c => Sys2Proof.Machine.execMxScx c s
  | .mxStc c => Sys2Proof.Machine.execMxStc c s
  | .mxSync c => Sys2Proof.Machine.execMxSync c s
  | .mxFmap c => Sys2Proof.Machine.execMxFmap c s
  | .tokenPush core => Sys2Proof.Machine.execTokenPush core s
  | .rotationStep core => Sys2Proof.Machine.execRotationStep core s
  | .scaleBroadcast core => Sys2Proof.Machine.execScaleBroadcast core s
  | .geometryTrap core => Sys2Proof.Machine.execGeometryTrap core s
  | .scanStart die => Sys2Proof.Machine.execScanStart die s
  | .scanPass core => Sys2Proof.Machine.execScanPass core s
  | .scanFail core cells => Sys2Proof.Machine.execScanFail core cells s
  | .ramp core => Sys2Proof.Machine.execRamp core s
  | .walk die va => Sys2Proof.Machine.execWalk die va s
  | .placementCacheFill core va => Sys2Proof.Machine.execPlacementCacheFill core va s
  | .plbMiss core dom va => Sys2Proof.Machine.execPlbMiss core dom va s
  | .remoteWordAccess n => Sys2Proof.Machine.execRemoteWordAccess n s
  | .sectorAccess core => Sys2Proof.Machine.execSectorAccess core s
  | .sectorFill core va => Sys2Proof.Machine.execSectorFill core va s
  | .missWayRelease tile set => Sys2Proof.Machine.execMissWayRelease tile set s
  | .byStoreAck n => Sys2Proof.Machine.execByStoreAck n s
  | .bankWindowAccess n => Sys2Proof.Machine.execBankWindowAccess n s
  | .scrub granule bad => Sys2Proof.Machine.execScrub granule bad s
  | .ownerSlotHandler core => Sys2Proof.Machine.execOwnerSlotHandler core s
  | .bankroleWrite v => Sys2Proof.Machine.execBankroleWrite v s
  | .bankroleChange core => Sys2Proof.Machine.execBankroleChange core s
  | .arrbaseWrite v => Sys2Proof.Machine.execArrbaseWrite v s
  | .arrcapWrite v => Sys2Proof.Machine.execArrcapWrite v s
  | .cntWrite n v => Sys2Proof.Machine.execCntWrite n v s
  | .statusWrite v => Sys2Proof.Machine.execStatusWrite v s
  | .vtabWrite v => Sys2Proof.Machine.execVtabWrite v s
  | .faultqWrite v => Sys2Proof.Machine.execFaultqWrite v s
  | .wdidleWrite v => Sys2Proof.Machine.execWdidleWrite v s
  | .ptwinWrite v => Sys2Proof.Machine.execPtwinWrite v s
  | .messageArrival n => Sys2Proof.Machine.execMessageArrival n s
  | .slotDispatch core => Sys2Proof.Machine.execSlotDispatch core s
  | .negativeAcknowledgement n => Sys2Proof.Machine.execNegativeAcknowledgement n s
  | .grant n => Sys2Proof.Machine.execGrant n s
  | .refusalResend core slot => Sys2Proof.Machine.execRefusalResend core slot s
  | .probeRequest party => Sys2Proof.Machine.execProbeRequest party s
  | .probe party => Sys2Proof.Machine.execProbe party s
  | .confirm party => Sys2Proof.Machine.execConfirm party s
  | .probeAbandon party => Sys2Proof.Machine.execProbeAbandon party s
  | .faultDelivery party => Sys2Proof.Machine.execFaultDelivery party s
  | .serviceTrapDispatch core => Sys2Proof.Machine.execServiceTrapDispatch core s
  | .parkFrameWait core slot => Sys2Proof.Machine.execParkFrameWait core slot s
  | .faultRecordPost tenant => Sys2Proof.Machine.execFaultRecordPost tenant s
  | .redelivery n => Sys2Proof.Machine.execRedelivery n s
  | .absenceResend n => Sys2Proof.Machine.execAbsenceResend n s
  | .debugHalt core slots engine seq => Sys2Proof.Machine.execDebugHalt core slots engine seq s
  | .debugReadRegister core slot reg => Sys2Proof.Machine.execDebugReadRegister core slot reg s
  | .debugWriteRegister core slot reg v src => Sys2Proof.Machine.execDebugWriteRegister core slot reg v src s
  | .debugReadQueue core q => Sys2Proof.Machine.execDebugReadQueue core q s
  | .debugReplaceQueue core q ws => Sys2Proof.Machine.execDebugReplaceQueue core q ws s
  | .debugStep core slot => Sys2Proof.Machine.execDebugStep core slot s
  | .debugResume core => Sys2Proof.Machine.execDebugResume core s
  | .idleFlit link ack => Sys2Proof.Machine.execIdleFlit link ack s
  | .dataFlit link good seq ack => Sys2Proof.Machine.execDataFlit link good seq ack s
  | .replayRequest link ack => Sys2Proof.Machine.execReplayRequest link ack s
  | .laneMap link map ack => Sys2Proof.Machine.execLaneMap link map ack s
  | .replayRequestTimeout link => Sys2Proof.Machine.execReplayRequestTimeout link s
  | .lossOfLight link lanes => Sys2Proof.Machine.execLossOfLight link lanes s
  | .laneMapResend link => Sys2Proof.Machine.execLaneMapResend link s
  | .linkTraining link rx tx => Sys2Proof.Machine.execLinkTraining link rx tx s
  | .laneRegain link lane => Sys2Proof.Machine.execLaneRegain link lane s
  | .downLinkTimeout link => Sys2Proof.Machine.execDownLinkTimeout link s
  | .linkRead p => Sys2Proof.Machine.execLinkRead p s
  | .postedWrite p => Sys2Proof.Machine.execPostedWrite p s
  | .linkAtomic p => Sys2Proof.Machine.execLinkAtomic p s
  | .linkMessage p => Sys2Proof.Machine.execLinkMessage p s
  | .linkCall p => Sys2Proof.Machine.execLinkCall p s
  | .readResponse p => Sys2Proof.Machine.execReadResponse p s
  | .writeAcknowledgement p => Sys2Proof.Machine.execWriteAcknowledgement p s
  | .atomicResponse p => Sys2Proof.Machine.execAtomicResponse p s
  | .messageAnswer p => Sys2Proof.Machine.execMessageAnswer p s
  | .callResponse p => Sys2Proof.Machine.execCallResponse p s
  | .powerOn => Sys2Proof.Machine.execPowerOn s
  | .firmwareVerify img => Sys2Proof.Machine.execFirmwareVerify img s
  | .configurationVerify img => Sys2Proof.Machine.execConfigurationVerify img s
  | .diePowerUp die good => Sys2Proof.Machine.execDiePowerUp die good s
  | .bootSelfTest => Sys2Proof.Machine.execBootSelfTest s
  | .serviceEntrySetup => Sys2Proof.Machine.execServiceEntrySetup s
  | .bringupLinkTraining up => Sys2Proof.Machine.execBringupLinkTraining up s
  | .attestationRequest nonce => Sys2Proof.Machine.execAttestationRequest nonce s
  | .powerLimitExceeded => Sys2Proof.Machine.execPowerLimitExceeded s
  | .thermalShutdown => Sys2Proof.Machine.execThermalShutdown s
  | .illegalInstruction enc => Sys2Proof.Machine.execIllegalInstruction enc s
  | .instructionFetchFault cause => Sys2Proof.Machine.execInstructionFetchFault cause s
  | .engineIllegalInstruction w => Sys2Proof.Machine.execEngineIllegalInstruction w s
  | .engineFetchFault cause => Sys2Proof.Machine.execEngineFetchFault cause s
  | .accessResponse core slot => Sys2Proof.Machine.execAccessResponse core slot s
  | .powerBelowLimit => Sys2Proof.Machine.execPowerBelowLimit s
  | .wenlekWindowAccess addr len data => Sys2Proof.Machine.execWenlekWindowAccess addr len data s

end Sys2Proof.Machine
end

