-- ==== Sys2Proof/Machine/Step.lean ====
section
/-! DEFINITION. One step of the machine: who moves, what it executes (R341, R369), and a word placed where the next step fetches
it. -/

namespace Sys2Proof.Machine

open Host (Outcome)

/-- What every step does first: the free values of this step are taken, time passes (log 2), accused marks whose node has changed
are gone (R361). -/
def State.prep (s : State) : State :=
  { s with
    late := Config.late s.tick
    turn := Config.nextTurn s.tick
    tick := s.tick + 1
    clock := s.clock + Config.elapsed s.tick
    accused := liveMarks s
    curWord := 0 }

/-- The current slot executes what it fetched (R211, R232). -/
noncomputable def execFetched (p : Nat × Nat) (s : State) : Outcome State Fault Refusal :=
  match decodeFetched p with
  | some i => exec i { s with curWord := p.1 }
  | none => exec (.illegalInstruction p.1) { s with curWord := p.1 }

/-- The current slot tries to issue: whether it has issued, and what comes of it (R341): the first event of R369 that applies. -/
noncomputable def issueSlot (s : State) : Bool × Outcome State Fault Refusal :=
  let c := s.curCore
  let k := s.curSlot
  if s.me.killPend then (true, exec (.killApply c k) s)
  else match dueCause s c k with
    | some p => (true, .next (takePending c k p s))
    | none =>
      match fetchSlot c k s with
      | .stall t => (false, .next t)
      | .exc e t => (true, exec (.instructionFetchFault e.cause) t)
      | .ok p t =>
        match execFetched p (firstIssue c k t) with
        | .next u => (issuedIn c k t u, .next u)
        | o => (true, o)

/-- The oldest operation of a core's owner queue can go on: no other slot's instruction holds its line (R281, R341). -/
def ownerReady (s : State) (c : Nat) : Bool :=
  match ownerQueue s c with
  | f :: _ => !lineTaken s f
  | [] => false

/-- A core tries its slots in order until one issues; with none, slot 7 starts a handler where `handler` allows it (R341). -/
noncomputable def issueFrom (c : Nat) (handler : Bool) : List (Nat × Nat) → State → Outcome State Fault Refusal
  | [], s => if handler then exec (.ownerSlotHandler c) ({ s with curCore := c }.modCore c fun x => { x with ended := false }) else .next s
  | q :: l, s =>
    match issueSlot (setPointer c q { s with curCore := q.1, curSlot := q.2 }) with
    | (issued, .next t) =>
      let u := if issued then t else notIssued c q s t
      if (l.isEmpty && !handler) || issued then .next u else issueFrom c handler l u
    | (_, o) => o

/-- A core's cycle (R341): slot 7 starts the handler of a queued operation unless its last issue ended one and another slot can
issue; else the slots in order. `stalled` lists the slots that cannot issue in this cycle. -/
noncomputable def issueCore (c : Nat) (stalled : List Nat) (s : State) : Outcome State Fault Refusal :=
  let handler := !stalled.contains 7 && ownerReady s c
  if handler && !(s.core c).ended then exec (.ownerSlotHandler c) s else issueFrom c handler (contenders s c stalled) s

/-- A copy engine executes its next instruction (R63, R71). -/
noncomputable def issueEngine (c : Nat) (s : State) : Outcome State Fault Refusal :=
  let e := s.eng c
  if e.halted || e.copy.isSome || e.state == .idle || e.state == .faulted then .next s
  else match e.stopping with
  | some (cause, va, write, total) => .next (engineStop c cause va write total s)
  | none => match fetchEngine c s with
    | .stall t => .next t
    | .exc (.park flags va) t =>
      if 2 ^ 15 ≤ flags then .next (engineWait c 0x12 (serviceParty c) t)
      else exec (.engineFetchFault (Exc.park flags va).engineCause) t
    | .exc x t => exec (.engineFetchFault x.engineCause) t
    | .ok w t => match decodeEngine w with
      | some i => exec i t
      | none => exec (.engineIllegalInstruction w) t

/-- A matrix sequencer starts or goes on with its oldest command (R139). -/
noncomputable def issueSequencer (c : Nat) (s : State) : Outcome State Fault Refusal :=
  match currentCommand c s with
  | none => .next s
  | some q => match decodeCmd q with
    | some i => exec i s
    | none => .next (mxIllegal q s)

/-- One step. -/
noncomputable def step (s : State) : Outcome State Fault Refusal :=
  if !s.turn.exists then .fault .noSuchAgent
  else match s.turn with
    | .issue c stalled => issueCore c stalled { s.prep with curCore := c }
    | .engine c => issueEngine c { s.prep with curCore := c }
    | .sequencer c => issueSequencer c { s.prep with curCore := c }
    | .event i => exec i s.prep

/-- The address where `withFetchWord` puts an instruction: bank 8 of core 0, through the self window. -/
def fetchVa : Nat := 0xFFFFFFFFD0000

/-- The machine with one instruction where the next step fetches it: a thread in slot 0 of core 0, or the stream of core
0's copy engine, in bank 8 of core 0 as scratchpad (log 11). -/
noncomputable def State.withFetchWord (s : State) (nbits w : Nat) : State :=
  let cap : Reg := mkCap 0x04 0 8 fetchVa fetchVa
  let key := localKey 0 0x10000
  let rights : Nat × Nat × Nat := (0, fetchVa / 2 ^ 29 % 2 ^ 23, 4)
  let s := { s with
    mem := putBytes s.mem key (leBytes 8 (w % 2 ^ nbits))
    poison := SMap.set false s.poison (key / 64) false }
  let s := s.modCore 0 fun x =>
    { x with plb := rights :: x.plb, bankrole := x.bankrole &&& 0xFFFFFFFFFFFCFFFF }
  if nbits = 32 ∧ (decodeCore w).isNone then
    { s with turn := .engine 0 }.modEng 0 fun e =>
      { e with epc := fetchVa, fetchCap := cap, domain := 0, state := .running, copy := none, halted := false, stopping := none }
  else
    { s with turn := .issue 0 [1, 2, 3, 4, 5, 6, 7] }.modSlot 0 0 fun y =>
      { y with
        holds := .thread, mode := .user, domain := 0, pcc := cap, halted := false, svc := none, parkWant := none
        graphFault := none, killPend := false, pend := [], kept := none }

end Sys2Proof.Machine
end

