-- ==== Sys2Proof/Safety.lean ====
section
/-! DEFINITION. What a safe run is, and the canonical form of everything that memory holds. -/

namespace Sys2Proof

/-- A state from which `n` steps all give a next state. -/
def SafeFor (n : Nat) (s : Machine.State) : Prop := ∃ t, core.run n s = .next t

/-- A state from which the machine never stops. -/
def Safe (s : Machine.State) : Prop := ∀ n, SafeFor n s

namespace Machine

/-- Physical memory, the cached copies, and the tag and poison marks of both are in canonical form: equal contents are equal
data. -/
structure State.Canonical (s : State) : Prop where
  mem : Memory.wf s.mem
  cdata : Memory.wf s.cdata
  tags : SMap.canon false s.tags
  ctags : SMap.canon false s.ctags
  poison : SMap.canon false s.poison
  cpoison : SMap.canon false s.cpoison

end Machine

end Sys2Proof
end

