-- ==== Sys2Proof/Certificates/Slice0/Obligations.lean ====
section
/-! DEFINITION. The statements for the provers. -/

namespace Sys2Proof.Machine

/-! ### Integer results -/

/-- Results of R238 from A and B; shifts and rotates read bits [5:0] of B. -/
def aluResults : List ((Nat → Nat → Nat → Instr) × (Word → Word → Word)) :=
  [(.add, fun a b => a + b), (.sub, fun a b => a - b), (.mul, fun a b => a * b),
   (.mulh, fun a b => ((a.signExtend 128 * b.signExtend 128) >>> 64).truncate 64),
   (.mulhu, fun a b => ((a.zeroExtend 128 * b.zeroExtend 128) >>> 64).truncate 64),
   (.and, fun a b => a &&& b), (.or, fun a b => a ||| b), (.xor, fun a b => a ^^^ b), (.andn, fun a b => a &&& ~~~b),
   (.sll, fun a b => a <<< (b.toNat % 64)), (.srl, fun a b => a >>> (b.toNat % 64)),
   (.sra, fun a b => a.sshiftRight (b.toNat % 64)),
   (.rol, fun a b => a <<< (b.toNat % 64) ||| a >>> (64 - b.toNat % 64)),
   (.ror, fun a b => a >>> (b.toNat % 64) ||| a <<< (64 - b.toNat % 64)),
   (.slt, fun a b => if a.toInt < b.toInt then 1 else 0), (.sltu, fun a b => if a.toNat < b.toNat then 1 else 0),
   (.min, fun a b => if a.toInt < b.toInt then a else b), (.max, fun a b => if a.toInt < b.toInt then b else a),
   (.minu, fun a b => if a.toNat < b.toNat then a else b), (.maxu, fun a b => if a.toNat < b.toNat then b else a)]

/-- The number of 0 bits above the highest 1 bit, below the lowest 1 bit, and of 1 bits (R238). -/
def IsClz (a r : Word) : Prop :=
  r.toNat ≤ 64 ∧ (∀ i, 64 - r.toNat ≤ i → a.getLsbD i = false) ∧ (r.toNat < 64 → a.getLsbD (63 - r.toNat) = true)
def IsCtz (a r : Word) : Prop :=
  r.toNat ≤ 64 ∧ (∀ i, i < r.toNat → a.getLsbD i = false) ∧ (r.toNat < 64 → a.getLsbD r.toNat = true)
def IsPopc (a r : Word) : Prop := r.toNat = ((List.range 64).filter fun i => a.getLsbD i).length

/-- The quotients and remainders of R239. -/
def divResults : List ((Nat → Nat → Nat → Instr) × (Word → Word → Word)) :=
  [(.div, fun a b => if b = 0 then 0xFFFFFFFFFFFFFFFF
      else if a.toInt = -2 ^ 63 ∧ b.toInt = -1 then BitVec.ofInt 64 (-2 ^ 63) else BitVec.ofInt 64 (a.toInt.tdiv b.toInt)),
   (.divu, fun a b => if b = 0 then 0xFFFFFFFFFFFFFFFF else BitVec.ofNat 64 (a.toNat / b.toNat)),
   (.rem, fun a b => if b = 0 then a else if a.toInt = -2 ^ 63 ∧ b.toInt = -1 then 0
      else BitVec.ofInt 64 (a.toInt - b.toInt * a.toInt.tdiv b.toInt)),
   (.remu, fun a b => if b = 0 then a else BitVec.ofNat 64 (a.toNat - b.toNat * (a.toNat / b.toNat)))]

/-- Results of R241 from A and I. -/
def immResults : List ((Nat → Nat → Int → Instr) × (Word → Word → Word)) :=
  [(.addi, fun a i => a + i), (.andi, fun a i => a &&& i), (.ori, fun a i => a ||| i), (.xori, fun a i => a ^^^ i),
   (.slti, fun a i => if a.toInt < i.toInt then 1 else 0), (.sltui, fun a i => if a.toNat < i.toNat then 1 else 0)]
def shiftResults : List ((Nat → Nat → Nat → Instr) × (Word → Nat → Word)) :=
  [(.slli, fun a n => a <<< n), (.srli, fun a n => a >>> n), (.srai, fun a n => a.sshiftRight n)]

/-- Results of the compact integer forms from d and a (R231). -/
noncomputable def compactResults : List ((Nat → Nat → Instr) × (Word → Word → Word)) :=
  [(.cAdd, fun a b => a + b), (.cSub, fun a b => a - b), (.cAnd, fun a b => a &&& b), (.cOr, fun a b => a ||| b),
   (.cXor, fun a b => a ^^^ b)]

end Sys2Proof.Machine

open Sys2Proof Sys2Proof.Machine in
/-- For every field the encoding admits, ADD, SUB, MUL, MULH, MULHU, AND, OR, XOR, ANDN, SLL, SRL, SRA, ROL, ROR, SLT, SLTU,
MIN, MAX, MINU and MAXU, with their fields present and the conditions of R105 met, answer the next state in which the pops
are made, the destination field holds the result that R238 gives for bits [63:0] of the sources, and the program counter is 4
bytes on. With their fields ready, CLZ, CTZ and POPC complete and write, respectively, the number of 0 bits above the highest
1 bit of the source (64 when there is none), below its lowest 1 bit (64 when there is none), and the number of its 1 bits.
(R238, R235, R105) -/
def Obligations.IntegerResults : Prop :=
  (∀ p ∈ aluResults, ∀ (d a b : Nat) (s : State), Ready [a, b] [d] s →
    exec (p.1 d a b) s = .next (doneWith 4 [a, b] d
      (.ofWord (p.2 (sourceWord [a, b] [d] s 0) (sourceWord [a, b] [d] s 1))) s)) ∧
  (∀ (d a : Nat) (s : State), Ready [a] [d] s →
    (∃ r, IsClz (sourceWord [a] [d] s 0) r ∧ exec (.clz d a) s = .next (doneWith 4 [a] d (.ofWord r) s)) ∧
    (∃ r, IsCtz (sourceWord [a] [d] s 0) r ∧ exec (.ctz d a) s = .next (doneWith 4 [a] d (.ofWord r) s)) ∧
    (∃ r, IsPopc (sourceWord [a] [d] s 0) r ∧ exec (.popc d a) s = .next (doneWith 4 [a] d (.ofWord r) s)))

open Sys2Proof Sys2Proof.Machine in
/-- With their fields ready, DIV, DIVU, REM and REMU complete with the values of R239, the zero divisor and the overflowing
quotient included; a non-zero REM result has the sign of A, and for every non-zero B quotient times B plus remainder is A,
modulo 2^64. (R239) -/
def Obligations.DivisionResults : Prop :=
  (∀ p ∈ divResults, ∀ (d a b : Nat) (s : State), Ready [a, b] [d] s →
    exec (p.1 d a b) s = .next (doneWith 4 [a, b] d
      (.ofWord (p.2 (sourceWord [a, b] [d] s 0) (sourceWord [a, b] [d] s 1))) s)) ∧
  (∀ a b : Word, b ≠ 0 → remS a b ≠ 0 → ((remS a b).toInt < 0 ↔ a.toInt < 0)) ∧
  (∀ a b : Word, b ≠ 0 → a = divS a b * b + remS a b ∧ a = divU a b * b + remU a b)

open Sys2Proof Sys2Proof.Machine in
/-- With its fields ready, SEL reads a, b and g in that order and completes with bits [63:0] of A in the destination when
g[63:0] is not 0 and of B otherwise; the result is untagged whatever the source's tag. (R240) -/
def Obligations.SelectResult : Prop :=
  ∀ (d a b g : Nat) (s : State), Ready [a, b, g] [d] s →
    exec (.sel d a b g) s = .next (doneWith 4 [a, b, g] d
      ⟨(if sourceWord [a, b, g] [d] s 2 = 0 then sourceWord [a, b, g] [d] s 1
        else sourceWord [a, b, g] [d] s 0).zeroExtend 128, false⟩ s)

open Sys2Proof Sys2Proof.Machine in
/-- With their fields ready, ADDI, ANDI, ORI, XORI, SLTI and SLTUI (with I the sign-extended immediate), SLLI, SRLI and SRAI
(with the immediate amount) complete with the results of R241, and LIH with its 20-bit immediate, sign-extended, times 4,096.
C.ADD, C.SUB, C.AND, C.OR and C.XOR of d and a, C.ADDI, C.LI, C.SLLI and C.SRLI complete with their results in d and the
program counter 2 bytes on; C.NOP and NOP complete with no other effect. (R241, R242, R235, R231) -/
def Obligations.ImmediateResults : Prop :=
  ((∀ p ∈ immResults, ∀ (d a : Nat) (i : Int) (s : State), Ready [a] [d] s →
    exec (p.1 d a i) s = .next (doneWith 4 [a] d (.ofWord (p.2 (sourceWord [a] [d] s 0) (BitVec.ofInt 64 i))) s)) ∧
  (∀ p ∈ shiftResults, ∀ (d a n : Nat) (s : State), Ready [a] [d] s →
    exec (p.1 d a n) s = .next (doneWith 4 [a] d (.ofWord (p.2 (sourceWord [a] [d] s 0) n)) s)) ∧
  (∀ (d imm : Nat) (s : State), imm < 2 ^ 20 → Ready [] [d] s →
    exec (.lih d imm) s = .next (doneWith 4 [] d (.ofWord (((BitVec.ofNat 20 imm).signExtend 64) <<< 12)) s))) ∧
  ((∀ p ∈ compactResults, ∀ (d a : Nat) (s : State), Ready [d, a] [d] s →
    exec (p.1 d a) s = .next (doneWith 2 [d, a] d
      (.ofWord (p.2 (sourceWord [d, a] [d] s 0) (sourceWord [d, a] [d] s 1))) s)) ∧
  (∀ (d n : Nat) (i : Int) (s : State), Ready [d] [d] s →
    exec (.cAddi d i) s = .next (doneWith 2 [d] d (.ofWord (sourceWord [d] [d] s 0 + BitVec.ofInt 64 i)) s) ∧
    exec (.cSlli d n) s = .next (doneWith 2 [d] d (.ofWord (sourceWord [d] [d] s 0 <<< n)) s) ∧
    exec (.cSrli d n) s = .next (doneWith 2 [d] d (.ofWord (sourceWord [d] [d] s 0 >>> n)) s)) ∧
  (∀ (d : Nat) (i : Int) (s : State), Ready [29] [d] s →
    exec (.cLi d i) s = .next (doneWith 2 [29] d (.ofWord (BitVec.ofInt 64 i)) s)) ∧
  (∀ s : State, exec .cNop s = .next (complete 2 s) ∧ exec .nop s = .next (complete 4 s)))

namespace Sys2Proof.Machine

/-! ### Capability results -/

/-- The register with the cursor moved modulo 2^52 and everything else as it was (R246, R250). -/
def Moved (a r : Reg) (dst : Int) : Prop :=
  (r.nat % 2 ^ 52 : Int) = dst % 2 ^ 52 ∧ r.nat / 2 ^ 52 = a.nat / 2 ^ 52 ∧ r.tag = a.tag

/-- The register with the permission bits outside a mask cleared (R247). -/
def Masked (a r : Reg) (mask : Nat) : Prop :=
  r.nat / 2 ^ 120 = (a.nat / 2 ^ 120) &&& (mask % 256) ∧ r.nat % 2 ^ 120 = a.nat % 2 ^ 120 ∧ r.tag = a.tag

/-- The results of the inspecting instructions (R248), as numbers below 2^64. -/
def inspectResults : List ((Nat → Nat → Instr) × (Reg → Nat)) :=
  [(.cgetb, fun a => a.nat / 2 ^ 52 % 2 ^ 52), (.cgetl, fun a => a.nat / 2 ^ 104 % 4096 * 4 ^ (a.nat / 2 ^ 116 % 16)),
   (.cgetp, fun a => a.nat / 2 ^ 120 + (if a.tag then 2 ^ 8 else 0) + a.nat / 2 ^ 116 % 16 * 2 ^ 13
      + a.nat / 2 ^ 104 % 4096 * 2 ^ 17 + (if a.base ≤ a.cursor ∧ a.cursor + 1 ≤ a.top then 2 ^ 29 else 0)),
   (.cgett, fun a => a.nat / 2 ^ 52 % 2 ^ 52 + a.nat / 2 ^ 104 % 4096 * 4 ^ (a.nat / 2 ^ 116 % 16)),
   (.cclr, fun a => a.nat % 2 ^ 52)]

/-- The distance of CSUB and the relation word of CTEST (R248). -/
def subResult (a b : Reg) : Word :=
  if a.tag = true ∧ b.tag = true ∧ a.base = b.base ∧ a.length = b.length
  then BitVec.ofInt 64 ((a.cursor : Int) - b.cursor) else 0x8000000000000000
def testResult (a b : Reg) : Nat :=
  (if a.tag then 1 else 0) + (if b.tag then 2 else 0) + (if a.base ≤ b.base ∧ b.top ≤ a.top then 4 else 0)
    + (if ((List.range 8).all fun i => !b.nat.testBit (120 + i) || a.nat.testBit (120 + i)) then 8 else 0)
    + (if b.base ≤ b.cursor ∧ b.cursor + 1 ≤ b.top then 16 else 0)
    + (if a.base ≤ a.cursor ∧ a.cursor + 1 ≤ a.top then 32 else 0)

/-- What CSETB may give from a source and a length (R245): the least exponent 0 to 15 that represents the length. -/
def SetTo (a r : Reg) (len : Nat) : Prop :=
  ∃ x l, x ≤ 15 ∧ l ≤ 4095 ∧ l * 4 ^ x < len + 4 ^ x ∧ len ≤ l * 4 ^ x ∧
    (∀ y, y < x → 4095 * 4 ^ y < len) ∧
    a.base ≤ a.cursor ∧ a.cursor + l * 4 ^ x ≤ a.top ∧
    r.base = a.cursor ∧ r.length = l * 4 ^ x ∧ r.lenX = x ∧ r.cursor = a.cursor ∧ r.perms = a.perms ∧ r.tag = true

/-- The cause CSETB traps with (R245): untagged, no exponent, or a rounded extent outside the source's. -/
def setTrap (a : Reg) (len : Nat) (cause : Nat) : Prop :=
  (a.tag = false ∧ cause = 0x02) ∨ (a.tag = true ∧ cause = 0x03 ∧ (4095 * 4 ^ 15 < len ∨
    ∃ x l, x ≤ 15 ∧ l ≤ 4095 ∧ l * 4 ^ x < len + 4 ^ x ∧ len ≤ l * 4 ^ x ∧ (∀ y, y < x → 4095 * 4 ^ y < len) ∧
      (a.cursor < a.base ∨ a.top < a.cursor + l * 4 ^ x)))

/-- A capability that carries no authority beyond another's (R243). -/
def Within (r a : Reg) : Prop :=
  (r.tag = true → a.tag = true) ∧ (∀ i, i < 8 → r.nat.testBit (120 + i) = true → a.nat.testBit (120 + i) = true) ∧
    (r.tag = true → a.base ≤ r.base ∧ r.top ≤ a.top)

end Sys2Proof.Machine

open Sys2Proof Sys2Proof.Machine in
/-- With their fields ready, CINC (register and immediate form) and C.CINC move the cursor modulo 2^52 and keep all else,
CANDP (both forms) keeps the permission bits of the mask and all else, CMOV and C.MOV copy all 128 bits and the tag, and
CPCREL gives PCC with its cursor moved by twice the offset; none of them traps. With their fields ready, CGETB, CGETL, CGETP,
CGETT and CCLR complete with the base, length, descriptor word, top and cursor of their source as untagged integers, CSUB
with the distance within one object or 2^63, and CTEST with its relation word. (R246, R247, R249, R250, R231, R243, R248) -/
def Obligations.CapabilityResults : Prop :=
  ((∀ (d a b : Nat) (s : State), Ready [a, b] [d] s →
    (∃ r, Moved (source [a, b] [d] s 0) r ((source [a, b] [d] s 0).cursor + (sourceWord [a, b] [d] s 1).toInt) ∧
      exec (.cinc d a b) s = .next (doneWith 4 [a, b] d r s)) ∧
    (∃ r, Masked (source [a, b] [d] s 0) r (sourceWord [a, b] [d] s 1).toNat ∧
      exec (.candp d a b) s = .next (doneWith 4 [a, b] d r s))) ∧
  (∀ (d a m : Nat) (i : Int) (s : State), Ready [a] [d] s →
    (∃ r, Moved (source [a] [d] s 0) r ((source [a] [d] s 0).cursor + i) ∧
      exec (.cincI d a i) s = .next (doneWith 4 [a] d r s)) ∧
    (∃ r, Masked (source [a] [d] s 0) r m ∧ exec (.candpI d a m) s = .next (doneWith 4 [a] d r s)) ∧
    exec (.cmov d a) s = .next (doneWith 4 [a] d (source [a] [d] s 0) s) ∧
    exec (.cMov d a) s = .next (doneWith 2 [a] d (source [a] [d] s 0) s)) ∧
  (∀ (d : Nat) (i : Int) (s : State), Ready [d] [d] s →
    ∃ r, Moved (source [d] [d] s 0) r ((source [d] [d] s 0).cursor + i * 16) ∧
      exec (.cCinc d i) s = .next (doneWith 2 [d] d r s)) ∧
  (∀ (d : Nat) (off : Int) (s : State), Ready [] [d] s →
    ∃ r, Moved s.me.pcc r (s.me.pc + off * 2) ∧ exec (.cpcrel d off) s = .next (doneWith 4 [] d r s))) ∧
  ((∀ p ∈ inspectResults, ∀ (d a : Nat) (s : State), Ready [a] [d] s →
    exec (p.1 d a) s = .next (doneWith 4 [a] d ⟨BitVec.ofNat 128 (p.2 (source [a] [d] s 0)), false⟩ s)) ∧
  (∀ (d a b : Nat) (s : State), Ready [a, b] [d] s →
    exec (.csub d a b) s = .next (doneWith 4 [a, b] d
      (.ofWord (subResult (source [a, b] [d] s 0) (source [a, b] [d] s 1))) s) ∧
    exec (.ctest d a b) s = .next (doneWith 4 [a, b] d
      ⟨BitVec.ofNat 128 (testResult (source [a, b] [d] s 0) (source [a, b] [d] s 1)), false⟩ s)))

open Sys2Proof Sys2Proof.Machine in
/-- With its fields ready, CSETB (register form with the whole of b[63:0], immediate form with its length) either completes
with the capability of R245, whose base and cursor are the source's cursor, whose length is the requested one rounded up with
the least exponent, and whose permissions are the source's; or traps with cause 0x02 for an untagged source or 0x03 where no
exponent fits or the rounded extent leaves the source, with TVAL the requested length and nothing popped or written. With its
fields ready, a tagged source whose cursor is in its bounds, and a length of at most 4,095 bytes that ends within them, CSETB
completes in both forms with exactly that length at the cursor. (R245, R236, R368, R370) -/
def Obligations.BoundsSetting : Prop :=
  ((∀ (d a b : Nat) (s : State), Ready [a, b] [d] s →
    (∃ r, SetTo (source [a, b] [d] s 0) r (sourceWord [a, b] [d] s 1).toNat ∧ (source [a, b] [d] s 0).tag = true ∧
      exec (.csetb d a b) s = .next (doneWith 4 [a, b] d r s)) ∨
    (∃ cause, setTrap (source [a, b] [d] s 0) (sourceWord [a, b] [d] s 1).toNat cause ∧
      exec (.csetb d a b) s = .next (trapMe cause (sourceWord [a, b] [d] s 1).toNat s))) ∧
  (∀ (d a len : Nat) (s : State), Ready [a] [d] s →
    (∃ r, SetTo (source [a] [d] s 0) r len ∧ (source [a] [d] s 0).tag = true ∧
      exec (.csetbI d a len) s = .next (doneWith 4 [a] d r s)) ∨
    (∃ cause, setTrap (source [a] [d] s 0) len cause ∧ exec (.csetbI d a len) s = .next (trapMe cause len s)))) ∧
  ((∀ (d a b : Nat) (s : State), Ready [a, b] [d] s → (source [a, b] [d] s 0).tag = true →
    (sourceWord [a, b] [d] s 1).toNat ≤ 4095 → (source [a, b] [d] s 0).base ≤ (source [a, b] [d] s 0).cursor →
    (source [a, b] [d] s 0).cursor + (sourceWord [a, b] [d] s 1).toNat ≤ (source [a, b] [d] s 0).top →
    exec (.csetb d a b) s = .next (doneWith 4 [a, b] d (mkCap (source [a, b] [d] s 0).perms 0
      (sourceWord [a, b] [d] s 1).toNat (source [a, b] [d] s 0).cursor (source [a, b] [d] s 0).cursor) s)) ∧
  (∀ (d a len : Nat) (s : State), Ready [a] [d] s → (source [a] [d] s 0).tag = true → len ≤ 4095 →
    (source [a] [d] s 0).base ≤ (source [a] [d] s 0).cursor →
    (source [a] [d] s 0).cursor + len ≤ (source [a] [d] s 0).top →
    exec (.csetbI d a len) s = .next (doneWith 4 [a] d (mkCap (source [a] [d] s 0).perms 0 len
      (source [a] [d] s 0).cursor (source [a] [d] s 0).cursor) s)))

open Sys2Proof Sys2Proof.Machine in
/-- What CSETB, CINC and CANDP derive carries no permission that the source lacks, is tagged only when the source is tagged,
and, when tagged, has its base and top within the source's, for every source, length, offset and mask. (R243, R245, R246,
R247) -/
def Obligations.AuthorityShrinks : Prop :=
  (∀ (a r : Reg) (len : Nat), setBounds a len = .ok r → Within r a) ∧
  (∀ (a : Reg) (off : Int), Within (moveCursor a off) a) ∧ (∀ (a : Reg) (mask : Nat), Within (keepPerms a mask) a)

open Sys2Proof Sys2Proof.Machine in
/-- With their fields ready, BEQ, BNE, BLT, BGE, BLTU and BGEU, and C.BEQZ and C.BNEZ against 0, complete with PC moved by
twice the offset (modulo 2^52, PCC else unchanged) where their condition on bits [63:0] holds, and with PC past the branch
otherwise. With their fields ready, JAL writes PCC with its cursor at PC + 4 to its destination and moves PC by twice the
offset; JALR with a tagged executable source installs that source as PCC with its cursor moved by the immediate, and writes
the same link; C.JR is JALR with the link discarded, C.J a jump without a link. JALR of an untagged source traps with cause
0x02 and of one without execute permission with 0x04, TVAL the target. (R252, R231, R235, R253, R254, R251, R236) -/
def Obligations.BranchesAndJumps : Prop :=
  ((∀ p ∈ ([(.beq, fun a b => a = b), (.bne, fun a b => a ≠ b), (.blt, fun a b => a.toInt < b.toInt),
      (.bge, fun a b => b.toInt ≤ a.toInt), (.bltu, fun a b => a.toNat < b.toNat),
      (.bgeu, fun a b => b.toNat ≤ a.toNat)] : List ((Nat → Nat → Int → Instr) × (Word → Word → Prop))),
    ∀ (a b : Nat) (off : Int) (s : State), Ready [a, b] [] s →
      (p.2 (sourceWord [a, b] [] s 0) (sourceWord [a, b] [] s 1) → ∃ r, Moved s.me.pcc r (s.me.pc + off * 2) ∧
        exec (p.1 a b off) s = .next (completeAt r (taken [a, b] [] s).2)) ∧
      (¬ p.2 (sourceWord [a, b] [] s 0) (sourceWord [a, b] [] s 1) →
        exec (p.1 a b off) s = .next (complete 4 (taken [a, b] [] s).2))) ∧
  (∀ (a : Nat) (off : Int) (s : State), Ready [a, 29] [] s →
    ∃ r, Moved s.me.pcc r (s.me.pc + off * 2) ∧
      exec (.cBeqz a off) s = .next (if sourceWord [a, 29] [] s 0 = 0 then completeAt r (taken [a, 29] [] s).2
        else complete 2 (taken [a, 29] [] s).2) ∧
      exec (.cBnez a off) s = .next (if sourceWord [a, 29] [] s 0 = 0 then complete 2 (taken [a, 29] [] s).2
        else completeAt r (taken [a, 29] [] s).2))) ∧
  ((∀ (d : Nat) (off : Int) (s : State), Ready [] [d] s →
    ∃ r l, Moved s.me.pcc r (s.me.pc + off * 2) ∧ Moved s.me.pcc l (s.me.pc + 4) ∧
      exec (.jal d off) s = .next (completeAt r (writeField d l (taken [] [d] s).2))) ∧
  (∀ (d a : Nat) (imm : Int) (s : State), Ready [a] [d] s →
    let x := source [a] [d] s 0
    let target := (((x.cursor : Int) + imm) % 2 ^ 52).toNat
    (x.tag = true → x.nat.testBit 122 = true → ∃ r l, Moved x r (x.cursor + imm) ∧ Moved s.me.pcc l (s.me.pc + 4) ∧
      exec (.jalr d a imm) s = .next (completeAt r (writeField d l (taken [a] [d] s).2))) ∧
    (x.tag = false → exec (.jalr d a imm) s = .next (trapMe 0x02 target s)) ∧
    (x.tag = true → x.nat.testBit 122 = false → exec (.jalr d a imm) s = .next (trapMe 0x04 target s))) ∧
  (∀ (off : Int) (s : State), ∃ r, Moved s.me.pcc r (s.me.pc + off * 2) ∧ exec (.cJ off) s = .next (completeAt r s)) ∧
  (∀ (a : Nat) (s : State), Ready [a] [29] s → (source [a] [29] s 0).tag = true →
    (source [a] [29] s 0).nat.testBit 122 = true →
    exec (.cJr a) s = .next (completeAt ((source [a] [29] s 0).withCursor (source [a] [29] s 0).cursor) (taken [a] [29] s).2)))

namespace Sys2Proof.Machine

/-! ### Registers, waits and traps -/

/-- The instructions that only read and write fields, with the fields they read and write. -/
noncomputable def registerOnly : Instr → Option (List Nat × List Nat)
  | .add d a b | .sub d a b | .mul d a b | .mulh d a b | .mulhu d a b | .div d a b | .divu d a b | .rem d a b
  | .remu d a b | .and d a b | .or d a b | .xor d a b | .andn d a b | .sll d a b | .srl d a b | .sra d a b
  | .rol d a b | .ror d a b | .slt d a b | .sltu d a b | .min d a b | .max d a b | .minu d a b | .maxu d a b
  | .cinc d a b | .candp d a b | .csub d a b | .ctest d a b => some ([a, b], [d])
  | .sel d a b g => some ([a, b, g], [d])
  | .clz d a | .ctz d a | .popc d a | .addi d a _ | .slli d a _ | .srli d a _ | .srai d a _ | .andi d a _ | .ori d a _
  | .xori d a _ | .slti d a _ | .sltui d a _ | .cgetb d a | .cgetl d a | .cgetp d a | .cgett d a | .cclr d a
  | .cmov d a | .cincI d a _ | .candpI d a _ | .cMov d a => some ([a], [d])
  | .lih d _ | .cpcrel d _ | .cLi d _ => some ([], [d])
  | .cAdd d a | .cSub d a | .cAnd d a | .cOr d a | .cXor d a => some ([d, a], [d])
  | .cAddi d _ | .cSlli d _ | .cSrli d _ | .cCinc d _ => some ([d], [d])
  | .beq a b _ | .bne a b _ | .blt a b _ | .bge a b _ | .bltu a b _ | .bgeu a b _ => some ([a, b], [])
  | .cBeqz a _ | .cBnez a _ => some ([a], [])
  | .cJ _ | .cNop | .nop => some ([], [])
  | _ => none

/-- What a frame leaves of the current slot: everything but the named general registers, PCC, the mi position, the state of a
wait that ends, and what the instruction had fetched. -/
def SlotKept (y z : Slot) (changed : List Nat) : Prop :=
  (∀ n, n ∉ changed → z.cr n = y.cr n) ∧ (∀ n, z.vr n = y.vr n) ∧ (∀ n, z.kr n = y.kr n) ∧
  z.status = y.status ∧ z.prio = y.prio ∧ z.tvec = y.tvec ∧ z.tcause = y.tcause ∧ z.tval = y.tval ∧ z.tpc = y.tpc ∧
  z.spawnlim = y.spawnlim ∧ z.tenant = y.tenant ∧ z.holds = y.holds ∧ z.commit = y.commit ∧ z.heldMsgs = y.heldMsgs ∧
  z.pend = y.pend ∧ z.payload = y.payload ∧ z.header = y.header ∧
  (y.wait.mode = 0 → y.stepping = false → z.wait = y.wait ∧ z.waitr = y.waitr)

/-- Nothing outside the current slot changes, and every byte of memory, tag and poison mark reads as before. -/
def OnlyMe (s t : State) : Prop :=
  (∃ y, t = s.setMe y) ∧ (∀ c k, ¬ (c = s.curCore ∧ k = s.curSlot) → t.slot c k = s.slot c k) ∧
  (∀ src va n, readAt t src va n = readAt s src va n ∧ tagAt t src va = tagAt s src va ∧
    poisonAt t src va n = poisonAt s src va n)

end Sys2Proof.Machine

open Sys2Proof Sys2Proof.Machine in
/-- Writing a field c0 to c15 gives exactly that register the whole value and leaves the others, writing z changes nothing;
reading a field c0 to c15 gives the register and changes nothing, and reading z gives zero and changes nothing. Reading q0 to
q7 gives the oldest word of the core's queue, untagged, and takes it off; writing one adds bits [63:0] at its end. Reading p0
to p3 takes the oldest word of the port input; writing one adds bits [63:0] at the end of the opposite input of the neighbour
on that side. Reading mi (field 28) gives the next payload word of the message that started the slot's activation and moves the
slot's own position past it, and zero once the payload is exhausted and in a slot that runs a thread. (R103, R99, R235, R104, R105,
R106, R107) -/
def Obligations.FieldsReadAndWritten : Prop :=
  (∀ (s : State) (f : Nat) (r : Reg),
    (f < 16 → (writeField f r s).me.cr f = r ∧ (∀ n, n ≠ f → (writeField f r s).me.cr n = s.me.cr n) ∧
      OnlyMe s (writeField f r s) ∧ readField f s = (s.me.cr f, s)) ∧
    writeField 29 r s = s ∧ readField 29 s = (⟨0, false⟩, s)) ∧
  ((∀ (s : State) (n : Nat) (w : Word) (l : List Word), n < 8 → (s.core s.curCore).queue n = w :: l →
    (readField (16 + n) s).1 = .ofWord w ∧ ((readField (16 + n) s).2.core s.curCore).queue n = l) ∧
  (∀ (s : State) (n : Nat) (r : Reg), n < 8 →
    ((writeField (16 + n) r s).core s.curCore).queue n = (s.core s.curCore).queue n ++ [r.word] ∧
    (∀ m, m ≠ n → ((writeField (16 + n) r s).core s.curCore).queue m = (s.core s.curCore).queue m)) ∧
  (∀ (s : State) (n : Nat) (w : Word) (l : List Word), n < 4 → (s.core s.curCore).port n = w :: l →
    (readField (24 + n) s).1 = .ofWord w ∧ ((readField (24 + n) s).2.core s.curCore).port n = l) ∧
  (∀ (s : State) (n c : Nat) (r : Reg), n < 4 → neighbour s.curCore n = some c →
    ((writeField (24 + n) r s).core c).port ((n + 2) % 4) = (s.core c).port ((n + 2) % 4) ++ [r.word])) ∧
  (∀ s : State,
    (∀ w, s.me.holds = .activation → s.me.payload[s.me.miPos]? = some w →
      (readField 28 s).1 = .ofWord w ∧ (readField 28 s).2 = s.setMe { s.me with miPos := s.me.miPos + 1 }) ∧
    (s.me.holds ≠ .activation ∨ s.me.payload.length ≤ s.me.miPos → readField 28 s = (⟨0, false⟩, s)))

open Sys2Proof Sys2Proof.Machine in
/-- An ALU-R instruction that has not issued in an earlier turn, whose fields exist but whose first unmet condition is a read
of field f, leaves the slot with a single-mode wait record of the reason and party that R104 and R106 give for f, its
registers, PCC and the queues unchanged (where another instruction of the slot had issued before, what that had popped is
back); an unmet write likewise. One that names a field this core does not have takes cause 0x01 with TVAL the encoding.
(R105, R104, R106, R216, R236) -/
def Obligations.IssueWaits : Prop :=
  ∀ p ∈ aluResults, ∀ (d a b : Nat) (s : State),
    let g := giveBack s.curCore s.curSlot s
    ((∀ f ∈ [a, b, d], absentField s.curCore f = false) → keptFor s [a, b] [d] = none → ∀ f w, unmet g [a, b] [d] = some (f, w) →
      ∃ t, exec (p.1 d a b) s = .next t ∧ t.me.wait.mode = 1 ∧
        (t.me.wait.reason, t.me.wait.targets) = (let r := if w then fullWait s.curCore f else emptyWait s.curCore f; (r.1, [r.2])) ∧
        t.me.c = s.me.c ∧ t.me.pcc = s.me.pcc ∧ (∀ c, (t.core c).q = (g.core c).q ∧ (t.core c).ports = (g.core c).ports) ∧ (s.me.kept = none → g = s) ∧
        t.mem = s.mem) ∧
    (∀ f ∈ [a, b, d], absentField s.curCore f = true → exec (p.1 d a b) s = .next (trapMe 0x01 s.curWord s))

open Sys2Proof Sys2Proof.Machine in
/-- Every integer, capability (CSETB apart) and branch instruction, long or compact, whose fields are general registers, mi
or z, of a slot in which no other instruction has issued and not completed, completes and leaves every other register, STATUS
and every special register, the other slots, and every byte of memory with its tag and poison mark as they were; only the
destination field, PCC, the mi position and a wait that ends change. (R235, R243, R251, R195) -/
def Obligations.RegisterFrame : Prop :=
  ∀ (i : Instr) (r w : List Nat) (s : State), registerOnly i = some (r, w) → (∀ f ∈ r ++ w, plainField f = true) → s.me.kept = none →
    ∃ t, exec i s = .next t ∧ OnlyMe s t ∧ SlotKept s.me t.me w

open Sys2Proof Sys2Proof.Machine in
/-- Completing an instruction of n bytes moves PC by n modulo 2^52 with PCC's other bits kept; a record of a hardware wait
gets mode 0 and the next generation and WAITR its word 0, a slot that did not wait keeps its record; nothing but the current
slot changes. (R295, R352, R113, R251) -/
def Obligations.CompletionEffect : Prop :=
  ∀ (n : Nat) (s : State), s.me.stepping = false →
    Moved s.me.pcc (complete n s).me.pcc (s.me.pc + n) ∧ OnlyMe s (complete n s) ∧ SlotKept s.me (complete n s).me [] ∧
    (s.me.wait.mode ≠ 0 → s.me.wait.reason ≠ 0x0F → s.me.decl = none →
      (complete n s).me.wait = ⟨(s.me.wait.gen + 1) % 2 ^ 16, 0, 0, 0, []⟩ ∧
      (complete n s).me.waitr = BitVec.ofNat 64 s.me.wait.word0)

open Sys2Proof Sys2Proof.Machine in
/-- Outside a trap and with a trap vector, a trap of slot k of core c gives TCAUSE the cause, TVAL the value, TPC the resume
address, sets the in-trap bit of STATUS, puts PCC's cursor at TVEC with PCC's bounds and permissions kept, ends a wait with
its generation advanced, and changes no other register, no other slot and no byte of memory (for a slot that waits in no
COMPOSE). A trap inside a trap, or of a context whose TVEC is 0, is a service trap with its double and unhandled marks: the
slot stays held in a single-mode wait of reason 0x13 on its tile's service party with PC at the resume address, c0 to c15,
the vector and mask registers and TCAUSE, TVAL and TPC as they were; with a free frame place, and every write of the context
to hosts and peers acknowledged, the keystone holds a frame for that slot (a call's may wait for an earlier one of its token);
with none free it is refused, by an entry of the keystone's reservation list (of the model's own form, log 26) or for a resend
after 1,024 cycles. (R370, R368, R113, R371, R194, R337, R375) -/
def Obligations.TakingATrap : Prop :=
  (∀ (c k cause tval resume : Nat) (s : State), (s.slot c k).inTrap = false → (s.slot c k).tvec / 2 ≠ 0 →
    (s.slot c k).wait.reason ≠ 0x0D → (s.slot c k).stepping = false →
    let y := s.slot c k
    let t := trapAt c k cause tval resume s
    let z := t.slot c k
    z.tcause = cause ∧ z.tval = BitVec.ofNat 64 tval ∧ z.tpc = resume % 2 ^ 52 ∧ z.inTrap = true ∧
    Moved y.pcc z.pcc (y.tvec / 2 * 2 : Nat) ∧
    (y.wait.mode ≠ 0 → z.wait = ⟨(y.wait.gen + 1) % 2 ^ 16, 0, 0, 0, []⟩) ∧ (y.wait.mode = 0 → z.wait = y.wait) ∧
    z.c = y.c ∧ z.v = y.v ∧ z.k = y.k ∧ z.mode = y.mode ∧ z.domain = y.domain ∧ z.tvec = y.tvec ∧ z.prio = y.prio ∧
    t.mem = s.mem ∧ t.cdata = s.cdata ∧ (∀ d j, ¬ (d = c ∧ j = k) → t.slot d j = s.slot d j)) ∧
  (∀ (c k cause tval resume : Nat) (s : State), ((s.slot c k).inTrap = true ∨ (s.slot c k).tvec / 2 = 0) →
    let y := s.slot c k
    let t := trapAt c k cause tval resume s
    let z := t.slot c k
    let ks := tileKeystone (globalTile c)
    z.svc = some ⟨cause, tval, y.inTrap, decide (y.tvec / 2 = 0), if cause = 0x0A ∨ cause = 0x0B then tval / 2 ^ 16 % 2 ^ 16 else 0, s.tick⟩ ∧ z.wait.mode = 1 ∧ z.wait.reason = 0x13 ∧
    z.wait.targets = [serviceParty c] ∧ z.pcc.cursor = resume % 2 ^ 52 ∧ z.c = y.c ∧ z.v = y.v ∧ z.k = y.k ∧ z.holds = y.holds ∧
    z.tcause = y.tcause ∧ z.tval = y.tval ∧ z.tpc = y.tpc ∧ z.inTrap = y.inTrap ∧
    (∀ p, hostWritesOf s (s.agentAt c k) = false → cause ≠ 0x10 → freePlace (s.core ks) = some p →
      ∃ q, SMap.find (t.core ks).frames p = some q ∧ q.core = c ∧ q.slot = k) ∧
    (hostWritesOf s (s.agentAt c k) = true → (c, k, s.clock) ∈ (t.core ks).frameWait) ∧
    (hostWritesOf s (s.agentAt c k) = false → cause ≠ 0x10 → freePlace (s.core ks) = none →
      frameResv c k ∈ (t.core ks).resv ∨ (c, k, s.clock + 1024) ∈ (t.core ks).frameWait))

namespace Sys2Proof.Machine

/-! ### Loads and stores -/

/-- A value loaded, from the capability, the rights, the number read and the granule's tag (R258, R259). -/
def zeroExt (_ : Reg) (_ m : Nat) (_ : Bool) : Reg := ⟨BitVec.ofNat 128 m, false⟩
def signExt (n : Nat) (_ : Reg) (_ m : Nat) (_ : Bool) : Reg := ⟨(BitVec.ofNat (8 * n) m |>.signExtend 64).zeroExtend 128, false⟩
def capExt (r : Reg) (rights m : Nat) (tag : Bool) : Reg :=
  ⟨BitVec.ofNat 128 m, tag && r.nat.testBit 123 && rights.testBit 3⟩

/-- A load: constructor, bytes, alignment, value. -/
def loadForms : List ((Nat → Nat → Int → Instr) × Nat × Nat × (Reg → Nat → Nat → Bool → Reg)) :=
  [(.lb, 1, 1, signExt 1), (.lbu, 1, 1, zeroExt), (.lh, 2, 1, signExt 2), (.lhu, 2, 1, zeroExt), (.lw, 4, 1, signExt 4),
   (.lwu, 4, 1, zeroExt), (.ld, 8, 1, zeroExt), (.lcap, 16, 16, capExt)]
def loadXForms : List ((Nat → Nat → Nat → Nat → Nat → Instr) × Nat × Nat × (Reg → Nat → Nat → Bool → Reg)) :=
  [(.lbX, 1, 1, signExt 1), (.lbuX, 1, 1, zeroExt), (.lhX, 2, 1, signExt 2), (.lhuX, 2, 1, zeroExt),
   (.lwX, 4, 1, signExt 4), (.lwuX, 4, 1, zeroExt), (.ldX, 8, 1, zeroExt), (.lq, 16, 16, zeroExt), (.lcapX, 16, 16, capExt)]

/-- Every form of load: the instruction, its length, base field, destination, offset, bytes, alignment, hint, acquire
scope (0 none), route and value. -/
structure LoadForm where
  i : Instr
  len : Nat
  a : Nat
  d : Nat
  off : Int
  n : Nat
  align : Nat
  hint : Nat
  scope : Nat
  route : Nat
  val : Reg → Nat → Nat → Bool → Reg

noncomputable def IsLoad (f : LoadForm) : Prop :=
  (∃ p ∈ loadForms, ∃ d a imm, f = ⟨p.1 d a imm, 4, a, d, imm, p.2.1, p.2.2.1, 0, 0, 0, p.2.2.2⟩) ∨
  (∃ p ∈ loadXForms, ∃ d a hint scope route,
    f = ⟨p.1 d a hint scope route, 4, a, d, 0, p.2.1, p.2.2.1, hint, scope, route, p.2.2.2⟩) ∨
  (∃ d a off, f = ⟨.cLd d a off, 2, a, d, (8 * off : Nat), 8, 1, 0, 0, 0, zeroExt⟩) ∨
  (∃ d a off, f = ⟨.cLw d a off, 2, a, d, (4 * off : Nat), 4, 1, 0, 0, 0, signExt 4⟩)

/-- Every form of store: the instruction, its length, data and base fields, offset, bytes, alignment, hint, release scope,
route, and whether it stores a tag. -/
structure StoreForm where
  i : Instr
  len : Nat
  b : Nat
  a : Nat
  off : Int
  n : Nat
  align : Nat
  hint : Nat
  scope : Nat
  route : Nat
  cap : Bool

def storeForms : List ((Nat → Nat → Int → Instr) × Nat × Nat × Bool) :=
  [(.sb, 1, 1, false), (.sh, 2, 1, false), (.sw, 4, 1, false), (.sd, 8, 1, false), (.sq, 16, 16, false), (.scap, 16, 16, true)]
def storeXForms : List ((Nat → Nat → Nat → Nat → Nat → Instr) × Nat × Nat × Bool) :=
  [(.sbX, 1, 1, false), (.shX, 2, 1, false), (.swX, 4, 1, false), (.sdX, 8, 1, false), (.sqX, 16, 16, false),
   (.scapX, 16, 16, true)]

noncomputable def IsStore (f : StoreForm) : Prop :=
  (∃ p ∈ storeForms, ∃ b a imm, f = ⟨p.1 b a imm, 4, b, a, imm, p.2.1, p.2.2.1, 0, 0, 0, p.2.2.2⟩) ∨
  (∃ p ∈ storeXForms, ∃ b a hint scope route,
    f = ⟨p.1 b a hint scope route, 4, b, a, 0, p.2.1, p.2.2.1, hint, scope, route, p.2.2.2⟩) ∨
  (∃ b a off, f = ⟨.cSd b a off, 2, b, a, (8 * off : Nat), 8, 1, 0, 0, 0, false⟩) ∨
  (∃ b a off, f = ⟨.cSw b a off, 2, b, a, (4 * off : Nat), 4, 1, 0, 0, 0, false⟩)

/-- A form's effective address, and the permissions and rights a store needs (R100, R261). -/
def LoadForm.ea (f : LoadForm) (s : State) : Int := (source [f.a] [f.d] s 0).cursor + f.off
def StoreForm.ea (f : StoreForm) (s : State) : Int := (source [f.a, f.b] [] s 0).cursor + f.off
def StoreForm.tagged (f : StoreForm) (s : State) : Bool := f.cap && (source [f.a, f.b] [] s 1).tag
def StoreForm.perms (f : StoreForm) (s : State) : Nat := if f.tagged s then 0x12 else 2

/-- `n` bytes at `ea` lie in one sector of the running small core's own scratchpad or TOB banks, at offset `off`, named through the
self window, no instruction holds a line, and the core's PLB holds a right `b` of the slot's domain there. -/
def OwnBank (s : State) (ea : Int) (n off b : Nat) : Prop :=
  ea = 0xFFFFFFFFC0000 + off ∧ off + n ≤ 2 ^ 18 ∧ 0 < n ∧ off / 256 = (off + n - 1) / 256 ∧ isKeystone s.curCore = false ∧
  bankRole s s.curCore (off / 8192) ≠ 1 ∧ s.lineHolds = [] ∧
  (s.core s.curCore).plb.find? (fun e => e.1 == s.me.domain && e.2.1 == 2 ^ 23 - 1) = some (s.me.domain, 2 ^ 23 - 1, b)

/-- The access's capability check passes (R100, R256). -/
def CapOk (r : Reg) (ea : Int) (n perms align : Nat) : Prop :=
  r.tag = true ∧ (r.base : Int) ≤ ea ∧ ea + n ≤ r.top ∧ r.perms &&& perms = perms ∧ ea % align = 0

/-- A field that is c0 to c15 or z. -/
def capField (f : Nat) : Prop := f < 16 ∨ f = 29

end Sys2Proof.Machine

open Sys2Proof Sys2Proof.Machine in
/-- Every load (format I, LOAD-X with hint, scope and route, C.LD, C.LW) whose fields are ready, whose checks pass at an
address, whose route moves nothing and whose bytes return completes: the destination takes the bytes, the slot's commit
buffer laid over them, sign- or zero-extended, and for LCAP the tag where the capability and the domain may load
capabilities. Every store (format S, STORE-X with hint, scope and route, C.SD, C.SW) whose fields are ready, whose capability
and address checks pass, whose route moves nothing and whose bytes the slot can store completes past the instruction in the
state the store leaves; a tagged SCAP without the global bit needs an address in the core's own banks. (R255, R256, R258,
R259, R262, R97, R260, R261, R263) -/
def Obligations.LoadAndStoreResults : Prop :=
  (∀ (f : LoadForm) (s t1 t2 t3 : State) (va rights : Nat) (x : Loaded), IsLoad f → Ready [f.a] [f.d] s →
    let u := (taken [f.a] [f.d] s).2
    let r := source [f.a] [f.d] s 0
    memCheck (whoMe u) r (f.ea s) f.n 1 f.align 1 u = .ok va t1 →
    migrateTo (whoMe u) va f.n f.route [f.d] t1 = none →
    loadAt (whoMe u) va f.n f.hint f.scope t1 = .ok x t2 →
    rightsOf (whoMe u) va t2 = .ok rights t3 → x.bytes.length = f.n →
    let y := overlay (whoMe u) va x t2
    exec f.i s = .next (complete f.len (writeField f.d (f.val r rights (leNat y.bytes) (loadedTag y)) (trainMe va f.n t3)))) ∧
  (∀ (f : StoreForm) (s t1 t2 : State) (va : Nat), IsStore f → Ready [f.a, f.b] [] s →
    let u := (taken [f.a, f.b] [] s).2
    let r := source [f.a, f.b] [] s 0
    let x := source [f.a, f.b] [] s 1
    capCheck r (f.ea s) f.n (f.perms s) 1 = none →
    (f.tagged s = true → x.isGlobal = true ∨ ∃ off, inWindow (vaOf (f.ea s)) = true ∧
      windowAt u.curCore (vaOf (f.ea s)) = some (u.curCore, off)) →
    memCheck (whoMe u) r (f.ea s) f.n 2 f.align (f.perms s) u = .ok va t1 →
    migrateTo (whoMe u) va f.n f.route [f.b] t1 = none →
    storeSlot (whoMe u) va f.hint f.scope (leBytes f.n x.nat) (f.tagged s) t1 = .ok () t2 →
    exec f.i s = .next (complete f.len (trainMe va f.n t2)))

open Sys2Proof Sys2Proof.Machine in
/-- A load through an untagged capability takes cause 0x02; one that is tagged but leaves its bounds 0x03; one within bounds
without read permission 0x04; one that passes these and is misaligned for its form 0x05; each with TVAL the effective address
and nothing popped, read or written. A store likewise with write permission. For a sum outside 64 bits TVAL is it modulo 2^64,
which is the model's reading (DEDUCED, log 27). (R100, R101, R256, R257, R368) -/
def Obligations.AccessChecks : Prop :=
  (∀ (f : LoadForm) (s : State) (cause : Nat), IsLoad f → Ready [f.a] [f.d] s →
    let r := source [f.a] [f.d] s 0
    (r.tag = false ∧ cause = 0x02 ∨ r.tag = true ∧ (f.ea s < r.base ∨ r.top < f.ea s + f.n) ∧ cause = 0x03 ∨
      r.tag = true ∧ r.base ≤ f.ea s ∧ f.ea s + f.n ≤ r.top ∧ r.nat.testBit 120 = false ∧ cause = 0x04 ∨
      r.tag = true ∧ r.base ≤ f.ea s ∧ f.ea s + f.n ≤ r.top ∧ r.nat.testBit 120 = true ∧ f.ea s % f.align ≠ 0 ∧ cause = 0x05) →
    exec f.i s = .next (trapMe cause (toField 64 (f.ea s)) s)) ∧
  (∀ (f : StoreForm) (s : State) (cause : Nat), IsStore f → f.cap = false → Ready [f.a, f.b] [] s →
    let r := source [f.a, f.b] [] s 0
    (r.tag = false ∧ cause = 0x02 ∨ r.tag = true ∧ (f.ea s < r.base ∨ r.top < f.ea s + f.n) ∧ cause = 0x03 ∨
      r.tag = true ∧ r.base ≤ f.ea s ∧ f.ea s + f.n ≤ r.top ∧ r.nat.testBit 121 = false ∧ cause = 0x04 ∨
      r.tag = true ∧ r.base ≤ f.ea s ∧ f.ea s + f.n ≤ r.top ∧ r.nat.testBit 121 = true ∧ f.ea s % f.align ≠ 0 ∧ cause = 0x05) →
    exec f.i s = .next (trapMe cause (toField 64 (f.ea s)) s))

open Sys2Proof Sys2Proof.Machine in
/-- Every form of store but a tagged SCAP, of general registers or z, by a context that is no unexposed activation and with
nothing on its way, through a capability whose check passes, to one sector of the core's own scratchpad or TOB banks with the
domain's write right, completes: the bytes at the effective address are the low bytes of the register, every other byte of
memory and of the cached copies reads as before, the granules stored to lose their tags and every other keeps its own, a
64-byte granule keeps its poison unless it is stored whole, and no register but PCC changes. A tagged SCAP whose capability and
domain may store capabilities completes likewise and sets the tag of its granule alone. Every form of load into a
general register or z, by a context with an empty commit buffer and nothing on its way, through a capability whose check
passes, from one unpoisoned sector of the core's own scratchpad or TOB banks with the domain's read right, completes: the
destination takes the bytes at the effective address, extended, with LCAP's tag; no other register but PCC changes and every
byte of memory, tag and poison mark is as before. (R92, R100, R102, R260, R30, R97, R258, R259) -/
def Obligations.OwnBankAccesses : Prop :=
  (∀ (f : StoreForm) (s : State) (off b : Nat), IsStore f → capField f.a → capField f.b → s.Canonical → s.flights = [] →
    (s.me.holds = .activation → s.me.exposed = true) → f.tagged s = false → f.scope ≠ 5 →
    CapOk (source [f.a, f.b] [] s 0) (f.ea s) f.n 2 f.align → OwnBank s (f.ea s) f.n off b → b &&& 2 = 2 →
    let k := localKey s.curCore off
    ∃ t, exec f.i s = .next t ∧ SlotKept s.me t.me [] ∧ Moved s.me.pcc t.me.pcc (s.me.pc + f.len) ∧
      bytesAt t.mem k f.n = leBytes f.n (source [f.a, f.b] [] s 1).nat ∧
      (∀ a, a < k ∨ k + f.n ≤ a → SMap.get 0 t.mem a = SMap.get 0 s.mem a) ∧ t.cdata = s.cdata ∧ t.ctags = s.ctags ∧
      (∀ g, SMap.get false t.tags g = if k / 16 ≤ g ∧ g ≤ (k + f.n - 1) / 16 then false else SMap.get false s.tags g) ∧
      (∀ g, SMap.get false t.poison g = SMap.get false s.poison g)) ∧
  (∀ (f : StoreForm) (s : State) (off b : Nat), IsStore f → capField f.a → capField f.b → s.Canonical → s.flights = [] →
    (s.me.holds = .activation → s.me.exposed = true) → f.tagged s = true → f.scope ≠ 5 →
    CapOk (source [f.a, f.b] [] s 0) (f.ea s) 16 0x12 16 → OwnBank s (f.ea s) 16 off b → b &&& 0x12 = 0x12 →
    let k := localKey s.curCore off
    ∃ t, exec f.i s = .next t ∧ SlotKept s.me t.me [] ∧ Moved s.me.pcc t.me.pcc (s.me.pc + f.len) ∧
      bytesAt t.mem k 16 = leBytes 16 (source [f.a, f.b] [] s 1).nat ∧
      (∀ a, a < k ∨ k + 16 ≤ a → SMap.get 0 t.mem a = SMap.get 0 s.mem a) ∧ t.cdata = s.cdata ∧ t.ctags = s.ctags ∧
      (∀ g, SMap.get false t.tags g = if g = k / 16 then true else SMap.get false s.tags g) ∧
      (∀ g, SMap.get false t.poison g = SMap.get false s.poison g)) ∧
  (∀ (f : LoadForm) (s : State) (off b : Nat), IsLoad f → capField f.a → capField f.d → s.flights = [] → s.me.commit = [] →
    s.me.replies = [] → CapOk (source [f.a] [f.d] s 0) (f.ea s) f.n 1 f.align → OwnBank s (f.ea s) f.n off b → b &&& 1 = 1 →
    s.curSlot < 16 → s.links.all (fun p => p.2.requests.isEmpty) = true →
    physPoison s (localKey s.curCore off) f.n = false →
    ∃ t, exec f.i s = .next t ∧ SlotKept s.me t.me [f.d] ∧ Moved s.me.pcc t.me.pcc (s.me.pc + f.len) ∧
      (f.d < 16 → t.me.cr f.d = f.val (source [f.a] [f.d] s 0) b
        (leNat (bytesAt s.mem (localKey s.curCore off) f.n)) (physTag s (localKey s.curCore off))) ∧
      t.mem = s.mem ∧ t.tags = s.tags ∧ t.poison = s.poison ∧ t.cdata = s.cdata)

open Sys2Proof Sys2Proof.Machine in
/-- With its capability check passed, HOME completes with the window bit and home core of the address. MIGR and MIGR.F of a
thread that may migrate send a context message with the light or full frame, resuming after the instruction, to the home of
the address when it is another core and no link page, and fence and complete where nothing moves. (R265, R266, R115, R257) -/
def Obligations.HomeAndMigration : Prop :=
  (∀ (d a n : Nat) (s t : State), Ready [a] [d] s →
    let r := source [a] [d] s 0
    capCheck r r.cursor 1 0 1 = none → homeWord (whoMe (taken [a] [d] s).2) r.cursor (taken [a] [d] s).2 = .ok n t →
    exec (.home d a) s = .next (complete 4 (writeField d ⟨BitVec.ofNat 128 n, false⟩ t))) ∧
  (∀ p ∈ ([(.migr, false), (.migrF, true)] : List ((Nat → Instr) × Bool)), ∀ (a n : Nat) (s t : State), Ready [a] [] s →
    let r := source [a] [] s 0
    capCheck r r.cursor 1 0 1 = none → homeWord (whoMe (taken [a] [] s).2) r.cursor (taken [a] [] s).2 = .ok n t →
    inWindow r.cursor = false →
    (n % 2 ^ 13 ≠ t.curCore → onLink (whoMe t) r.cursor t = false → mayMigrate t = true →
      exec (p.1 a) s = .next (departMe (n % 2 ^ 13) (t.me.pc + 4) p.2 false t)) ∧
    (n % 2 ^ 13 = t.curCore ∨ onLink (whoMe t) r.cursor t = true ∨ mayMigrate t = false →
      exec (p.1 a) s = .next (fenceComplete t))) ∧
  (∀ (dst resume : Nat) (full byRoute : Bool) (s : State),
    hostWritesOf (drainMe s) (s.agentAt s.curCore s.curSlot) = false → s.absent = [] → s.absentHeld = [] →
    let t := departMe dst resume full byRoute s
    (t.slot s.curCore s.curSlot).holds = .empty ∧ ∃ m f, t.net = s.net ++ [m] ∧ m.dst = dst ∧ m.header.toNat % 256 = 0xFD ∧
      m.frame = some f ∧ f.full = full ∧ f.pcc.cursor = resume % 2 ^ 52 ∧ (∀ n, n < 8 → SMap.get .zero f.c n = s.me.cr n))

namespace Sys2Proof.Machine

/-! ### System calls, traps and their return -/

/-- A slot held for service by its instruction (R371): its service trap, its wait on the tile's service party, PC and TPC at the
resume address, and every register as it was. -/
def HeldForService (core : Nat) (y z : Slot) (cause tval resume : Nat) : Prop :=
  (∃ order, z.svc = some ⟨cause, tval, false, false, 0, order⟩) ∧ z.wait.mode = 1 ∧ z.wait.reason = 0x13 ∧ z.wait.targets = [serviceParty core] ∧
  z.pcc.cursor = resume % 2 ^ 52 ∧ z.pcc.nat / 2 ^ 52 = y.pcc.nat / 2 ^ 52 ∧ z.c = y.c ∧ z.v = y.v ∧ z.k = y.k ∧ z.holds = y.holds ∧
  z.tvec = y.tvec ∧ z.tcause = y.tcause ∧ z.tval = y.tval ∧ z.tpc = resume % 2 ^ 52 ∧ z.inTrap = y.inTrap ∧ z.mode = y.mode

/-- A little-endian number of a keystone's frame place (R371, R375). -/
def frameNat (s : State) (ks p off n : Nat) : Nat := leNat (bytesAt s.mem (localKey ks (placeOff p) + off) n)

/-- A slot with the scalar state that a frame place holds (R373). -/
def FromFrame (s : State) (ks p : Nat) (y z : Slot) : Prop :=
  (∀ n, n < 16 → z.cr n = ⟨BitVec.ofNat 128 (frameNat s ks p (0x40 + 16 * n) 16),
    SMap.get false s.tags ((localKey ks (placeOff p) + (0x40 + 16 * n)) / 16)⟩) ∧
  z.prio = frameNat s ks p 0x28 8 % 16 ∧ z.tvec = frameNat s ks p 0x30 8 % 2 ^ 52 / 2 * 2 ∧ z.spawnlim = frameNat s ks p 0x38 8 % 2 ^ 16 ∧
  z.domain = frameNat s ks p 0x08 8 / 2 ^ 16 % 256 ∧ z.v = y.v ∧ z.k = y.k ∧ z.mode = y.mode ∧ z.holds = y.holds ∧ z.svc = none ∧
  z.wait.mode = 0

end Sys2Proof.Machine

open Sys2Proof Sys2Proof.Machine in
/-- ERET in user mode inside a trap puts PC at TPC within PCC and clears the in-trap bit, with the registers, the other slots
and memory as they were; outside a trap it is illegal. In service mode, in a context of frame place p whose origin is held,
it frees the context, and by the action bits of the release word resumes the origin with the frame's scalar state, or also
traps it to its vector with the word's cause and the frame's value, or makes it DEAD. A service context without a frame takes
an illegal instruction. (R324, R373, R370) -/
def Obligations.TrapReturn : Prop :=
  (∀ s : State, s.me.mode = .user → s.me.inTrap = true → s.me.stepping = false → ∃ t, exec .eret s = .next t ∧ OnlyMe s t ∧
    Moved s.me.pcc t.me.pcc s.me.tpc ∧ t.me.inTrap = false ∧ t.me.c = s.me.c ∧ t.me.v = s.me.v ∧ t.me.k = s.me.k ∧
    t.me.tcause = s.me.tcause ∧ t.me.tval = s.me.tval ∧ t.me.tpc = s.me.tpc ∧ t.me.mode = .user) ∧
  (∀ s : State, (s.me.mode = .user ∧ s.me.inTrap = false ∨ s.me.mode ≠ .user ∧ s.me.origin = none) →
    exec .eret s = .next (trapMe 0x01 s.curWord s)) ∧
  (∀ (s : State) (p : Nat) (o : Place), s.me.mode ≠ .user → s.me.origin = some p → p < 32 →
    SMap.find (s.core s.curCore).frames p = some o → (s.slot o.core o.slot).svc.isSome = true →
    ((s.slot o.core o.slot).holds = .thread ∨ (s.slot o.core o.slot).holds = .activation) →
    ¬ (o.core = s.curCore ∧ o.slot = s.curSlot) →
    let ks := s.curCore
    let word := frameNat s ks p 0x178 8
    ∃ t, exec .eret s = .next t ∧ t.me.holds = .empty ∧
      let y := s.slot o.core o.slot
      let z := t.slot o.core o.slot
      let vec := frameNat s ks p 0x30 8 % 2 ^ 52 / 2 * 2
      (word / 2 % 4 = 0 → FromFrame s ks p y z ∧ z.pcc.nat = frameNat s ks p 0x10 16 % 2 ^ 128) ∧
      (word / 2 % 4 = 1 → frameNat s ks p 0x08 8 / 8 % 2 = 0 → vec ≠ 0 → FromFrame s ks p y z ∧
        z.tcause = word / 2 ^ 8 % 256 ∧ z.tval = BitVec.ofNat 64 (frameNat s ks p 0x188 8) ∧
        z.tpc = frameNat s ks p 0x10 16 % 2 ^ 52 ∧ z.inTrap = true ∧ z.pcc.cursor = vec) ∧
      (2 ≤ word / 2 % 4 → z.holds = .empty ∧ z.tomb = .dead))

open Sys2Proof Sys2Proof.Machine in
/-- TRAP takes a service trap of cause 0x11 with TVAL the immediate, SYSCALL one of cause 0x10 with TVAL the token a[15:0]
above the immediate: the slot stays held in the wait of R371 on its tile's service party with PC and TPC at the next
instruction, and c0 to c15, the vector and mask registers, TVEC, TCAUSE, TVAL, the in-trap bit and the mode as they were.
TRAP does so in every state, SYSCALL in every state in which its field is ready. BREAK completes in every state: it takes
cause 0x12 with TVAL 0 and TPC its own address, always so on a core that is under no debugger, or halts the slot where the
core's debugger catches breakpoints. Fetched bits that name no instruction take cause 0x01 with TVAL the encoding. A fetch
whose check fails takes the exception of the fetch with TVAL the fetch address; one through an untagged PCC cause 0x02.
(R323, R371, R368, R194, R232, R324, R99, R257) -/
def Obligations.TrapInstructions : Prop :=
  ((∀ (i : Nat) (s : State), ∃ t, exec (.trap i) s = .next t ∧
    HeldForService s.curCore s.me (t.slot s.curCore s.curSlot) 0x11 i (s.me.pc + 4)) ∧
  (∀ (i a : Nat) (s : State), Ready [a] [] s → ∃ t, exec (.syscall i a) s = .next t ∧
    HeldForService s.curCore s.me (t.slot s.curCore s.curSlot) 0x10 ((source [a] [] s 0).nat % 2 ^ 16 * 2 ^ 16 + i) (s.me.pc + 4))) ∧
  ((∀ s : State, (s.core s.curCore).debugger = false → exec .brk s = .next (trapMe 0x12 0 s)) ∧
  (∀ s : State, exec .brk s = .next (trapMe 0x12 0 s) ∨ (s.core s.curCore).debugger = true ∧ Config.catchesBreaks s.curCore = true ∧
    ∃ t, exec .brk s = .next t ∧ t.me.halted = true ∧ t.me.pcc = s.me.pcc ∧ t.me.c = s.me.c ∧ t.mem = s.mem) ∧
  (∀ (s : State) (enc : Nat), exec (.illegalInstruction enc) s = .next (trapMe 0x01 enc s)) ∧
  (∀ (s u : State) (e : Exc), fetchSlot s.curCore s.curSlot s = .exc e u →
    exec (.instructionFetchFault e.cause) s = .next (raise ⟨s.me.pc, fetchSize s.curCore s.curSlot s, false, true⟩ e s)) ∧
  (∀ s : State, s.me.pcc.tag = false → exec (.instructionFetchFault 0x02) s = .next (trapMe 0x02 s.me.pc s)))

namespace Sys2Proof.Machine

/-! ### Atomics, locks and fences -/

/-- The atomics with a width bit, with the number of their operation (R268). -/
def atomics : List ((Nat → Nat → Nat → Bool → Bool → Bool → Nat → Instr) × Nat) :=
  [(.amoadd, 0), (.amoand, 1), (.amoor, 2), (.amoxor, 3), (.amomin, 4), (.amomax, 5), (.amominu, 6), (.amomaxu, 7),
   (.amoswap, 8), (.cas, 9)]

/-- Every form of atomic: instruction, operation, bytes, fields, acquire and release scope, 0 for none (R267). -/
structure AtomForm where
  i : Instr
  op : Nat
  n : Nat
  d : Nat
  b : Nat
  a : Nat
  acq : Nat
  scope : Nat

def IsAtomic (f : AtomForm) : Prop :=
  (∃ p ∈ atomics, ∃ d b a w aq rl scope,
    f = ⟨p.1 d b a w aq rl scope, p.2, if w then 4 else 8, d, b, a, if aq then scope else 0,
      if rl then scope else 0⟩) ∨
  (∃ d b a aq rl scope, f = ⟨.casq d b a aq rl scope, 10, 16, d, b, a, if aq then scope else 0, if rl then scope else 0⟩)

/-- What the operand registers give: base capability, operand and expected value. -/
def AtomForm.base (f : AtomForm) (s : State) : Reg := source [f.a, f.b] [f.d] s 0
def AtomForm.operand (f : AtomForm) (s : State) : Nat := (source [f.a, f.b] [f.d] s 1).nat % 2 ^ (8 * f.n)
def AtomForm.expected (f : AtomForm) (s : State) : Nat := if f.d < 16 then (s.me.cr f.d).nat % 2 ^ (8 * f.n) else 0

/-- The register an atomic leaves: 32-bit results sign-extended, those of MINU and MAXU zero-extended (R268). -/
def atomExt (op n old : Nat) : Reg :=
  if n = 4 ∧ op ≠ 6 ∧ op ≠ 7 then ⟨((BitVec.ofNat 32 old).signExtend 64).zeroExtend 128, false⟩ else ⟨BitVec.ofNat 128 old, false⟩

/-- The new value of an atomic (R268), `none` where it writes nothing. -/
def atomNew (op n old b e : Nat) : Option Nat :=
  let less := (BitVec.ofNat (8 * n) old).slt (BitVec.ofNat (8 * n) b)
  match op with
  | 0 => some ((BitVec.ofNat (8 * n) old + BitVec.ofNat (8 * n) b).toNat)
  | 1 => some ((BitVec.ofNat (8 * n) old &&& BitVec.ofNat (8 * n) b).toNat)
  | 2 => some ((BitVec.ofNat (8 * n) old ||| BitVec.ofNat (8 * n) b).toNat)
  | 3 => some ((BitVec.ofNat (8 * n) old ^^^ BitVec.ofNat (8 * n) b).toNat)
  | 4 => some (if less then old else b)
  | 5 => some (if less then b else old)
  | 6 => some (if old < b then old else b)
  | 7 => some (if old < b then b else old)
  | 8 => some b
  | _ => if old = e then some b else none

/-- A lock word's fields (R270): writer preference, writer holds, waiting writers, readers. -/
def lockFields (w : Nat) : Bool × Bool × Nat × Nat := (w.testBit 63, w.testBit 62, w / 2 ^ 48 % 2 ^ 14, w % 2 ^ 32)

end Sys2Proof.Machine

open Sys2Proof Sys2Proof.Machine in
/-- Every AMO of 4 and 8 bytes, CAS and CASQ whose fields are ready, whose checks for read and write pass (or lie behind it,
the atomic having gone to its home in an earlier turn), and which, its activation exposed first, its home performs on an
unpoisoned granule completes: the destination takes the old value, a 32-bit one sign-extended but for MINU and MAXU. Every
form of atomic with register operands, of a thread or an exposed activation with nothing on its way, through a capability
that may read and write, to unpoisoned bytes of the core's own scratchpad or TOB banks with the domain's read and write
rights, completes in one step: the destination takes the old value, the bytes take the new value of the operation (CAS and
CASQ only where the old value is the expected one, and else keep theirs), every other byte is as before, and no other
register but PCC changes. (R267, R268, R269, R382, R92, R192, R102) -/
def Obligations.AtomicResults : Prop :=
  (∀ (f : AtomForm) (s t1 t2 t3 : State) (x : Reply), IsAtomic f → Ready [f.a, f.b] [f.d] s →
    let u := (taken [f.a, f.b] [f.d] s).2
    let va := vaOf (f.base s).cursor
    (begun (whoMe u) va f.n u = true ∧ t1 = u ∨ begun (whoMe u) va f.n u = false ∧
      memCheck (whoMe u) (f.base s) (f.base s).cursor f.n 3 f.n 3 u = .ok va t1) →
    exposeMe t1 = .ok () t2 →
    atomicAt (whoMe u) va f.n f.op (f.operand s) (f.expected s) f.scope f.acq t2 = .ok x t3 → x.poison = false →
    leNat x.bytes < 2 ^ (8 * f.n) →
    exec f.i s = .next (complete 4 (writeField f.d (atomExt f.op f.n (leNat x.bytes)) t3))) ∧
  (∀ (f : AtomForm) (s : State) (off b : Nat), IsAtomic f → capField f.a → capField f.b → capField f.d → s.Canonical →
    s.flights = [] → s.me.replies = [] → s.late = false → s.links.all (fun p => p.2.requests.isEmpty) = true → s.curSlot < 16 →
    (s.me.holds = .activation → s.me.exposed = true) → f.scope ≤ 5 →
    CapOk (f.base s) (f.base s).cursor f.n 3 f.n → OwnBank s (f.base s).cursor f.n off b → b &&& 3 = 3 →
    physPoison s (localKey s.curCore off) f.n = false →
    let k := localKey s.curCore off
    let old := leNat (bytesAt s.mem k f.n)
    ∃ t, exec f.i s = .next t ∧ SlotKept s.me t.me [f.d] ∧ Moved s.me.pcc t.me.pcc (s.me.pc + 4) ∧
      (f.d < 16 → t.me.cr f.d = atomExt f.op f.n old) ∧
      bytesAt t.mem k f.n = (match atomNew f.op f.n old (f.operand s) (f.expected s) with
        | some v => leBytes f.n v
        | none => bytesAt s.mem k f.n) ∧
      (∀ a, a < k ∨ k + f.n ≤ a → SMap.get 0 t.mem a = SMap.get 0 s.mem a) ∧ t.cdata = s.cdata)

open Sys2Proof Sys2Proof.Machine in
/-- RWLR and RWLW whose field is ready, whose checks pass, whose party stands in no list and whose unpoisoned word is on this
device, performed at once, grant as R271 says: the word gains a reader or the writer bit, the destination takes 1. Where they
do not grant, the .t form leaves the word and takes 0, the other waits with reason 0x09 and the word's fields but the count
of waiting writers stay. A request that stands in the list and has been granted completes with 1 and leaves the list. RWUR
and RWUW with nobody waiting take one reader or the writer off, and of a lock that is not so held change nothing; each completes
past the instruction. (R270, R271, R272, R273) -/
def Obligations.LockResults : Prop :=
  (∀ (write t_ : Bool) (d a : Nat) (src : Src) (s t1 t2 u : State), Ready [a] [d] s →
    let t := (taken [a] [d] s).2
    let r := source [a] [d] s 0
    let va := vaOf r.cursor
    listedAt t (whoMe t).party 0 (lockKey t.curCore va) = none → inFlight (whoMe t) 3 va t = false →
    findReply (whoMe t) va 8 t = none → askedFor t (whoMe t) va = false → lockCheck (whoMe t) r t = .ok va t1 →
    exposeMe t1 = .ok () t2 → lockLocate (whoMe t) va true t2 = .ok src u → isLink src = false → toOwner u src = none →
    poisonAt u src va 8 = false →
    let i := lockInfo u (lockPlace src va)
    let (pref, wr, _, rd) := lockFields (leNat (readAt u src va 8))
    let writers := (i.waiters.filter fun x => x.write && !x.granted).length
    let grant := if write then wr = false ∧ rd = 0 ∧ writers = 0 else wr = false ∧ rd < 2 ^ 32 - 1 ∧ ¬ (pref = true ∧ 0 < writers)
    let ins : Instr := if write then .rwlw d a t_ else .rwlr d a t_
    (grant → ∃ v u', exec ins s = .next (complete 4 (writeField d (.ofNat 1) (writeAt src va (leBytes 8 v) false u'))) ∧
      (lockFields v).1 = pref ∧ (lockFields v).2.1 = (wr || write) ∧ (lockFields v).2.2.2 = rd + (if write then 0 else 1) ∧
      u'.mem = u.mem ∧ u'.cdata = u.cdata) ∧
    (¬ grant → t_ = true → exec ins s = .next (complete 4 (writeField d (.ofNat 0) u))) ∧
    (¬ grant → t_ = false → ∃ m l v u',
      exec ins s = .next (waitFor m 0x09 false l (keepTaken [a] [d] s (writeAt src va (leBytes 8 v) false u'))) ∧
      (lockFields v).1 = pref ∧ (lockFields v).2.1 = wr ∧ (lockFields v).2.2.2 = rd ∧ u'.mem = u.mem ∧ u'.cdata = u.cdata)) ∧
  (∀ (write t_ : Bool) (d a home : Nat) (x : Waiter) (s : State), Ready [a] [d] s →
    let t := (taken [a] [d] s).2
    let key := lockKey t.curCore (vaOf (source [a] [d] s 0).cursor)
    listedAt t (whoMe t).party 0 key = some (home, x) → x.granted = true →
    exec (if write then .rwlw d a t_ else .rwlr d a t_) s = .next (complete 4 (writeField d (.ofNat 1)
      (setLock (home, key) { lockInfo t (home, key) with waiters := (lockInfo t (home, key)).waiters.erase x } t)))) ∧
  (∀ (write : Bool) (a : Nat) (src : Src) (s t1 t2 u : State), Ready [a] [] s →
    let t := (taken [a] [] s).2
    let r := source [a] [] s 0
    let va := vaOf r.cursor
    inFlight (whoMe t) 3 va t = false → findReply (whoMe t) va 8 t = none → askedFor t (whoMe t) va = false →
    lockCheck (whoMe t) r t = .ok va t1 → exposeMe t1 = .ok () t2 → lockLocate (whoMe t) va false (drainMe t2) = .ok src u →
    isLink src = false → toOwner u src = none → poisonAt u src va 8 = false →
    let (pref, wr, _, rd) := lockFields (leNat (readAt u src va 8))
    (lockInfo u (lockPlace src va)).waiters = [] →
    let ins : Instr := if write then .rwuw a else .rwur a
    ((if write then wr = true else 0 < rd) →
      ∃ v u', exec ins s = .next (complete 4 (refreshTombs (writeAt src va (leBytes 8 v) false u'))) ∧
        lockFields v = (pref, wr && !write, 0, if write then rd else rd - 1) ∧ v / 2 ^ 32 % 2 ^ 16 = leNat (readAt u src va 8) / 2 ^ 32 % 2 ^ 16 ∧
        u'.mem = u.mem ∧ u'.cdata = u.cdata) ∧
    (¬ (if write then wr = true else 0 < rd) → exec ins s = .next (complete 4 u)))

open Sys2Proof Sys2Proof.Machine in
/-- FENCE that orders earlier stores performs every posted store of its agent within its scope at once, leaves the other accesses on
their way but for .by ones (that it does both at its issue is the model's choice, log 32), and
completes past the instruction unless it is .sys with a write to a host or peer unacknowledged; then it stalls in RUN at its
own address. FENCE that orders only loads completes and changes nothing else; FENCE.I completes. (R191, R197, R200, R274,
R275) -/
def Obligations.FenceResults : Prop :=
  (∀ (kinds scope : Nat) (s : State), (kinds.testBit 2 = true ∨ kinds.testBit 3 = true) →
    let t := drainScope s.curCore s.curSlot scope s
    (∀ f ∈ t.flights, ¬ (f.op = 1 ∧ f.core = s.curCore ∧ f.slot = s.curSlot ∧ f.inScope scope s.curCore = true)) ∧
    (∀ f ∈ s.flights, ¬ (f.op = 1 ∧ f.core = s.curCore ∧ f.slot = s.curSlot ∧ f.inScope scope s.curCore = true) →
      f.hint ≠ 2 → (∀ h pa, f.src ≠ .frame h pa) → f ∈ t.flights) ∧
    (scope ≠ 5 ∨ hostWritesOf t (t.agentAt t.curCore t.curSlot) = false → exec (.fence kinds scope) s = .next (complete 4 t)) ∧
    (scope = 5 → hostWritesOf t (t.agentAt t.curCore t.curSlot) = true →
      ∃ u, exec (.fence kinds scope) s = .next u ∧ u.me.pcc = s.me.pcc ∧ u.me.c = s.me.c ∧ u.mem = t.mem)) ∧
  (∀ (kinds scope : Nat) (s : State), kinds.testBit 2 = false → kinds.testBit 3 = false →
    exec (.fence kinds scope) s = .next (complete 4 s)) ∧
  (∀ s : State, ∃ t, exec .fenceI s = .next (complete 4 t) ∧ t.me = s.me)

namespace Sys2Proof.Machine

/-! ### Vector instructions -/

/-- Lane `i` of width `w` (R108). -/
def laneAt (x : BitVec 512) (w i : Nat) : BitVec w := x.extractLsb' (w * i) w

/-- Lane `i` is active under mask `k` (R276); k0 makes every lane active. -/
def onLane (y : Slot) (k i : Nat) : Bool := if k = 0 then decide (i < 64) else (SMap.get 0 y.k k).getLsbD i

/-- The number of active lanes below `i`. -/
def onBelow (y : Slot) (k i : Nat) : Nat := ((List.range i).filter (onLane y k)).length

/-- What a vector instruction leaves of the slot: all but the named general, vector and mask registers, PCC, the mi position, the
state of a wait that ends, and what the instruction had fetched. -/
def VecKept (y z : Slot) (cs vs ks : List Nat) : Prop :=
  (∀ n, n ∉ cs → z.cr n = y.cr n) ∧ (∀ n, n ∉ vs → z.vr n = y.vr n) ∧ (∀ n, n ∉ ks → z.kr n = y.kr n) ∧
  z.status = y.status ∧ z.prio = y.prio ∧ z.tvec = y.tvec ∧ z.tcause = y.tcause ∧ z.tval = y.tval ∧ z.tpc = y.tpc ∧
  z.holds = y.holds ∧ z.commit = y.commit ∧ z.payload = y.payload

/-- A vector instruction that completes past itself, with its frame. -/
def VecDone (s t : State) (cs vs ks : List Nat) : Prop :=
  OnlyMe s t ∧ VecKept s.me t.me cs vs ks ∧ Moved s.me.pcc t.me.pcc (s.me.pc + 4)

/-- Every lane of register `d`: the given value where active, else as before. -/
def Lanes (s t : State) (d k w : Nat) (f : Nat → BitVec w) : Prop :=
  ∀ i, i < 512 / w → laneAt (t.me.vr d) w i = if onLane s.me k i then f i else laneAt (s.me.vr d) w i

/-- The integer lane operations of two sources and of one (R282). -/
def vecInt2 : List ((Nat → Nat → Nat → Nat → Nat → Instr) × ((w : Nat) → BitVec w → BitVec w → BitVec w)) :=
  [(.vadd, fun _ x y => x + y), (.vsub, fun _ x y => x - y), (.vmul, fun _ x y => x * y),
   (.vmulh, fun w x y => (x.signExtend (2 * w) * y.signExtend (2 * w)).extractLsb' w w),
   (.vmulhu, fun w x y => (x.zeroExtend (2 * w) * y.zeroExtend (2 * w)).extractLsb' w w),
   (.vmin, fun _ x y => if x.slt y then x else y), (.vmax, fun _ x y => if x.slt y then y else x),
   (.vminu, fun _ x y => if x.ult y then x else y), (.vmaxu, fun _ x y => if x.ult y then y else x),
   (.vand, fun _ x y => x &&& y), (.vor, fun _ x y => x ||| y), (.vxor, fun _ x y => x ^^^ y),
   (.vsll, fun w x y => x <<< (y.toNat % w)), (.vsrl, fun w x y => x >>> (y.toNat % w)),
   (.vsra, fun w x y => x.sshiftRight (y.toNat % w))]
def vecInt1 : List ((Nat → Nat → Nat → Nat → Instr) × ((w : Nat) → BitVec w → BitVec w)) :=
  [(.vabs, fun _ x => if x.msb then -x else x), (.vneg, fun _ x => -x)]

/-- The floating lane operations (R283): core and lane, then the values of va, vb and vd. -/
def vecFlt2 : List ((Nat → Nat → Nat → Nat → Nat → Instr) × (Fmt → Nat × Nat → FVal → FVal → FVal → Nat) × Bool) :=
  [(.vaddFp, fun m c x y _ => fpAdd m c x y, false), (.vsubFp, fun m c x y _ => fpAdd m c x y.neg, false),
   (.vmulFp, fun m c x y _ => fpMul m c x y, false), (.vdiv, fun m c x y _ => fpDiv m c x y, false),
   (.vminFp, fun m _ x y _ => fpMin m x y, false), (.vmaxFp, fun m _ x y _ => fpMax m x y, false),
   (.vfma, fun m c x y z => fpFma m c x y z, true), (.vfms, fun m c x y z => fpFma m c x y z.neg, true)]
def vecFlt1 : List ((Nat → Nat → Nat → Nat → Instr) × (Fmt → Nat × Nat → FVal → Nat)) :=
  [(.vsqrt, fpSqrt), (.vabsFp, fun m _ x => fpAbs m x), (.vnegFp, fun m _ x => fpNeg m x)]

/-- A quiet NaN of sign 0 (R119). -/
def quietNan (m : Fmt) (x : Nat) : Prop := ∃ p, p < 2 ^ (m.mb - 1) ∧ x = (2 ^ m.eb - 1) * 2 ^ m.mb + 2 ^ (m.mb - 1) + p

/-- The conditions of integer and of floating compares (R284). -/
def vecCmp : List ((Nat → Nat → Nat → Nat → Nat → Instr) × ((w : Nat) → BitVec w → BitVec w → Bool)) :=
  [(.vcmpEq, fun _ x y => x == y), (.vcmpNe, fun _ x y => x != y), (.vcmpLt, fun _ x y => x.slt y),
   (.vcmpLe, fun _ x y => x.sle y), (.vcmpLtu, fun _ x y => x.ult y), (.vcmpLeu, fun _ x y => x.ule y)]
def nanPair (x y : FVal) : Bool := isNan x || isNan y
def vecCmpFp : List ((Nat → Nat → Nat → Nat → Nat → Instr) × (FVal → FVal → Bool)) :=
  [(.vcmpFeq, fun x y => !nanPair x y && !ltExact x y && !ltExact y x),
   (.vcmpFne, fun x y => nanPair x y || ltExact x y || ltExact y x),
   (.vcmpFlt, fun x y => !nanPair x y && ltExact x y), (.vcmpFle, fun x y => !nanPair x y && !ltExact y x),
   (.vcmpFuno, fun x y => nanPair x y)]

/-- A mask register with the given bits below `n` and zeros above; k0 keeps all ones (R109). -/
def MaskIs (t : State) (d n : Nat) (p : Nat → Bool) : Prop :=
  if d = 0 then t.me.kr 0 = 0xFFFFFFFFFFFFFFFF else ∀ i, i < 64 → (t.me.kr d).getLsbD i = (decide (i < n) && p i)

/-- The integer reductions over the active lanes in order (R287). -/
def vecRed : List ((Nat → Nat → Nat → Nat → Instr) × ((w : Nat) → List (BitVec w) → Word)) :=
  [(.vredAdd, fun _ l => l.foldl (fun n x => n + x.signExtend 64) 0),
   (.vredMin, fun w l => l.foldl (fun n x => if (x.signExtend 64).slt n then x.signExtend 64 else n) (BitVec.ofNat 64 (2 ^ (w - 1) - 1))),
   (.vredMax, fun w l => l.foldl (fun n x => if n.slt (x.signExtend 64) then x.signExtend 64 else n) (BitVec.ofInt 64 (-(2 ^ (w - 1))))),
   (.vredMinu, fun w l => l.foldl (fun n x => if (x.zeroExtend 64).ult n then x.zeroExtend 64 else n) (BitVec.ofNat 64 (2 ^ w - 1))),
   (.vredMaxu, fun _ l => l.foldl (fun n x => if n.ult (x.zeroExtend 64) then x.zeroExtend 64 else n) 0),
   (.vredAnd, fun w l => l.foldl (fun n x => n &&& x.zeroExtend 64) (BitVec.ofNat 64 (2 ^ w - 1))),
   (.vredOr, fun _ l => l.foldl (fun n x => n ||| x.zeroExtend 64) 0),
   (.vredXor, fun _ l => l.foldl (fun n x => n ^^^ x.zeroExtend 64) 0)]

/-- The floating reductions: the value of an inactive lane and the pairwise operation (R288). -/
def vecRedFp : List ((Nat → Nat → Nat → Nat → Instr) × (Fmt → Nat) × (Fmt → Nat × Nat → FVal → FVal → Nat)) :=
  [(.vredFadd, fun m => 2 ^ (m.eb + m.mb), fpAdd), (.vredFmin, fun m => (2 ^ m.eb - 1) * 2 ^ m.mb, fun m _ x y => fpMin m x y),
   (.vredFmax, fun m => 2 ^ (m.eb + m.mb) + (2 ^ m.eb - 1) * 2 ^ m.mb, fun m _ x y => fpMax m x y)]

/-- The balanced tree over 2^h lanes from lane `i` (R288); a created NaN names the lowest lane of the right half (R119). -/
def pairTree (p : Nat → Nat → Nat → Nat) (x : Nat → Nat) : Nat → Nat → Nat
  | 0, i => x i
  | h + 1, i => p (i + 2 ^ h) (pairTree p x h i) (pairTree p x h (i + 2 ^ h))

/-- A vector load or store: instruction, fields read, bytes of a part, mask, and the address of the part of lane `i`. -/
structure VecForm where
  i : Instr
  reads : List Nat
  v : Nat
  n : Nat
  k : Nat
  at_ : Slot → Reg → Word → Nat → Int

def VecForm.addresses (f : VecForm) (s : State) : List Int :=
  ((List.range (64 / f.n)).filter (onLane s.me f.k)).map
    (f.at_ s.me (source f.reads [] s 0) (sourceWord f.reads [] s 1))

/-- The addresses of the three kinds of access (R278). -/
def blockAt (imm : Int) (_ : Slot) (r : Reg) (_ : Word) (i : Nat) : Int := r.cursor + imm + 16 * i
def strideOf (_ : Slot) (r : Reg) (x : Word) (i : Nat) : Int := r.cursor + i * x.toInt
def indexedAt (x n : Nat) (y : Slot) (r : Reg) (_ : Word) (i : Nat) : Int := r.cursor + ((laneAt (y.vr x) (8 * n) i).toNat * n : Nat)

def IsVecLoad (f : VecForm) : Prop :=
  (∃ d a imm, f = ⟨.vld d a imm, [a], d, 16, 0, blockAt imm⟩) ∨
  (∃ d a x k ew, ew < 4 ∧ f = ⟨.vlds d a x k ew, [a, x], d, 2 ^ ew, k, strideOf⟩) ∨
  (∃ d a x k ew, ew < 4 ∧ f = ⟨.vgath d a x k ew, [a], d, 2 ^ ew, k, indexedAt x (2 ^ ew)⟩)
def IsVecStore (f : VecForm) : Prop :=
  (∃ b a imm, f = ⟨.vst b a imm, [a], b, 16, 0, blockAt imm⟩) ∨
  (∃ b a x k ew, ew < 4 ∧ f = ⟨.vsts b a x k ew, [a, x], b, 2 ^ ew, k, strideOf⟩)

/-- The active lanes of a scatter whose index no higher active lane has (R278). -/
def scatterLanes (y : Slot) (x k n : Nat) : List Nat :=
  (List.range (64 / n)).filter fun i => onLane y k i && (List.range (64 / n)).all fun j =>
    !(decide (i < j) && onLane y k j && laneAt (y.vr x) (8 * n) i == laneAt (y.vr x) (8 * n) j)

end Sys2Proof.Machine

open Sys2Proof Sys2Proof.Machine in
/-- VLD, VLDS and VGATH whose parts at the addresses of R278 all pass their checks and are loaded complete with each active
lane its element's little-endian value and the other lanes as they were. VST, VSTS and VSCAT whose parts all pass and can be
stored complete with every active lane's bytes stored at its address, for VSCAT only those of the highest active lane of each
index; each part trains the predictor, in lane order, and .at trains nothing (the model's choices, logs 17 and 104); where a
stride of 0 gives all lanes of VSTS one address, the lanes come in an order that is left free (log 5). The general-register operands are ready. VSCATA.add and VSCATA.fadd whose active elements pass
their checks for read and write (for .fadd.at none lies on a host page), with no answer of a link under way for it, complete.
Without .at the distinct elements are loaded and then stored with the lanes of their index, combined in ascending order,
added, wrapping or rounded once; with .at, an activation exposed first, where every element is on this device, made ready and
unpoisoned at its home, each is read and written while its line is held. (R278, R279, R276, R102, R56, R281) -/
def Obligations.VectorLoadsStores : Prop :=
  ((∀ (f : VecForm) (s t1 t2 : State) (vs : List Nat), IsVecLoad f → Ready f.reads [] s →
    let u := (taken f.reads [] s).2
    checkParts (whoMe u) (source f.reads [] s 0) f.n 1 f.n 1 (f.addresses s) u = ([], t1) →
    loadMany (whoMe u) f.n (f.addresses s) t1 = .ok vs t2 →
    let t := trainParts (f.addresses s) f.n t2
    ∃ x, exec f.i s = .next (complete 4 (t.modMe fun y => y.setV f.v x)) ∧
      ∀ i, i < 64 / f.n → laneAt x (8 * f.n) i =
        if onLane t.me f.k i then BitVec.ofNat _ (vs.getD (onBelow t.me f.k i) 0) else laneAt (t.me.vr f.v) (8 * f.n) i) ∧
  (∀ (f : VecForm) (s t1 : State), IsVecStore f → Ready f.reads [] s →
    let u := (taken f.reads [] s).2
    checkParts (whoMe u) (source f.reads [] s 0) f.n 2 f.n 2 (f.addresses s) u = ([], t1) →
    ∃ j, (f.reads.length = 1 ∨ sourceWord f.reads [] s 1 ≠ 0 → j = 0) ∧
      ∀ t2, storeMany (whoMe u) ((((List.range (64 / f.n)).filter (onLane s.me f.k)).rotateLeft j).map fun i =>
          (vaOf (f.at_ s.me (source f.reads [] s 0) (sourceWord f.reads [] s 1) i),
            leBytes f.n (laneAt (s.me.vr f.v) (8 * f.n) i).toNat)) t1 = .ok () t2 →
        exec f.i s = .next (complete 4 (trainParts (f.addresses s) f.n t2))) ∧
  (∀ (b a x k ew : Nat) (s t1 t2 : State), ew < 4 → Ready [a] [] s →
    let u := (taken [a] [] s).2
    let n := 2 ^ ew
    let dst (i : Nat) : Int := indexedAt x n s.me (source [a] [] s 0) 0 i
    checkParts (whoMe u) (source [a] [] s 0) n 2 n 2 (((List.range (64 / n)).filter (onLane s.me k)).map dst) u = ([], t1) →
    storeMany (whoMe u) ((scatterLanes s.me x k n).map fun i => (vaOf (dst i), leBytes n (laneAt (s.me.vr b) (8 * n) i).toNat)) t1 = .ok () t2 →
    exec (.vscat b a x k ew) s = .next (complete 4 (trainParts ((scatterLanes s.me x k n).map dst) n t2)))) ∧
  (∀ (float : Bool) (b a x k ew : Nat) (s t1 : State), Ready [a] [] s →
    let u := (taken [a] [] s).2
    let r := source [a] [] s 0
    let n := ewBits ew / 8
    let ins (at_ : Bool) : Instr := if float then .vscataFadd b a x k ew at_ else .vscataAdd b a x k ew at_
    let eas := (u.me.actives k (laneCount (ewBits ew))).map (indexAt r (u.me.vr x) (ewBits ew))
    scatMark (whoMe u) u = none → checkParts (whoMe u) r n 3 n 3 eas u = ([], t1) →
    let l := scatElems u.me r b x k ew u.curCore float
    (∀ olds t2 t3, loadMany (whoMe u) n (l.map fun e => e.2.1) t1 = .ok olds t2 →
      storeMany (whoMe u) ((l.zip olds).map fun p =>
        (vaOf p.1.2.1, leBytes n (scatSum float ew t2.curCore p.1.1 p.2 p.1.2.2))) t2 = .ok () t3 →
      exec (ins false) s = .next (complete 4 (trainParts ((l ++ l).map fun e => e.2.1) n t3))) ∧
    (∀ t2 t3 places, (float = true → ∀ ea ∈ eas, onHost (whoMe u) (vaOf ea) u = false) →
      exposeMe t1 = .ok () t2 → readyAll (whoMe t2) (l.map fun e => (vaOf e.2.1, n)) t2 = .ok places t3 →
      let m := l.zip places
      let held := holdLines (whoMe t2) (m.map fun p => holdKey t2.curCore (vaOf p.1.2.1)) t3
      (∀ p ∈ m, isLink p.2.2.2 = false ∧ poisonAt held p.2.2.2 (vaOf p.1.2.1) n = false) →
      exec (ins true) s = .next (complete 4 (releaseLines (whoMe t2) (m.foldl (fun t p => writeAt p.2.2.2 (vaOf p.1.2.1)
        (leBytes n (scatSum float ew t.curCore p.1.1 (leNat (readAt t p.2.2.2 (vaOf p.1.2.1) n)) p.1.2.2)) false t) held)))))

open Sys2Proof Sys2Proof.Machine in
/-- Each integer vector operation at every element width completes past itself: an active lane takes the operation's result
on the lanes of its sources, as sum, difference, product, halves of the product, signed and unsigned minimum and maximum,
bitwise functions, shifts by the amount modulo the width, absolute value and negation modulo 2^w; an inactive lane, every
other register and all of memory are as before. (R276, R282, R108, R109) -/
def Obligations.VectorIntegerLanes : Prop :=
  (∀ p ∈ vecInt2, ∀ (d a b k ew : Nat) (s : State), ew < 4 → ∃ t, exec (p.1 d a b k ew) s = .next t ∧ VecDone s t [] [d] [] ∧
    Lanes s t d k (8 * 2 ^ ew) fun i => p.2 _ (laneAt (s.me.vr a) _ i) (laneAt (s.me.vr b) _ i)) ∧
  (∀ p ∈ vecInt1, ∀ (d a k ew : Nat) (s : State), ew < 4 → ∃ t, exec (p.1 d a k ew) s = .next t ∧ VecDone s t [] [d] [] ∧
    Lanes s t d k (8 * 2 ^ ew) fun i => p.2 _ (laneAt (s.me.vr a) _ i))

open Sys2Proof Sys2Proof.Machine in
/-- Each floating vector operation on FP16, FP32 or FP64 lanes completes past itself: an active lane takes the operation's
once-rounded result on the lanes of va, vb and, for VFMA and VFMS, vd; where one of the lanes it reads is a NaN the result is
a quiet NaN of sign 0; an inactive lane, every other register and all of memory are as before. (R283, R118, R119, R276) -/
def Obligations.VectorFloatLanes : Prop :=
  (∀ p ∈ vecFlt2, ∀ (d a b k ew : Nat) (s : State), 1 ≤ ew → ew < 4 → ∃ t, exec (p.1 d a b k ew) s = .next t ∧ VecDone s t [] [d] [] ∧
    let w := 8 * 2 ^ ew
    let m := fmtOf ew
    let val (r i : Nat) : FVal := m.read (laneAt (s.me.vr r) w i).toNat
    let res (i : Nat) : Nat := p.2.1 m (s.curCore, i) (val a i) (val b i) (val d i)
    Lanes s t d k w (fun i => BitVec.ofNat w (res i)) ∧
    ∀ i, i < 512 / w → (isNan (val a i) || isNan (val b i) || p.2.2 && isNan (val d i)) = true → quietNan m (res i)) ∧
  (∀ p ∈ vecFlt1, ∀ (d a k ew : Nat) (s : State), 1 ≤ ew → ew < 4 → ∃ t, exec (p.1 d a k ew) s = .next t ∧ VecDone s t [] [d] [] ∧
    let w := 8 * 2 ^ ew
    let m := fmtOf ew
    let res (i : Nat) : Nat := p.2 m (s.curCore, i) (m.read (laneAt (s.me.vr a) w i).toNat)
    Lanes s t d k w (fun i => BitVec.ofNat w (res i)) ∧
    ∀ i, i < 512 / w → isNan (m.read (laneAt (s.me.vr a) w i).toNat) = true → quietNan m (res i))

open Sys2Proof Sys2Proof.Machine in
/-- A compare completes with bit i of kd set exactly where lane i is active and its condition holds, bits from L up clear,
and k0 left all ones. VSEL gives every lane va's lane where the mask bit is set and vb's elsewhere. The mask operations give
the bitwise function of their masks; KMOV moves 64 bits between a general register and a mask, KPOP counts. Nothing else
changes but PC (KMOV from a register that is no queue or port, no other instruction of the slot having issued). (R284, R285,
R293, R109, R292) -/
def Obligations.VectorMasksAndSelect : Prop :=
  (∀ p ∈ vecCmp, ∀ (d a b k ew : Nat) (s : State), ew < 4 → ∃ t, exec (p.1 d a b k ew) s = .next t ∧ VecDone s t [] [] [d] ∧
    MaskIs t d (64 / 2 ^ ew) fun i => onLane s.me k i && p.2 (8 * 2 ^ ew) (laneAt (s.me.vr a) _ i) (laneAt (s.me.vr b) _ i)) ∧
  (∀ p ∈ vecCmpFp, ∀ (d a b k ew : Nat) (s : State), 1 ≤ ew → ew < 4 → ∃ t, exec (p.1 d a b k ew) s = .next t ∧ VecDone s t [] [] [d] ∧
    MaskIs t d (64 / 2 ^ ew) fun i => onLane s.me k i && p.2 ((fmtOf ew).read (laneAt (s.me.vr a) (8 * 2 ^ ew) i).toNat)
      ((fmtOf ew).read (laneAt (s.me.vr b) (8 * 2 ^ ew) i).toNat)) ∧
  (∀ (d a b k ew : Nat) (s : State), ew < 4 → ∃ t, exec (.vsel d a b k ew) s = .next t ∧ VecDone s t [] [d] [] ∧
    Lanes s t d 0 (8 * 2 ^ ew) fun i => if onLane s.me k i then laneAt (s.me.vr a) _ i else laneAt (s.me.vr b) _ i) ∧
  (∀ p ∈ ([(.kopAnd, fun x y => x &&& y), (.kopOr, fun x y => x ||| y), (.kopXor, fun x y => x ^^^ y),
      (.kopAndn, fun x y => x &&& ~~~y), (fun d a _ => .kopNot d a, fun x _ => ~~~x)] :
      List ((Nat → Nat → Nat → Instr) × (Word → Word → Word))), ∀ (d a b : Nat) (s : State),
    ∃ t, exec (p.1 d a b) s = .next t ∧ VecDone s t [] [] [d] ∧ (d ≠ 0 → t.me.kr d = p.2 (s.me.kr a) (s.me.kr b))) ∧
  (∀ (d a : Nat) (s : State), plainField a = true → s.me.kept = none → ∃ t, exec (.kmovToMask d a) s = .next t ∧ VecDone s t [] [] [d] ∧
    (d ≠ 0 → t.me.kr d = sourceWord [a] [] s 0)) ∧
  (∀ (d a : Nat) (s : State), Ready [] [d] s → exec (.kmovFromMask d a) s = .next (doneWith 4 [] d (.ofWord (s.me.kr a)) s) ∧
    exec (.kpop d a) s =
      .next (doneWith 4 [] d (.ofNat ((List.range 64).filter fun i => (s.me.kr a).getLsbD i).length) s))

open Sys2Proof Sys2Proof.Machine in
/-- VBCAST, VPERM and VSLIDE give each active lane the lane the rule names or zero; VINS changes the one lane its index
names, VEXT gives the named lane zero-extended, or zero; VCOMPR packs the selected lanes and zeros the rest, VEXPND spreads
the lowest lanes over the selected places and zeros the others; VCONF gives each active lane the bits of the earlier active
lanes equal to it. Nothing else changes but PC. The general-register sources are no queue or port, and no other instruction
of the slot has issued and not completed. (R286, R291, R276) -/
def Obligations.VectorPermutation : Prop :=
  ∀ (d a b k ew : Nat) (s : State), ew < 4 →
    let w := 8 * 2 ^ ew
    let n := 512 / w
    (plainField a = true → s.me.kept = none → ∃ t, exec (.vbcast d a k ew) s = .next t ∧ VecDone s t [] [d] [] ∧
      Lanes s t d k w fun _ => (source [a] [] s 0).raw.truncate w) ∧
    (Ready [b] [d] s → exec (.vext d a b ew) s = .next (doneWith 4 [b] d
      (let i := (sourceWord [b] [d] s 0).toNat; if i < n then ⟨(laneAt (s.me.vr a) w i).zeroExtend 128, false⟩ else ⟨0, false⟩) s)) ∧
    (plainField a = true → plainField b = true → s.me.kept = none → ∃ t, exec (.vins d a b ew) s = .next t ∧ VecDone s t [] [d] [] ∧
      Lanes s t d 0 w fun i => if i = (sourceWord [a, b] [] s 1).toNat then (source [a, b] [] s 0).raw.truncate w
        else laneAt (s.me.vr d) w i) ∧
    (∃ t, exec (.vperm d a b k ew) s = .next t ∧ VecDone s t [] [d] [] ∧
      Lanes s t d k w fun i => let j := (laneAt (s.me.vr b) w i).toNat; if j < n then laneAt (s.me.vr a) w j else 0) ∧
    (plainField b = true → s.me.kept = none → ∃ t, exec (.vslideUp d a b k ew) s = .next t ∧ VecDone s t [] [d] [] ∧
      Lanes s t d k w fun i => let j := (sourceWord [b] [] s 0).toNat; if j ≤ i then laneAt (s.me.vr a) w (i - j) else 0) ∧
    (plainField b = true → s.me.kept = none → ∃ t, exec (.vslideDn d a b k ew) s = .next t ∧ VecDone s t [] [d] [] ∧
      Lanes s t d k w fun i => let j := (sourceWord [b] [] s 0).toNat; if i + j < n then laneAt (s.me.vr a) w (i + j) else 0) ∧
    (∃ t, exec (.vcompr d a k ew) s = .next t ∧ VecDone s t [] [d] [] ∧
      (∀ i, i < n → onLane s.me k i = true → laneAt (t.me.vr d) w (onBelow s.me k i) = laneAt (s.me.vr a) w i) ∧
      (∀ j, onBelow s.me k n ≤ j → j < n → laneAt (t.me.vr d) w j = 0)) ∧
    (∃ t, exec (.vexpnd d a k ew) s = .next t ∧ VecDone s t [] [d] [] ∧
      Lanes s t d 0 w fun i => if onLane s.me k i then laneAt (s.me.vr a) w (onBelow s.me k i) else 0) ∧
    (2 ≤ ew → ∃ t, exec (.vconf d a k ew) s = .next t ∧ VecDone s t [] [d] [] ∧
      ∀ i j, i < n → j < n → (laneAt (t.me.vr d) w i).getLsbD j =
        (onLane s.me k i && decide (j < i) && onLane s.me k j && laneAt (s.me.vr a) w j == laneAt (s.me.vr a) w i))

open Sys2Proof Sys2Proof.Machine in
/-- Each integer reduction whose destination is ready completes with the sum, extreme or bitwise function of the active
lanes, extended to 64 bits, or the operation's unit when no lane is active. Each floating reduction completes with the value
of the balanced binary tree of its pairwise operation over all lanes, an inactive lane entering as the operation's identity,
a created NaN named by the lowest lane of the right half. (R287, R288, R119) -/
def Obligations.VectorReductions : Prop :=
  (∀ p ∈ vecRed, ∀ (d a k ew : Nat) (s : State), ew < 4 → Ready [] [d] s →
    let w := 8 * 2 ^ ew
    exec (p.1 d a k ew) s = .next (doneWith 4 [] d (.ofWord (p.2 w
      (((List.range (512 / w)).filter (onLane s.me k)).map (laneAt (s.me.vr a) w)))) s)) ∧
  (∀ p ∈ vecRedFp, ∀ (d a k ew : Nat) (s : State), 1 ≤ ew → ew < 4 → Ready [] [d] s →
    let w := 8 * 2 ^ ew
    let m := fmtOf ew
    exec (p.1 d a k ew) s = .next (doneWith 4 [] d (.ofNat (pairTree
      (fun i x y => p.2.2 m (s.curCore, i) (m.read x) (m.read y))
      (fun i => if onLane s.me k i then (laneAt (s.me.vr a) w i).toNat else p.2.1 m) (6 - ew) 0)) s))

open Sys2Proof Sys2Proof.Machine in
/-- VCVT completes with each active lane of the narrower count converted, the lanes above it zero where the result is
narrower. VCVTT through a good table decodes each code, rounded to the lane, or encodes each lane as a code, with inactive
lanes as they were and the bytes past the codes zero; through a malformed table it takes cause 0x01 with TVAL the pointer. Of a table
in local memory it may first read 16-byte parts, any of them, which it then uses as it has read them. VISECT gives counts,
positions and match mask of R292. (R289, R290, R292, R124, R277, R125) -/
def Obligations.VectorConversions : Prop :=
  (∀ (d a k src dst : Nat) (s : State), src < 12 → dst < 12 → src ≠ dst →
    let ws := cvtWidth src
    let wd := cvtWidth dst
    ∃ t, exec (.vcvt d a k src dst) s = .next t ∧ VecDone s t [] [d] [] ∧ ∀ i, i < 512 / wd → laneAt (t.me.vr d) wd i =
      if 512 / max ws wd ≤ i then (if wd < ws then 0 else laneAt (s.me.vr d) wd i)
      else if onLane s.me k i then BitVec.ofNat wd (cvtLane src dst (laneAt (s.me.vr a) ws i).toNat) else laneAt (s.me.vr d) wd i) ∧
  (∀ (d a b k o : Nat) (t4 : Bool) (s : State), o < 3 → plainField b = true → s.me.kept = none →
    let p := (sourceWord [b] [] s 0).toNat
    let f := cvttFmt o
    let cw := if t4 then 4 else 8
    let u := (taken [b] [] s).2
    (∀ i ∈ [Instr.vcvttDec d a b k t4 o, .vcvttEnc d a b k t4 o],
      (partsAhead u p = [] → slotTable u t4 p = none → exec i s = .next (trapMe 0x01 p s)) ∧
      (partsAhead u p ≠ [] → ∃ t, exec i s = .next t ∧ t.me.pcc = s.me.pcc ∧ t.me.c = s.me.c ∧ (∀ r, t.me.vr r = s.me.vr r) ∧
        t.mem = s.mem ∧ ∀ j ∈ partsAhead u p, tablePart t j = some (localBytes u u.curCore u.curSlot (p / 64 % 2 ^ 12 * 64 + 16 * j) 16))) ∧
    ∀ tab, partsAhead u p = [] → slotTable u t4 p = some tab →
      (∃ t, exec (.vcvttDec d a b k t4 o) s = .next t ∧ VecDone s t [] [d] [] ∧
        Lanes s t d k f.width fun i => BitVec.ofNat _ (convert e8m10 f (tab.decode.getD (laneAt (s.me.vr a) cw i).toNat 0))) ∧
      (∃ t, exec (.vcvttEnc d a b k t4 o) s = .next t ∧ VecDone s t [] [d] [] ∧ ∀ i, i < 512 / cw → laneAt (t.me.vr d) cw i =
        if 512 / f.width ≤ i then 0 else if onLane s.me k i
        then BitVec.ofNat cw (encodeTable tab (2 ^ cw) (f.read (laneAt (s.me.vr a) f.width i).toNat))
        else laneAt (s.me.vr d) cw i)) ∧
  (∀ (d a b k : Nat) (s : State), k ≠ 0 → ∃ t, exec (.visect d a b k) s = .next t ∧ VecDone s t [] [d] [k] ∧
    let la (i : Nat) := (laneAt (s.me.vr a) 32 i).toNat
    let lb (i : Nat) := (laneAt (s.me.vr b) 32 i).toNat
    let m := min (la 15) (lb 15)
    let na := ((List.range 16).filter fun i => la i ≤ m).length
    let nb := ((List.range 16).filter fun i => lb i ≤ m).length
    MaskIs t k 16 (fun i => (List.range 16).any fun j => lb j == la i) ∧
    ∀ i, i < 16 → ∃ pos, laneAt (t.me.vr d) 32 i = BitVec.ofNat 32 (nb * 2 ^ 16 + na * 2 ^ 8 + pos) ∧
      (pos = 0x1F ∧ (∀ j, j < 16 → lb j ≠ la i) ∨ pos < 16 ∧ lb pos = la i ∧ ∀ j, j < pos → lb j ≠ la i))

namespace Sys2Proof.Machine

/-! ### Messages, threads, barriers, channels, tasks, compositions -/

/-- A send form: fields of destination and header, payload words, release, and the payload from the state after issue (R298). -/
structure SendForm where
  i : Instr
  a : Nat
  b : Nat
  n : Nat
  rx : Bool
  pay : State → Res (List Word)

def IsSend (f : SendForm) : Prop :=
  (∃ d a b n rx, f = ⟨.send d a b n rx, a, b, n, rx, fun t => .ok ((List.range n).map fun j => (t.me.cr (d + j)).word) t⟩) ∨
  (∃ d a b n rx, f = ⟨.sendv d a b n rx, a, b, n, rx, fun t => .ok ((List.range n).map fun j => laneAt (t.me.vr d) 64 j) t⟩) ∨
  (∃ d a b n rx, f = ⟨.sendb d a b n rx, a, b, n, rx, fun t => payloadBytes (t.me.cr d) n t⟩)

/-- A message as SEND hands it over (R297). -/
def SentBy (s : State) (m : Msg) (dst h : Nat) (l : List Word) : Prop :=
  m.sender = s.partyAt s.curCore s.curSlot ∧ m.srcCore = s.curCore ∧ m.srcSlot = s.curSlot ∧ m.tenant = s.me.tenant ∧ m.dst = dst ∧
  m.payload = l ∧ m.frame = none ∧ m.header.toNat % 2 ^ 16 = h % 2 ^ 16 ∧
  (l.length < 2 ^ 11 → s.curCore < 2 ^ 13 → m.header.toNat / 2 ^ 16 % 2 ^ 11 = l.length ∧ m.header.toNat / 2 ^ 27 % 2 ^ 13 = s.curCore) ∧
  m.peer = (if h.testBit 12 then some (h / 2 ^ 8 % 16) else none)

/-- A channel operation finds channel `x` in state `t` (R310, R311): its fields popped, its checks passed, an activation exposed, a
release performed, the header unpoisoned at its home on this device. -/
def Reaches (reads writes : List Nat) (release : Bool) (size : Nat) (s : State) (x : Chan) (t : State) : Prop :=
  let u := (taken reads writes s).2
  let va := vaOf (source reads writes s 0).cursor
  ∃ v t1 t2 src, inFlight (whoMe u) 3 va u = false ∧ chanCheck (whoMe u) (source reads writes s 0) size u = .ok v t1 ∧
    exposeMe t1 = .ok () t2 ∧
    locate (whoMe t1) va 0 true (drainLine (whoMe t1).core (whoMe t1).slot va (if release then drainMe t2 else t2)) = .ok src t ∧
    isLink src = false ∧ poisonAt t src va 64 = false ∧ toOwner t src = none ∧ x = chanHere src va t

end Sys2Proof.Machine

open Sys2Proof Sys2Proof.Machine in
/-- Every SEND, SENDV and SENDB whose fields are ready, whose destination and header pass and whose payload can be read: in an
unexposed activation with room the message joins the held messages; else the activation is exposed, earlier stores are
performed unless .rx, and the message enters the network, unless the previous one of the slot still awaits its grant: then the
slot waits with reason 0x10. A release to a peer device (header bit 12) first stays issued while a write of the context to a
host or peer is not acknowledged. The message names sender, core, tenant, destination, header and
payload as R297 says. (R297, R298, R300, R195, R295, R189) -/
def Obligations.MessageResults : Prop :=
  ∀ (f : SendForm) (s t : State) (dst : Nat) (l : List Word), IsSend f → Ready [f.a, f.b] [] s →
    let u := (taken [f.a, f.b] [] s).2
    let h := (sourceWord [f.a, f.b] [] s 1).toNat
    destOf u.curCore (source [f.a, f.b] [] s 0) = .ok dst → headerBad (mayStart s) h = false →
    f.pay u = .ok l t →
    ∃ m, SentBy t m dst h l ∧
      let room := t.me.heldMsgs.length < 16 ∧ heldBytes (t.me.heldMsgs ++ [m]) ≤ 1024
      (t.me.holds = .activation → t.me.exposed = false → room →
        exec f.i s = .next (complete 4 (t.modMe fun y => { y with heldMsgs := y.heldMsgs ++ [m] }))) ∧
      (¬ (t.me.holds = .activation ∧ t.me.exposed = false ∧ room) → ∀ e, exposeMe t = .ok () e →
        let v := if f.rx then e else drainMe e
        let late := !f.rx && h.testBit 12 && hostWritesOf v (v.agentAt v.curCore v.curSlot)
        (late = true → exec f.i s = .next (stallOp [f.a, f.b] [] s v)) ∧
        (late = false → awaitsGrant v v.curCore v.curSlot = none → exec f.i s = .next (complete 4 (netSend m v))) ∧
        (∀ g, late = false → awaitsGrant v v.curCore v.curSlot = some g →
          exec f.i s = .next (waitFor 1 0x10 false [grantParty g] (unpop s v))))

open Sys2Proof Sys2Proof.Machine in
/-- MDONE and C.MDONE in an activation whose commit buffer drains and whose held messages can leave free the slot, its held
messages in the network (where no tenant is absent); with nothing buffered, held or on its way that is so in every state, and
every byte of memory is as before for an activation of no task. Outside an activation they are illegal. MLEN gives header
bits [20:16], MSRC the sender's party id, both 0 in a thread. (R301, R97, R195, R316) -/
def Obligations.ActivationResults : Prop :=
  (∀ i ∈ [Instr.mdone, Instr.cMdone], ∀ s u v : State, s.me.holds = .activation →
    drainCommit s.curCore s.curSlot s = .ok () u → releaseHeld s.curCore s.curSlot u = .ok () v →
    ∃ t, exec i s = .next t ∧ (t.slot s.curCore s.curSlot).holds = .empty ∧ (t.slot s.curCore s.curSlot).commit = [] ∧
      (v.absent = [] → v.absentHeld = [] → ∀ m ∈ u.me.heldMsgs, m ∈ t.net)) ∧
  (∀ i ∈ [Instr.mdone, Instr.cMdone], ∀ s : State, s.me.holds = .activation → s.me.commit = [] → s.me.heldMsgs = [] →
    s.flights = [] → ∃ t, exec i s = .next t ∧ (t.slot s.curCore s.curSlot).holds = .empty ∧
      (s.me.task = none → t.mem = s.mem ∧ t.cdata = s.cdata)) ∧
  (∀ i ∈ [Instr.mdone, Instr.cMdone], ∀ s : State, s.me.holds ≠ .activation → exec i s = .next (trapMe 0x01 s.curWord s)) ∧
  (∀ (d : Nat) (s : State), Ready [] [d] s →
    exec (.mlen d) s = .next (doneWith 4 [] d
      (.ofNat (if s.me.holds = .activation then s.me.header.toNat / 2 ^ 16 % 32 else 0)) s) ∧
    exec (.msrc d) s = .next (doneWith 4 [] d (.ofNat (if s.me.holds = .activation then s.me.sender else 0)) s))

open Sys2Proof Sys2Proof.Machine in
/-- SPAWN and SPAWN.W with an executable entry and within both limits send a thread with entry, c0 to c3, domain, PRIO and
SPAWNLIM to the destination core, count it live and outstanding and give 0; past a limit SPAWN gives 1 or 2, SPAWN.W waits.
EXIT frees a thread's slot and no other; YIELD moves the pointer of its priority; KILL marks its targets, which become DEAD
when it applies, and a composed core whose context is parked is DEAD at once; PRIO, WAITC, WDECL and WCLR do as stated. (R302, R303, R304, R305, R309, R113, R341) -/
def Obligations.ThreadResults : Prop :=
  (∀ p ∈ ([(.spawn, false), (.spawnW, true)] : List ((Nat → Nat → Nat → Instr) × Bool)), ∀ (d a b dst : Nat) (s : State),
    Ready [a, b] [d] s →
    let u := (taken [a, b] [d] s).2
    let e := source [a, b] [d] s 1
    destOf u.curCore (source [a, b] [d] s 0) = .ok dst → isKeystone dst = false → capCheck e e.cursor 4 4 1 = none →
    (∀ e', exposeMe u = .ok () e' → spawnStatus u = 0 → let v := addLive e'.me.tenant 1 (drainMe e')
      ∃ m f, exec (p.1 d a b) s = .next (complete 4 (writeField d ⟨0, false⟩ (netSend m
        { v with nextUid := v.nextUid + 1, spawned := v.spawned ++ [(v.me.uid, v.nextUid, dst)] }))) ∧
      m.dst = dst ∧ m.header.toNat % 256 = 0xFE ∧ m.frame = some f ∧ f.pcc = e ∧ f.domain = s.me.domain ∧ f.prio = s.me.prio ∧
      f.spawnlim = s.me.spawnlim ∧ ∀ n, n < 4 → SMap.get Reg.zero f.c n = s.me.cr n) ∧
    (∀ e', exposeMe u = .ok () e' → spawnStatus u ≠ 0 → p.2 = false →
      exec (p.1 d a b) s = .next (complete 4 (writeField d (.ofNat (spawnStatus u)) e'))) ∧
    (spawnStatus u ≠ 0 → p.2 = true → u.me.spawnlim ≠ 0 →
      exec (p.1 d a b) s = .next (waitFor 1 0x11 false [spawnWait u (spawnStatus u)] (unpop s u)))) ∧
  (∀ s : State, s.me.holds ≠ .activation → ∃ t, exec .exit s = .next t ∧ (t.slot s.curCore s.curSlot).holds = .empty ∧
    ∀ c k, ¬ (c = s.curCore ∧ k = s.curSlot) → t.slot c k = s.slot c k) ∧
  (∀ s : State, s.me.holds = .activation → exec .exit s = .next (trapMe 0x01 s.curWord s)) ∧
  (∀ p ∈ ([(.yield, 4), (.cYield, 2)] : List (Instr × Nat)), ∀ s : State, ∃ t, exec p.1 s = .next t ∧ SlotKept s.me t.me [] ∧
    Moved s.me.pcc t.me.pcc (s.me.pc + p.2) ∧ SMap.get 6 (t.core s.curCore).rr s.me.prio = s.curSlot ∧ t.mem = s.mem) ∧
  (∀ (c k : Nat) (s : State), (s.slot c k).killPend = true → ((s.slot c k).holds = .thread ∨ (s.slot c k).holds = .activation) →
    ∃ t, exec (.killApply c k) s = .next t ∧ (t.slot c k).holds = .empty ∧ (t.slot c k).tomb = .dead) ∧
  (∀ (a : Nat) (s u : State), Ready [a] [] s → s.me.replies = [] → exposeMe (taken [a] [] s).2 = .ok () u →
    let p := (source [a] [] s 0).nat % 2 ^ 32
    let l := killTargets u p (some s.me.tenant)
    (l = [] → ∃ t, exec (.kill a) s = .next t ∧ Moved s.me.pcc t.me.pcc (s.me.pc + 4) ∧ t.me.c = s.me.c) ∧
    (l ≠ [] → (∀ c, pKind p = 6 → pWhere p = some c → ∀ q ∈ (u.core c).parked, q.slot.composed = false) →
      ∃ t, exec (.kill a) s = .next t ∧ t.me.pcc = s.me.pcc ∧ ∀ q ∈ l, (t.slot q.1 q.2).killPend = true) ∧
    (∀ c g q, pKind p = 6 → pWhere p = some c → (u.core c).comp = some g → g.lead = c → g.size = pIndex p → g.running = true →
      ((u.core c).parked.find? fun q => q.slot.composed) = some q → q.slot.tenant = u.me.tenant → ∃ t, exec (.kill a) s = .next t ∧
        Moved s.me.pcc t.me.pcc (s.me.pc + 4) ∧ (t.core c).comp = none ∧ (t.core c).parked = (u.core c).parked.erase q ∧
        (SMap.get (.none, 0) (t.core c).ctombs g.size).1 = .dead)) ∧
  (∀ (a : Nat) (s : State), Ready [a] [] s →
    let v := (source [a] [] s 0).nat
    exec (.prio a) s = .next (complete 4 ((taken [a] [] s).2.modMe fun y =>
      { y with prio := if s.curSlot = 6 then max 14 (v % 16) else v % 16 }))) ∧
  (∀ (n a : Nat) (s : State), Ready [a] [] s →
    let u := (taken [a] [] s).2
    let v := (source [a] [] s 0).nat % 2 ^ 32
    (v ≤ SMap.get 0 (u.core u.curCore).cnt n → exec (.waitc n a) s = .next (complete 4 u)) ∧
    (SMap.get 0 (u.core u.curCore).cnt n < v →
      exec (.waitc n a) s = .next (waitFor 1 0x05 false [serviceParty u.curCore] (unpop s u)))) ∧
  (∀ p ∈ ([(fun a _ => .wdeclOne a, 1), (.wdeclAll, 2), (.wdeclAny, 3)] : List ((Nat → Nat → Instr) × Nat)), ∀ (a n : Nat) (s : State),
    (p.2 = 1 → n = 1) → ∃ t, exec (p.1 a n) s = .next t ∧ OnlyMe s t ∧ Moved s.me.pcc t.me.pcc (s.me.pc + 4) ∧ t.me.c = s.me.c ∧
      t.me.wait.mode = p.2 ∧ t.me.wait.reason = 0x0F ∧ t.me.wait.count = n ∧
      t.me.wait.targets = (List.range n).map fun i => (s.me.cr (a + i)).nat % 2 ^ 32) ∧
  (∀ s : State, ∃ t, exec .wclr s = .next t ∧ OnlyMe s t ∧ Moved s.me.pcc t.me.pcc (s.me.pc + 4) ∧ t.me.c = s.me.c ∧ t.me.wait.mode = 0)

open Sys2Proof Sys2Proof.Machine in
/-- BARR by a member of its tenant's valid count-mode group that has not yet arrived in full completes and adds one arrival;
when that completes the generation the next one is current with no arrival (nothing pending or carried). One by a core that has
arrived in full, or that only the pending membership lists, is carried; in byte mode it adds no bytes. A refused arrival takes
cause 0x06. BARW, of any group (the model's reading, log 44), completes when the core's last arrival is past (counted in a generation that is complete) and else
waits with reason 0x06 on the group; BARAW arrives and then does the same. BARSET gives an undefined group its membership at
generation 0, a defined one its pending membership. (R306, R307, R308, R368) -/
def Obligations.BarrierResults : Prop :=
  (∀ (a : Nat) (s e : State), Ready [a] [] s → exposeMe (taken [a] [] s).2 = .ok () e →
    let u := drainMe e
    let g := (source [a] [] s 0).nat % 1024
    let x := u.group g
    let now (c : Nat) : Nat := SMap.get 0 x.arrived c + (if c = s.curCore then 1 else 0)
    (x.tenant = some s.me.tenant → x.valid = true → x.byteMode = false → SMap.has x.members s.curCore = true →
      SMap.get 0 x.arrived s.curCore < SMap.get 0 x.members s.curCore → x.pending = none → x.carried = [] →
      ∃ t, exec (.barr a) s = .next t ∧ SlotKept u.me t.me [] ∧ Moved s.me.pcc t.me.pcc (s.me.pc + 4) ∧ t.mem = u.mem ∧
        (t.group g).members = x.members ∧
        (if ∀ m ∈ x.members, m.2 ≤ now m.1
         then (t.group g).generation = (x.generation + 1) % 2 ^ 16 ∧ ∀ c, SMap.get 0 (t.group g).arrived c = 0
         else (t.group g).generation = x.generation ∧ ∀ c, SMap.get 0 (t.group g).arrived c = now c)) ∧
    let listed (l : SMap Nat) : Bool := SMap.has l s.curCore
    let pends := ∃ l n, x.pending = some (false, l, n) ∧ listed l = true
    (x.tenant = some s.me.tenant → x.valid = true → x.byteMode = false →
      (listed x.members = true ∧ SMap.get 0 x.members s.curCore ≤ SMap.get 0 x.arrived s.curCore ∨ listed x.members = false ∧ pends) →
      ∃ t, exec (.barr a) s = .next t ∧ Moved s.me.pcc t.me.pcc (s.me.pc + 4) ∧ (t.group g).generation = x.generation ∧
        (t.group g).arrived = x.arrived ∧ ∀ c, SMap.get 0 (t.group g).carried c =
          SMap.get 0 x.carried c + (if c = s.curCore then 1 else 0)) ∧
    (x.tenant = some s.me.tenant → x.valid = true → x.byteMode = true → x.bytes < x.target →
      ∃ t, exec (.barr a) s = .next t ∧ Moved s.me.pcc t.me.pcc (s.me.pc + 4) ∧ (t.group g).generation = x.generation ∧
        (t.group g).bytes = x.bytes ∧ (t.group g).lastOf s.curCore = .generation x.generation) ∧
    (x.tenant ≠ some s.me.tenant ∨ x.valid = false ∨ x.byteMode = false ∧ listed x.members = false ∧ ¬ pends →
      exec (.barr a) s = .next (serviceMe 0x06 (source [a] [] s 0).word.toNat 0 (unpop s u)))) ∧
  (∀ (a : Nat) (s : State), Ready [a] [] s → s.me.barGroup = none →
    let u := (taken [a] [] s).2
    let g := (source [a] [] s 0).nat % 1024
    let x := u.group g
    let what := x.lastOf u.curCore
    (x.past u.curCore what = true → ∃ t, exec (.barw a) s = .next t ∧ Moved s.me.pcc t.me.pcc (s.me.pc + 4) ∧ t.me.c = s.me.c ∧ t.groups = s.groups) ∧
    (x.past u.curCore what = false → ∃ t, exec (.barw a) s = .next t ∧ t.me.wait.mode = 2 ∧ t.me.wait.reason = 0x06 ∧
      t.me.wait.targets = [groupParty g] ∧ t.me.pcc = s.me.pcc)) ∧
  (∀ (a : Nat) (s e : State), Ready [a] [] s → s.me.barGroup = none → exposeMe (taken [a] [] s).2 = .ok () e →
    let u := drainMe e
    let g := (source [a] [] s 0).nat % 1024
    ((u.group g).tenant = some s.me.tenant → ∀ y, (u.group g).arrive s.curCore = some y →
      let what := y.lastOf s.curCore
      ∃ t, exec (.baraw a) s = .next t ∧ t.group g = (u.setGroup g y).group g ∧
        (y.past s.curCore what = true → Moved s.me.pcc t.me.pcc (s.me.pc + 4) ∧ t.me.c = s.me.c) ∧
        (y.past s.curCore what = false → t.me.wait.mode = 2 ∧ t.me.wait.reason = 0x06 ∧ t.me.wait.targets = [groupParty g] ∧ t.me.pcc = s.me.pcc))) ∧
  (∀ (a b : Nat) (s t1 t2 t3 t4 : State) (x : Group) (v1 v2 : Nat) (h1 h2 : Loaded) (m : Bool × SMap Nat × Nat), Ready [a, b] [] s →
    let u := (taken [a, b] [] s).2
    let r := source [a, b] [] s 1
    let g := (source [a, b] [] s 0).nat % 1024
    ownGroup g u = some x → memCheck (whoMe u) r r.cursor 8 1 8 1 u = .ok v1 t1 → loadAt (whoMe u) v1 8 0 0 t1 = .ok h1 t2 →
    let w0 := leNat (overlay (whoMe u) v1 h1 t2).bytes
    memCheck (whoMe u) r r.cursor (descriptorLen w0) 1 8 1 (trainMe v1 8 t2) = .ok v2 t3 →
    loadAt (whoMe u) v2 (descriptorLen w0) 0 0 t3 = .ok h2 t4 → membership w0 (overlay (whoMe u) v2 h2 t4).bytes = some m →
    exec (.barset a b) s = .next (complete 4 ((trainMe v2 (descriptorLen w0) t4).setGroup g (x.define m))) ∧
      (x.valid = false → (x.define m).generation = 0 ∧ (x.define m).valid = true ∧ (x.define m).byteMode = m.1 ∧
        (x.define m).members = m.2.1 ∧ (x.define m).target = m.2.2) ∧
      (x.valid = true → x.define m = { x with pending := some m }))

open Sys2Proof Sys2Proof.Machine in
/-- With the header found, unpoisoned, on this device: CHOPEN on a fresh header writes capacity, form and the lowest free
number and gives the channel's party id; CHPROD registers the caller; CHPUT by a registered producer with room writes the
entry and counts it, with none left waits with reason 0x08; CHGET takes the oldest entry and counts it, its caller recorded,
gives end of channel when every producer has ended, else waits with reason 0x07; CHEOS marks the caller's end; CHCLOSE sets the
closed bit. On a closed channel CHPROD, CHPUT, CHGET, CHEOS and CHCLOSE take cause 0x0C, as do CHPUT and CHEOS of an unregistered
producer and CHPUT of one that has ended. (R310, R311, R312, R313, R368) -/
def Obligations.ChannelResults : Prop :=
  (∀ (d a b n : Nat) (x : Chan) (s t : State), Ready [a, b] [d] s →
    let spec := (sourceWord [a, b] [d] s 1).toNat
    let cap := spec % 2 ^ 17
    Reaches [a, b] [d] false (64 + cap * (if spec.testBit 17 then 16 else 8)) s x t →
    1 ≤ cap → cap ≤ 65536 → x.info t = none → freeNumber t x.home = some n →
    ∃ v, exec (.chopen d a b) s = .next (complete 4 (writeField d (.ofNat (partyOf 3 x.home n)) v)) ∧
      v.mem = (writeAt x.src x.va (leBytes 8 (n * 2 ^ 32 + (if spec.testBit 17 then 2 ^ 17 else 0) + cap) ++ List.replicate 56 0) false t).mem ∧
      ∃ i, SMap.find (v.core x.home).chans n = some i ∧ i.isOpen = true ∧ i.va = x.va) ∧
  (∀ (a : Nat) (x : Chan) (s t : State), Ready [a] [] s → Reaches [a] [] false 64 s x t →
    let me := t.partyAt t.curCore t.curSlot
    (x.closed = true → exec (.chprod a) s = .next (trapMe 0x0C x.va (unpop s t)) ∧
      exec (.chclose a) s = .next (trapMe 0x0C x.va (unpop s t))) ∧
    (x.closed = false → (∃ p, x.producer me = some p) → exec (.chprod a) s = .next (complete 4 t)) ∧
    (x.closed = false → x.producer me = none → ∀ p, (List.range 8).find? (fun p => !x.registered p) = some p →
      exec (.chprod a) s = .next (complete 4 (x.note id (x.setWord 2 (setBits (x.word 2) p 1 1)
        (x.setWord (3 + p / 2) (setBits (x.word (3 + p / 2)) (p % 2 * 32) 32 me) t))))) ∧
    (x.closed = false → exec (.chclose a) s = .next (complete 4 (closeChan x t)))) ∧
  (∀ (a b p : Nat) (x : Chan) (s t : State), Ready [a, b] [] s → Reaches [a, b] [] true 64 s x t →
    (x.producer (t.partyAt t.curCore t.curSlot) = none ∨ x.closed = true ∨
        (∃ q, x.producer (t.partyAt t.curCore t.curSlot) = some q ∧ x.ended q = true) →
      exec (.chput a b) s = .next (trapMe 0x0C x.va (unpop s t))) ∧
    (x.producer (t.partyAt t.curCore t.curSlot) = some p → x.closed = false → x.ended p = false →
      (x.capacity ≤ x.entries → ∃ u g l, exec (.chput a b) s = .next (waitFor 1 0x08 g l u) ∧ u.mem = t.mem ∧ u.cdata = t.cdata) ∧
      (x.entries < x.capacity → ∀ va src t2, ringAt x x.puts true t = .ok (va, src) t2 → ∃ v,
        exec (.chput a b) s = .next (complete 4 (x.note id (x.setWord 1 v
          (writeAt src va (leBytes (if x.wide then 16 else 8) (source [a, b] [] s 1).nat) false t2)))) ∧
        v / 2 ^ 32 % 2 ^ 32 = (x.puts + 1) % 2 ^ 32 ∧ v % 2 ^ 32 = x.takes))) ∧
  (∀ (d g a : Nat) (x : Chan) (s t : State), Ready [a] [d, g] s → Reaches [a] [d, g] false 64 s x t →
    let me := t.partyAt t.curCore t.curSlot
    let n := if x.wide then 16 else 8
    (x.closed = true → exec (.chget d g a) s = .next (trapMe 0x0C x.va (unpop s t))) ∧
    (x.closed = false → x.entries ≠ 0 → ∀ va src t2, ringAt x x.takes false t = .ok (va, src) t2 → poisonAt t2 src va n = false → ∃ v r f,
      exec (.chget d g a) s = .next (complete 4 (writeField g ⟨0, false⟩ (writeField d (.ofNat (leNat (readAt t2 src va n)))
        (x.note f (x.setWord 1 v r))))) ∧ v % 2 ^ 32 = (x.takes + 1) % 2 ^ 32 ∧ v / 2 ^ 32 = x.word 1 / 2 ^ 32 ∧
      (r = x.setWord 7 me t2 ∨ r = t2 ∧ x.word 7 % 2 ^ 32 = me)) ∧
    (x.closed = false → x.entries = 0 → x.atEnd = true →
      exec (.chget d g a) s = .next (complete 4 (writeField g (.ofNat 1) (writeField d ⟨0, false⟩ (recordGet x me false t))))) ∧
    (x.closed = false → x.entries = 0 → x.atEnd = false → ∃ w, exec (.chget d g a) s = .next (waitFor 3 0x07 true [x.party] w))) ∧
  (∀ (a : Nat) (x : Chan) (s t : State), Ready [a] [] s → Reaches [a] [] true 64 s x t →
    let mine := x.producer (t.partyAt t.curCore t.curSlot)
    (mine = none ∨ x.closed = true → exec (.cheos a) s = .next (trapMe 0x0C x.va (unpop s t))) ∧
    ∀ p, mine = some p → x.closed = false →
      exec (.cheos a) s = .next (complete 4 (x.note id (x.setWord 2 (setBits (x.word 2) (8 + p) 1 1) t))))

open Sys2Proof Sys2Proof.Machine in
/-- TSUB with good range capabilities and a program's type enters a free entry, the lowest (the model's choice, log 72), and
gives the task's id, or 0 with none free. TREL releases its range and TDONE removes the task, each with the gate's waiting tasks tested again, and both are
illegal outside a task's activation. TRETRY in service mode sends a DEAD or STOPPED task again. COMPOSE over emptied members
makes the thread the composed core, else waits with reason 0x0D; COMPOSE_COMPLETE starts one whose slots have emptied;
DECOMPOSE reopens the members. COMPOSE and DECOMPOSE out of place take cause 0x15. (R314, R315, R316, R320, R321, R343) -/
def Obligations.TaskAndCompositionResults : Prop :=
  (∀ (d a b n home : Nat) (s t : State), let fields := b :: (List.range n).map fun i => a + i
    Ready fields [d] s → (taken fields [d] s).1.length = n + 1 →
    let op := (sourceWord fields [d] s 0).toNat
    let caps := (List.range n).map fun i => source fields [d] s (i + 1)
    (∀ i, i < n → let r := caps.getD i .zero; r.tag = true ∧ r.cursor < r.top ∧
      (if op.testBit (8 + i) then r.canWrite else r.canRead) = true) → op % 256 < 0xF0 → 1 ≤ n →
    taskHome (source fields [d] s 1).cursor (taken fields [d] s).2 = .ok home t → ∀ e', exposeMe t = .ok () e' →
    let u := drainMe e'
    (freeTask u (globalTile u.curCore) n = none → exec (.tsub d a b n) s = .next (complete 4 (writeField d ⟨0, false⟩ u))) ∧
    (∀ e, freeTask u (globalTile u.curCore) n = some e → exec (.tsub d a b n) s = .next (complete 4 (writeField d
      (.ofNat (taskParty (globalTile u.curCore) e)) (submit (globalTile u.curCore * 256 + e)
        (caps.zipIdx.map fun p => ⟨p.1.cursor, p.1.top, op.testBit (8 + p.2), none⟩) (op % 256) (op / 2 ^ 32 % 2 ^ 32) home u))))) ∧
  (∀ (id : Nat) (s e : State) (x : Task), s.me.holds = .activation → s.me.task = some id → exposeMe s = .ok () e →
    let u := drainMe e
    SMap.find u.tasks (taskIndex id) = some x →
    (∀ n, exec (.trel n) s = .next (complete 4 (recheckGate (taskIndex id / 256)
      { u with tasks := SMap.put u.tasks (taskIndex id) (x.release n u.taskOrder) }))) ∧
    ∃ t, exec .tdone s = .next t ∧ t.me.task = none ∧ Moved s.me.pcc t.me.pcc (s.me.pc + 4) ∧ t.me.c = s.me.c) ∧
  (∀ (n : Nat) (s : State), (s.me.holds ≠ .activation ∨ s.me.task = none) →
    exec (.trel n) s = .next (trapMe 0x01 s.curWord s) ∧ exec .tdone s = .next (trapMe 0x01 s.curWord s)) ∧
  (∀ (a : Nat) (s : State) (x : Task), s.me.mode = .service → Ready [a] [] s →
    let u := (taken [a] [] s).2
    let id := (source [a] [] s 0).nat % 2 ^ 32
    SMap.find u.tasks (taskIndex id) = some x → pKind id = 5 → id = taskParty (taskIndex id / 256) (taskIndex id % 256) →
    (x.st = .dead ∨ x.st = .stopped) → exec (.tretry a) s = .next (complete 4 (netSend (taskMsg (taskIndex id) x)
      { u with tasks := SMap.put u.tasks (taskIndex id) { x with st := .sent, wait := x.wait.clear } }))) ∧
  (∀ (n : Nat) (s : State), (composeBad s n = true → exec (.compose n) s = .next (trapMe 0x15 s.curWord s)) ∧
    (composeBad s n = false → ∃ t, exec (.compose n) s = .next t ∧
      (composeWaits s s.curCore s.curSlot n = [] ∨ s.me.wait.reason ≠ 0x0D →
        ∀ i, i < n → ∃ g, (t.core (s.curCore + i)).comp = some g ∧ g.lead = s.curCore ∧ g.slot = s.curSlot ∧ g.size = n ∧
        (g.running = true ↔ composeWaits s s.curCore s.curSlot n = [])) ∧
      (composeWaits s s.curCore s.curSlot n = [] → t.me.composed = true ∧ Moved s.me.pcc t.me.pcc (s.me.pc + 4)) ∧
      (composeWaits s s.curCore s.curSlot n ≠ [] → t.me.wait.mode = 2 ∧ t.me.wait.reason = 0x0D ∧
        t.me.wait.targets = [composedParty s.curCore n] ∧ t.me.pcc = s.me.pcc))) ∧
  (∀ (c k : Nat) (g : Comp) (s : State), (s.core c).comp = some g → g.lead = c → g.slot = k → g.running = false →
    (s.slot c k).wait.reason = 0x0D → (s.slot c k).halted = false → composeWaits s c k g.size = [] →
    ∃ t, exec (.composeComplete c k) s = .next t ∧ (t.slot c k).composed = true ∧
      Moved (s.slot c k).pcc (t.slot c k).pcc ((s.slot c k).pc + 4)) ∧
  (∀ s : State, (s.me.composed = false → exec .decompose s = .next (trapMe 0x15 s.curWord s)) ∧
    (s.me.composed = true → ∃ t, exec .decompose s = .next t ∧ t.me.composed = false ∧ Moved s.me.pcc t.me.pcc (s.me.pc + 4) ∧
      ∀ c g, (t.core c).comp = some g → g.lead ≠ s.curCore))

namespace Sys2Proof.Machine

/-! ### Copy engines -/

/-- Only the engine of the running core changes; its instruction completed and the registers but those named are as before. -/
def EngineDone (s t : State) (ds : List Nat) : Prop :=
  (∃ e, t = s.modEngMe fun _ => e) ∧ t.engMe.epc = (s.engMe.epc + 4) % 2 ^ 52 ∧ t.engMe.state = .running ∧
  t.engMe.wait.mode = 0 ∧ (∀ n, n ∉ ds → t.engMe.reg n = s.engMe.reg n) ∧ t.engMe.reach = s.engMe.reach ∧
  t.engMe.fetchCap = s.engMe.fetchCap ∧ t.engMe.group = s.engMe.group ∧ t.engMe.copy = s.engMe.copy

/-- The engine instructions that only write e[d]: their result from the engine's registers (R68, R69). -/
noncomputable def engineResults : List ((Nat → Nat → Nat → Instr) × ((Nat → Word) → Nat → Nat → Word)) :=
  [(.eadd, fun e a b => e a + e b), (.esub, fun e a b => e a - e b), (.eand, fun e a b => e a &&& e b),
   (.eshl, fun e a b => e a <<< b), (.eshr, fun e a b => e a >>> b)]

/-- A FAULTED engine with its stream where it was (R82). -/
def EngineStopped (s t : State) (c word : Nat) : Prop :=
  (t.eng c).state = .faulted ∧ (t.eng c).wait.mode = 1 ∧ (t.eng c).wait.reason = 0x12 ∧ (t.eng c).wait.targets = [serviceParty c] ∧
  (t.eng c).epc = (s.eng c).epc ∧ (∀ n, (t.eng c).reg n = (s.eng c).reg n) ∧
  (t.eng c).interrupts = (s.eng c).interrupts ++ [((s.eng c).kickUid, BitVec.ofNat 64 word)]

end Sys2Proof.Machine

open Sys2Proof Sys2Proof.Machine in
/-- ELI, EADD, EADDI, ESUB, EAND and the shifts write e[d] and move EPC by 4, nothing else changing; EB and EJ move EPC by
four times the offset where the branch is taken and by 4 otherwise; a queue form pops the oldest word or pushes at the end,
and waits with reason 0x01 or 0x02 on an empty or full queue; SEMW and SEMS count a semaphore down and up and wait with reason 0x0B at 0 and 65,535, SEMS
also while a write of the engine to a host or peer is not acknowledged; EWAIT waits for a counter with reason 0x05;
SCOUT sets its distance. (R62, R68, R69, R70, R71, R72, R73, R79) -/
def Obligations.EngineScalars : Prop :=
  (∀ p ∈ engineResults, ∀ (d a b : Nat) (s : State), ∃ t, exec (p.1 d a b) s = .next t ∧ EngineDone s t [d] ∧
    t.engMe.reg d = p.2 s.engMe.reg a b) ∧
  (∀ (d a : Nat) (imm : Int) (s : State), ∃ t, exec (.eaddi d a imm) s = .next t ∧ EngineDone s t [d] ∧
    t.engMe.reg d = s.engMe.reg a + BitVec.ofInt 64 imm) ∧
  (∀ (d imm hw : Nat) (k : Bool) (s : State), imm < 2 ^ 16 → hw < 4 → ∃ t, exec (.eli d imm hw k) s = .next t ∧ EngineDone s t [d] ∧
    ∀ i, i < 64 → (t.engMe.reg d).getLsbD i =
      if 16 * hw ≤ i ∧ i < 16 * hw + 16 then imm.testBit (i - 16 * hw) else (k && (s.engMe.reg d).getLsbD i)) ∧
  (∀ (cond a b : Nat) (off : Int) (s : State), cond < 3 → ∃ t, exec (.eb cond a b off) s = .next t ∧ (∃ e, t = s.modEngMe fun _ => e) ∧
    (∀ n, t.engMe.reg n = s.engMe.reg n) ∧ (t.engMe.epc : Int) =
      ((s.engMe.epc : Int) + (if (if cond = 0 then s.engMe.reg a == 0 else if cond = 1 then s.engMe.reg a != 0
        else (s.engMe.reg a).slt (s.engMe.reg b)) then 4 * off else 4)) % 2 ^ 52) ∧
  (∀ (off : Int) (s : State), ∃ t, exec (.ej off) s = .next t ∧ (∃ e, t = s.modEngMe fun _ => e) ∧
    (∀ n, t.engMe.reg n = s.engMe.reg n) ∧ (t.engMe.epc : Int) = ((s.engMe.epc : Int) + 4 * off) % 2 ^ 52) ∧
  (∀ (d q : Nat) (s : State), q < 8 →
    (∀ v l, (s.core s.curCore).queue q = v :: l → (s.core s.curCore).badWord (16 + q) 1 = false →
      ∃ t, exec (.eldQ d q) s = .next t ∧ t.engMe.reg d = v ∧
        (t.core s.curCore).queue q = l ∧ t.engMe.epc = (s.engMe.epc + 4) % 2 ^ 52 ∧ t.mem = s.mem) ∧
    ((s.core s.curCore).queue q = [] → ∃ t, exec (.eldQ d q) s = .next t ∧ t.engMe.state = .blocked ∧ t.engMe.wait.mode = 1 ∧
      t.engMe.wait.reason = 0x01 ∧ t.engMe.wait.targets = [anyParty s.curCore] ∧ t.engMe.epc = s.engMe.epc) ∧
    ((s.core s.curCore).load q < 8 → ∃ t, exec (.estQ d q) s = .next t ∧ t.engMe.epc = (s.engMe.epc + 4) % 2 ^ 52 ∧
      (t.core s.curCore).queue q = (s.core s.curCore).queue q ++ [s.engMe.reg d] ∧ t.mem = s.mem) ∧
    (8 ≤ (s.core s.curCore).load q → ∃ t, exec (.estQ d q) s = .next t ∧ t.engMe.state = .blocked ∧ t.engMe.wait.mode = 1 ∧
      t.engMe.wait.reason = 0x02 ∧ t.engMe.wait.targets = [anyParty s.curCore] ∧ t.engMe.epc = s.engMe.epc)) ∧
  (∀ (n : Nat) (s : State),
    (semOf s n ≠ 0 → ∃ t, exec (.semwEngine n) s = .next t ∧ semOf t n = semOf s n - 1 ∧ t.engMe.epc = (s.engMe.epc + 4) % 2 ^ 52) ∧
    (semOf s n = 0 → ∃ t, exec (.semwEngine n) s = .next t ∧ t.engMe.wait.reason = 0x0B ∧ t.engMe.epc = s.engMe.epc ∧ semOf t n = 0) ∧
    (semOf s n < 65535 → hostWritesOf (drainEngine s) (engineParty s.curCore) = false → ∃ t, exec (.semsEngine n) s = .next t ∧ semOf t n = semOf s n + 1 ∧ t.engMe.epc = (s.engMe.epc + 4) % 2 ^ 52) ∧
    (hostWritesOf (drainEngine s) (engineParty s.curCore) = true → ∃ t, exec (.semsEngine n) s = .next t ∧
      t.engMe.state = .blocked ∧ t.engMe.wait.mode = 1 ∧ t.engMe.wait.reason = 0x0B ∧ t.engMe.wait.targets = [anyParty s.curCore] ∧
      t.engMe.epc = s.engMe.epc ∧ semOf t n = semOf s n) ∧
    (65535 ≤ semOf s n → ∃ t, exec (.semsEngine n) s = .next t ∧ t.engMe.wait.reason = 0x0B ∧ t.engMe.epc = s.engMe.epc ∧ semOf t n = semOf s n)) ∧
  (∀ (n a : Nat) (s : State),
    ((s.engMe.reg a).toNat ≤ SMap.get 0 (s.core s.curCore).cnt n → ∃ t, exec (.ewait n a) s = .next t ∧ EngineDone s t []) ∧
    (SMap.get 0 (s.core s.curCore).cnt n < (s.engMe.reg a).toNat → ∃ t, exec (.ewait n a) s = .next t ∧ t.engMe.wait.reason = 0x05 ∧
      t.engMe.wait.targets = [serviceParty s.curCore] ∧ t.engMe.epc = s.engMe.epc)) ∧
  (∀ (n : Nat) (s : State), ∃ t, exec (.scout n) s = .next t ∧ EngineDone s t [] ∧ t.engMe.scout = n)

open Sys2Proof Sys2Proof.Machine in
/-- ELD and EST within reach and aligned load into e[d] and store from it, out of reach they stop with cause 0x04 or 0x05.
EFENCE completes when its scope's stores are performed, EDONE stores e[a] in the mailbox and makes the engine IDLE and
unbound once that store is performed, BARB binds, unbinds and adds arrivals. CEKICK on a small core, checked and not busy,
starts the stream with e1 the reach's cursor and the other registers 0, and waits while busy; CEKICK.r sets a FAULTED engine
running at its instruction; SEMW and SEMS of a slot count a semaphore. (R64, R65, R71, R74, R80, R81, R82, R318, R63, R86) -/
def Obligations.EngineAccesses : Prop :=
  (∀ (d a f : Nat) (imm : Int) (s t : State), f < 4 →
    let va := (s.engMe.reg a + BitVec.ofInt 64 imm).toNat
    let r := s.engMe.reach
    let inside := r.tag = true ∧ va < 2 ^ 52 ∧ r.base ≤ va ∧ va + 2 ^ f ≤ r.top ∧ va % 2 ^ f = 0
    (inside → r.nat.testBit 120 = true → ∀ x, engineLoad (whoEngine s s.curCore) va (2 ^ f) s = .ok x t → x.poison = none →
      exec (.eld d a f imm) s = .next (t.modEngMe fun e => e.next.setReg d (BitVec.ofNat 64 (leNat x.bytes)))) ∧
    (inside → r.nat.testBit 121 = true → engineStore (whoEngine s s.curCore) va 0 (leBytes (2 ^ f) (s.engMe.reg d).toNat) s = .ok () t →
      exec (.est d a f imm) s = .next (engNext t)) ∧
    (∀ w, (r.tag = false ∨ 2 ^ 52 ≤ va ∨ va < r.base ∨ r.top < va + 2 ^ f) →
      engineRecord s.curCore 0x04 va false 0 0 [] s = some (w, t) → exec (.eld d a f imm) s = .next (engineFaulted s.curCore w t)) ∧
    (∀ w, inside → r.nat.testBit 121 = false → badWindow (whoEngine s s.curCore) va (2 ^ f) s = false →
      engineRecord s.curCore 0x05 va true 0 0 [] s = some (w, t) → exec (.est d a f imm) s = .next (engineFaulted s.curCore w t))) ∧
  (∀ (x : Nat) (s : State), (x ≠ 4 ∨ hostWritesOf (drainScope s.curCore 16 (x + 1) s) (engineParty s.curCore) = false) →
    exec (.efence x) s = .next (engNext (drainScope s.curCore 16 (x + 1) s))) ∧
  (∀ (a : Nat) (s t : State), mailboxWritten s = false → eldCheck s s.engMe.mailbox 8 2 = none →
    let u := drainEngine s
    hostWritesOf u (engineParty s.curCore) = false →
    engineStore (whoEngine u u.curCore) s.engMe.mailbox 5 (leBytes 8 (s.engMe.reg a).toNat) u = .ok () t →
    let v := drainEngine t
    exec (.edone a) s = .next (if hostWritesOf v (engineParty s.curCore) = true
      then v.modEngMe fun e => { e with replies := [⟨e.mailbox, [], [], false, 0⟩] }
      else v.modEngMe fun e => { e.next with group := none, state := .idle })) ∧
  (∀ (a : Nat) (s : State), mailboxWritten s = true → hostWritesOf s (engineParty s.curCore) = false →
    exec (.edone a) s = .next (s.modEngMe fun e => { e.next with group := none, state := .idle })) ∧
  (∀ (a b : Nat) (s : State), let g := (s.engMe.reg a).toNat
    (g < 1024 → boundGroup s g = true → ∃ t, exec (.barbBind a) s = .next t ∧ t.engMe.group = some g ∧
      t.engMe.epc = (s.engMe.epc + 4) % 2 ^ 52) ∧
    (∃ t, exec .barbUnbind s = .next t ∧ t.engMe.group = none ∧ t.engMe.epc = (s.engMe.epc + 4) % 2 ^ 52) ∧
    (g < 1024 → boundGroup s g = true → hostWritesOf (drainEngine s) (engineParty s.curCore) = false → ∀ t, arriveBytes g s.engMe.tenant ((s.engMe.reg b).toNat % 2 ^ 32) (drainEngine s) = some t →
      exec (.barbAdd a b) s = .next (engNext t))) ∧
  (∀ (a b g : Nat) (s : State), isKeystone s.curCore = false → Ready [a, b, g] [] s →
    let u := (taken [a, b, g] [] s).2
    let entry := source [a, b, g] [] s 0
    let box := source [a, b, g] [] s 1
    let reach := source [a, b, g] [] s 2
    kickCheck entry box reach = none →
    (u.engMe.busy = false → ∀ v, exposeMe u = .ok () v → ∃ t, exec (.cekick a b g) s = .next t ∧ Moved s.me.pcc t.me.pcc (s.me.pc + 4) ∧ t.engMe.epc = entry.cursor ∧
      t.engMe.fetchCap = entry ∧ t.engMe.reach = reach ∧ t.engMe.mailbox = box.cursor ∧ t.engMe.state = .running ∧
      t.engMe.domain = s.me.domain ∧ t.engMe.tenant = s.me.tenant ∧ t.engMe.kicker = s.partyAt s.curCore s.curSlot ∧ t.engMe.copy = none ∧ t.engMe.group = none ∧ t.engMe.scout = 0 ∧
      ∀ n, t.engMe.reg n = if n = 1 then BitVec.ofNat 64 reach.cursor else 0) ∧
    (u.engMe.busy = true → exec (.cekick a b g) s = .next (waitFor 1 0x0B false [engineParty u.curCore] (unpop s u)))) ∧
  (∀ s v : State, isKeystone s.curCore = false → exposeMe s = .ok () v → ∃ t, exec .cekickR s = .next t ∧ Moved s.me.pcc t.me.pcc (s.me.pc + 4) ∧
    t.engMe.epc = s.engMe.epc ∧ (s.engMe.state = .faulted → t.engMe.state = .running) ∧
    (s.engMe.state ≠ .faulted → t.engMe.state = s.engMe.state) ∧ ∀ n, t.engMe.reg n = s.engMe.reg n) ∧
  (∀ s : State, isKeystone s.curCore = true → exec .cekickR s = .next (trapMe 0x01 s.curWord s)) ∧
  (∀ (n : Nat) (s : State),
    (semOf s n ≠ 0 → ∀ v, exposeMe s = .ok () v → ∃ t, exec (.semw n) s = .next t ∧ semOf t n = semOf s n - 1 ∧ Moved s.me.pcc t.me.pcc (s.me.pc + 4)) ∧
    (semOf s n = 0 → ∃ t, exec (.semw n) s = .next t ∧ t.me.wait.mode = 1 ∧ t.me.wait.reason = 0x0B ∧
      t.me.wait.targets = [engineParty s.curCore] ∧ t.me.pcc = s.me.pcc) ∧
    (semOf s n < 65535 → ∀ v, exposeMe s = .ok () v → ∃ t, exec (.sems n) s = .next t ∧ semOf t n = semOf s n + 1 ∧ Moved s.me.pcc t.me.pcc (s.me.pc + 4)) ∧
    (65535 ≤ semOf s n → ∃ t, exec (.sems n) s = .next t ∧ t.me.wait.reason = 0x0B ∧ t.me.pcc = s.me.pcc ∧ semOf t n = semOf s n))

namespace Sys2Proof.Machine

/-- The progress record of a copy that starts stands in local memory, where one is asked for (R85). -/
def Begun (s t : State) (a total pc : Nat) : Prop :=
  if a = 0 then t.mem = (drainEngine s).mem
  else ∃ off, progressAt s s.curCore a = some off ∧ t.mem = (physWrite (localKey s.curCore off)
    (([1, total, 0, 0, 0, 0, 0, pc] : List Nat).map (leBytes 8)).flatten false (drainEngine s)).mem

/-- A progress-record address that a copy may have. -/
def RecordOk (s : State) (a : Nat) : Prop :=
  a = 0 ∨ ∃ off, progressAt s s.curCore a = some off ∧ progressAt (drainEngine s) s.curCore a = some off

end Sys2Proof.Machine

open Sys2Proof Sys2Proof.Machine in
/-- BLK, GATH and SCAT whose total is not zero and which meet no cause start a copy of that total at byte 0, with its progress
record, once the stream's earlier accesses are performed; one of total zero completes at once (of GATH and SCAT the model's
reading, log 52). With fewer than 64 sectors in transfer SECTOR_ACCESS reads the index word of the element, or moves its next
bytes, at most a 64-byte granule of each side (the model's choice, log 19), or skips bytes that were done before a stop.
COPY_COMPLETE of a copy with every byte moved arrives, ends it and moves EPC by 4. COPY_STOP of a faulted one posts its record,
arrives, makes the engine FAULTED and raises the kicker's interrupt, as do an illegal engine word and a failing fetch, with EPC
as their address (log 108); the interrupt is taken as cause 0x0F. SCOUT_TRANSLATION translates the next page ahead, in an order
that is the model's choice (log 54). (R75, R76, R77, R78, R80, R81, R82, R84, R85, R86, R79, R67) -/
def Obligations.CopyResults : Prop :=
  (∀ (d a b x : Nat) (s : State),
    let e := s.engMe
    let rows := (e.reg b).toNat / 2 ^ 32
    let len := (e.reg b).toNat % 2 ^ 32
    let half (i : Nat) : Int := (BitVec.ofNat 32 ((e.reg (b + 1)).toNat / 2 ^ (32 * i))).toInt
    let se := extent (e.reg a).toNat rows len (half 0)
    let de := extent (e.reg d).toNat rows len (half 1)
    (rows * len = 0 → exec (.blk d a b x) s = .next (engNext s)) ∧
    (0 < rows * len → rows * len < 2 ^ 32 → e.reach.tag = true → RecordOk s (e.reg x).toNat →
      (∀ f ∈ [(se, 120), (de, 121)], 0 ≤ f.1.1 ∧ f.1.1 < 2 ^ 52 ∧ (e.reach.base : Int) ≤ f.1.1 ∧ f.1.2 ≤ (e.reach.top : Int) ∧
        e.reach.nat.testBit f.2 = true) →
      (se.2 ≤ de.1 ∨ de.2 ≤ se.1) → hostWritesOf (drainEngine s) (engineParty s.curCore) = false →
      ∃ t y, exec (.blk d a b x) s = .next t ∧ t.engMe.copy = some y ∧ y.kind = 0 ∧ y.src = (e.reg a).toNat ∧ y.dst = (e.reg d).toNat ∧
        y.total = rows * len ∧ y.rows = rows ∧ y.rowBytes = len ∧ y.sstride = half 0 ∧ y.dstride = half 1 ∧ y.pos = 0 ∧
        y.fault = none ∧ t.engMe.epc = e.epc ∧ Begun s t (e.reg x).toNat (rows * len) e.epc) ∧
    (∀ p ∈ ([(.gath, 1), (.scat, 2)] : List ((Nat → Nat → Nat → Nat → Instr) × Nat)),
      let list := (e.reg b).toNat % 2 ^ 52
      let n := (e.reg (b + 1)).toNat % 2 ^ 32
      let k := (e.reg (b + 1)).toNat / 2 ^ 32
      k ≤ 8 →
      (n = 0 → exec (p.1 d a b x) s = .next (engNext s)) ∧
      (0 < n → RecordOk s (e.reg x).toNat → e.reach.tag = true → e.reach.base ≤ list → list + 4 * n ≤ e.reach.top →
        e.reach.nat.testBit 120 = true → hostWritesOf (drainEngine s) (engineParty s.curCore) = false →
        ∃ t y, exec (p.1 d a b x) s = .next t ∧ t.engMe.copy = some y ∧ y.kind = p.2 ∧ y.src = (e.reg a).toNat ∧ y.dst = (e.reg d).toNat ∧
          y.list = list ∧ y.esize = 2 ^ k ∧ y.total = n * 2 ^ k ∧ y.pos = 0 ∧ t.engMe.epc = e.epc ∧
          (n * 2 ^ k < 2 ^ 32 → Begun s t (e.reg x).toNat (n * 2 ^ k) e.epc)))) ∧
  (∀ (c idx : Nat) (s : State) (x : Copy), (s.eng c).copy = some x → x.fault = none → x.pos < x.total → (s.eng c).state ≠ .faulted →
    (if x.kind = 0 then idx = 0 else x.word = some (x.pos / x.esize, idx)) →
    let u := { s with curCore := c }
    let w := whoEngine u c
    let at_ := x.addr idx x.pos
    let n := min (x.rest x.pos) (min (64 - at_.1 % 64) (64 - at_.2 % 64))
    inTransfer u c < 64 →
    (∀ f, elementCheck (s.eng c) x idx = some f → ∃ t, exec (.sectorAccess c) s = .next t ∧
      (t.eng c).copy = some { x with fault := some f } ∧ t.mem = s.mem) ∧
    (elementCheck (s.eng c) x idx = none → x.skips at_ = true → ∃ t y, exec (.sectorAccess c) s = .next t ∧ (t.eng c).copy = some y ∧
      y.pos = x.pos + n ∧ y.fault = none ∧ t.mem = s.mem ∧ t.cdata = s.cdata) ∧
    (elementCheck (s.eng c) x idx = none → x.skips at_ = false → ∀ rs t1 t2, bulkLoad w at_.1 n u = .ok rs t1 →
      let v := loadedOf rs
      bulkStore w at_.2 v.bytes t1 = .ok () t2 → ∃ t y, exec (.sectorAccess c) s = .next t ∧ (t.eng c).copy = some y ∧
        y.pos = x.pos + n ∧ y.fault = none ∧ y.total = x.total ∧ (t.eng c).state = .running ∧
        (v.poison = none → (∀ b ∈ v.tags, b = false) → let z := cleanGranule w (x.advance at_.2 n false) t2
          t.mem = z.mem ∧ t.cdata = z.cdata ∧ t.tags = z.tags ∧ t.poison = z.poison))) ∧
  (∀ (c : Nat) (s t1 : State) (x : Copy) (v : Loaded), (s.eng c).copy = some x → x.fault = none → x.pos < x.total →
    (s.eng c).state ≠ .faulted → x.kind ≠ 0 → (∀ p, x.word = some p → p.1 ≠ x.pos / x.esize) →
    let u := { s with curCore := c }
    inTransfer u c < 64 → engineLoad (whoEngine u c) (x.list + 4 * (x.pos / x.esize)) 4 u = .ok v t1 → v.poison = none →
    let y := { x with word := some (x.pos / x.esize, leNat v.bytes) }
    exec (.sectorAccess c) s = .next (copyPiece (leNat v.bytes) y (t1.modEngMe fun e => { e with copy := some y, replies := [] }))) ∧
  (∀ (c : Nat) (s : State) (x : Copy), (s.eng c).copy = some x → x.fault = none → x.total ≤ x.pos → (s.eng c).state ≠ .faulted →
    let u := drainAgent c 16 s
    hostWritesOf u (engineParty c) = false →
    ∃ t, exec (.copyComplete c) s = .next t ∧ (t.eng c).copy = none ∧ (t.eng c).state = .running ∧
      (t.eng c).epc = ((s.eng c).epc + 4) % 2 ^ 52 ∧ (∀ n, (t.eng c).reg n = (s.eng c).reg n) ∧
      ((s.eng c).group = none → t.groups = u.groups) ∧
      ∀ g v, (s.eng c).group = some g → arriveBytes g (s.eng c).tenant (x.total - x.arrived) u = some v → t.groups = v.groups) ∧
  (∀ (c cause va word : Nat) (write : Bool) (s : State) (x : Copy), (s.eng c).copy = some x → x.fault = some (cause, va, write) →
    x.spanAt ≤ x.pos → let u := drainAgent c 16 s
    (∀ total done marked, ∃ t1, engineRecord c cause va write total done marked u = some (word, t1)) →
    hostWritesOf u (engineParty c) = false →
    ∃ t y, exec (.copyStop c) s = .next t ∧ EngineStopped s t c word ∧ (t.eng c).copy = some y ∧ y.fault = none ∧ y.pos ≤ x.pos ∧
      y.total = x.total ∧ y.arrived = (if (s.eng c).group.isSome then max x.arrived y.done else x.arrived) ∧
      ((s.eng c).group = none → t.groups = u.groups) ∧
      ∀ g v, (s.eng c).group = some g → arriveBytes g (s.eng c).tenant (y.done - x.arrived) u = some v → t.groups = v.groups) ∧
  (∀ (w word : Nat) (s t : State), engineRecord s.curCore 0x06 s.engMe.epc false 0 0 [] s = some (word, t) →
    ∃ v, exec (.engineIllegalInstruction w) s = .next v ∧ EngineStopped s v s.curCore word) ∧
  (∀ (cause word : Nat) (s t : State), engineRecord s.curCore cause s.engMe.epc false 0 0 [] s = some (word, t) →
    ∃ v, exec (.engineFetchFault cause) s = .next v ∧ EngineStopped s v s.curCore word) ∧
  (∀ (c k : Nat) (p : Pend) (s : State), k < 7 → (s.slot c k).able = true → dueCause s c k = some p → p.cause = 0x0F →
    (∀ j, j < k → ¬ ((s.slot c j).able = true ∧ ∃ q, dueCause s c j = some q ∧ q.cause = 0x0F)) →
    (s.slot c k).tvec / 2 ≠ 0 → (s.slot c k).wait.reason ≠ 0x0D →
    ∃ t, exec (.engineInterrupt c) s = .next t ∧ (t.slot c k).tcause = 0x0F ∧ (t.slot c k).tval = p.tval ∧
      (t.slot c k).tpc = (s.slot c k).pc ∧ (t.slot c k).inTrap = true ∧ (t.slot c k).c = (s.slot c k).c) ∧
  (∀ (c page : Nat) (write : Bool) (s : State) (x : Copy), (s.eng c).copy = some x → (s.eng c).scout ≠ 0 →
    (s.eng c).state ≠ .faulted → x.pos < x.total →
    scoutNext s c x = some (page, write) →
    ∃ t bad, exec (.scoutTranslation c) s = .next t ∧ (t.eng c).scouted = (page, write, bad) :: (s.eng c).scouted ∧ (t.eng c).copy = some x)

namespace Sys2Proof.Machine

/-! ### Matrix units -/

/-- The sequencer of core `c` can start command `q` and complete it at once: nothing has started, nothing stops or delays the unit,
it needs no ramp, no store of it is on its way, and q4 has room. -/
def MxReady (s : State) (c : Nat) (q : Queued) : Prop :=
  (s.mx c).cur = none ∧ (∃ l, (s.mx c).queue = q :: l) ∧ mayStartCmd s c = true ∧ q.cancelled = false ∧ (s.mx c).offline = false ∧
  ((s.mx c).native = false ∨ (s.mx c).generation = (s.mx c).seen) ∧
  ((s.mx c).ramped = true ∨ s.clock ≤ (s.mx c).idleSince + 12000) ∧ s.flights = [] ∧ hostWritesOf s (seqParty c) = false ∧
  (s.core c).load 4 < 8

/-- A command of sequence `seq` has completed with a status: it is the last one done and its token is at the end of q4 (R139,
R163). -/
def MxDone (s t : State) (c op seq status detail : Nat) : Prop :=
  (t.mx c).cur = none ∧ (t.mx c).done = seq ∧ (t.mx c).token = none ∧
  (t.core c).queue 4 = (s.core c).queue 4 ++ [BitVec.ofNat 64 (detail * 2 ^ 48 + op * 2 ^ 40 + status * 2 ^ 32 + seq)]

/-- A command has started and sampled its tables, with status 0 and nothing of it done, needs no ramp, and can complete at once. -/
def MxRuns (s : State) (c : Nat) (x : Started) : Prop :=
  (s.mx c).cur = some x ∧ x.status = 0 ∧ x.detail = 0 ∧ x.steps = 0 ∧ x.waiting = false ∧ x.parts = [] ∧ x.scale = none ∧
  x.fault = none ∧ x.sampled = true ∧ (x.ramp = false ∨ (s.mx c).ramped = true) ∧ s.flights = [] ∧ hostWritesOf s (seqParty c) = false ∧ (s.core c).load 4 < 8

/-- A command that reads local memory may read some of its 16-byte parts before the others (R182): it keeps them, and goes on. Which
it reads first is left free (log 5); where it reads none first, or reads no local memory, `p` holds of the state after its turn. -/
def MxTurn (cmd : Cmd) (x : Started) (s t : State) (p : Prop) : Prop :=
  match (if cmd.readsLocal then Config.readsFirst s.tick else none) with
  | some l => t = setCur s.curCore { x with parts := l.foldl (readPart s s.curCore) [] } s
  | none => p

/-- A command whose access fails with a cause at `va`, nothing of its `n` bytes done: status 0x07, the cause as detail, and a
matrix-fault record (R163, R165, R378). -/
def MxFaults (s t : State) (c : Nat) (x : Started) (cause va n : Nat) : Prop :=
  ∃ u, MxDone s u c x.q.cmd.op x.q.seq 7 cause ∧ t = queueRecord (rec1 x.q.tenant (seqParty c) (cause * 256 + 7)
    [va, n % 2 ^ 32, x.q.seq + x.q.cmd.op * 2 ^ 32] s.clock) u

/-- Words 1 to 7 from `n` on are 0. -/
def restZero (cmd : Cmd) (n : Nat) : Prop := ∀ i, n ≤ i → i < 8 → cmd.word i = 0

/-- The accumulators and their poison marks are as before. -/
def AccKept (s t : State) (c : Nat) : Prop :=
  (t.mx c).acc0 = (s.mx c).acc0 ∧ (t.mx c).acc1 = (s.mx c).acc1 ∧ (t.mx c).poison0 = (s.mx c).poison0 ∧
  (t.mx c).poison1 = (s.mx c).poison1

/-- The rows of MX.LDA from row `i`: whether a poisoned granule was read, and the state after, with the granules of the poisoned
bytes marked; `none` where one does not go through (R173, R30). -/
def ldaRows (w : Who) (src len aoff ds : Nat) (ss : Int) : Nat → Nat → State → Option (Bool × State)
  | _, 0, s => some (false, s)
  | i, n + 1, s =>
    let a := ((src : Int) + i * ss).toNat
    match bulkLoad w a len s with
    | .ok rs u =>
      let k := localKey w.core (aoff + i * ds)
      let u := rs.foldl (fun u r => if r.poison then { u with
        poison := setMarks u.poison ((k + (r.va - a)) / 64) (touched 64 (k + (r.va - a)) r.bytes.length) true } else u)
        (physWrite k (loadedOf rs).bytes false u)
      (ldaRows w src len aoff ds ss (i + 1) n (u.modMx w.core fun m => { m with replies := [] })).map fun r =>
        (rs.any Reply.poison || r.1, r.2)
    | _ => none

/-- The rows of MX.STC from row `i`: the state after, `none` where one does not go through (R179). -/
def stcRows (w : Who) (dest stride : Nat) (row : Nat → List Byte) (p : Bool) : Nat → Nat → State → Option State
  | _, 0, s => some s
  | i, n + 1, s =>
    match mxStore w (dest + i * stride) (row i) p s with
    | .ok _ u => stcRows w dest stride row p (i + 1) n u
    | _ => none

end Sys2Proof.Machine

open Sys2Proof Sys2Proof.Machine in
/-- The oldest command of a unit that may start, with its words within their layout, completes in one turn with status 0 and
its token at the end of q4: NOP leaves the accumulators, MODE sets the mode and the seen generation, ZERO clears the named
accumulators and their poison, RING sets or drops the ring. (The opcode is one of those that read no local memory, as theirs
are.) NOP with a word that must be 0 completes with status 6 and the word's number; a cancelled one with status 5, one of an
offline unit with status 4. (R138, R139, R140, R160, R161, R163, R171, R172, R178, R181) -/
def Obligations.MatrixConfiguration : Prop :=
  (∀ (cmd : Cmd) (q : Queued) (s : State), MxReady s s.curCore q → cmd.readsLocal = false → restZero cmd 1 →
    let c := s.curCore
    let hi := cmd.word 0 / 256
    (hi = 0 → ∃ t, exec (.mxNop cmd) s = .next t ∧ MxDone s t c cmd.op q.seq 0 0 ∧ AccKept s t c ∧ t.mem = s.mem) ∧
    (hi < 2 → ∃ t, exec (.mxMode cmd) s = .next t ∧ MxDone s t c cmd.op q.seq 0 0 ∧ AccKept s t c ∧ t.mem = s.mem ∧
      (t.mx c).native = decide (hi = 1) ∧ (t.mx c).seen = (s.mx c).generation) ∧
    (1 ≤ hi → hi < 4 → ∃ t, exec (.mxZero cmd) s = .next t ∧ MxDone s t c cmd.op q.seq 0 0 ∧ t.mem = s.mem ∧
      (if hi % 2 = 1 then (∀ i j, accElem (t.mx c).acc0 i j = 0) ∧ (t.mx c).poison0 = false
        else (t.mx c).acc0 = (s.mx c).acc0 ∧ (t.mx c).poison0 = (s.mx c).poison0) ∧
      (if hi / 2 = 1 then (∀ i j, accElem (t.mx c).acc1 i j = 0) ∧ (t.mx c).poison1 = false
        else (t.mx c).acc1 = (s.mx c).acc1 ∧ (t.mx c).poison1 = (s.mx c).poison1))) ∧
  (∀ (cmd : Cmd) (q : Queued) (s : State), MxReady s s.curCore q → cmd.readsLocal = false → restZero cmd 2 →
    let c := s.curCore
    (cmd.word 0 / 256 = 0 → ringBad c cmd = false → ∃ t, exec (.mxRing cmd) s = .next t ∧ MxDone s t c cmd.op q.seq 0 0 ∧ AccKept s t c ∧
      (∃ r, (t.mx c).ring = some r ∧ r.size = cmd.word 1 % 2 ^ 7 ∧ r.pos = cmd.word 1 / 2 ^ 8 % 2 ^ 7 ∧
        r.keeper = cmd.word 1 / 2 ^ 16 % 2 ^ 7 ∧ r.succ = cmd.word 1 / 2 ^ 32 % 2 ^ 13 ∧ r.pred = cmd.word 1 / 2 ^ 48 % 2 ^ 13) ∧
      (t.mx c).back.full = false) ∧
    (cmd.word 0 / 256 = 1 → cmd.word 1 = 0 → ∃ t, exec (.mxRing cmd) s = .next t ∧ MxDone s t c cmd.op q.seq 0 0 ∧ (t.mx c).ring = none)) ∧
  (∀ (cmd : Cmd) (q : Queued) (s : State) (i : Nat), MxReady s s.curCore q → cmd.readsLocal = false → cmd.word 0 / 256 = 0 → 1 ≤ i → i < 8 →
    (∀ j, 1 ≤ j → j < i → cmd.word j = 0) → cmd.word i ≠ 0 →
    ∃ t, exec (.mxNop cmd) s = .next t ∧ MxDone s t s.curCore cmd.op q.seq 6 i ∧ AccKept s t s.curCore) ∧
  (∀ (cmd : Cmd) (q : Queued) (s : State) (status : Nat), let c := s.curCore
    (s.mx c).cur = none → (∃ l, (s.mx c).queue = q :: l) → mayStartCmd s c = true → s.flights = [] →
    hostWritesOf s (seqParty c) = false → (s.core c).load 4 < 8 →
    (q.cancelled = true ∧ status = 5 ∨ q.cancelled = false ∧ (s.mx c).offline = true ∧ status = 4) →
    ∃ t, exec (.mxNop cmd) s = .next t ∧ MxDone s t c cmd.op q.seq status 0 ∧ AccKept s t c)

open Sys2Proof Sys2Proof.Machine in
/-- A started command of status 0 whose accesses go through, and which reads no part of local memory in an earlier turn,
completes in one turn: LDA with the rows of memory in the core's TOB banks, status 1 and detail 5 where one was poisoned, the
granules of the bytes that came poisoned then marked (detail and marks are the model's reading, log 56); LDB with the front tile
decoded from its rows; SCX with the selected word at the end of q5; STC of scale modes 0 to 2 with its rows, and the scale byte
where one is asked for (in mode 0 it is 127, log 138), stored and the scale kept; FMAP with the 288 bytes of the fault map stored.
LDA, STC and FMAP out of their reach end with status 7, the cause as detail, and a record. (R165, R173, R174, R178, R179, R181,
R142, R161, R163) -/
def Obligations.MatrixLoadsStores : Prop :=
  (∀ (cmd : Cmd) (x : Started) (s u : State) (bad : Bool), MxRuns s s.curCore x → cmd.readsLocal = false →
    let c := s.curCore
    let n := cmd.count
    let src := cmd.word 1 % 2 ^ 52
    let len := cmd.word 2 % 2 ^ 32
    let ss : Int := (BitVec.ofNat 32 (cmd.word 2 / 2 ^ 32)).toInt
    let cause := reachCause x.q.reach (extent src n len ss) 1
    (cause = none →
      ldaRows (whoSeq c x.q) src len (cmd.word 3 % 2 ^ 18) (cmd.word 3 / 2 ^ 32 % 2 ^ 18) ss 0 n s = some (bad, u) →
      u.flights = [] → hostWritesOf u (seqParty c) = false →
      ∃ t, exec (.mxLda cmd) s = .next t ∧ MxDone s t c x.q.cmd.op x.q.seq (if bad then 1 else 0) (if bad then 5 else 0) ∧
        t.mem = u.mem ∧ t.poison = u.poison) ∧
    (∀ k, cause = some k → ∃ t, exec (.mxLda cmd) s = .next t ∧ MxFaults s t c x k src (n * len))) ∧
  (∀ (cmd : Cmd) (x : Started) (s : State), MxRuns s s.curCore x →
    let c := s.curCore
    let off := cmd.word 1 % 2 ^ 18
    let f := cmd.word 1 / 2 ^ 20 % 16
    let w := fmtWidth f
    let int := (cmd.word 0).testBit 9
    cmd.flag 0 = false → localPoison s c off (cmd.count * 4 * w) = false →
    ∃ t, exec (.mxLdb cmd) s = .next t ∧ MxTurn cmd x s t (
      MxDone s t c x.q.cmd.op x.q.seq 0 0 ∧ AccKept s t c ∧ (t.mx c).front.full = true ∧ (t.mx c).front.int = int ∧ (t.mx c).front.poison = false ∧
      (∀ k j, k < 32 → j < 32 → (t.mx c).front.elems.getD (32 * k + j) 0 = if k < cmd.count
        then decodeElem f int x.tabB x.ptrB (localElem s c (off + k * 4 * w) w j) else 0) ∧
      (∀ j, j < 32 → (t.mx c).front.scales.getD j 0 = 127))) ∧
  (∀ (cmd : Cmd) (x : Started) (s : State), MxRuns s s.curCore x → cmd.readsLocal = false → (s.core s.curCore).load 5 < 8 →
    let c := s.curCore
    let a := (s.mx c).acc cmd.acc
    let p := (s.mx c).poison cmd.acc
    let sel := cmd.word 1 % 4
    ∃ t w, exec (.mxScx cmd) s = .next t ∧ MxDone s t c x.q.cmd.op x.q.seq (if p then 1 else 0) (if p then 1 else 0) ∧ AccKept s t c ∧
      (t.core c).queue 5 = (s.core c).queue 5 ++ [w] ∧
      (sel = 0 → w.toNat = accElem a (cmd.word 1 / 2 ^ 8 % 32) (cmd.word 1 / 2 ^ 16 % 32)) ∧
      (sel = 1 → w = match accExp a 0 32 with | some e => BitVec.ofInt 64 e | none => 0x8000000000000000) ∧
      (sel = 2 → w = BitVec.ofNat 64 (s.mx c).lastScale)) ∧
  (∀ (cmd : Cmd) (x : Started) (s u v : State) (sc : Nat), MxRuns s s.curCore x →
    let c := s.curCore
    let w := whoSeq c x.q
    let a := (s.mx c).acc cmd.acc
    let p := (s.mx c).poison cmd.acc
    let dest : Nat := cmd.word 1 % 2 ^ 52
    let stride : Nat := cmd.word 2 % 2 ^ 32
    let first := cmd.word 2 / 2 ^ 32 % 32
    let ofmt := cmd.word 2 / 2 ^ 40 % 16
    let smode := cmd.word 2 / 2 ^ 48 % 4
    let sdest : Nat := cmd.word 3 % 2 ^ 52
    (smode = 0 ∧ sc = 127 ∨ smode = 1 ∧ sc = cmd.word 2 / 2 ^ 56 ∨
      smode = 2 ∧ ∃ tb, x.tabC = some tb ∧ sc = sharedScale tb (accExp a first cmd.count).toList) →
    let cause := reachCause x.q.reach (extent dest cmd.count (4 * outBits ofmt) stride) 2
    (cause = none → stcRows w dest stride (fun i => outRow ofmt x.tabC sc a (first + i)) p 0 cmd.count (mxRun c s) = some v →
      (if sdest = 0 then u = v else reachCause x.q.reach ((sdest : Int), (sdest : Int) + 1) 2 = none ∧
        mxStore w sdest [BitVec.ofNat 8 sc] p v = .ok () u) →
      u.flights = [] → hostWritesOf u (seqParty c) = false →
      ∃ t, exec (.mxStc cmd) s = .next t ∧ MxTurn cmd x s t (
        MxDone s t c x.q.cmd.op x.q.seq (if p then 1 else 0) (if p then 1 else 0) ∧
        t.mem = u.mem ∧ t.cdata = u.cdata ∧ (t.mx c).lastScale = if smode = 0 then (s.mx c).lastScale else sc)) ∧
    (∀ k, cause = some k → ∃ t, exec (.mxStc cmd) s = .next t ∧ MxTurn cmd x s t
      (MxFaults s t c x k dest (cmd.count * (4 * outBits ofmt) + if sdest = 0 then 0 else 1)))) ∧
  (∀ (cmd : Cmd) (x : Started) (s u : State), MxRuns s s.curCore x → cmd.readsLocal = false →
    let c := s.curCore
    let dest : Nat := cmd.word 1 % 2 ^ 52
    (reachCause x.q.reach ((dest : Int), (dest : Int) + 288) 2 = none →
      bulkStore (whoSeq c x.q) dest ((s.mx c).image.map (leBytes 8)).flatten s = .ok () u →
      u.flights = [] → hostWritesOf u (seqParty c) = false →
      ∃ t, exec (.mxFmap cmd) s = .next t ∧ MxDone s t c x.q.cmd.op x.q.seq 0 0 ∧ t.mem = u.mem ∧ t.cdata = u.cdata) ∧
    (∀ cause, reachCause x.q.reach ((dest : Int), (dest : Int) + 288) 2 = some cause →
      ∃ t, exec (.mxFmap cmd) s = .next t ∧ MxFaults s t c x cause dest 288))

open Sys2Proof Sys2Proof.Machine in
/-- A started MMA of status 0 over unpoisoned operands completes with the rows below its count having each group's products
added and the others as before, with status 0 where no residue check fails (log 94), unless it only reads some parts of its
operands first; in integer mode the sum is exact modulo 2^32. MMAR adds a tile's products, of parts read once, and then takes a rotation step, ROT
only the step; a step is over when the unit has sent and received, and until then the sequencer waits with reason 0x0A. RED
passes the running sum along the ring into the root's accumulator; SYNC completes for all when its last member has started
as many as the others. (R131, R133, R142, R143, R175, R176, R177, R180, R162, R153) -/
def Obligations.MatrixMultiply : Prop :=
  (∀ (cmd : Cmd) (x : Started) (s : State), MxRuns s s.curCore x →
    let c := s.curCore
    let m : MulCmd := ⟨cmd, cmd.count, cmd.flag 2⟩
    (s.mx c).poison cmd.acc = false → m.poisoned x 0 ((m.K + 31) / 32) s = false →
    ∃ t, exec (.mxMma cmd) s = .next t ∧ MxTurn cmd x s t (
      (t.mx c).cur = none ∧ (t.mx c).done = x.q.seq ∧
      (Config.residue s.tick = none → MxDone s t c x.q.cmd.op x.q.seq 0 0 ∧ t.mem = s.mem) ∧ ∀ i j, i < 32 → j < 32 →
      accElem ((t.mx c).acc cmd.acc) i j = (if i < m.rows
        then sumGroups (m.args x 0 s) c m.K 0 ((m.K + 3) / 4) i j (accElem ((s.mx c).acc cmd.acc) i j)
        else accElem ((s.mx c).acc cmd.acc) i j) % 2 ^ 32)) ∧
  (∀ (a : MulArgs) (core K i j acc : Nat), a.int = true → (∀ q, a.present q = true) → acc < 2 ^ 32 →
    (sumGroups a core K 0 ((K + 3) / 4) i j acc : Int) =
      ((acc : Int) + ((List.range K).map fun k => (BitVec.ofNat 32 (a.a i k)).toInt * (BitVec.ofNat 32 (a.b k j)).toInt).sum) % 2 ^ 32) ∧
  (∀ (cmd : Cmd) (x : Started) (r : Ring) (s : State), MxRuns s s.curCore x → cmd.readsLocal = false → (s.mx s.curCore).ring = some r →
    x.q.cmd.count = 1 →
    let c := s.curCore
    let v := rotateTry c (setCur c { x with waiting := true } s)
    ((v.mx c).ringDone = (s.mx c).ringDone + 1 → ∃ t, exec (.mxRot cmd) s = .next t ∧ MxDone s t c x.q.cmd.op x.q.seq 0 0 ∧
      (t.mx c).front = (v.mx c).front) ∧
    ((v.mx c).ringDone = (s.mx c).ringDone → ∃ t, exec (.mxRot cmd) s = .next t ∧ (t.mx c).wait.mode = 1 ∧ (t.mx c).wait.reason = 0x0A ∧
      (t.mx c).cur = some { x with waiting := true })) ∧
  (∀ (cmd : Cmd) (x : Started) (r : Ring) (s : State), MxRuns s s.curCore x → (s.mx s.curCore).ring = some r → cmd.count = 1 →
    let c := s.curCore
    let m : MulCmd := ⟨cmd, 32, false⟩
    let y := m.record x 0 1 s
    let z := y.overlay c s
    tileMismatch (s.mx c).front m.int = false → (s.mx c).poison cmd.acc = false → m.poisoned y 0 1 z = false →
    let v := rotateTry c (setCur c { (m.apply y 0 1 s).1 with waiting := true } (m.apply y 0 1 s).2)
    (Memory.wf s.mem → z.mem = s.mem) ∧
    ((v.mx c).ringDone = (s.mx c).ringDone + 1 →
    ∃ t, exec (.mxMmar cmd) s = .next t ∧ MxTurn cmd x s t (
      (t.mx c).cur = none ∧ (t.mx c).done = x.q.seq ∧
      (Config.residue s.tick = none → MxDone s t c x.q.cmd.op x.q.seq 0 0) ∧ ∀ i j, i < 32 → j < 32 →
      accElem ((t.mx c).acc cmd.acc) i j = (if i < m.rows
        then sumGroups (m.args y 0 z) c 32 0 8 i j (accElem ((s.mx c).acc cmd.acc) i j)
        else accElem ((s.mx c).acc cmd.acc) i j) % 2 ^ 32))) ∧
  (∀ (c : Nat) (r : Ring) (s : State), (s.mx c).ring = some r → (s.mx c).ringSent = (s.mx c).ringDone + 1 →
    (s.mx c).ringRecv = (s.mx c).ringDone + 1 → let t := rotateTry c s
    (t.mx c).front = (s.mx c).back ∧ (t.mx c).back.full = false ∧ (t.mx c).ringDone = (s.mx c).ringDone + 1) ∧
  (∀ (cmd : Cmd) (x : Started) (r : Ring) (s : State), MxRuns s s.curCore x → cmd.readsLocal = false → (s.mx s.curCore).ring = some r →
    0 < r.size →
    let c := s.curCore
    let n := cmd.acc
    let rel := (r.pos + r.size - cmd.word 1 % 2 ^ 7 % r.size) % r.size
    let mine : List Nat := (List.range 1024).map fun i => accElem ((s.mx c).acc n) (i / 32) (i % 32)
    (∀ q t, (s.mx c).poison n = false → sendPartial c q s = some t →
      (rel = 1 ∧ q = ⟨some mine, false⟩ ∨ rel ≠ 0 ∧ rel ≠ 1 ∧ ∃ p, partialIn s c r = some p ∧
        q = addPartial ((cmd.word 0).testBit 9) c p ((s.mx c).acc n) false false) →
      ∃ u, exec (.mxRed cmd) s = .next u ∧ MxDone s u c x.q.cmd.op x.q.seq 0 0 ∧ (u.mx c).redDone = (s.mx c).redDone + 1 ∧
        (r.succ ≠ c → (u.mx r.succ).redIn = some q)) ∧
    (rel = 0 → ∀ l p, (s.mx c).redIn = some ⟨some l, p⟩ → p = false → (s.mx c).poison n = false →
      ∃ u, exec (.mxRed cmd) s = .next u ∧ MxDone s u c x.q.cmd.op x.q.seq 0 0 ∧ (u.mx c).redIn = none ∧ ∀ i j, i < 32 → j < 32 →
        accElem ((u.mx c).acc n) i j = (if (cmd.word 0).testBit 9 then l.getD (32 * i + j) 0 + accElem ((s.mx c).acc n) i j
          else fpAdd fp32 (c, 0) (fp32.read (l.getD (32 * i + j) 0)) (fp32.read (accElem ((s.mx c).acc n) i j))) % 2 ^ 32) ∧
    (rel ≠ 1 → partialIn s c r = none → ∃ u, exec (.mxRed cmd) s = .next u ∧ (u.mx c).wait.reason = 0x0A ∧
      (u.mx c).wait.targets = [seqParty r.pred] ∧ (u.mx c).cur = some x)) ∧
  (∀ (cmd : Cmd) (x : Started) (r : Ring) (l : List Nat) (s : State), MxRuns s s.curCore x → cmd.readsLocal = false →
    (s.mx s.curCore).ring = some r → ringMembers s s.curCore = some l → s.curCore ∈ l → x.q.cmd.op = 0x0C →
    let c := s.curCore
    ((s.mx c).syncDone = true → ∃ t, exec (.mxSync cmd) s = .next t ∧ MxDone s t c x.q.cmd.op x.q.seq 0 0) ∧
    ((s.mx c).syncDone = false → (∀ d ∈ l, d ≠ c → inSync (s.mx d) = true ∧ (s.mx d).syncs = (s.mx c).syncs) → ∃ t, exec (.mxSync cmd) s = .next t ∧
      MxDone s t c x.q.cmd.op x.q.seq 0 0 ∧ ∀ d ∈ l, (t.mx d).syncDone = true) ∧
    ((s.mx c).syncDone = false → (∃ d ∈ l, d ≠ c ∧ (inSync (s.mx d) = false ∨ (s.mx d).syncs ≠ (s.mx c).syncs)) → ∃ t, exec (.mxSync cmd) s = .next t ∧
      (t.mx c).wait.reason = 0x0A ∧ (t.mx c).wait.targets = [seqParty r.pred] ∧ (t.mx c).cur = some { x with waiting := true }))

open Sys2Proof Sys2Proof.Machine in
/-- A token that waits goes to the end of q4 when there is room, and the sequencer waits for that without a record; a unit in
a rotation step goes on when it is over; the keeper gives every member the scale once all have reported; a scan slot takes a
unit, which starts no command; a pass moves the cured mark to the last command, a failure also keeps the revoked range, or
that it revoked none, and counts; a long-idle unit whose command has been sampled executes it after a ramp of 512 cycles, four of a
tile at a time. MXQ queues the command
under the next number, or waits with both entries full; MXWAIT completes at a number done; MXCURE completes at the mark,
traps with cause 0x0D in a revoked range and else waits with reason 0x0E. A geometry change reaches its context as cause
0x0E. (R138, R139, R143, R146, R151, R154, R156, R157, R159, R317, R369) -/
def Obligations.MatrixUnitEvents : Prop :=
  (∀ (c : Nat) (w : Word) (s : State), (s.mx c).token = some w →
    ((s.core c).load 4 < 8 → ∃ t, exec (.tokenPush c) s = .next t ∧ (t.mx c).token = none ∧
      (t.core c).queue 4 = (s.core c).queue 4 ++ [w] ∧ t.mem = s.mem) ∧
    (8 ≤ (s.core c).load 4 → ∃ t, exec (.tokenPush c) s = .next t ∧ (t.mx c).token = some w ∧ (t.mx c).wait.mode = 0 ∧
      t.core c = { s.core c with mx := t.mx c })) ∧
  (∀ (c : Nat) (x : Started) (s : State), (s.mx c).cur = some x → rotating s c = true →
    (((rotateTry c s).mx c).ringDone ≠ (s.mx c).ringDone → ∃ t, exec (.rotationStep c) s = .next t ∧
      (t.mx c).cur = some { x with steps := x.steps + 1, waiting := false } ∧ (t.mx c).front = ((rotateTry c s).mx c).front ∧
      (t.mx c).wait.mode = 0)) ∧
  (∀ (c : Nat) (l : List Nat) (x : Started) (tab : Table) (s : State), ringMembers s c = some l → (s.mx c).cur = some x →
    ringKeeper s c = c → (∀ d ∈ l, (s.mx d).report.isSome = true) → x.tabC = some tab → l.Nodup →
    ∃ t, exec (.scaleBroadcast c) s = .next t ∧ ∀ d ∈ l, (t.mx d).report = none ∧
      (t.mx d).shared = some (sharedScale tab (l.filterMap fun d => (s.mx d).report.getD none))) ∧
  (∀ (die c : Nat) (s : State), ((List.range 1536).filter fun i => (s.mx (die * 1536 + i)).scanning).length < 4 →
    (scanOrder s die).find? (fun d => wantsScan (s.mx d)) = some c → ∃ t, exec (.scanStart die) s = .next t ∧
      (t.mx c).scanning = true ∧ mayStartCmd t c = false ∧ (t.mx c).queue = (s.mx c).queue ∧ AccKept s t c) ∧
  (∀ (c : Nat) (cells : List (Nat × Nat)) (s : State), (s.mx c).scanning = true → (s.mx c).cur = none →
    (∃ t, exec (.scanPass c) s = .next t ∧ (t.mx c).mark = (s.mx c).done ∧ (t.mx c).scanning = false ∧
      (t.mx c).revoked = (s.mx c).revoked ∧ AccKept s t c) ∧
    (∃ t, exec (.scanFail c cells) s = .next t ∧ (t.mx c).mark = (s.mx c).done ∧ (t.mx c).scanning = false ∧ AccKept s t c ∧
      ((s.mx c).failures < 65535 → (t.mx c).failures = (s.mx c).failures + 1) ∧
      (t.mx c).revoked = ((if seqLe (s.mx c).done (s.mx c).mark then none else some ⟨nextSeq (s.mx c).mark, (s.mx c).done⟩) ::
        (s.mx c).revoked).take 4 ∧
      ((∀ p ∈ (s.mx c).spalled, p.1 < 34 ∧ p.2 < 33) →
        ∀ p, p ∈ (t.mx c).spalled ↔ p ∈ (s.mx c).spalled ∨ p ∈ cells ∧ p.1 < 34 ∧ p.2 < 33))) ∧
  (∀ (cmd : Cmd) (x : Started) (s : State), (s.mx s.curCore).cur = some x → x.fault = none → x.sampled = true → x.ramp = true →
    (s.mx s.curCore).ramped = false → cmd.readsLocal = false → exec (.mxNop cmd) s = .next (mxRun s.curCore s)) ∧
  (∀ (c : Nat) (s : State), let tile := (List.range 32).map fun i => c / 32 * 32 + i
    ((s.mx c).ramping = none → (tile.filter fun d => (s.mx d).ramping.isSome).length < 4 → tile.find? (wantsRamp s) = some c →
      ∃ t, exec (.ramp c) s = .next t ∧ (t.mx c).ramping = some s.clock ∧ (t.mx c).queue = (s.mx c).queue ∧ AccKept s t c) ∧
    (∀ b, (s.mx c).ramping = some b → b + 512 ≤ s.clock →
      ∃ t, exec (.ramp c) s = .next t ∧ (t.mx c).ramping = none ∧ (t.mx c).ramped = true ∧ (t.mx c).queue = (s.mx c).queue ∧
        AccKept s t c)) ∧
  (∀ (a b : Nat) (s : State), isKeystone s.curCore = false → Ready [b] [] s →
    let u := (taken [b] [] s).2
    let c := s.curCore
    let n := if (s.mx c).seq = 2 ^ 32 - 1 then 1 else (s.mx c).seq + 1
    ((s.mx c).queue.length < 2 → ∀ v, exposeMe u = .ok () v → ∃ t q, exec (.mxq a b) s = .next t ∧ Moved s.me.pcc t.me.pcc (s.me.pc + 4) ∧
      (t.mx c).queue = (s.mx c).queue ++ [q] ∧ (t.mx c).seq = n ∧ q.seq = n ∧ q.reach = source [b] [] s 0 ∧ q.tenant = s.me.tenant ∧
      q.domain = s.me.domain ∧ q.cancelled = false ∧ ∀ i, i < 8 → q.cmd.word i = (laneAt (s.me.vr a) 64 i).toNat) ∧
    (2 ≤ (s.mx c).queue.length → exec (.mxq a b) s = .next (waitFor 1 0x0A false [seqParty c] (unpop s u)))) ∧
  (∀ (a : Nat) (s : State), isKeystone s.curCore = false → Ready [a] [] s →
    let u := (taken [a] [] s).2
    let x := s.mx s.curCore
    let n := (source [a] [] s 0).nat % 2 ^ 32
    (n = 0 ∨ seqLe n x.seq = false → exec (.mxwait a) s = .next (trapMe 0x01 n s) ∧ exec (.mxcure a) s = .next (trapMe 0x01 n s)) ∧
    (n ≠ 0 → seqLe n x.seq = true →
      (seqLe n x.done = true → exec (.mxwait a) s = .next (complete 4 u)) ∧
      (seqLe n x.done = false → ∃ t, exec (.mxwait a) s = .next t ∧ t.me.wait.mode = 1 ∧ t.me.wait.reason = 0x0A ∧
        t.me.wait.targets = [seqParty s.curCore] ∧ t.me.pcc = s.me.pcc) ∧
      (∀ r, revokedBy x n = some r → exec (.mxcure a) s = .next (trapMe 0x0D (r.last * 2 ^ 32 + r.first) s)) ∧
      (revokedBy x n = none → seqLe n x.mark = true → exec (.mxcure a) s = .next (complete 4 u)) ∧
      (revokedBy x n = none → seqLe n x.mark = false → ∃ t, exec (.mxcure a) s = .next t ∧ t.me.wait.mode = 1 ∧
        t.me.wait.reason = 0x0E ∧ t.me.wait.targets = [serviceParty s.curCore] ∧ t.me.pcc = s.me.pcc))) ∧
  (∀ (c k : Nat) (p : Pend) (s : State), k < 7 → (s.slot c k).able = true → dueCause s c k = some p → p.cause = 0x0E →
    (∀ j, j < k → ¬ ((s.slot c j).able = true ∧ ∃ q, dueCause s c j = some q ∧ q.cause = 0x0E)) →
    (s.slot c k).tvec / 2 ≠ 0 → (s.slot c k).wait.reason ≠ 0x0D →
    ∃ t, exec (.geometryTrap c) s = .next t ∧ (t.slot c k).tcause = 0x0E ∧ (t.slot c k).tval = p.tval ∧
      (t.slot c k).tpc = (s.slot c k).pc ∧ (t.slot c k).inTrap = true ∧ (t.slot c k).c = (s.slot c k).c)

namespace Sys2Proof.Machine

/-! ### Control and status registers, service instructions -/

/-- What CSRR reads from the slot's and the core's registers (R112, R113, R89, R94, R95, R137). -/
def csrReads : List (Nat × (State → Nat)) :=
  [(0x001, fun s => s.me.prio), (0x002, fun s => s.me.tvec), (0x003, fun s => s.me.tcause), (0x004, fun s => s.me.tval.toNat),
   (0x005, fun s => s.me.tpc), (0x006, fun s => s.me.waitr.toNat), (0x008, fun s => s.curCore), (0x009, fun s => s.me.tenant),
   (0x00C, fun s => s.me.spawnlim), (0x110, fun s => SMap.get 0 (s.core s.curCore).cnt 0),
   (0x11F, fun s => SMap.get 0 (s.core s.curCore).cnt 15), (0x101, fun s => (s.core s.curCore).arrbase * 64)]

/-- The registers of a small core that keep a field of what is written, and the field (R111, R113, R137). -/
def csrFields : List (Nat × (Nat → Nat)) :=
  [(0x001, fun v => v % 2 ^ 4), (0x002, fun v => v % 2 ^ 52 / 2 * 2), (0x003, fun v => v % 2 ^ 8), (0x004, fun v => v % 2 ^ 64),
   (0x005, fun v => v % 2 ^ 52), (0x00C, fun v => v % 2 ^ 16), (0x200, fun v => v % 2 ^ 64), (0x201, fun v => v % 2 ^ 64),
   (0x202, fun v => v % 2 ^ 64), (0x203, fun v => v % 2 ^ 64), (0x204, fun v => v % 2 ^ 64)]

/-- The rows of the opcode table that are writes of one register: the event and the register's number. -/
noncomputable def csrRows : List ((Nat → Instr) × Nat) :=
  [(.bankroleWrite, 0x100), (.arrbaseWrite, 0x101), (.arrcapWrite, 0x102), (.statusWrite, 0x000), (.vtabWrite, 0x103),
   (.faultqWrite, 0x104), (.wdidleWrite, 0x105), (.ptwinWrite, 0x801)]

/-- The state from which a legal write of register `n` goes on: a register of core scope exposes an activation (R382). -/
def Writes (n : Nat) (u e : State) : Prop := if 0x100 ≤ n ∧ n < 0x800 then exposeMe u = .ok () e else e = u

end Sys2Proof.Machine

open Sys2Proof Sys2Proof.Machine in
/-- CSRR of a register that exists completes with its value, zero-extended, in the destination; a service register reads 0 in
user mode; a number that names no register takes cause 0x01. The slot's registers, the counters and ARRBASE read their
fields. A legal write completes with the new value's fields in the register, by CSRW the operand, by CSRSET the old value
with its bits set, by CSRCLR with them cleared; a write to a read-only register, to none, or of a service register in user
mode takes cause 0x01 and writes nothing. The register keeps the fields of R111 to R113, and CNT bits [31:0]. A write of a
core's register exposes an activation first. BANKROLE that must wait stays pending and stalls; a pending one takes effect
once, when no started command uses a bank that leaves TOB, and a bank leaving cache reads zero; then the write completes.
Each write row of the opcode table is that write. The model's own choices here: user-mode reads and writes of 0x802, 0x803 and
0x820 to 0x83F (log 48), what a BANKROLE change waits for (log 63), the value that CSRSET and CSRCLR of ARRCAP start from (log
65). (R111, R112, R113, R322, R33, R89, R90, R96) -/
def Obligations.CsrReadsAndWrites : Prop :=
  ((∀ (d csr v : Nat) (s : State), Ready [] [d] s → (csrValue csr s).isSome = true → csrValue csr (taken [] [d] s).2 = some v →
    exec (.csrr d csr) s = .next (doneWith 4 [] d (.ofNat v) s)) ∧
  (∀ (d csr : Nat) (s : State), csrValue csr s = none → exec (.csrr d csr) s = .next (trapMe 0x01 s.curWord s)) ∧
  (∀ p ∈ csrReads, ∀ s : State, csrValue p.1 s = some (p.2 s)) ∧
  (∀ (n : Nat) (s : State), n ∈ [0x800, 0x801, 0x802, 0x803, 0x820, 0x83F] → s.me.mode = .user → csrValue n s = some 0) ∧
  (∀ (n : Nat) (s : State), 0x00D ≤ n → n < 0x100 → csrValue n s = none)) ∧
  ((∀ p ∈ ([(.csrw, fun _ x => x), (.csrset, fun o x => o ||| x), (.csrclr, fun o x => o &&& (2 ^ 64 - 1 - x))] :
      List ((Nat → Nat → Instr) × (Nat → Nat → Nat))), ∀ (n a old : Nat) (s : State), csrValue n s = some old →
    ((csrReadOnly n = true ∨ 0x800 ≤ n ∧ s.me.mode = .user) → exec (p.1 n a) s = .next (trapMe 0x01 s.curWord s)) ∧
    (csrReadOnly n = false → (n < 0x800 ∨ s.me.mode ≠ .user) → Ready [a] [] s →
      let u := (taken [a] [] s).2
      let v := p.2 old (sourceWord [a] [] s 0).toNat
      (csrIllegal n v u = true → exec (p.1 n a) s = .next (trapMe 0x01 s.curWord s)) ∧
      (csrIllegal n v u = false → ∀ e, Writes n u e →
        (n ≠ 0x100 ∨ rolesDone e = false ∧ rolesWait (BitVec.ofNat 64 v) e = false → exec (p.1 n a) s = .next (complete 4 (csrWrite n v e))) ∧
        (n = 0x100 → rolesDone e = true → exec (p.1 n a) s = .next (complete 4 e))))) ∧
  (∀ p ∈ ([.csrw, .csrset, .csrclr] : List (Nat → Nat → Instr)), ∀ (n a : Nat) (s : State), csrValue n s = none →
    exec (p n a) s = .next (trapMe 0x01 s.curWord s)) ∧
  (∀ p ∈ csrFields, ∀ (v : Nat) (s : State), isKeystone s.curCore = false →
    csrValue p.1 (csrWrite p.1 v s) = some (p.2 v) ∧ (csrWrite p.1 v s).mem = s.mem ∧ (csrWrite p.1 v s).me.c = s.me.c ∧
    (csrWrite p.1 v s).me.pcc = s.me.pcc) ∧
  (∀ (n v : Nat) (s : State), n < 16 → csrValue (0x110 + n) (csrWrite (0x110 + n) v s) = some (v % 2 ^ 32)) ∧
  (∀ p ∈ csrRows, ∀ (v : Nat) (s : State),
    (csrIllegal p.2 v s = true → exec (p.1 v) s = .next (trapMe 0x01 s.curWord s)) ∧
    (csrIllegal p.2 v s = false → ∀ e, Writes p.2 s e → (p.2 ≠ 0x100 ∨ rolesDone e = false ∧ rolesWait (BitVec.ofNat 64 v) e = false) →
      exec (p.1 v) s = .next (complete 4 (csrWrite p.2 v e)))) ∧
  (∀ (n v : Nat) (s e : State), n < 16 → exposeMe s = .ok () e → exec (.cntWrite n v) s = .next (complete 4 (csrWrite (0x110 + n) v e))) ∧
  (∀ (v : Nat) (s e : State), csrIllegal 0x100 v s = false → exposeMe s = .ok () e →
    (rolesDone e = true → exec (.bankroleWrite v) s = .next (complete 4 e)) ∧
    (rolesDone e = false → rolesWait (BitVec.ofNat 64 v) e = true → (e.core s.curCore).rolePend = none →
      ∃ t, exec (.bankroleWrite v) s = .next t ∧ t.me.pcc = s.me.pcc ∧
        (t.core s.curCore).rolePend = some (s.curSlot, BitVec.ofNat 64 v) ∧ (t.core s.curCore).bankrole = (e.core s.curCore).bankrole)) ∧
  (∀ (c k b i : Nat) (v : Word) (s : State), (s.core c).rolePend = some (k, v) → tobBusy c v s = false →
    ∃ t, exec (.bankroleChange c) s = .next t ∧ (t.core c).bankrole = v ∧ (t.core c).rolePend = none ∧
      (b < 32 → (s.core c).bankrole.toNat / 4 ^ b % 4 = 1 → v.toNat / 4 ^ b % 4 ≠ 1 → i < 8192 →
        SMap.get 0 t.mem (localKey c (8192 * b) + i) = 0)))

open Sys2Proof Sys2Proof.Machine in
/-- Each of PINVAL, PLBINV, TSTOP, TRESUME, MXTEST and PKILL takes cause 0x01 in user mode. In service mode: PLBINV takes
exactly the matching rights out of every core's PLB; PINVAL leaves no PLB, placement-cache or walk-cache entry that meets its
range; each with no request on a link completes, and a waiting one completes when its range is clear. TSTOP makes its tiles
absent for the tenant and completes when every core has stopped, TRESUME ends that; MXTEST of a drained unit gives it the
self-test's map; PKILL ends an engine's stream or marks any tenant's context or request. A PLBINV that meets buffered stores of a
slot in a purged domain and region waits for them. That MXTEST of a number that is no small core takes
cause 0x01, and that the test replaces the whole fault map, is the model's choice (log 70). (R10, R44, R45, R46, R47, R325,
R388, R389, R390, R152) -/
def Obligations.ServiceResults : Prop :=
  (∀ (a b : Nat) (s : State), s.me.mode = .user →
    ∀ i ∈ [Instr.pinval a b, .plbinv a b, .tstop a, .tresume a, .mxtest a, .pkill a], exec i s = .next (trapMe 0x01 s.curWord s)) ∧
  (∀ (a b : Nat) (s : State), s.me.mode ≠ .user → invalOf s s.curCore s.curSlot = none → Ready [a, b] [] s → s.links = [] →
    s.flights = [] → (∀ c k, checkedBy s c k 0 (2 ^ 52) = false) →
    let x := (sourceWord [a, b] [] s 0).toNat
    let r := (sourceWord [a, b] [] s 1).toNat
    ∃ t, exec (.plbinv a b) s = .next t ∧ Moved s.me.pcc t.me.pcc (s.me.pc + 4) ∧
      ∀ c e, e ∈ (t.core c).plb ↔ e ∈ (s.core c).plb ∧
        ¬ ((x.testBit 8 = true ∨ e.1 = x % 256) ∧ (b = 29 ∨ e.2.1 = r / 2 ^ 29 % 2 ^ 23))) ∧
  (∀ (a b c k : Nat) (x : Core) (y : Slot) (w : Buffered) (s : State), s.me.mode ≠ .user → invalOf s s.curCore s.curSlot = none →
    Ready [a, b] [] s → s.links = [] → s.flights = [] → SMap.find s.cores c = some x → SMap.find x.slots k = some y → w ∈ y.commit →
    let d := (sourceWord [a, b] [] s 0).toNat
    let r := (sourceWord [a, b] [] s 1).toNat
    (d.testBit 8 = true ∨ y.domain = d % 256) → (if b = 29 then w.va < 2 ^ 52 else w.va / 2 ^ 29 = r / 2 ^ 29 % 2 ^ 23) →
    ∃ t, exec (.plbinv a b) s = .next t ∧ t.me.pcc = s.me.pcc ∧ invalOf t s.curCore s.curSlot ≠ none) ∧
  (∀ (a b : Nat) (s : State), s.me.mode ≠ .user → invalOf s s.curCore s.curSlot = none → Ready [a, b] [] s → s.links = [] →
    let lo := (source [a, b] [] s 0).cursor
    let len := (sourceWord [a, b] [] s 1).toNat
    (pinvalIllegal lo len = true → exec (.pinval a b) s = .next (trapMe 0x01 s.curWord s)) ∧
    (pinvalIllegal lo len = false → ∃ t, exec (.pinval a b) s = .next t ∧ Moved s.me.pcc t.me.pcc (s.me.pc + 4) ∧
      (∀ c, ∀ e ∈ (t.core c).plb, ¬ (e.2.1 * 2 ^ 29 < lo + len ∧ lo < (e.2.1 + 1) * 2 ^ 29)) ∧
      (∀ c, ∀ e ∈ (t.core c).pcache, ¬ (e.1 * 65536 < lo + len ∧ lo < (e.1 + 1) * 65536)) ∧
      ∀ die, ∀ e ∈ SMap.get [] t.walkCache die,
        let size := if e.1 / 2 ^ 40 = 0 then 2 ^ 42 else if e.1 / 2 ^ 40 = 1 then 2 ^ 29 else 2 ^ 16
        ¬ (e.1 % 2 ^ 40 * size < lo + len ∧ lo < (e.1 % 2 ^ 40 + 1) * size))) ∧
  (∀ (c k : Nat) (v : Inval) (s : State), invalOf s c k = some v → v.waits s = false →
    ∃ t, exec (.pinvalComplete c k) s = .next t ∧ Moved (s.slot c k).pcc (t.slot c k).pcc ((s.slot c k).pc + 4) ∧ invalOf t c k = none ∧
      (t.slot c k).c = (s.slot c k).c) ∧
  (∀ (a : Nat) (s : State), s.me.mode ≠ .user → stopOf s s.curCore s.curSlot = none → Ready [a] [] s →
    let x := (sourceWord [a] [] s 0).toNat
    let u := (taken [a] [] s).2
    ∃ t, exec (.tstop a) s = .next t ∧
      ∀ g ∈ stopTiles x ((u.cores.filter fun p => ownedBy p.2 (x % 256)).map fun p => p.1), (x % 256, g) ∈ t.absent) ∧
  (∀ (c k : Nat) (p : Stop) (s : State), stopOf s c k = some p → stopReady p s = true → (s.slot c k).mode ≠ .user →
    ∃ t, exec (.tstopComplete c k) s = .next t ∧ stopOf t c k = none ∧
      Moved (s.slot c k).pcc (t.slot c k).pcc ((s.slot c k).pc + 4)) ∧
  (∀ (a : Nat) (s : State), s.me.mode ≠ .user → Ready [a] [] s →
    let x := (sourceWord [a] [] s 0).toNat
    x.testBit 8 = false → x / 2 ^ 9 % 64 < 48 →
    ∃ t, exec (.tresume a) s = .next t ∧ (x % 256, x / 2 ^ 15 % 4 * 48 + x / 2 ^ 9 % 64) ∉ t.absent) ∧
  (∀ (a : Nat) (s : State), s.me.mode ≠ .user → Ready [a] [] s →
    let c := (sourceWord [a] [] s 0).toNat % 2 ^ 13
    (6144 ≤ c → exec (.mxtest a) s = .next (trapMe 0x01 s.curWord s)) ∧
    (c < 6144 → (s.mx c).cur = none → (s.mx c).scanning = false → ∃ t, exec (.mxtest a) s = .next t ∧
      Moved s.me.pcc t.me.pcc (s.me.pc + 4) ∧ (t.mx c).testing = false ∧
      ∀ p, p ∈ (t.mx c).spalled ↔ p ∈ Config.selfTest s.tick ∧ p.1 < 34 ∧ p.2 < 33) ∧
    (c < 6144 → ((s.mx c).cur ≠ none ∨ (s.mx c).scanning = true) → ∃ t, exec (.mxtest a) s = .next t ∧ t.me.pcc = s.me.pcc ∧
      (t.mx c).testing = true)) ∧
  (∀ (a : Nat) (s : State), s.me.mode ≠ .user → Ready [a] [] s → s.me.replies = [] →
    let p := (source [a] [] s 0).nat % 2 ^ 32
    (∀ c, c < 6144 → p = engineParty c → ∃ t, exec (.pkill a) s = .next t ∧ Moved s.me.pcc t.me.pcc (s.me.pc + 4) ∧
      (t.eng c).state = .idle ∧ (t.eng c).dead = true ∧ (t.eng c).copy = none) ∧
    (∀ link n, link < 32 → n < 4096 → p = hostParty link n → ∃ t, exec (.pkill a) s = .next t ∧
      Moved s.me.pcc t.me.pcc (s.me.pc + 4) ∧ n ∈ (t.link link).deadReq) ∧
    (pKind p = 0 → ∀ v, exposeMe (taken [a] [] s).2 = .ok () v → ∃ t, exec (.pkill a) s = .next t ∧
      ∀ q ∈ killTargets v p none, (t.slot q.1 q.2).killPend = true))

namespace Sys2Proof.Machine

/-! ### Events of the memory system -/

/-- A posted store on its way has been performed at its place and left the list, a granule that its instruction writes whole being
clean once no other part is on its way; a load has its reply (R30, R53, R92, R187). -/
def Arrived (s t : State) (f : Flight) : Prop :=
  (f.op = 1 →
    let v := f.arrives s
    let w := writeOver f.src f.va f.hint f.bytes f.tagged { v with flights := v.flights.erase f }
    t = if f.whole && !moreParts w f then setPoison f.src f.va 1 false w else w) ∧
  (f.op = 0 →
    let v := f.arrives s
    t = { v with flights := v.flights.map fun g => if g = f then { f with reply := some (takeAt v f.src f.va f.size) } else g })

end Sys2Proof.Machine

open Sys2Proof Sys2Proof.Machine in
/-- WALK keeps what it reads in the die's walk cache. PLACEMENT_CACHE_FILL and PLB_MISS put what they read first, of at most
128 and 64 entries, and nothing there where the walk faults or the entry is poisoned. SECTOR_FILL of a sector of an unlisted line
of a plain frame fills it from there, which copies the frame's 256 bytes to the home. MISS_WAY_RELEASE writes the dirty
sectors of the least recently used line to their frames, and the line leaves. A posted access that arrives at its home, at a
bank or in memory is performed there. The owner slot runs the oldest atomic of its queue. ACCESS_RESPONSE returns the oldest
value to its agent. SCRUB counts a correction of memory, and poisons a bad granule of a tier, or of the dirty copy of a
sector in its slice or bank, with a record; a clean copy leaves slice or bank; a thread whose state is bad becomes DEAD, and
a bad word of a queue or port is marked. The controller's window reads and writes physical memory, sends what lies in a host's or
peer's window over its link, and reports an error where nothing is addressed, poison where the peer is absent. The model's own
choices here: the newest 128 and 64 entries (logs 91, 92), the numbers of SCRUB and the words of its records (logs 15, 76), which
walk-cache entries stay (log 101), the link of a physical access to a peer (log 128). (R22, R29, R30, R37, R41, R50, R53, R54,
R60, R92, R192, R255) -/
def Obligations.MemoryEvents : Prop :=
  (∀ (die va : Nat) (s : State), s.flights = [] → ∃ t, exec (.walk die va) s = .next t ∧ t.cores = s.cores ∧
    (∀ d, d ≠ die → SMap.get [] t.walkCache d = SMap.get [] s.walkCache d) ∧
    ∀ e level a, (walk s die va 256).1 = .leaf e level a → SMap.find (SMap.get [] t.walkCache die) (walkKey level va) = some e) ∧
  (∀ (c va : Nat) (s : State),
    let tenant := (s.core c).vtabTenant
    let r := (walk s (coreDie c) va tenant).1
    let v := cacheWalk (coreDie c) va (walk s (coreDie c) va tenant).2 s
    (∀ e ∈ (s.core c).pcache, ¬ (e.1 = va / 65536 ∧ e.2.1 = tenant)) →
    (∀ f, r = .fault f → exec (.placementCacheFill c va) s = .next v ∧ (v.core c).pcache = (s.core c).pcache) ∧
    (∀ n, r = .poison n → exec (.placementCacheFill c va) s = .next v ∧ (v.core c).pcache = (s.core c).pcache) ∧
    ∀ e level a p, r = .leaf e level a → placementSet s tenant (pteSet e) = some p →
      ∃ t, exec (.placementCacheFill c va) s = .next t ∧
        (t.core c).pcache = ((va / 65536, tenant, p) :: (s.core c).pcache).take 128 ∧ ∀ d k, t.slot d k = s.slot d k) ∧
  (∀ (c dom va : Nat) (s : State),
    (∀ e ∈ (s.core c).plb, ¬ (e.1 = dom ∧ e.2.1 = va / 2 ^ 29 % 2 ^ 23)) →
    (rightsByte s dom va = none → exec (.plbMiss c dom va) s = .next (rightsFill dom va s) ∧
      ((rightsFill dom va s).core c).plb = (s.core c).plb) ∧
    ∀ b, rightsByte s dom va = some b → ∃ t, exec (.plbMiss c dom va) s = .next t ∧
      (t.core c).plb.head? = some (dom, va / 2 ^ 29 % 2 ^ 23, b) ∧ (t.core c).plb.length ≤ 64 ∧ ∀ d k, t.slot d k = s.slot d k) ∧
  (∀ (c va e level a : Nat) (s u : State) (l : List (Nat × Nat × Nat)), inWindow va = false → held s va = false →
    lineHeld s (whoCore s c) va = false → s.flights = [] → s.late = false → homeOf (whoCore s c) va s = .ok c u →
    (u.line c va).valid = [] → (va / 2 ^ 42 ≠ s.ptwinBase ∨ (u.line c va).walked = false) →
    walk u (coreDie c) va (s.core c).vtabTenant = (.leaf e level a, l) →
    pteMigrating e = false → pteLoc e < 2 → pteDiscard e = false → ((cacheWalk (coreDie c) va l u).line c va).valid = [] →
    exec (.sectorFill c va) s = .next (fillFrom c va (leafAddr e level va) 0 (cacheWalk (coreDie c) va l u))) ∧
  (∀ (c va pa : Nat) (s : State), s.Canonical → (s.line c va).valid = [] → fullSet s (globalTile c) (sliceSet va) = false →
    pa % 1024 = va % 1024 →
    let t := fillFrom c va pa 0 s
    cachedAt t c va = true ∧ t.mem = s.mem ∧
      bytesAt t.cdata (cacheKey c (va / 256 * 256)) 256 = bytesAt s.mem (pa / 256 * 256) 256) ∧
  (∀ (tile set k : Nat) (x : Line) (s : State), s.Canonical → (tile, set) ∈ s.missWait → 24 ≤ (setLines s tile set).length →
    s.lines.Pairwise (fun p q => p.1 < q.1) → oldest Line.stamp (setLines s tile set) = some (k, x) →
    x.valid ≠ [] → x.valid.Nodup → (∀ n ∈ x.valid, n < 4) →
    ∃ t, exec (.missWayRelease tile set) s = .next t ∧ t.missWait = s.missWait.erase (tile, set) ∧ SMap.find t.lines k = none ∧
      (∀ j, j ≠ k → SMap.find t.lines j = SMap.find s.lines j) ∧
      ∀ n ∈ x.valid, (n ∈ x.dirty ∨ n ∈ x.bankDirty) →
        bytesAt t.mem ((x.frame + (k % 2 ^ 42 * 1024 + 256 * n) / 256 * 256 % 1024)) 256 =
          bytesAt s.cdata (cacheKey (k / 2 ^ 42) (k % 2 ^ 42 * 1024 + 256 * n)) 256) ∧
  (∀ (i : Nat) (f : Flight) (s : State), s.flights[i]? = some f → f.reply = none → behindFlight s i f = false → f.op < 2 →
    lineTaken s f = false →
    (∀ h a, f.src = .cached h a → ∃ t, exec (.remoteWordAccess i) s = .next t ∧ Arrived s t f) ∧
    (∀ d off, f.src = .bank d off → ∃ t, exec (.bankWindowAccess i) s = .next t ∧ Arrived s t f) ∧
    (∀ h pa, f.src = .frame h pa → ∃ t, exec (.byStoreAck i) s = .next t ∧ Arrived s t f)) ∧
  (∀ (c : Nat) (f : Flight) (l : List Flight) (s : State), ownerQueue s c = f :: l → f.op = 2 →
    ((s.core c).ended = false ∨ ableSlots s c [] = []) → lineTaken s f = false →
    let v := f.arrives s
    let old := readAt v f.src f.va f.size
    let bad := poisonAt v f.src f.va f.size
    ∃ t, exec (.ownerSlotHandler c) s = .next t ∧ (t.core c).ended = true ∧
      t.flights = (v.flights.map fun g => if g = f then { f with reply := some ⟨f.va, old, [], bad, f.va⟩ } else g) ∧
      (∀ x, bad = false → amoNew f.amo f.size (leNat old) f.operand f.expected = some x →
        t.mem = (writeAt f.src f.va (leBytes f.size x) false v).mem ∧
        t.cdata = (writeAt f.src f.va (leBytes f.size x) false v).cdata) ∧
      (bad = true ∨ amoNew f.amo f.size (leNat old) f.operand f.expected = none → t.mem = v.mem ∧ t.cdata = v.cdata)) ∧
  (∀ (c k i : Nat) (f : Flight) (r : Reply) (s : State),
    s.flights.findIdx? (fun f => f.core == c && f.slot == k && f.reply.isSome) = some i → s.flights[i]? = some f → f.reply = some r →
    ∃ t, exec (.accessResponse c k) s = .next t ∧ t.flights = s.flights.eraseIdx i ∧ t.mem = s.mem ∧ t.cdata = s.cdata ∧
      repliesOf ⟨c, k, 0, 0, 0, 0, 0⟩ t = repliesOf ⟨c, k, 0, 0, 0, 0, 0⟩ s ++ [r]) ∧
  (∀ (g : Nat) (s : State), (2 ^ 46 ≤ g → exec (.scrub g false) s = .next s) ∧
    (g < 2 ^ 46 → ∃ t, exec (.scrub g false) s = .next t ∧ t = { s with wenlek := t.wenlek } ∧
      t.wenlek.corrected = s.wenlek.corrected + 1)) ∧
  (∀ (g : Nat) (s : State), s.Canonical → g < 2 ^ 46 → inTier s (g * 64) = true → ∃ t, exec (.scrub g true) s = .next t ∧
    SMap.get false t.poison g = true ∧ t.mem = s.mem ∧ t.wenlek.telemetry = s.wenlek.telemetry ++ [[0, g * 64]]) ∧
  (∀ (g : Nat) (s : State), s.Canonical → s.lines.Pairwise (fun p q => p.1 < q.1) → 2 ^ 46 ≤ g → g < 2 ^ 60 →
    let home := (g - 2 ^ 46) / 2 ^ 46
    let va := (g - 2 ^ 46) % 2 ^ 46 * 64
    cachedAt s home va = true → ∃ t, exec (.scrub g true) s = .next t ∧ t.mem = s.mem ∧
      (sectorOf va ∈ (s.line home va).dirty → t.cdata = s.cdata ∧ t.wenlek.telemetry = s.wenlek.telemetry ++ [[0, va]] ∧
        (sectorOf va ∉ (s.line home va).bankValid → SMap.get false t.cpoison (cacheKey home va / 64) = true)) ∧
      (sectorOf va ∉ (s.line home va).dirty → sectorOf va ∈ (s.line home va).bankDirty → t = s) ∧
      (sectorOf va ∉ (s.line home va).dirty → sectorOf va ∉ (s.line home va).bankDirty →
        (t.line home va).valid = (s.line home va).valid.erase (sectorOf va))) ∧
  (∀ (g : Nat) (s : State), 2 ^ 61 ≤ g →
    let home := (g - 2 ^ 61) / 2 ^ 46
    let va := (g - 2 ^ 61) % 2 ^ 46 * 64
    cachedAt s home va = true → ∃ t, exec (.scrub g true) s = .next t ∧ t.mem = s.mem ∧ t.cdata = s.cdata ∧
      (sectorOf va ∈ (s.line home va).bankDirty → SMap.get false t.cpoison (cacheKey home va / 64) = true ∧
        t.wenlek.telemetry = s.wenlek.telemetry ++ [[0, va]]) ∧
      (sectorOf va ∉ (s.line home va).bankDirty → sectorOf va ∈ (s.line home va).bankValid →
        (t.line home va).valid = (s.line home va).valid ∧
        (t.line home va).bankValid = (s.line home va).bankValid.erase (sectorOf va))) ∧
  (∀ (c q i : Nat) (s : State), c < 2 ^ 50 → q < 12 → i < 32 →
    i < (if q < 8 then (s.core c).queue q else (s.core c).port (q - 8)).length →
    ∃ t, exec (.scrub (2 ^ 60 + 2 ^ 32 + 512 * c + 32 * q + i) true) s = .next t ∧ t = { s with cores := t.cores } ∧
      (16 + q, i) ∈ (t.core c).qerr) ∧
  (∀ (c k : Nat) (s : State), c < 2 ^ 29 → k < 8 → (s.slot c k).holds = .thread → ∃ t, exec (.scrub (2 ^ 60 + 8 * c + k) true) s = .next t ∧
    (t.slot c k).holds = .empty ∧ (t.slot c k).tomb = .dead) ∧
  (∀ (a n : Nat) (data : Option (List Nat)) (s : State),
    let m := match data with | some l => l.length | none => n
    let bytes := (data.getD []).map fun b => BitVec.ofNat 8 b
    (physPlace s a m = none →
      (physAway s a m = none → ∃ t, exec (.wenlekWindowAccess a n data) s = .next t ∧ t = { s with wenlek := t.wenlek } ∧
        t.wenlek.reports = s.wenlek.reports ++ [[1, a]]) ∧
      (∀ d, physAway s a m = some (none, d) → ∃ t, exec (.wenlekWindowAccess a n data) s = .next t ∧
        t = { s with wenlek := t.wenlek } ∧ t.wenlek.reports = s.wenlek.reports ++ [[2, a]]) ∧
      ∀ link b u, physAway s a m = some (some link, b) →
        sendRequest link (mkRequest whoWenlek (if data.isSome then 2 else 1) b a m bytes 0 0 0 false false true) s = some u →
        exec (.wenlekWindowAccess a n data) s = .next u) ∧
    ∀ p, physPlace s a m = some p →
      (data = none → ∃ t, exec (.wenlekWindowAccess a n data) s = .next t ∧ t = { s with wenlek := t.wenlek } ∧
        t.wenlek.reports = s.wenlek.reports ++ [0 :: a :: (bytesAt s.mem p n).map BitVec.toNat]) ∧
      ∀ l, data = some l → ∃ t, exec (.wenlekWindowAccess a n data) s = .next t ∧
        t.mem = putBytes s.mem p (l.map fun b => BitVec.ofNat 8 b))

namespace Sys2Proof.Machine

/-! ### Messages on their way, dispatch, records -/

/-- A program message of tenant `t` that is not granted and names an entry of core `m.dst`'s table (R331). -/
def Arriving (s : State) (i : Nat) (m : Msg) (e : Entry) : Prop :=
  s.net[i]? = some m ∧ overtaken s i m = false ∧ m.peer = none ∧ m.frame = none ∧ m.granted = false ∧ m.header.toNat % 256 < 0xF0 ∧
  m.tenant < 256 ∧ tenantState s m.tenant ≠ 2 ∧ pKind m.sender ≠ 5 ∧ (s.core m.dst).vtabEnable = true ∧
  (s.core m.dst).vtabTenant = m.tenant ∧ entryThere s m.dst (s.core m.dst).vtabOffset (m.header.toNat % 256) = true ∧
  e = entryAt s m.dst (s.core m.dst).vtabOffset (m.header.toNat % 256) ∧ e.bad (domainCount s m.tenant) = false

/-- The record that parking posts (R378). -/
def parkRec (s : State) (c k : Nat) (q : ParkReq) : Rec :=
  rec1 (s.slot c k).tenant (s.partyAt c k) (q.flags + q.fetch.toNat * 512 + q.write.toNat * 256 + 1)
    (pageWords q.va q.ea q.size) s.clock

end Sys2Proof.Machine

open Sys2Proof Sys2Proof.Machine in
/-- MESSAGE_ARRIVAL of a message that another of its flow precedes waits. By an entry of mode activate with a free slot it
starts the activation: PCC the code capability at the entry's address, c12 the slot's stack, c13 and c15 the descriptor's,
every other register untagged zero, the entry's priority and domain, mi holding header and payload. By an entry of mode
deposit header and payload go to the counter's slot of the buffer and the counter counts. A refused message is answered,
entered in the list if it has room; one that fails is dropped. The sender's interface, holding no other message of the slot,
holds a refused one until its grant, or for 1,024 cycles, and sends it again first; a grant lets a refused owner operation
into its queue. A rolled-back activation's message is delivered again after its back-off, one held for a full absence buffer
tries again after 1,024 cycles. A message to a core of a peer device (header bit 12) leaves with header, payload and that core's
address as a packet of op 4 on the link that R412 chooses, and fails with reason 4 where the peer is absent; with every tag of the
link in use it stays. (R93, R330, R331, R332, R334, R337, R340, R384, R391, R300, R412) -/
def Obligations.MessageArrivals : Prop :=
  (∀ (i : Nat) (m : Msg) (s : State), s.net[i]? = some m → overtaken s i m = true → exec (.messageArrival i) s = .next s) ∧
  (∀ (i k : Nat) (m : Msg) (e : Entry) (s : State), Arriving s i m e → e.mode = 1 → descOk s m.tenant = true →
    openSlot s m.dst e.urgent = some k →
    ∃ t, exec (.messageArrival i) s = .next t ∧ t.net = s.net.eraseIdx i ∧ t.mem = s.mem ∧
      let z := t.slot m.dst k
      z.holds = .activation ∧ z.tenant = m.tenant ∧ z.urgent = e.urgent ∧ z.mode = .user ∧
      z.pcc = (descCap s m.tenant 4).withCursor (bits e.w0 1 51 * 2) ∧ z.cr 12 = slotStack s m.tenant m.dst k ∧
      z.cr 13 = descCap s m.tenant 6 ∧ z.cr 15 = descCap s m.tenant 8 ∧ (∀ n, n ≠ 12 → n ≠ 13 → n ≠ 15 → z.cr n = Reg.zero) ∧
      (∀ n, z.vr n = 0) ∧ z.prio = bits e.w1 0 4 ∧ z.domain = bits (descWord s m.tenant 10) (8 * bits e.w1 32 2) 8 ∧ z.spawnlim = 16 ∧
      z.header = m.header ∧ z.payload = m.payload ∧ z.sender = m.sender) ∧
  (∀ (i : Nat) (m : Msg) (e : Entry) (s : State), Arriving s i m e → e.mode = 2 →
    let n := bits e.w1 8 4
    let cnt := SMap.get 0 (s.core m.dst).cnt n
    let slot := bits e.w1 16 10 * 256 + cnt % 2 ^ bits e.w1 12 4 * 256
    scratch s m.dst slot 256 = true → ∃ t, exec (.messageArrival i) s = .next t ∧ t.net = s.net.eraseIdx i ∧
      SMap.get 0 (t.core m.dst).cnt n = (cnt + 1) % 2 ^ 32 ∧
      t.mem = putBytes s.mem (localKey m.dst slot) ((m.header.toNat :: m.payload.map BitVec.toNat).map (leBytes 8)).flatten) ∧
  (∀ (i : Nat) (m : Msg) (cls : RClass) (s u : State), s.net[i]? = some m → overtaken s i m = false → m.peer = none →
    arrive m { s with net := s.net.eraseIdx i } = .refuse cls u →
    ∃ t, exec (.messageArrival i) s = .next t ∧
      t.nacks = u.nacks ++ [⟨{ m with granted := false }, cls, decide ((u.core m.dst).resv.length < 64)⟩] ∧
      (t.core m.dst).resv = (if (u.core m.dst).resv.length < 64 then (u.core m.dst).resv ++ [⟨m.srcCore, m.srcSlot, cls⟩]
        else (u.core m.dst).resv)) ∧
  (∀ (i reason : Nat) (m : Msg) (s u : State), s.net[i]? = some m → overtaken s i m = false → m.peer = none →
    arrive m { s with net := s.net.eraseIdx i } = .fail reason u → exec (.messageArrival i) s = .next (failArrival reason m u)) ∧
  (∀ (i : Nat) (n : Nack) (s : State), s.nacks[i]? = some n →
    (∀ h ∈ s.held, ¬ (h.msg.srcCore = n.msg.srcCore ∧ h.msg.srcSlot = n.msg.srcSlot)) → ∃ t, exec (.negativeAcknowledgement i) s = .next t ∧
    t = { s with nacks := s.nacks.eraseIdx i, held := t.held } ∧
    t.held = s.held ++ [⟨n.msg, n.cls, if n.listed then none else some (s.clock + 1024)⟩]) ∧
  (∀ (i c : Nat) (r : Resv) (s : State), s.grants[i]? = some (c, r) → r.core < numCores →
    (∀ f, grantedFlight s c r = some f → exec (.grant i) s = .next (addFlight { f with refused := none }
      { s with grants := s.grants.eraseIdx i, flights := s.flights.erase f })) ∧
    ∀ j h, grantedFlight s c r = none → s.held[j]? = some h →
      s.held.findIdx? (fun h => grantedMsg c r h.msg h.cls && h.resendAt.isNone) = some j →
      exec (.grant i) s = .next { s with
        grants := s.grants.eraseIdx i, held := s.held.eraseIdx j, net := { h.msg with granted := true } :: s.net }) ∧
  (∀ (c k j : Nat) (h : Held) (s : State), s.held[j]? = some h →
    s.held.findIdx? (fun h => h.msg.srcCore == c && h.msg.srcSlot == k && h.resendAt.any fun t => decide (t ≤ s.clock)) = some j →
    exec (.refusalResend c k) s = .next { s with held := s.held.eraseIdx j, net := h.msg :: s.net }) ∧
  (∀ (c j : Nat) (p : Nat × Msg) (s : State), (s.core c).backoff[j]? = some p →
    (s.core c).backoff.findIdx? (fun p => decide (p.1 ≤ s.clock)) = some j →
    exec (.redelivery c) s = .next (deliver p.2 (s.modCore c fun x => { x with backoff := x.backoff.eraseIdx j }))) ∧
  (∀ (i due : Nat) (m : Msg) (s : State), s.absentHeld[i]? = some (due, m) →
    let behind := (s.absentHeld.take i).any fun h => sameFlow m h.2
    let gone := s.absent.contains (m.tenant, globalTile m.dst)
    let a := (absenceBuf s m.tenant).1
    let n := (absenceBuf s m.tenant).2
    (s.clock < due ∨ behind = true → exec (.absenceResend i) s = .next s) ∧
    (due ≤ s.clock → behind = false →
      (m.peer ≠ none ∨ gone = false ∨ tenantState s m.tenant = 2 →
        exec (.absenceResend i) s = .next { s with absentHeld := s.absentHeld.eraseIdx i, net := s.net ++ [m] }) ∧
      (m.peer = none → gone = true → tenantState s m.tenant ≠ 2 →
        (0 < n ∧ tableRead s a 8 - tableRead s (a + 8) 8 < n → exec (.absenceResend i) s =
          .next { absenceWrite m { s with absentHeld := s.absentHeld.take i } with absentHeld := s.absentHeld.eraseIdx i }) ∧
        (¬ (0 < n ∧ tableRead s a 8 - tableRead s (a + 8) 8 < n) →
          exec (.absenceResend i) s = .next { s with absentHeld := s.absentHeld.set i (s.clock + 1024, m) })))) ∧
  (∀ (i d : Nat) (m : Msg) (s : State), s.net[i]? = some m → overtaken s i m = false → m.peer = some d →
    (peerLink s d m.srcCore m.dst = none →
      exec (.messageArrival i) s = .next (failMsg 4 m { s with net := s.net.eraseIdx i })) ∧
    ∀ link, peerLink s d m.srcCore m.dst = some link →
      (freeTag (s.link link) = none → exec (.messageArrival i) s = .next s) ∧
      ∀ tag, freeTag (s.link link) = some tag → ∃ t r q, exec (.messageArrival i) s = .next t ∧ t.net = s.net.eraseIdx i ∧
        (t.link link).requests = (s.link link).requests ++ [r] ∧ r.op = 4 ∧ r.tag = tag ∧ r.msg = some m ∧
        (t.link link).outbound = (s.link link).outbound ++ [q] ∧ q.op = 4 ∧ q.tag = tag ∧ q.words = [m.header.toNat] ∧
        q.address = coreAddress m.dst ∧ q.data = (m.payload.flatMap fun w => leBytes 8 w.toNat).map BitVec.toNat)

open Sys2Proof Sys2Proof.Machine in
/-- SLOT_DISPATCH gives a free slot to the first reservation and sends its grant, or to the oldest arrival or the context
released first, which take turns, in turn where both wait; a migrated context takes the slot with the registers of its frame as memory holds it, its capabilities tagged only
where they are global. SERVICE_TRAP_DISPATCH places the first waiting frame that can be placed, then gives the keystone's
oldest frame to a free context in service mode: PCC from the entry block, c1 the cause, c2 the value, c12 the context's
stack, and the frame is marked dispatched. PARK_FRAME_WAIT parks a waiting context on the lines of a free frame and frees its
slot, and waits while none is free. FAULT_RECORD_POST posts the tenant's oldest waiting record once the ring takes it. Which of
the waiting frames is placed first is the model's choice (log 26), and that the first turn is an arrival's (log 131). (R96, R115, R336, R338, R371, R372, R374, R376, R378) -/
def Obligations.SlotDispatches : Prop :=
  (∀ (c k : Nat) (r : Resv) (s : State), returnComposed c s = none → freeSlot s c false = some k → firstResv s c false = some r →
    (waitingFor s c false = none ∨ (s.core c).turnBit = false) →
    ∃ t, exec (.slotDispatch c) s = .next t ∧ (t.slot c k).holds = .reserved ∧ (t.slot c k).resvFor = some r ∧
      t.grants = s.grants ++ [(c, r)] ∧ (t.core c).resv = (s.core c).resv.erase r ∧ t.mem = s.mem ∧
      (t.core c).turnBit = (waitingFor s c false).isSome) ∧
  (∀ (c k : Nat) (a : Arrival) (f0 : Frame) (b : List Byte) (s s1 : State), returnComposed c s = none → freeSlot s c false = some k →
    waitingFor s c false = some (.arrival a) → (firstResv s c false = none ∨ (s.core c).turnBit = true) →
    arrivalBytes c a (if (parkedReady s c false).isSome
      then (s.modCore c fun x => { x with turnBit := false }).modCore c fun x => { x with parkTurn := !x.parkTurn }
      else s.modCore c fun x => { x with turnBit := false }) = some (b, s1) →
    a.msg.frame = some f0 → a.msg.header.toNat % 256 ≠ 0xFE →
    ∃ t, exec (.slotDispatch c) s = .next t ∧ (t.core c).arrivals = (s1.core c).arrivals.erase a ∧ t.mem = s1.mem ∧
      let f := readMigration b f0
      let z := t.slot c k
      z.holds = .thread ∧ z.tenant = a.msg.tenant ∧ z.domain = f.domain ∧ z.prio = f.prio ∧ z.tvec = f.tvec ∧ z.spawnlim = f.spawnlim ∧
      z.inTrap = f.inTrap ∧ z.autoMig = f.autoMig ∧ z.pcc.raw = f.pcc.raw ∧ z.pcc.tag = (f.pcc.tag && f.pcc.isGlobal) ∧
      (∀ n, (z.cr n).raw = (SMap.get Reg.zero f.c n).raw ∧
        (z.cr n).tag = ((SMap.get Reg.zero f.c n).tag && (SMap.get Reg.zero f.c n).isGlobal)) ∧ ∀ n, z.vr n = 0) ∧
  (∀ (c k : Nat) (p : Parked) (s : State), returnComposed c s = none → freeSlot s c false = some k → waitingFor s c false = some (.parked p) →
    firstResv s c false = none →
    exec (.slotDispatch c) s = .next (takeParked c k p (if (arrivalReady s c false).isSome
      then (s.modCore c fun x => { x with turnBit := false }).modCore c fun x => { x with parkTurn := !x.parkTurn }
      else s.modCore c fun x => { x with turnBit := false }))) ∧
  (∀ (c k p : Nat) (o : Place) (s0 : State),
    let s := placeNext c s0
    isKeystone c = true → oldestFrame s c = some (p, o) → o.slot ≠ 0xFFFF → freeSlot s c false = some k →
    ∃ t, exec (.serviceTrapDispatch c) s0 = .next t ∧ t.mem = s.mem ∧ SMap.get o (t.core c).frames p = { o with dispatched := true } ∧
      let z := t.slot c k
      let block (off : Nat) : Reg :=
        ⟨BitVec.ofNat 128 (leNat (bytesAt s.mem (localKey c off) 16)), physTag s (localKey c off)⟩
      z.holds = .thread ∧ z.mode = .service ∧ z.origin = some p ∧ z.tenant = (s.slot o.core o.slot).tenant ∧ z.pcc = block 0 ∧
      z.cr 1 = Reg.ofNat (localWord s c (placeOff p + 0x180) % 256) ∧ z.cr 2 = Reg.ofNat (localWord s c (placeOff p + 0x188)) ∧
      z.cr 12 = block (0x10 + 16 * k) ∧
      (z.cr 0).tag = true ∧ (p < 32 → (z.cr 0).cursor = 0xFFFFFFFF00000 + placeOff p ∧ (z.cr 0).base = 0xFFFFFFFF00000 + placeOff p) ∧
      (z.cr 0).length = 512 ∧ z.domain = localWord s c 0x50 % 256 ∧ z.prio = localWord s c 0x50 / 256 % 16 ∧ ∀ n, z.vr n = 0) ∧
  (∀ (c k : Nat) (q : ParkReq) (s : State), (s.slot c k).parkWant = some q →
    (isKeystone c = true ∨ freePark s c (s.slot c k).tenant = none → exec (.parkFrameWait c k) s = .next s) ∧
    ∀ (lines : List Nat) (seq : Nat) (s1 s2 : State), isKeystone c = false → freePark s c (s.slot c k).tenant = some lines →
      (∀ r ∈ s.records, r.tenant ≠ (s.slot c k).tenant) → postNow (parkRec s c k q) s = some (seq, s1) →
      writeLines (whoSlot s c k) lines ((List.range 32).map fun i => (256 * i, ((fullFrame (s.partyAt c k) (s.slot c k) 1 seq
        (7 + q.flags / 2 ^ 15 % 2 * 2 ^ 10) q.va).drop (256 * i)).take 256)) s1 = some s2 →
      ∃ t, exec (.parkFrameWait c k) s = .next t ∧ (t.slot c k).holds = .empty ∧ (t.slot c k).tomb = .none ∧
        (t.core c).parked = (s2.core c).parked ++ [⟨lines.headD 0, false, lines, { s.slot c k with parkWant := none }⟩]) ∧
  (∀ (tenant q : Nat) (r : Rec) (s u : State), s.records.find? (fun r => r.tenant == tenant) = some r →
    (postNow r s = none → exec (.faultRecordPost tenant) s = .next s) ∧
    (postNow r s = some (q, u) → exec (.faultRecordPost tenant) s = .next { u with records := u.records.erase r }))

namespace Sys2Proof.Machine

/-! ### The wait-for graph -/

/-- An origin that is a thread slot of its own, not in a composition. -/
def PlainOrigin (s : State) (p c k : Nat) : Prop :=
  originSlot s p = some (c, k) ∧ (s.slot c k).composed = false ∧ (s.slot c k).wait.reason ≠ 0x0D

end Sys2Proof.Machine

open Sys2Proof Sys2Proof.Machine in
/-- A party in WAIT whose idle count has reached its threshold requests a probe and counts again, one that is not, or
earlier, does not. A probe finds a cycle where a party waits for itself, a dead end where it waits for one DEAD or STOPPED
party, and nothing where it does not wait. PROBE takes the oldest request and keeps a stuck result for CONFIRM, which marks
every node of an unchanged graph and drops the probe where one has changed; after 32,768 cycles it is abandoned.
FAULT_DELIVERY of an unchanged origin that no other probe has marked ends its wait and traps it to its vector with cause 0x0A
or 0x0B, a task becomes DEAD, and a changed or marked origin ends the probe. That a marked origin ends it (log 23), that a node's
state is compared beside its generation (log 77), and that a probe that ends in a debug report posts no record (log 125) are the
model's readings. (R353, R357, R358, R359, R360, R361, R362, R363)
-/
def Obligations.WaitGraphResults : Prop :=
  (∀ (p c k : Nat) (s : State), originSlot s p = some (c, k) →
    ((inWait s p = false ∨ s.clock < (s.slot c k).waitSince + 2 ^ (s.core c).wdExp) → exec (.probeRequest p) s = .next s) ∧
    (inWait s p = true → (s.slot c k).waitSince + 2 ^ (s.core c).wdExp ≤ s.clock →
      isAccused s p (readNode s p 0).gen = false → s.stops.any (fun q => q.tenant == (s.slot c k).tenant) = false →
      (s.core c).wdOff = false →
      ∃ t, exec (.probeRequest p) s = .next t ∧ t.probeReq = s.probeReq ++ [p] ∧ (t.slot c k).waitSince = s.clock ∧ t.mem = s.mem)) ∧
  (∀ (s : State) (dead : Bool) (p q : Nat),
    let n := canonical s p
    let r := readNode s n 0
    (r.st = 0 → (exploreFrom s dead p).1 = 0) ∧
    (r.st = 1 → r.targets = [p] → (exploreFrom s dead p).1 = 1) ∧
    (r.st = 1 → r.targets = [q] → canonical s q ≠ n →
      (readNode s (canonical s q) r.reason).st = 2 ∨ (readNode s (canonical s q) r.reason).st = 3 → (exploreFrom s dead p).1 = 2)) ∧
  (∀ (p : Nat) (s : State), (s.probeReq.find? fun q => pDie q == pDie p) = some p → running s (pDie p) < 16 →
    let u := { s with probeReq := s.probeReq.erase p }
    let r := exploreFrom u false p
    (∀ o, originOf u p = some o → r.1 = 1 ∨ r.1 = 2 →
      ∃ t x, exec (.probe p) s = .next t ∧ t.probeReq = s.probeReq.erase p ∧ t.probes = s.probes ++ [x] ∧ x.origin = p ∧
        x.tenant = o.2.1 ∧ x.result = r.1 ∧ x.visits = r.2.2.visits ∧ x.chain = chainOf r.2.1 r.2.2 ∧ x.start = s.clock ∧ x.stage = 0 ∧ x.mark = s.tick ∧
        x.nodes = r.2.2.seen.map fun e => (e.1, e.2.1)) ∧
    (originOf u p = none → exec (.probe p) s = .next u) ∧
    (∀ o, originOf u p = some o → r.1 = 0 ∨ r.1 = 3 → ∃ t, exec (.probe p) s = .next t ∧ t.probes = s.probes ∧
      t.probeReq = s.probeReq.erase p ∧
      ((exploreFrom u true p).1 = 1 ∨ (exploreFrom u true p).1 = 2 → t.records = s.records ∧ t.mem = s.mem))) ∧
  (∀ (p : Nat) (x : Probe) (s : State), (s.probes.find? fun x => x.origin == p && x.stage == 0) = some x → s.clock ≤ x.start + 32768 →
    let same (n : Nat × Nat × Nat × Nat) : Prop := let r := readNode s n.1 n.2.1
      r.gen = n.2.2.1 ∧ r.st = n.2.2.2 ∧ isAccused s n.1 r.gen = false
    ((∀ n ∈ x.nodes, n.1 ≠ p → same n) → ∃ t, exec (.confirm p) s = .next t ∧
      (∀ n ∈ x.nodes, n.1 ≠ p → ∃ g, SMap.find t.accused n.1 = some (g, x.mark)) ∧ { x with stage := 1 } ∈ t.probes ∧ t.mem = s.mem) ∧
    ((∃ n ∈ x.nodes, n.1 ≠ p ∧ ¬ same n) → ∃ t, exec (.confirm p) s = .next t ∧ t.probes = s.probes.erase x ∧ t.accused = s.accused)) ∧
  (∀ (p : Nat) (x : Probe) (s : State),
    (s.probes.find? fun x => x.origin == p && decide (x.stage < 2) && decide (x.start + 32768 < s.clock)) = some x →
    ∃ t, exec (.probeAbandon p) s = .next t ∧ t.probes = s.probes.erase x ∧ t.mem = s.mem ∧
      (x.stage = 1 → ∀ m ∈ t.accused, m.2.2 ≠ x.mark)) ∧
  (∀ (p : Nat) (x : Probe) (s : State), (s.probes.find? fun x => x.origin == p && decide (1 ≤ x.stage)) = some x → x.stage = 1 →
    s.clock ≤ x.start + 32768 →
    let r := readNode s p 0
    let same := r.st = 1 ∧ isAccused s p r.gen = false ∧ ∃ n ∈ x.nodes, n.1 = p ∧ n.2.2.1 = r.gen
    (¬ same → ∃ t, exec (.faultDelivery p) s = .next t ∧ t.probes = s.probes.erase x ∧ ∀ m ∈ t.accused, m.2.2 ≠ x.mark) ∧
    (∀ c k q v, same → PlainOrigin s p c k → (s.slot c k).inTrap = false → (s.slot c k).tvec / 2 ≠ 0 →
      (∀ y ∈ s.records, y.tenant ≠ x.tenant) →
      postNow (x.record s.clock) (commitFault x r.gen s) = some (q, v) →
      ∃ t, exec (.faultDelivery p) s = .next t ∧ (t.slot c k).tcause = x.cause ∧ (x.cause = if x.result = 1 then 0x0A else 0x0B) ∧
        (t.slot c k).tval = BitVec.ofNat 64 (p * 2 ^ 32 + q * 2 ^ 16 + x.cause * 256 + 8) ∧ (t.slot c k).tpc = (s.slot c k).pc ∧
        (t.slot c k).pc = (s.slot c k).tvec % 2 ^ 52 / 2 * 2 ∧ (t.slot c k).inTrap = true ∧ (t.slot c k).wait.mode = 0 ∧
        (t.slot c k).c = (s.slot c k).c) ∧
    (∀ y, same → originSlot s p = none → originTask s p = some y → ∃ t z, exec (.faultDelivery p) s = .next t ∧
      SMap.find t.tasks (taskIndex p) = some z ∧ z.st = .dead ∧ t.probes = s.probes.erase x))

open Sys2Proof Sys2Proof.Machine in
/-- A halt stops a waiting slot, or one at an instruction boundary, at once and another at its end, with its registers as
they were, and the engine and the sequencer where named. A register of a halted slot is reported with its tag; a write to one
sets it, tagged only by a tagged source named from this device, and leaves the others. With the core's slots halted its
queues and ports are reported, oldest first, and replaced within their depth. A step leaves HALT for one instruction;
resuming ends the halt of each party and restarts the idle counts. On a slot that is not halted the port has no effect. The
register numbers (log 16), the effect on a slot that is not halted and when a tag is kept (log 81) are the model's choices. (R366, R392, R393) -/
def Obligations.DebugResults : Prop :=
  (∀ (c : Nat) (slots engine seq : Bool) (s : State), ∃ t, exec (.debugHalt c slots engine seq) s = .next t ∧
    (t.core c).debugger = true ∧ t.mem = s.mem ∧ (t.eng c).halted = (engine || (s.eng c).halted) ∧
    (t.mx c).halted = (seq || (s.mx c).halted) ∧ ∀ k ∈ debugSlots c,
      let y := s.slot c k
      let z := t.slot c k
      z.c = y.c ∧ z.v = y.v ∧ z.k = y.k ∧ z.pcc = y.pcc ∧ (slots = false ∨ y.halted = true → z = y) ∧
      (slots = true → y.halted = false → y.wait.mode ≠ 0 ∨ atBoundary s c k = true →
        z.halted = true ∧ z.wait.gen = (y.wait.gen + 1) % 2 ^ 16) ∧
      (slots = true → y.halted = false → y.wait.mode = 0 → atBoundary s c k = false → z.halted = false ∧ z.stepping = true)) ∧
  (∀ (c k r : Nat) (s : State),
    (∀ v tag, (s.slot c k).halted = true → debugRead c k r s = some (v, tag) →
      ∃ t, exec (.debugReadRegister c k r) s = .next t ∧ t = { s with wenlek := t.wenlek } ∧
        t.wenlek.reports = s.wenlek.reports ++ [[2, c, k, r, v, tag.toNat]]) ∧
    ((s.slot c k).halted = false → exec (.debugReadRegister c k r) s = .next s)) ∧
  (∀ (c k n : Nat) (s : State), let y := s.slot c k
    (n < 16 → debugRead c k n s = some ((y.cr n).nat, (y.cr n).tag)) ∧ debugRead c k 16 s = some (y.pcc.nat, y.pcc.tag) ∧
    (n < 32 → debugRead c k (32 + n) s = some ((y.vr n).toNat, false)) ∧
    (1 ≤ n → n < 8 → debugRead c k (64 + n) s = some ((y.kr n).toNat, false))) ∧
  (∀ (c k r v : Nat) (src : Option Nat) (s : State),
    ((s.slot c k).halted = false → exec (.debugWriteRegister c k r v src) s = .next s) ∧
    ((s.slot c k).halted = true → r < 72 → ∃ t, exec (.debugWriteRegister c k r v src) s = .next t ∧ t.mem = s.mem ∧
      (src = none → debugTag s v src = false) ∧
      let y := s.slot c k
      let z := t.slot c k
      (∀ n, z.cr n = if n = r ∧ r < 16 then ⟨BitVec.ofNat 128 v, debugTag s v src⟩ else y.cr n) ∧
      (z.pcc = if r = 16 then ⟨BitVec.ofNat 128 v, debugTag s v src⟩ else y.pcc) ∧
      (∀ n, n < 32 → z.vr n = if 32 + n = r then BitVec.ofNat 512 v else y.vr n) ∧
      (∀ n, 1 ≤ n → n < 8 → z.kr n = if 64 + n = r then BitVec.ofNat 64 v else y.kr n))) ∧
  (∀ (c q : Nat) (s : State), q < 12 → absentField c (16 + q) = false →
    (coreHalted s c = false → exec (.debugReadQueue c q) s = .next s) ∧
    (coreHalted s c = true → ∃ t, exec (.debugReadQueue c q) s = .next t ∧ t = { s with wenlek := t.wenlek } ∧
      t.wenlek.reports = s.wenlek.reports ++
        [3 :: c :: q :: (if q < 8 then (s.core c).queue q else (s.core c).port (q - 8)).map BitVec.toNat]) ∧
    ∀ ws : List Nat, (coreHalted s c = false ∨ depthOf (16 + q) < ws.length → exec (.debugReplaceQueue c q ws) s = .next s) ∧
      (coreHalted s c = true → ws.length ≤ depthOf (16 + q) → ∃ t, exec (.debugReplaceQueue c q ws) s = .next t ∧ t.mem = s.mem ∧
        (if q < 8 then (t.core c).queue q else (t.core c).port (q - 8)) = ws.map (BitVec.ofNat 64))) ∧
  (∀ (c k : Nat) (s : State), (s.slot c k).halted = true → (s.slot c k).holds = .thread ∨ (s.slot c k).holds = .activation →
    ∃ t, exec (.debugStep c k) s = .next t ∧ (t.slot c k).halted = false ∧ (t.slot c k).stepping = true ∧
      (t.slot c k).wait.gen = ((s.slot c k).wait.gen + 1) % 2 ^ 16 ∧ (t.slot c k).pcc = (s.slot c k).pcc ∧
      (t.slot c k).c = (s.slot c k).c ∧ t.mem = s.mem) ∧
  (∀ (c : Nat) (s : State), ∃ t, exec (.debugResume c) s = .next t ∧ (t.eng c).halted = false ∧ (t.mx c).halted = false ∧ t.mem = s.mem ∧
    ∀ k ∈ debugSlots c, (t.slot c k).halted = false ∧ (t.slot c k).stepping = false ∧ (t.slot c k).c = (s.slot c k).c ∧
      (t.slot c k).pcc = (s.slot c k).pcc ∧ ((s.slot c k).halted = true → (t.slot c k).waitSince = s.clock))

namespace Sys2Proof.Machine

/-! ### Nolbor links -/

/-- The buffered flits that an ack leaves: those above it, modulo 2^14 (R399). -/
def leftAbove (x : Link) (ack : Nat) : List Nat :=
  x.replay.filter fun q => decide (2 ^ 13 ≤ (ack % 2 ^ 14 + 2 ^ 14 - q % 2 ^ 14) % 2 ^ 14)

/-- An up link with no packet that waits for room in its replay buffer. -/
def LinkUp (s : State) (n : Nat) : Prop := (s.link n).up = true ∧ (s.link n).queue = []

/-- The number of lanes of a lane map. -/
def linkLanes (m : Nat) : Nat := ((List.range 16).filter fun i => m.testBit i).length

end Sys2Proof.Machine

open Sys2Proof Sys2Proof.Machine in
/-- An ack frees the buffered flits at or below it. A good data flit in sequence is accepted and acknowledged, and counts as come in
for the packet that takes it; any other asks for one replay, again after 2 µs. A replay request has every buffered flit sent again,
before any new one. A receiver that loses or regains lanes
changes its map, tells the far transmitter and goes on with at least four, sends the map again after 2 µs, and takes the link
down after 8 failures or below four lanes; the first flit it accepts then has a record posted, with the data flits discarded
since the last one and the time of detection; a transmitter that is told stripes over the new map and replays, with a record of the
flits replayed. Training with four lanes each way brings a declared link up and admits killed requesters. After 10 ms a down
link's waiting requests end, unless another link to the same peer is up, a read with poison. The model's own choices here: an ack
flit for every acceptance (log 82), the time-out counted from the later of issue and failure and atomics that end poisoned (log 84),
when the record of a changed map is posted (log 118), the transmitter's time of detection (log 127). (R397, R399, R400, R401, R402, R404, R433) -/
def Obligations.LinkLayer : Prop :=
  (∀ (n ack : Nat) (s : State), LinkUp s n → ∃ t, exec (.idleFlit n ack) s = .next t ∧ t.mem = s.mem ∧
    (t.link n).replay = leftAbove (s.link n) ack ∧ (t.link n).sent = (s.link n).sent) ∧
  (∀ (n seq ack : Nat) (s : State), LinkUp s n → (s.link n).rxExpect < 2 ^ 14 → seq % 2 ^ 14 = (s.link n).rxExpect →
    ∃ t, exec (.dataFlit n true seq ack) s = .next t ∧ (t.link n).rxExpect = ((s.link n).rxExpect + 1) % 2 ^ 14 ∧
      (t.link n).rxOk = true ∧ (t.link n).requestAt = none ∧ (t.link n).mapPending = none ∧ (t.link n).discarded = 0 ∧
      (t.link n).inbound = (s.link n).inbound + 1 ∧
      (∃ f : Flit, (s.link n).sent ++ [f] <+: (t.link n).sent ∧ f.kind = 0 ∧ f.ack = seq % 2 ^ 14) ∧
      ((s.link n).mapPending = none → (t.link n).replay = leftAbove (s.link n) ack ∧ t.wenlek = s.wenlek ∧
        ∃ f : Flit, (t.link n).sent = (s.link n).sent ++ [f]) ∧
      ∀ old, (s.link n).mapPending = some old → ∃ l : List Nat, t.wenlek.telemetry = s.wenlek.telemetry ++ [l] ∧
        l.headD 0 = (s.link n).rxMap * 2 ^ 48 + old * 2 ^ 32 + n * 2 ^ 8 + (if old - (old &&& (s.link n).rxMap) = 0 then 2 else 1) ∧
        l.getD 1 0 % 2 ^ 32 = (s.link n).discarded % 2 ^ 32 ∧ l.getD 3 0 = (s.link n).mapAt) ∧
  (∀ (n seq ack : Nat) (good : Bool) (s : State), LinkUp s n → (good = false ∨ seq % 2 ^ 14 ≠ (s.link n).rxExpect) →
    ∃ t, exec (.dataFlit n good seq ack) s = .next t ∧ (t.link n).rxExpect = (s.link n).rxExpect ∧
      (t.link n).inbound = (s.link n).inbound ∧
      (t.link n).discarded = (s.link n).discarded + 1 ∧
      ((s.link n).rxOk = true → (s.link n).mapPending = none → (t.link n).rxOk = false ∧ (t.link n).requestAt = some s.clock ∧
        ∃ f : Flit, (t.link n).sent = (s.link n).sent ++ [f] ∧ f.kind = 2) ∧
      ((s.link n).rxOk = false → (t.link n).sent = (s.link n).sent)) ∧
  (∀ (n ack : Nat) (s : State), LinkUp s n → ∃ t, exec (.replayRequest n ack) s = .next t ∧
    (t.link n).replay = leftAbove (s.link n) ack ∧
    (t.link n).sent = (s.link n).sent ++ (leftAbove (s.link n) ack).map fun q => ⟨1, [], (s.link n).ackNow, q⟩) ∧
  (∀ (n ack : Nat) (s : State), (s.link n).up = true → ∃ t, exec (.replayRequest n ack) s = .next t ∧
    (s.link n).sent ++ (leftAbove (s.link n) ack).map (fun q => (⟨1, [], (s.link n).ackNow, q⟩ : Flit)) <+: (t.link n).sent) ∧
  (∀ (n since : Nat) (s : State), (s.link n).up = true → (s.link n).requestAt = some since →
    ∃ t, exec (.replayRequestTimeout n) s = .next t ∧
      (since + 2400 ≤ s.clock → (t.link n).requestAt = some s.clock ∧ ∃ f : Flit, (t.link n).sent = (s.link n).sent ++ [f] ∧ f.kind = 2) ∧
      (s.clock < since + 2400 → (t.link n).sent = (s.link n).sent)) ∧
  (∀ (n lanes : Nat) (s : State), (s.link n).up = true →
    let old := (s.link n).rxMap
    let m := old - (old &&& lanes)
    m ≠ old → ∃ t l, exec (.lossOfLight n lanes) s = .next t ∧ t.wenlek.telemetry = s.wenlek.telemetry ++ l ∧ (t.link n).rxMap = m ∧
      (4 ≤ linkLanes m → (t.link n).up = true ∧ (t.link n).mapPending = some old ∧ (t.link n).mapAt = timeOf s ∧
        l.length = (s.link n).mapPending.toList.length ∧ ∃ f : Flit, (s.link n).sent ++ [f] <+: (t.link n).sent ∧ f.kind = 3 ∧ f.payload = [m + old * 2 ^ 16]) ∧
      (linkLanes m < 4 → (t.link n).up = false ∧ (t.link n).downSince = s.clock ∧
        ∃ r : List Nat, l.getLast? = some r ∧ r.headD 0 % 256 = 3)) ∧
  (∀ (n map ack : Nat) (s : State), LinkUp s n → map % 2 ^ 16 ≠ (s.link n).txMap →
    ∃ t, exec (.laneMap n map ack) s = .next t ∧ (t.link n).txMap = map % 2 ^ 16 ∧
      (4 ≤ linkLanes (map % 2 ^ 16) → (t.link n).up = true ∧ (s.link n).sent ++ (leftAbove (s.link n) ack).map (fun q =>
        (⟨1, [], (s.link n).ackNow, q⟩ : Flit)) <+: (t.link n).sent ∧ ∃ l : List Nat, t.wenlek.telemetry = s.wenlek.telemetry ++ [l] ∧
        l.headD 0 = map % 2 ^ 16 * 2 ^ 48 + (s.link n).txMap * 2 ^ 32 + 2 ^ 16 + n * 2 ^ 8 +
          (if (s.link n).txMap - ((s.link n).txMap &&& map % 2 ^ 16) = 0 then 2 else 1) ∧
        l.getD 1 0 % 2 ^ 32 = (leftAbove (s.link n) ack).length % 2 ^ 32 ∧ l.getD 3 0 = detectedAt s) ∧
      (linkLanes (map % 2 ^ 16) < 4 → (t.link n).up = false ∧ (t.link n).downSince = s.clock)) ∧
  (∀ (n old : Nat) (s : State), (s.link n).up = true → (s.link n).mapPending = some old →
    (s.clock < (s.link n).mapSince + 2400 → exec (.laneMapResend n) s = .next s) ∧
    ((s.link n).mapSince + 2400 ≤ s.clock → ∃ t, exec (.laneMapResend n) s = .next t ∧
      ((s.link n).mapFails + 1 < 8 → (t.link n).up = true ∧ (t.link n).mapFails = (s.link n).mapFails + 1 ∧ (t.link n).mapSince = s.clock ∧
        ∃ f : Flit, (t.link n).sent = (s.link n).sent ++ [f] ∧ f.kind = 3 ∧ f.payload = [(s.link n).rxMap + old * 2 ^ 16]) ∧
      (8 ≤ (s.link n).mapFails + 1 → (t.link n).up = false))) ∧
  (∀ (n lane : Nat) (s : State), (s.link n).up = true → lane < 16 → (s.link n).rxMap.testBit lane = false →
    ∃ t, exec (.laneRegain n lane) s = .next t ∧ (t.link n).rxMap = (s.link n).rxMap + 2 ^ lane ∧
      (t.link n).mapPending = some (s.link n).rxMap ∧ (t.link n).up = true) ∧
  (∀ (n rx tx : Nat) (s : State),
    ((s.link n).role ≠ .unused → (s.link n).up = false → 4 ≤ linkLanes (rx % 2 ^ 16) → 4 ≤ linkLanes (tx % 2 ^ 16) →
      ∃ t, exec (.linkTraining n rx tx) s = .next t ∧ (t.link n).up = true ∧ (t.link n).rxMap = rx % 2 ^ 16 ∧
        (t.link n).txMap = tx % 2 ^ 16 ∧ (t.link n).deadReq = []) ∧
    ((s.link n).role = .unused ∨ linkLanes (rx % 2 ^ 16) < 4 ∨ linkLanes (tx % 2 ^ 16) < 4 → exec (.linkTraining n rx tx) s = .next s)) ∧
  (∀ (n : Nat) (s : State), peerPresent s n = true → exec (.downLinkTimeout n) s = .next s) ∧
  (∀ (n : Nat) (s : State), (s.link n).up = false → peerPresent s n = false → ∃ t, exec (.downLinkTimeout n) s = .next t ∧
    (∀ r ∈ (t.link n).requests, r.op = 5 ∨ s.clock < max (s.link n).downSince r.since + 12000000) ∧
    ∀ r, (s.link n).requests = [r] → (r.op = 1 ∨ r.op = 3) → r.slot ≠ 18 → r.slot ≠ 22 → max (s.link n).downSince r.since + 12000000 ≤ s.clock →
      (t.link n).lost = (s.link n).lost + 1 ∧ repliesOf ⟨r.core, r.slot, r.party, r.agent, 0, 0, r.tenant⟩ t =
        repliesOf ⟨r.core, r.slot, r.party, r.agent, 0, 0, r.tenant⟩ s ++ [⟨r.va, List.replicate r.length 0, [], true, r.va⟩])

namespace Sys2Proof.Machine

/-- The answer to a request packet is the last of the link's responses: its op, status, poison, words and data (R405, R406). -/
def Answered (s t : State) (p : Packet) (op status : Nat) (poison : Bool) (words : List Nat) (data : List Byte) : Prop :=
  (t.link p.link).outbound = (s.link p.link).outbound ++ [⟨p.link, 0, p.device, status, max 1 data.length, p.tag, p.requester,
    false, false, false, poison, 0, op, 0, words, data.map BitVec.toNat⟩]

/-- A request packet whose flits have come in, which gives state `v`, of an admitted host requester, on an up host link after bring-up,
within its window and in order (R400, R407 to R409): its tenant, domain and physical right. -/
def HostAsk (u : State) (p : Packet) (op : Nat) (e : Nat × Nat × Bool) (s : State) : Prop :=
  takePacket p u = some s ∧ 7 ≤ s.wenlek.stage ∧ (s.link p.link).up = true ∧ (s.link p.link).role = .host ∧ p.op = op ∧ hostEntry s p.link p.requester = some e ∧
  overrun (s.link p.link) p = false ∧ waitsBehind (s.link p.link) p = false

/-- The agent of a request (R409). -/
def asker (p : Packet) (e : Nat × Nat × Bool) : Who := whoHost p.link p.requester e.1 e.2.1

/-- A request of the device that an answer of the given tag, whose flits have come in, belongs to, on an up link with no record that
waits. -/
def Asked (s : State) (p : Packet) (ops : List Nat) (r : Request) : Prop :=
  (takePacket p s).isSome = true ∧ (s.link p.link).up = true ∧ s.links.all (fun q => q.2.waiting.isEmpty) = true ∧ r.slot ≠ 18 ∧
  r.slot ≠ 22 ∧
  (s.link p.link).requests.find? (fun r => r.tag == p.tag && ops.contains r.op) = some r

/-- The agent to which a request's answer returns (R410). -/
def Request.who (r : Request) : Who := ⟨r.core, r.slot, r.party, r.agent, 0, 0, r.tenant⟩

/-- The four request rows: the packet's op and its response's. -/
noncomputable def requestRows : List ((Packet → Instr) × Nat × Nat) :=
  [(.linkRead, 0x01, 0x81), (.postedWrite, 0x02, 0x82), (.linkAtomic, 0x03, 0x83), (.linkMessage, 0x04, 0x84)]

end Sys2Proof.Machine

open Sys2Proof Sys2Proof.Machine in
/-- A request takes its flits, and waits for them. One before bring-up or of a disabled requester is answered with status 9, one
beyond the window with 8; a wrong op leaves a link event record. A physical read, write or atomic needs the entry's right, else
status 4, and an address in memory or a window, else 1; it acts on the frame or bank; a peer's needs no entry. A virtual one
whose rights fail, an atomic's to read or to write, gets 4; else it acts where its parts lie, with status 2 for poisoned data
and the poison bit where every granule is. A message is delivered with status 0, refused with 5 and a reservation, also behind a
refused one, or failed with 7. A carried call goes out as op 5 on its token's link. A response frees its tag and gives the agent
its bytes, or poison where the status is not 0; a write refused is counted; a refused message keeps its tag until its grant (the
model keeps it as op 6, log 85) and goes again with it; a call's results come back with tenant and token (packet and results of a
call are the model's, and a peer needs no entry, log 86; a resent message is known by its tag, log 129). (R405, R406, R407,
R408, R409, R410, R412, R413, R414, R299) -/
def Obligations.LinkTransactions : Prop :=
  (∀ f ∈ requestRows, ∀ (p : Packet) (u s : State),
    (takePacket p u = none → exec (f.1 p) u = .next u) ∧ (takePacket p u = some s →
    (s.wenlek.stage < 7 → ∃ t, exec (f.1 p) u = .next t ∧ Answered u t p f.2.2 9 false [] [] ∧ t.mem = u.mem ∧ t.cores = u.cores) ∧
    (7 ≤ s.wenlek.stage → (s.link p.link).up = true → (s.link p.link).role ≠ .unused → p.op ≠ f.2.1 →
      ∃ t l, exec (f.1 p) u = .next t ∧ t.wenlek.telemetry = u.wenlek.telemetry ++ [l] ∧ l.headD 0 % 256 = 5 ∧ t.mem = u.mem) ∧
    (7 ≤ s.wenlek.stage → (s.link p.link).up = true → (s.link p.link).role = .host → p.op = f.2.1 →
      (hostEntry s p.link p.requester = none →
        ∃ t, exec (f.1 p) u = .next t ∧ Answered u t p f.2.2 9 false [] [] ∧ t.mem = u.mem ∧ t.cores = u.cores) ∧
      ∀ e, hostEntry s p.link p.requester = some e → overrun (s.link p.link) p = true →
        ∃ t, exec (f.1 p) u = .next t ∧ Answered u t p f.2.2 8 false [] [] ∧ t.mem = u.mem ∧ t.cores = u.cores))) ∧
  (∀ (p : Packet) (e : Nat × Nat × Bool) (u s : State), HostAsk u p 0x01 e s →
    (p.physical = true → e.2.2 = false → ∃ t, exec (.linkRead p) u = .next t ∧ Answered u t p 0x81 4 false [] [] ∧ t.mem = u.mem) ∧
    (p.physical = true → e.2.2 = true → physPlace s p.address p.length = none → physAway s p.address p.length = none →
      ∃ t, exec (.linkRead p) u = .next t ∧ Answered u t p 0x81 1 false [] [] ∧ t.mem = u.mem) ∧
    (∀ a, p.physical = true → e.2.2 = true → physPlace s p.address p.length = some a → ∃ t, exec (.linkRead p) u = .next t ∧
      t.mem = u.mem ∧ Answered u t p 0x81 (if physPoison s a p.length then 2 else 0)
        (allPoison s [(a, p.length, .frame 0 a)]) [] (bytesAt u.mem a p.length)) ∧
    (∀ va level v, p.physical = false → requestParts p (asker p e) 1 false p.length s = .exc (.svc 0x06 va level) v →
      ∃ t, exec (.linkRead p) u = .next t ∧ Answered u t p 0x81 4 false [] [] ∧ t.mem = u.mem) ∧
    (∀ l v, p.physical = false → requestParts p (asker p e) 1 false p.length s = .ok l v → (∀ q ∈ l, isLink q.2.2 = false) →
      let bad := l.any fun q => poisonAt v q.2.2 q.1 q.2.1
      ∃ t, exec (.linkRead p) u = .next t ∧ t.mem = v.mem ∧
        Answered v t p 0x81 (if bad then 2 else 0) (allPoison v l) [] (l.map fun q => readAt v q.2.2 q.1 q.2.1).flatten)) ∧
  (∀ (p : Packet) (a : Nat) (u s : State), takePacket p u = some s → 7 ≤ s.wenlek.stage → (s.link p.link).up = true →
    (s.link p.link).role = .peer → p.op = 0x01 →
    overrun (s.link p.link) p = false → waitsBehind (s.link p.link) p = false → p.physical = true →
    physPlace s p.address p.length = some a → ∃ t, exec (.linkRead p) u = .next t ∧ t.mem = u.mem ∧
      Answered u t p 0x81 (if physPoison s a p.length then 2 else 0)
        (allPoison s [(a, p.length, .frame 0 a)]) [] (bytesAt u.mem a p.length)) ∧
  (∀ (p : Packet) (e : Nat × Nat × Bool) (u s : State), HostAsk u p 0x02 e s →
    (p.physical = true → e.2.2 = false → ∃ t, exec (.postedWrite p) u = .next t ∧ Answered u t p 0x82 4 false [] [] ∧ t.mem = u.mem) ∧
    (∀ a, p.physical = true → e.2.2 = true → physPlace s p.address p.length = some a → ∃ t, exec (.postedWrite p) u = .next t ∧
      t.mem = putBytes u.mem a ((packetBytes p).take p.length) ∧
      t.tags = storeTags u.tags a ((packetBytes p).take p.length).length false ∧ Answered u t p 0x82 0 false [] []) ∧
    (∀ va n src v, p.physical = false → requestParts p (asker p e) 2 true p.length s = .ok [(va, n, src)] v → isLink src = false →
      ∃ t, exec (.postedWrite p) u = .next t ∧ t.mem = (writeAt src va ((packetBytes p).take n) false v).mem ∧
        t.cdata = (writeAt src va ((packetBytes p).take n) false v).cdata ∧ Answered v t p 0x82 0 false [] [])) ∧
  (∀ (p : Packet) (e : Nat × Nat × Bool) (u s : State), HostAsk u p 0x03 e s → (p.length = 4 ∨ p.length = 8 ∨ p.length = 16) →
    p.address % p.length = 0 → p.atomicOp ≤ 10 →
    (∀ va level v, p.physical = false → requestParts p (asker p e) 3 true p.length s = .exc (.svc 0x06 va level) v →
      ∃ t, exec (.linkAtomic p) u = .next t ∧ Answered u t p 0x83 4 false [] [] ∧ t.mem = u.mem) ∧
    ∀ a, p.physical = true → e.2.2 = true → physPlace s p.address p.length = some a → physPoison s a p.length = false →
      let old := leNat (bytesAt u.mem a p.length)
      ∃ t, exec (.linkAtomic p) u = .next t ∧ Answered u t p 0x83 0 false [old % 2 ^ 64, old / 2 ^ 64] [] ∧
        t.mem = match amoNew p.atomicOp p.length old (atomicArgs p).1 (atomicArgs p).2 with
          | some v => putBytes u.mem a (leBytes p.length v)
          | none => u.mem) ∧
  (∀ (p : Packet) (e : Nat × Nat × Bool) (dst off : Nat) (u s v : State), HostAsk u p 0x04 e s → inWindow p.address = true →
    p.address < 0xFFFFFFFF00000 → windowAt 0 p.address = some (dst, off) →
    let m := linkMsg p (asker p e) dst false s
    (refusedBefore m s = false →
      (arrive m s = .done v → ∃ t, exec (.linkMessage p) u = .next t ∧ Answered v t p 0x84 0 false [] [] ∧ t.mem = v.mem ∧
        t.cores = v.cores) ∧
      (∀ cls, arrive m s = .refuse cls v → (v.core dst).resv.length < 64 → ∃ t, exec (.linkMessage p) u = .next t ∧
        Answered v t p 0x84 5 false [] [] ∧ (t.core dst).resv = (v.core dst).resv ++ [⟨m.srcCore, p.tag, cls⟩]) ∧
      (∀ reason, arrive m s = .fail reason v → ∃ t, exec (.linkMessage p) u = .next t ∧
        Answered (failArrival reason m v) t p 0x84 7 false [] [])) ∧
    (refusedBefore m s = true → (s.core dst).resv.length < 64 → ∃ t, exec (.linkMessage p) u = .next t ∧
      Answered u t p 0x84 5 false [] [] ∧
      (t.core dst).resv = (u.core dst).resv ++ [⟨m.srcCore, p.tag, if typeClass m = 1 then .urgent else .general⟩])) ∧
  (∀ (p : Packet) (tag : Nat) (s : State), p.op = 0x05 → callLink s p = true → freeTag (s.link p.link) = some tag →
    ∃ t r q, exec (.linkCall p) s = .next t ∧ (t.link p.link).requests = (s.link p.link).requests ++ [r] ∧ r.op = 5 ∧ r.tag = tag ∧
      r.operand = callToken p ∧ r.tenant = callTenant p ∧ (t.link p.link).outbound = (s.link p.link).outbound ++ [q] ∧ q.op = 5 ∧
      q.tag = tag ∧ q.requester = 0xFFF ∧ q.words = p.words ∧ q.data = []) ∧
  (∀ (p : Packet) (r : Request) (s : State),
    (Asked s p [1] r → ∃ t, exec (.readResponse p) s = .next t ∧ (t.link p.link).requests = (s.link p.link).requests.erase r ∧
      repliesOf r.who t = repliesOf r.who s ++
        [⟨r.va, ((packetBytes p) ++ List.replicate r.length 0).take r.length, [], p.status != 0 || p.poison, r.va⟩]) ∧
    (Asked s p [3] r → ∃ t, exec (.atomicResponse p) s = .next t ∧ (t.link p.link).requests = (s.link p.link).requests.erase r ∧
      repliesOf r.who t = repliesOf r.who s ++ [⟨r.va, leBytes r.length (p.words.getD 0 0 % 2 ^ 64 + p.words.getD 1 0 % 2 ^ 64 * 2 ^ 64),
        [], p.status != 0 || p.poison, r.va⟩]) ∧
    (Asked s p [2] r → ∃ t, exec (.writeAcknowledgement p) s = .next t ∧
      (t.link p.link).requests = (s.link p.link).requests.erase r ∧
      (t.link p.link).lost = (s.link p.link).lost + (if p.status = 1 ∨ p.status = 3 ∨ p.status = 4 then 1 else 0)) ∧
    (∀ m, Asked s p [4, 6] r → r.op = 4 → r.msg = some m →
      (p.status = 0 → ∃ t, exec (.messageAnswer p) s = .next t ∧ (t.link p.link).requests = (s.link p.link).requests.erase r ∧
        t.net = s.net ∧ t.records = s.records) ∧
      (p.status = 5 → ∃ t, exec (.messageAnswer p) s = .next t ∧ t.held = s.held ++ [⟨m, .general, none⟩] ∧
        (t.link p.link).requests = (s.link p.link).requests.erase r ++ [{ r with op := 6 }])) ∧
    (∀ m, Asked s p [4, 6] r → r.op = 6 → r.msg = some m → p.status = 6 → ∃ t q, exec (.messageAnswer p) s = .next t ∧
      (t.link p.link).requests = (s.link p.link).requests.erase r ++ [{ r with op := 4, since := s.clock }] ∧ t.net = s.net ∧
      (t.link p.link).outbound = (s.link p.link).outbound ++ [q] ∧ q.op = 4 ∧ q.tag = r.tag ∧ q.words = [r.operand] ∧
      ∀ h ∈ t.held, h.msg ≠ m) ∧
    ((takePacket p s).isSome = true → (s.link p.link).up = true →
      (s.link p.link).requests.find? (fun r => r.tag == p.tag && [5].contains r.op) = some r →
      ∃ t, exec (.callResponse p) s = .next t ∧ (t.link p.link).requests = (s.link p.link).requests.erase r ∧
        (t.link p.link).results = (s.link p.link).results ++ [r.tenant :: r.operand :: p.words]))

namespace Sys2Proof.Machine

/-! ### Bring-up, attestation, limits -/

/-- Nothing but the Wenlek controller changes. -/
def OnlyWenlek (s t : State) : Prop := t = { s with wenlek := t.wenlek }

end Sys2Proof.Machine

open Sys2Proof Sys2Proof.Machine in
/-- POWER_ON answers, from every state, the empty machine that keeps the lowest versions, at stage 1 where the controller starts and
else unpowered. FIRMWARE_VERIFY at stage 1 and CONFIGURATION_VERIFY at stage 2 accept an image of the right kind, format, length
and version with zero padding whose signature over its first 48 bytes and whose body's SHA3-256 digest verify, raise the lowest
version and go to the next stage, and stop bring-up at any other; the configuration gives capacities and link roles. DIE_POWER_UP
powers the next die in order, or holds it unpowered and reports it. BOOT_SELF_TEST gives each powered unit its map and generation
1, SERVICE_ENTRY_SETUP the keystones of powered dies their entry blocks, or stops bring-up, BRINGUP_LINK_TRAINING brings up the
declared links that train, with the lanes that pass, and starts service code in the keystones. Out of its stage each answers the
state it began in. (What a body declares and whether signatures verify are free, log 4, as is whether stages 1 and 6 succeed, log
5; that service code starts in context 0 is the model's choice, log 144.) (R414, R415, R416, R417, R152, R136, R159) -/
def Obligations.BringUpResults : Prop :=
  (∀ s : State, ∃ t, exec .powerOn s = .next t ∧ t.cores = [] ∧ t.mem = [] ∧ t.lines = [] ∧ t.links = [] ∧
    t.wenlek.stage = (if Config.romStarts s.tick then 1 else 0) ∧
    t.wenlek.lowFirmware = s.wenlek.lowFirmware ∧ t.wenlek.lowConfig = s.wenlek.lowConfig ∧ t.wenlek.stopped = false ∧
    t.clock = 0 ∧ t.ptroot = 0 ∧ t.drbase = 0) ∧
  (∀ (img : Image) (s : State),
    let word (off n : Nat) : Nat := leNat ((List.range n).map fun j => img.bytes.getD (off + j) 0)
    let part (off n : Nat) : List Byte := (List.range n).map fun j => img.bytes.getD (off + j) 0
    let version := word 8 8
    let ok (kind low : Nat) : Prop := word 0 1 = kind ∧ word 1 1 = 1 ∧ word 2 2 = 0 ∧ img.bytes.length = 0xA00 + word 4 4 ∧
      (∀ b ∈ part 0x9A4 92, b = 0) ∧ sha3 Config.vendorKey.toList = Config.vendorDigest.toList ∧
      Config.signatureOk Config.vendorKey.toList (part 0 0x30) (part 0x30 2420) = true ∧ sha3 (part 0xA00 (word 4 4)) = part 0x10 32 ∧
      low ≤ version ∧ Config.declares (part 0xA00 (word 4 4)) = (img.config, img.entry)
    (s.atStage 1 = true → ok 1 s.wenlek.lowFirmware → ∃ t, exec (.firmwareVerify img) s = .next t ∧ OnlyWenlek s t ∧
      t.wenlek.stage = 2 ∧ t.wenlek.firmware = some img ∧ t.wenlek.lowFirmware = version) ∧
    (s.atStage 1 = true → ¬ ok 1 s.wenlek.lowFirmware → ∃ t, exec (.firmwareVerify img) s = .next t ∧ OnlyWenlek s t ∧
      t.wenlek.stopped = true ∧ t.wenlek.stage = 1) ∧
    (s.atStage 2 = true → ok 2 s.wenlek.lowConfig → configOk img.config = true →
      ∃ t, exec (.configurationVerify img) s = .next t ∧ t.nearGiB = img.config.nearGiB ∧ t.farGiB = img.config.farGiB ∧
        (∀ n, n < 32 → (t.link n).role = img.config.roles.getD n .unused) ∧ t.wenlek.stage = 3 ∧ t.wenlek.config = some img ∧
        t.wenlek.lowConfig = version ∧ t.mem = s.mem) ∧
    (s.atStage 2 = true → ¬ ok 2 s.wenlek.lowConfig ∨ configOk img.config = false →
      ∃ t, exec (.configurationVerify img) s = .next t ∧ OnlyWenlek s t ∧ t.wenlek.stopped = true)) ∧
  (∀ (die : Nat) (s : State), s.atStage 3 = true → die < 4 → die = s.wenlek.poweredDies.length + s.wenlek.heldDies.length →
    (∃ t, exec (.diePowerUp die true) s = .next t ∧ t.wenlek.poweredDies = s.wenlek.poweredDies ++ [die] ∧
      SMap.get 0 t.dieReset die = s.clock ∧ t.wenlek.stage = (if die = 3 then 4 else 3) ∧ t.mem = s.mem) ∧
    (∃ t, exec (.diePowerUp die false) s = .next t ∧ OnlyWenlek s t ∧ t.wenlek.heldDies = s.wenlek.heldDies ++ [die] ∧
      t.wenlek.telemetry = s.wenlek.telemetry ++ [[1, die]] ∧ t.wenlek.stage = (if die = 3 then 4 else 3))) ∧
  (∀ s : State, s.atStage 4 = true → ∃ t, exec .bootSelfTest s = .next t ∧ t.wenlek.stage = 5 ∧ t.mem = s.mem ∧
    ∀ c ∈ poweredUnits s, (t.mx c).generation = 1 ∧ (t.mx c).seen = 1 ∧ (t.mx c).idleSince = s.clock ∧
      ∀ p, p ∈ (t.mx c).spalled ↔ p ∈ Config.selfTest (s.tick * 6144 + c) ∧ p.1 < 34 ∧ p.2 < 33) ∧
  (∀ (f g : Image) (s : State), s.Canonical → s.atStage 5 = true → s.wenlek.firmware = some f → s.wenlek.config = some g →
    (Config.entriesSet s.tick = false → ∃ t, exec .serviceEntrySetup s = .next t ∧ OnlyWenlek s t ∧ t.wenlek.stopped = true) ∧
    (Config.entriesSet s.tick = true → (∀ r ∈ g.config.registers, serviceRegister r.1 = true) → (s.wenlek.poweredDies.Nodup ∧ ∀ d ∈ s.wenlek.poweredDies, d < 4) →
    ∃ t, exec .serviceEntrySetup s = .next t ∧ t.wenlek.stage = 6 ∧
      (∀ v, g.config.registers = [(0x802, v)] → t.drbase = v / 2 ^ 16 % 2 ^ 32) ∧ ∀ c ∈ poweredKeystones s,
      leNat (bytesAt t.mem (localKey c 0) 16) = f.entry.code % 2 ^ 128 ∧ physTag t (localKey c 0) = true ∧
      (∀ k, k < 4 → leNat (bytesAt t.mem (localKey c (0x10 + 16 * k)) 16) = f.entry.stackCaps.getD k 0 % 2 ^ 128 ∧
        physTag t (localKey c (0x10 + 16 * k)) = true) ∧
      (SMap.get 0 t.mem (localKey c 0x50)).toNat = f.entry.domain % 256 ∧
      (SMap.get 0 t.mem (localKey c 0x51)).toNat = f.entry.prio % 16)) ∧
  (∀ (up : List (Nat × Nat × Nat)) (s : State), s.atStage 6 = true → ∃ t, exec (.bringupLinkTraining up) s = .next t ∧
    t.wenlek.stage = 7 ∧
    (∀ n, n < 32 → (s.link n).role ≠ .unused → (s.link n).up = false →
      (up.find? (fun p => p.1 == n) = none → (t.link n).up = false) ∧
      ∀ p, up.find? (fun p => p.1 == n) = some p →
        ((t.link n).up = true ↔ 4 ≤ linkLanes (p.2.1 % 2 ^ 16) ∧ 4 ≤ linkLanes (p.2.2 % 2 ^ 16)) ∧
        ((t.link n).up = true → (t.link n).rxMap = p.2.1 % 2 ^ 16 ∧ (t.link n).txMap = p.2.2 % 2 ^ 16)) ∧
    ∀ c ∈ poweredKeystones s,
      let block (off : Nat) : Reg := ⟨BitVec.ofNat 128 (leNat (bytesAt s.mem (localKey c off) 16)), physTag s (localKey c off)⟩
      (t.slot c 0).holds = .thread ∧ (t.slot c 0).mode = .service ∧ (t.slot c 0).pcc = block 0 ∧ (t.slot c 0).cr 12 = block 0x10) ∧
  (∀ (img : Image) (die : Nat) (good : Bool) (up : List (Nat × Nat × Nat)) (s : State),
    ∀ i ∈ [(Instr.firmwareVerify img, 1), (.configurationVerify img, 2), (.diePowerUp die good, 3), (.bootSelfTest, 4),
      (.serviceEntrySetup, 5), (.bringupLinkTraining up, 6)], s.atStage i.2 = false → exec i.1 s = .next s)

open Sys2Proof Sys2Proof.Machine in
/-- ATTESTATION_REQUEST answers, from every state, with the report of nonce, body digests, versions, serial and counts and
its signature. POWER_LIMIT_EXCEEDED and POWER_BELOW_LIMIT hold and release matrix commands in every state. THERMAL_SHUTDOWN
is reported and, once every tenant has stopped, powers the dies down; until then a further one changes nothing. (R418, R419,
R152) -/
def Obligations.ControllerResults : Prop :=
  (∀ (nonce : Nat) (s : State), ∃ t b, exec (.attestationRequest nonce) s = .next t ∧ OnlyWenlek s t ∧
    t.wenlek.reports = s.wenlek.reports ++ [4 :: (b ++ (Config.sign b).toList).map BitVec.toNat] ∧ b.length = 136 ∧
    (Config.sign b).toList.length = 2420 ∧ b.take 32 = leBytes 32 nonce ∧ b.drop 128 = leBytes 8 (attestCounts s) ∧
    (b.drop 112).take 16 = leBytes 16 Config.serial ∧
    ∀ f g, s.wenlek.firmware = some f → s.wenlek.config = some g →
      (b.drop 32).take 32 = imageDigest f ∧ (b.drop 64).take 32 = imageDigest g ∧
      (b.drop 96).take 8 = leBytes 8 (imageVersion f) ∧ (b.drop 104).take 8 = leBytes 8 (imageVersion g)) ∧
  (∀ s : State, (∃ t, exec .powerLimitExceeded s = .next t ∧ OnlyWenlek s t ∧ t.wenlek.powerHold = true) ∧
    ∃ t, exec .powerBelowLimit s = .next t ∧ OnlyWenlek s t ∧ t.wenlek.powerHold = false) ∧
  (∀ s : State,
    (s.wenlek.shutdown = true → (∃ p ∈ shutdownStops s, stopReady p s = false) → exec .thermalShutdown s = .next s) ∧
    (s.wenlek.shutdown = true → (∀ p ∈ shutdownStops s, stopReady p s = true) → ∃ t, exec .thermalShutdown s = .next t ∧
      t.wenlek.stage = 0 ∧ t.wenlek.poweredDies = [] ∧ t.cores = [] ∧ t.net = [] ∧ ∀ n, (t.link n).up = false) ∧
    (s.wenlek.shutdown = false → ∃ t, exec .thermalShutdown s = .next t ∧ t.wenlek.shutdown = true ∧
      [2, s.clock] ∈ t.wenlek.telemetry))

namespace Sys2Proof.Machine

/-! ### Words, steps, reset, whole-machine rules -/

/-- Rows of the opcode table that have no word: hardware events, matrix commands, writes of one register, exceptions of fetch. -/
def wordless : Instr → Bool
  | .mxNop _ | .mxRing _ | .mxMode _ | .mxZero _ | .mxLda _ | .mxLdb _ | .mxMma _ | .mxRot _ | .mxMmar _ | .mxRed _ | .mxScx _
  | .mxStc _ | .mxSync _ | .mxFmap _ => true
  | .bankroleWrite _ | .arrbaseWrite _ | .arrcapWrite _ | .cntWrite _ _ | .statusWrite _ | .vtabWrite _ | .faultqWrite _
  | .wdidleWrite _ | .ptwinWrite _ => true
  | .illegalInstruction _ | .instructionFetchFault _ | .engineIllegalInstruction _ | .engineFetchFault _ => true
  | i => i.isEvent

/-- Instructions of a copy engine (R67). -/
def engineWord : Instr → Bool
  | .eli _ _ _ _ | .eadd _ _ _ | .eaddi _ _ _ | .esub _ _ _ | .eand _ _ _ | .eshl _ _ _ | .eshr _ _ _ | .eb _ _ _ _ | .ej _
  | .eld _ _ _ _ | .eldQ _ _ | .est _ _ _ _ | .estQ _ _ | .blk _ _ _ _ | .gath _ _ _ _ | .scat _ _ _ _ | .scout _ | .ewait _ _
  | .efence _ | .semwEngine _ | .semsEngine _ | .barbBind _ | .barbUnbind | .barbAdd _ _ | .edone _ => true
  | _ => false

/-- Words written out from the encodings of R212 to R229. -/
def coreWords : List (Nat × Instr) :=
  [(0x00012307, .lih 6 0x12), (0x00506303, .addi 6 6 5), (0x000C4289, .csetb 5 4 6), (0x0414528B, .candpI 5 5 0x41),
   (0x01805389, .cgetl 7 5), (0x004C5489, .cinc 9 5 6), (0x0000940F, .lb 8 9 0), (0x00109011, .sb 8 9 0),
   (0x0400D021, .vld 0 13 64), (0x00086023, .vst 4 6 0), (0xB0004297, .rwlr 5 4 false), (0xB8004297, .rwlr 5 4 true),
   (0xC0004297, .rwlw 5 4 false), (0xD0004017, .rwur 4), (0xE0004017, .rwuw 4), (0x05F00019, .fence 15 5), (0x00020019, .fenceI),
   (0x000C0043, .nop), (0x001C0043, .brk), (0x002C0043, .eret)]

end Sys2Proof.Machine

open Sys2Proof Sys2Proof.Machine in
/-- Twenty core words written out field by field decode to the instructions they stand for; a major opcode above 0x22, a LIH
with every other field and a compact opcode 0x00 or above 0x16 behave as the tables say; a matrix command is named by its
opcode, and one above 0x0D by none. (R212, R219, R232, R230, R160) -/
def Obligations.DecodeWords : Prop :=
  (∀ p ∈ coreWords, decodeCore p.1 = some p.2) ∧
  (∀ w, 0x22 < w / 2 % 64 → decodeCore w = none) ∧
  (∀ h, (h / 2 % 32 = 0 ∨ 0x16 < h / 2 % 32) → decodeCompact h = none) ∧
  (∀ d imm, dstOk d = true → imm < 2 ^ 20 → decodeCore (1 + 2 * 0x03 + 2 ^ 7 * d + 2 ^ 12 * imm) = some (.lih d imm)) ∧
  (∀ c : Cmd, (c.op = 0x06 → decodeCmd c = some (.mxMma c)) ∧ (0x0D < c.op → decodeCmd c = none))

open Sys2Proof Sys2Proof.Machine in
/-- For every well-formed instruction with a 32-bit core word, at every operand value, the word is odd and below 2^32 and
decodes to it; and an odd word below 2^32 that decodes to an instruction is that instruction's word, which is well-formed. So
no two words name one instruction, and no bit of a word is dropped. (R212, R213, R214, R215, R217, R219, R220, R221, R222,
R223, R227, R228) -/
def Obligations.CoreWordsRoundTrip : Prop :=
  (∀ i : Instr, i.wf = true → wordless i = false → i.isCompact = false → engineWord i = false →
    encode i < 2 ^ 32 ∧ encode i % 2 = 1 ∧ decodeCore (encode i) = some i) ∧
  (∀ (w : Nat) (i : Instr), w < 2 ^ 32 → w % 2 = 1 → decodeCore w = some i → i.wf = true ∧ encode i = w)

open Sys2Proof Sys2Proof.Machine in
/-- For every well-formed compact instruction the halfword is even and below 2^16 and decodes to it, and for every
well-formed instruction of a copy engine the word is below 2^32 and decodes to it; and a halfword or word that decodes to one
is that instruction's. (R66, R67, R68, R230, R231) -/
def Obligations.ShortWordsRoundTrip : Prop :=
  (∀ i : Instr, i.wf = true → i.isCompact = true → encode i < 2 ^ 16 ∧ encode i % 2 = 0 ∧ decodeCompact (encode i) = some i) ∧
  (∀ i : Instr, i.wf = true → engineWord i = true → encode i < 2 ^ 32 ∧ decodeEngine (encode i) = some i) ∧
  (∀ (h : Nat) (i : Instr), h < 2 ^ 16 → h % 2 = 0 → decodeCompact h = some i → i.wf = true ∧ encode i = h) ∧
  (∀ (w : Nat) (i : Instr), w < 2 ^ 32 → decodeEngine w = some i → i.wf = true ∧ encode i = w)

open Sys2Proof Sys2Proof.Machine in
/-- A step in which core c issues and the slot q.2 of core q.1 stands first (c's own, or for a member of a composition the composed
core's), with no kill and no pending cause, executes the instruction that the fetched bits decode to, or takes the
illegal-instruction exception, after the priority's pointer has moved there; where that only waits, it has not issued and the
core goes on with its other slots (the model's reading, log 31). A fetch that fails takes its exception. Slot 7 starts a ready handler
first unless the last issue ended one. From an even PC within an executable PCC in the core's own bank the fetched bits are
the two or four bytes at the PC, by bit 0 of the first. Likewise for an engine's word, a sequencer's command and an event; an
engine that has to stop stops. (Which agent moves, which slots stall and how much time passes are the model's free values,
log entry 2; that a fetch gives the newest bytes is log entry 13.) (R211, R232, R341, R369, R63, R139, R99, R82) -/
def Obligations.StepRunsDecoded : Prop :=
  (∀ (c : Nat) (q : Nat × Nat) (stalled : List Nat) (l : List (Nat × Nat)) (s : State), s.turn = .issue c stalled → c < numCores →
    let s0 := { s.prep with curCore := c }
    let handler := !stalled.contains 7 && ownerReady s0 c
    (handler = true → (s0.core c).ended = false → step s = exec (.ownerSlotHandler c) s0) ∧
    (handler = false ∨ (s0.core c).ended = true → contenders s0 c stalled = q :: l →
      let u := setPointer c q { s0 with curCore := q.1, curSlot := q.2 }
      u.me.killPend = false → dueCause u q.1 q.2 = none →
      (∀ e t, fetchSlot q.1 q.2 u = .exc e t → step s = exec (.instructionFetchFault e.cause) t) ∧
      ∀ p t r, fetchSlot q.1 q.2 u = .ok p t →
        let v := { firstIssue q.1 q.2 t with curWord := p.1 }
        ((∃ i, decodeFetched p = some i ∧ exec i v = .next r) ∨ (decodeFetched p = none ∧ exec (.illegalInstruction p.1) v = .next r)) →
        (issuedIn q.1 q.2 t r = true → step s = .next r) ∧
        (issuedIn q.1 q.2 t r = false → step s =
          if l.isEmpty && !handler then .next (notIssued c q s0 r) else issueFrom c handler l (notIssued c q s0 r)))) ∧
  (∀ (c : Nat) (stalled : List Nat) (s : State), (s.core c).comp = none →
    contenders s c stalled = (candidates s c stalled).map fun k => (c, k)) ∧
  (∀ (s : State) (off b : Nat), CapOk s.me.pcc s.me.pc 4 4 2 → OwnBank s s.me.pc 4 off b → b &&& 4 = 4 → s.flights = [] →
    physPoison s (localKey s.curCore off) 4 = false →
    let n := if (SMap.get 0 s.mem (localKey s.curCore off)).toNat % 2 = 0 then 2 else 4
    ∃ t, fetchSlot s.curCore s.curSlot s = .ok (leNat (bytesAt s.mem (localKey s.curCore off) n), n) t ∧ t.me = s.me ∧ t.mem = s.mem ∧
      ∀ h, decodeFetched (h, 2) = decodeCompact h ∧ decodeFetched (h, 4) = decodeCore h) ∧
  (∀ (c : Nat) (s : State), s.turn = .engine c → c < numSmall → (s.eng c).halted = false → (s.eng c).copy = none →
    ((s.eng c).state = .running ∨ (s.eng c).state = .blocked) →
    let s0 := { s.prep with curCore := c }
    (∀ cause va write total, (s.eng c).stopping = some (cause, va, write, total) →
      step s = .next (engineStop c cause va write total s0)) ∧
    ∀ w i t, (s.eng c).stopping = none → fetchEngine c s0 = .ok w t → decodeEngine w = some i → step s = exec i t) ∧
  (∀ (c : Nat) (q : Cmd) (i : Instr) (s : State), s.turn = .sequencer c → c < numSmall →
    currentCommand c { s.prep with curCore := c } = some q → decodeCmd q = some i → step s = exec i { s.prep with curCore := c }) ∧
  (∀ (i : Instr) (s : State), s.turn = .event i → i.isEvent = true → step s = exec i s.prep)

open Sys2Proof Sys2Proof.Machine in
/-- Executing any instruction or event of the opcode table, with any operands, from any state gives a next state, never a
fault or a refusal, and so does a step whose moving agent the part has. (The fault for an agent that the part has not is the
model's own, log entry 2.) (R368, R369, R414) -/
def Obligations.EveryInstructionGoesOn : Prop :=
  (∀ (i : Instr) (s : State), ∃ t, exec i s = .next t) ∧
  (∀ s : State, s.turn.exists = true → ∃ t, step s = .next t)

open Sys2Proof Sys2Proof.Machine in
/-- At reset no slot holds a context, the queues, ports, counters and semaphores are empty or 0, BANKROLE is
0xAAAA000000005555 and gives eight ways of cache, the arrival array has 32 frames at offset 0x2D800, the idle threshold is
2^16, the table registers are 0, links and engines do nothing, bring-up has not begun, and memory and its marks list nothing
and are in canonical form. (Memory that nothing has written reads 0, log entry 1, and registers without a reset value are 0,
log entry 3: the model's choices.) (R33, R39, R51, R89, R95, R104, R113, R357, R408, R414) -/
def Obligations.ResetState : Prop :=
  (∀ c k, (State.reset.slot c k).holds = .empty) ∧
  (∀ c n, (State.reset.core c).queue n = [] ∧ (State.reset.core c).port n = [] ∧ SMap.get 0 (State.reset.core c).cnt n = 0 ∧
    SMap.get 0 (State.reset.core c).sem n = 0) ∧
  (∀ c, (State.reset.core c).bankrole = 0xAAAA000000005555 ∧ (c < numSmall → (cacheBanks State.reset c).length = 8) ∧
    (State.reset.core c).arrbase * 64 = 0x2D800 ∧ (State.reset.core c).arrcap = 32 ∧ (State.reset.core c).wdExp = 16 ∧
    (State.reset.core c).vtabEnable = false ∧ (State.reset.eng c).state = .idle ∧ (State.reset.mx c).queue = []) ∧
  State.reset.ptroot = 0 ∧ State.reset.drbase = 0 ∧ State.reset.hrtbase = 0 ∧ (∀ n, (State.reset.link n).up = false) ∧
  State.reset.wenlek.stage = 0 ∧ (∀ a, SMap.get 0 State.reset.mem a = 0) ∧ State.reset.Canonical

open Sys2Proof Sys2Proof.Machine in
/-- From every state in which the bytes, tags and poison marks of memory and of the cached copies are in canonical form,
addresses strictly rising and no entry equal to what an unlisted address reads as, a step that gives a next state gives one
in which they are, so that equal memories are equal data throughout a run. (The form is the model's; what an unlisted address
reads as is log entry 1.) (R15, R30, R102, R48) -/
def Obligations.StepKeepsCanonical : Prop :=
  (∀ s t : State, s.Canonical → step s = .next t → t.Canonical) ∧
  (∀ (i : Instr) (s t : State), s.Canonical → exec i s = .next t → t.Canonical)
end

