-- ==== Sys2Proof/Laws/Maps.lean ====
section
/-! SUPPORT. Sparse maps: what a read finds after a write, and that every write keeps the canonical form. -/

namespace Sys2Proof.Machine

variable {α : Type}

/-- Keys strictly rising. -/
abbrev SMap.Sorted (m : SMap α) : Prop := m.Pairwise fun p q => p.1 < q.1

theorem SMap.get_nil (d : α) (x : Nat) : SMap.get d ([] : SMap α) x = d := rfl

theorem SMap.get_absent (d : α) (m : SMap α) (x : Nat) (h : ∀ p ∈ m, p.1 ≠ x) : SMap.get d m x = d := by
  induction m with
  | nil => rfl
  | cons p m ih =>
    have hx : x ≠ p.1 := fun e => h p (by simp) e.symm
    simp only [SMap.get, hx, if_false]
    exact ih fun q hq => h q (by simp [hq])

theorem SMap.get_put_self (d : α) (m : SMap α) (x : Nat) (a : α) : SMap.get d (SMap.put m x a) x = a := by
  induction m with
  | nil => simp [SMap.put, SMap.get]
  | cons p m ih =>
    obtain ⟨k, v⟩ := p
    simp only [SMap.put]
    split
    · simp [SMap.get]
    · split
      · simp [SMap.get]
      · rename_i h
        simp [SMap.get, h, ih]

theorem SMap.get_put_ne (d : α) (m : SMap α) (x y : Nat) (a : α) (h : y ≠ x) :
    SMap.get d (SMap.put m x a) y = SMap.get d m y := by
  induction m with
  | nil => simp [SMap.put, SMap.get, h]
  | cons p m ih =>
    obtain ⟨k, v⟩ := p
    simp only [SMap.put]
    split
    · simp [SMap.get, h]
    · split
      · rename_i h2
        simp [SMap.get, h, ← h2]
      · simp [SMap.get, ih]

theorem SMap.put_put (m : SMap α) (x : Nat) (a b : α) : SMap.put (SMap.put m x a) x b = SMap.put m x b := by
  induction m with
  | nil => simp [SMap.put]
  | cons p m ih =>
    obtain ⟨k, v⟩ := p
    simp only [SMap.put]
    split
    · simp [SMap.put]
    · split
      · simp [SMap.put]
      · rename_i h1 h2
        simp [SMap.put, h1, h2, ih]

theorem SMap.mem_del {m : SMap α} {x : Nat} {p : Nat × α} (h : p ∈ SMap.del m x) : p ∈ m := by
  induction m with
  | nil => exact h
  | cons q m ih =>
    obtain ⟨k, v⟩ := q
    simp only [SMap.del] at h
    split at h
    · exact List.mem_cons_of_mem _ h
    · rcases List.mem_cons.1 h with h | h
      · simp [h]
      · exact List.mem_cons_of_mem _ (ih h)

theorem SMap.mem_put {m : SMap α} {x : Nat} {a : α} {p : Nat × α} (h : p ∈ SMap.put m x a) : p = (x, a) ∨ p ∈ m := by
  induction m with
  | nil => simpa [SMap.put] using h
  | cons q m ih =>
    obtain ⟨k, v⟩ := q
    simp only [SMap.put] at h
    split at h
    · simpa using h
    · split at h
      · rcases List.mem_cons.1 h with h | h
        · exact .inl h
        · exact .inr (List.mem_cons_of_mem _ h)
      · rcases List.mem_cons.1 h with h | h
        · simp [h]
        · rcases ih h with h | h
          · exact .inl h
          · exact .inr (List.mem_cons_of_mem _ h)

theorem SMap.sorted_put {m : SMap α} (h : SMap.Sorted m) (x : Nat) (a : α) : SMap.Sorted (SMap.put m x a) := by
  induction m with
  | nil => simp [SMap.put, SMap.Sorted]
  | cons q m ih =>
    obtain ⟨k, v⟩ := q
    have hm := List.pairwise_cons.1 h
    simp only [SMap.put]
    split
    · rename_i hx
      refine List.pairwise_cons.2 ⟨fun p hp => ?_, h⟩
      rcases List.mem_cons.1 hp with rfl | hp
      · exact hx
      · exact Nat.lt_trans hx (hm.1 p hp)
    · split
      · rename_i hx
        subst hx
        exact List.pairwise_cons.2 ⟨fun p hp => hm.1 p hp, hm.2⟩
      · rename_i h1 h2
        refine List.pairwise_cons.2 ⟨fun p hp => ?_, ih hm.2⟩
        rcases SMap.mem_put hp with rfl | hp
        · show k < x
          omega
        · exact hm.1 p hp

theorem SMap.sorted_del {m : SMap α} (h : SMap.Sorted m) (x : Nat) : SMap.Sorted (SMap.del m x) := by
  induction m with
  | nil => exact h
  | cons q m ih =>
    obtain ⟨k, v⟩ := q
    have hm := List.pairwise_cons.1 h
    simp only [SMap.del]
    split
    · exact hm.2
    · exact List.pairwise_cons.2 ⟨fun p hp => hm.1 p (SMap.mem_del hp), ih hm.2⟩

theorem SMap.get_del_self (d : α) {m : SMap α} (h : SMap.Sorted m) (x : Nat) : SMap.get d (SMap.del m x) x = d := by
  induction m with
  | nil => rfl
  | cons q m ih =>
    obtain ⟨k, v⟩ := q
    have hm := List.pairwise_cons.1 h
    simp only [SMap.del]
    split
    · rename_i hx
      subst hx
      refine SMap.get_absent d m x fun p hp e => ?_
      have := hm.1 p hp
      simp only at this
      omega
    · rename_i hx
      simp [SMap.get, hx, ih hm.2]

theorem SMap.get_del_ne (d : α) (m : SMap α) (x y : Nat) (h : y ≠ x) :
    SMap.get d (SMap.del m x) y = SMap.get d m y := by
  induction m with
  | nil => rfl
  | cons q m ih =>
    obtain ⟨k, v⟩ := q
    simp only [SMap.del]
    split
    · rename_i hx
      subst hx
      simp [SMap.get, h]
    · simp [SMap.get, ih]

/-- A read after a write of the same key gives the value written. -/
theorem SMap.get_set_self [DecidableEq α] (d : α) {m : SMap α} (h : SMap.Sorted m) (x : Nat) (a : α) :
    SMap.get d (SMap.set d m x a) x = a := by
  unfold SMap.set
  split
  · rename_i ha
    rw [SMap.get_del_self d h, ha]
  · exact SMap.get_put_self d m x a

/-- A write leaves every other key alone. -/
theorem SMap.get_set_ne [DecidableEq α] (d : α) (m : SMap α) (x y : Nat) (a : α) (h : y ≠ x) :
    SMap.get d (SMap.set d m x a) y = SMap.get d m y := by
  unfold SMap.set
  split
  · exact SMap.get_del_ne d m x y h
  · exact SMap.get_put_ne d m x y a h

theorem SMap.canon_nil (d : α) : SMap.canon d ([] : SMap α) :=
  ⟨List.Pairwise.nil, fun _ h => nomatch h⟩

/-- A write keeps the canonical form. -/
theorem SMap.canon_set [DecidableEq α] (d : α) {m : SMap α} (h : SMap.canon d m) (x : Nat) (a : α) :
    SMap.canon d (SMap.set d m x a) := by
  unfold SMap.set
  split
  · exact ⟨SMap.sorted_del h.1 x, fun p hp => h.2 p (SMap.mem_del hp)⟩
  · rename_i ha
    refine ⟨SMap.sorted_put h.1 x a, fun p hp => ?_⟩
    rcases SMap.mem_put hp with rfl | hp
    · exact ha
    · exact h.2 p hp

theorem SMap.canon_filter (d : α) {m : SMap α} (h : SMap.canon d m) (p : Nat × α → Bool) : SMap.canon d (m.filter p) :=
  ⟨h.1.sublist List.filter_sublist, fun q hq => h.2 q (List.mem_filter.1 hq).1⟩

theorem SMap.canon_foldl_set [DecidableEq α] (d : α) {β : Type} (l : List β) (f : β → Nat) (g : β → α) {m : SMap α}
    (h : SMap.canon d m) : SMap.canon d (l.foldl (fun r b => SMap.set d r (f b) (g b)) m) := by
  induction l generalizing m with
  | nil => exact h
  | cons b l ih => exact ih (SMap.canon_set d h _ _)

/-! Bytes and marks. -/

theorem Memory.wf_putBytes {m : List Host.Cell} (h : Memory.wf m) (a : Nat) (l : List Byte) : Memory.wf (putBytes m a l) := by
  induction l generalizing m a with
  | nil => exact h
  | cons b l ih => exact ih (SMap.canon_set 0 h a b) (a + 1)

theorem canon_setMarks {m : SMap Bool} (h : SMap.canon false m) (a n : Nat) (v : Bool) :
    SMap.canon false (setMarks m a n v) := by
  induction n generalizing m a with
  | zero => exact h
  | succ n ih => exact ih (SMap.canon_set false h a v) (a + 1)

theorem canon_storeTags {m : SMap Bool} (h : SMap.canon false m) (a n : Nat) (t : Bool) :
    SMap.canon false (storeTags m a n t) := canon_setMarks h _ _ _

theorem canon_storePoison {m : SMap Bool} (h : SMap.canon false m) (a n : Nat) : SMap.canon false (storePoison m a n) :=
  canon_setMarks h _ _ _

theorem get_putBytes_out (m : List Host.Cell) (a x : Nat) (l : List Byte) (h : x < a ∨ a + l.length ≤ x) :
    SMap.get 0 (putBytes m a l) x = SMap.get 0 m x := by
  induction l generalizing m a with
  | nil => rfl
  | cons b l ih =>
    simp only [putBytes, List.length_cons] at *
    rw [ih _ (a + 1) (by omega), SMap.get_set_ne 0 m a x b (by omega)]

theorem get_putBytes_in {m : List Host.Cell} (hm : Memory.wf m) (a i : Nat) (l : List Byte) (h : i < l.length) :
    SMap.get 0 (putBytes m a l) (a + i) = l.getD i 0 := by
  induction l generalizing m a i with
  | nil => simp at h
  | cons b l ih =>
    simp only [putBytes]
    cases i with
    | zero =>
      rw [get_putBytes_out _ _ _ _ (by omega)]
      exact SMap.get_set_self 0 hm.1 a b
    | succ i =>
      rw [show a + (i + 1) = a + 1 + i by omega, ih (SMap.canon_set 0 hm a b) (a + 1) i (by simpa using h)]
      simp

theorem get_setMarks_out (m : SMap Bool) (a n x : Nat) (v : Bool) (h : x < a ∨ a + n ≤ x) :
    SMap.get false (setMarks m a n v) x = SMap.get false m x := by
  induction n generalizing m a with
  | zero => rfl
  | succ n ih =>
    simp only [setMarks]
    rw [ih _ (a + 1) (by omega), SMap.get_set_ne false m a x v (by omega)]

theorem get_setMarks_in {m : SMap Bool} (hm : SMap.canon false m) (a n i : Nat) (v : Bool) (h : i < n) :
    SMap.get false (setMarks m a n v) (a + i) = v := by
  induction n generalizing m a i with
  | zero => omega
  | succ n ih =>
    simp only [setMarks]
    cases i with
    | zero =>
      rw [get_setMarks_out _ _ _ _ _ (by omega)]
      simp [SMap.get_set_self false hm.1]
    | succ i =>
      rw [show a + (i + 1) = a + 1 + i by omega, ih (SMap.canon_set false hm a v) (a + 1) i (by omega)]

theorem length_bytesAt (m : List Host.Cell) (a n : Nat) : (bytesAt m a n).length = n := by
  induction n generalizing a with
  | zero => rfl
  | succ n ih => simp [bytesAt, ih]

theorem getElem_bytesAt (m : List Host.Cell) (a n i : Nat) (h : i < (bytesAt m a n).length) :
    (bytesAt m a n)[i] = SMap.get 0 m (a + i) := by
  induction n generalizing a i with
  | zero => simp [bytesAt] at h
  | succ n ih =>
    cases i with
    | zero => simp [bytesAt]
    | succ i =>
      simp only [bytesAt, List.getElem_cons_succ]
      rw [ih]
      congr 1
      omega

/-- A read of the bytes just written gives them. -/
theorem bytesAt_putBytes {m : List Host.Cell} (hm : Memory.wf m) (a : Nat) (l : List Byte) :
    bytesAt (putBytes m a l) a l.length = l := by
  refine List.ext_getElem (length_bytesAt _ _ _) fun i h1 h2 => ?_
  rw [getElem_bytesAt, get_putBytes_in hm a i l h2]
  simp [h2]

/-- A write outside the bytes read leaves them. -/
theorem bytesAt_putBytes_out (m : List Host.Cell) (a b n : Nat) (l : List Byte) (h : b + n ≤ a ∨ a + l.length ≤ b) :
    bytesAt (putBytes m a l) b n = bytesAt m b n := by
  refine List.ext_getElem (by simp [length_bytesAt]) fun i h1 h2 => ?_
  have h1' := h1
  rw [length_bytesAt] at h1'
  rw [getElem_bytesAt, getElem_bytesAt, get_putBytes_out _ _ _ _ (by omega)]

theorem length_leBytes (n v : Nat) : (leBytes n v).length = n := by
  induction n generalizing v with
  | zero => rfl
  | succ n ih => simp [leBytes, ih]

/-- The little-endian number of the little-endian bytes (R5). -/
theorem leNat_leBytes (n v : Nat) : leNat (leBytes n v) = v % 256 ^ n := by
  induction n generalizing v with
  | zero => simp [leBytes, leNat, Nat.mod_one]
  | succ n ih =>
    simp only [leBytes, leNat, ih, BitVec.toNat_ofNat]
    rw [Nat.pow_succ' (m := 256), Nat.mod_mul (x := v) (a := 256)]

end Sys2Proof.Machine
end

