-- ==== Sys2Proof/Laws/State.lean ====
section
/-! SUPPORT. What each update of the state leaves alone: one lemma per field per update. -/

namespace Sys2Proof.Machine

/-! State.setCore. -/

@[simp] theorem State.setCore_mem (s : State) (c : Nat) (x : Core) : (s.setCore c x).mem = s.mem := rfl
@[simp] theorem State.setCore_tags (s : State) (c : Nat) (x : Core) : (s.setCore c x).tags = s.tags := rfl
@[simp] theorem State.setCore_poison (s : State) (c : Nat) (x : Core) : (s.setCore c x).poison = s.poison := rfl
@[simp] theorem State.setCore_lines (s : State) (c : Nat) (x : Core) : (s.setCore c x).lines = s.lines := rfl
@[simp] theorem State.setCore_cdata (s : State) (c : Nat) (x : Core) : (s.setCore c x).cdata = s.cdata := rfl
@[simp] theorem State.setCore_ctags (s : State) (c : Nat) (x : Core) : (s.setCore c x).ctags = s.ctags := rfl
@[simp] theorem State.setCore_cpoison (s : State) (c : Nat) (x : Core) : (s.setCore c x).cpoison = s.cpoison := rfl
@[simp] theorem State.setCore_missWait (s : State) (c : Nat) (x : Core) : (s.setCore c x).missWait = s.missWait := rfl
@[simp] theorem State.setCore_walkCache (s : State) (c : Nat) (x : Core) : (s.setCore c x).walkCache = s.walkCache := rfl
@[simp] theorem State.setCore_ptroot (s : State) (c : Nat) (x : Core) : (s.setCore c x).ptroot = s.ptroot := rfl
@[simp] theorem State.setCore_ptwinBase (s : State) (c : Nat) (x : Core) : (s.setCore c x).ptwinBase = s.ptwinBase := rfl
@[simp] theorem State.setCore_ptwinSet (s : State) (c : Nat) (x : Core) : (s.setCore c x).ptwinSet = s.ptwinSet := rfl
@[simp] theorem State.setCore_drbase (s : State) (c : Nat) (x : Core) : (s.setCore c x).drbase = s.drbase := rfl
@[simp] theorem State.setCore_hrtbase (s : State) (c : Nat) (x : Core) : (s.setCore c x).hrtbase = s.hrtbase := rfl
@[simp] theorem State.setCore_links (s : State) (c : Nat) (x : Core) : (s.setCore c x).links = s.links := rfl
@[simp] theorem State.setCore_hostReplies (s : State) (c : Nat) (x : Core) : (s.setCore c x).hostReplies = s.hostReplies := rfl
@[simp] theorem State.setCore_net (s : State) (c : Nat) (x : Core) : (s.setCore c x).net = s.net := rfl
@[simp] theorem State.setCore_nacks (s : State) (c : Nat) (x : Core) : (s.setCore c x).nacks = s.nacks := rfl
@[simp] theorem State.setCore_held (s : State) (c : Nat) (x : Core) : (s.setCore c x).held = s.held := rfl
@[simp] theorem State.setCore_grants (s : State) (c : Nat) (x : Core) : (s.setCore c x).grants = s.grants := rfl
@[simp] theorem State.setCore_flights (s : State) (c : Nat) (x : Core) : (s.setCore c x).flights = s.flights := rfl
@[simp] theorem State.setCore_lineHolds (s : State) (c : Nat) (x : Core) : (s.setCore c x).lineHolds = s.lineHolds := rfl
@[simp] theorem State.setCore_groups (s : State) (c : Nat) (x : Core) : (s.setCore c x).groups = s.groups := rfl
@[simp] theorem State.setCore_tasks (s : State) (c : Nat) (x : Core) : (s.setCore c x).tasks = s.tasks := rfl
@[simp] theorem State.setCore_taskOrder (s : State) (c : Nat) (x : Core) : (s.setCore c x).taskOrder = s.taskOrder := rfl
@[simp] theorem State.setCore_nextUid (s : State) (c : Nat) (x : Core) : (s.setCore c x).nextUid = s.nextUid := rfl
@[simp] theorem State.setCore_spawned (s : State) (c : Nat) (x : Core) : (s.setCore c x).spawned = s.spawned := rfl
@[simp] theorem State.setCore_records (s : State) (c : Nat) (x : Core) : (s.setCore c x).records = s.records := rfl
@[simp] theorem State.setCore_absent (s : State) (c : Nat) (x : Core) : (s.setCore c x).absent = s.absent := rfl
@[simp] theorem State.setCore_invals (s : State) (c : Nat) (x : Core) : (s.setCore c x).invals = s.invals := rfl
@[simp] theorem State.setCore_stops (s : State) (c : Nat) (x : Core) : (s.setCore c x).stops = s.stops := rfl
@[simp] theorem State.setCore_saved (s : State) (c : Nat) (x : Core) : (s.setCore c x).saved = s.saved := rfl
@[simp] theorem State.setCore_absence (s : State) (c : Nat) (x : Core) : (s.setCore c x).absence = s.absence := rfl
@[simp] theorem State.setCore_absentHeld (s : State) (c : Nat) (x : Core) : (s.setCore c x).absentHeld = s.absentHeld := rfl
@[simp] theorem State.setCore_probes (s : State) (c : Nat) (x : Core) : (s.setCore c x).probes = s.probes := rfl
@[simp] theorem State.setCore_probeReq (s : State) (c : Nat) (x : Core) : (s.setCore c x).probeReq = s.probeReq := rfl
@[simp] theorem State.setCore_accused (s : State) (c : Nat) (x : Core) : (s.setCore c x).accused = s.accused := rfl
@[simp] theorem State.setCore_debugReports (s : State) (c : Nat) (x : Core) : (s.setCore c x).debugReports = s.debugReports := rfl
@[simp] theorem State.setCore_debugOver (s : State) (c : Nat) (x : Core) : (s.setCore c x).debugOver = s.debugOver := rfl
@[simp] theorem State.setCore_scanHead (s : State) (c : Nat) (x : Core) : (s.setCore c x).scanHead = s.scanHead := rfl
@[simp] theorem State.setCore_wenlek (s : State) (c : Nat) (x : Core) : (s.setCore c x).wenlek = s.wenlek := rfl
@[simp] theorem State.setCore_clock (s : State) (c : Nat) (x : Core) : (s.setCore c x).clock = s.clock := rfl
@[simp] theorem State.setCore_dieReset (s : State) (c : Nat) (x : Core) : (s.setCore c x).dieReset = s.dieReset := rfl
@[simp] theorem State.setCore_nearGiB (s : State) (c : Nat) (x : Core) : (s.setCore c x).nearGiB = s.nearGiB := rfl
@[simp] theorem State.setCore_farGiB (s : State) (c : Nat) (x : Core) : (s.setCore c x).farGiB = s.farGiB := rfl
@[simp] theorem State.setCore_tick (s : State) (c : Nat) (x : Core) : (s.setCore c x).tick = s.tick := rfl
@[simp] theorem State.setCore_turn (s : State) (c : Nat) (x : Core) : (s.setCore c x).turn = s.turn := rfl
@[simp] theorem State.setCore_late (s : State) (c : Nat) (x : Core) : (s.setCore c x).late = s.late := rfl
@[simp] theorem State.setCore_curCore (s : State) (c : Nat) (x : Core) : (s.setCore c x).curCore = s.curCore := rfl
@[simp] theorem State.setCore_curSlot (s : State) (c : Nat) (x : Core) : (s.setCore c x).curSlot = s.curSlot := rfl
@[simp] theorem State.setCore_curWord (s : State) (c : Nat) (x : Core) : (s.setCore c x).curWord = s.curWord := rfl

/-! State.modCore. -/

@[simp] theorem State.modCore_mem (s : State) (c : Nat) (f : Core → Core) : (s.modCore c f).mem = s.mem := rfl
@[simp] theorem State.modCore_tags (s : State) (c : Nat) (f : Core → Core) : (s.modCore c f).tags = s.tags := rfl
@[simp] theorem State.modCore_poison (s : State) (c : Nat) (f : Core → Core) : (s.modCore c f).poison = s.poison := rfl
@[simp] theorem State.modCore_lines (s : State) (c : Nat) (f : Core → Core) : (s.modCore c f).lines = s.lines := rfl
@[simp] theorem State.modCore_cdata (s : State) (c : Nat) (f : Core → Core) : (s.modCore c f).cdata = s.cdata := rfl
@[simp] theorem State.modCore_ctags (s : State) (c : Nat) (f : Core → Core) : (s.modCore c f).ctags = s.ctags := rfl
@[simp] theorem State.modCore_cpoison (s : State) (c : Nat) (f : Core → Core) : (s.modCore c f).cpoison = s.cpoison := rfl
@[simp] theorem State.modCore_missWait (s : State) (c : Nat) (f : Core → Core) : (s.modCore c f).missWait = s.missWait := rfl
@[simp] theorem State.modCore_walkCache (s : State) (c : Nat) (f : Core → Core) : (s.modCore c f).walkCache = s.walkCache := rfl
@[simp] theorem State.modCore_ptroot (s : State) (c : Nat) (f : Core → Core) : (s.modCore c f).ptroot = s.ptroot := rfl
@[simp] theorem State.modCore_ptwinBase (s : State) (c : Nat) (f : Core → Core) : (s.modCore c f).ptwinBase = s.ptwinBase := rfl
@[simp] theorem State.modCore_ptwinSet (s : State) (c : Nat) (f : Core → Core) : (s.modCore c f).ptwinSet = s.ptwinSet := rfl
@[simp] theorem State.modCore_drbase (s : State) (c : Nat) (f : Core → Core) : (s.modCore c f).drbase = s.drbase := rfl
@[simp] theorem State.modCore_hrtbase (s : State) (c : Nat) (f : Core → Core) : (s.modCore c f).hrtbase = s.hrtbase := rfl
@[simp] theorem State.modCore_links (s : State) (c : Nat) (f : Core → Core) : (s.modCore c f).links = s.links := rfl
@[simp] theorem State.modCore_hostReplies (s : State) (c : Nat) (f : Core → Core) : (s.modCore c f).hostReplies = s.hostReplies := rfl
@[simp] theorem State.modCore_net (s : State) (c : Nat) (f : Core → Core) : (s.modCore c f).net = s.net := rfl
@[simp] theorem State.modCore_nacks (s : State) (c : Nat) (f : Core → Core) : (s.modCore c f).nacks = s.nacks := rfl
@[simp] theorem State.modCore_held (s : State) (c : Nat) (f : Core → Core) : (s.modCore c f).held = s.held := rfl
@[simp] theorem State.modCore_grants (s : State) (c : Nat) (f : Core → Core) : (s.modCore c f).grants = s.grants := rfl
@[simp] theorem State.modCore_flights (s : State) (c : Nat) (f : Core → Core) : (s.modCore c f).flights = s.flights := rfl
@[simp] theorem State.modCore_lineHolds (s : State) (c : Nat) (f : Core → Core) : (s.modCore c f).lineHolds = s.lineHolds := rfl
@[simp] theorem State.modCore_groups (s : State) (c : Nat) (f : Core → Core) : (s.modCore c f).groups = s.groups := rfl
@[simp] theorem State.modCore_tasks (s : State) (c : Nat) (f : Core → Core) : (s.modCore c f).tasks = s.tasks := rfl
@[simp] theorem State.modCore_taskOrder (s : State) (c : Nat) (f : Core → Core) : (s.modCore c f).taskOrder = s.taskOrder := rfl
@[simp] theorem State.modCore_nextUid (s : State) (c : Nat) (f : Core → Core) : (s.modCore c f).nextUid = s.nextUid := rfl
@[simp] theorem State.modCore_spawned (s : State) (c : Nat) (f : Core → Core) : (s.modCore c f).spawned = s.spawned := rfl
@[simp] theorem State.modCore_records (s : State) (c : Nat) (f : Core → Core) : (s.modCore c f).records = s.records := rfl
@[simp] theorem State.modCore_absent (s : State) (c : Nat) (f : Core → Core) : (s.modCore c f).absent = s.absent := rfl
@[simp] theorem State.modCore_invals (s : State) (c : Nat) (f : Core → Core) : (s.modCore c f).invals = s.invals := rfl
@[simp] theorem State.modCore_stops (s : State) (c : Nat) (f : Core → Core) : (s.modCore c f).stops = s.stops := rfl
@[simp] theorem State.modCore_saved (s : State) (c : Nat) (f : Core → Core) : (s.modCore c f).saved = s.saved := rfl
@[simp] theorem State.modCore_absence (s : State) (c : Nat) (f : Core → Core) : (s.modCore c f).absence = s.absence := rfl
@[simp] theorem State.modCore_absentHeld (s : State) (c : Nat) (f : Core → Core) : (s.modCore c f).absentHeld = s.absentHeld := rfl
@[simp] theorem State.modCore_probes (s : State) (c : Nat) (f : Core → Core) : (s.modCore c f).probes = s.probes := rfl
@[simp] theorem State.modCore_probeReq (s : State) (c : Nat) (f : Core → Core) : (s.modCore c f).probeReq = s.probeReq := rfl
@[simp] theorem State.modCore_accused (s : State) (c : Nat) (f : Core → Core) : (s.modCore c f).accused = s.accused := rfl
@[simp] theorem State.modCore_debugReports (s : State) (c : Nat) (f : Core → Core) : (s.modCore c f).debugReports = s.debugReports := rfl
@[simp] theorem State.modCore_debugOver (s : State) (c : Nat) (f : Core → Core) : (s.modCore c f).debugOver = s.debugOver := rfl
@[simp] theorem State.modCore_scanHead (s : State) (c : Nat) (f : Core → Core) : (s.modCore c f).scanHead = s.scanHead := rfl
@[simp] theorem State.modCore_wenlek (s : State) (c : Nat) (f : Core → Core) : (s.modCore c f).wenlek = s.wenlek := rfl
@[simp] theorem State.modCore_clock (s : State) (c : Nat) (f : Core → Core) : (s.modCore c f).clock = s.clock := rfl
@[simp] theorem State.modCore_dieReset (s : State) (c : Nat) (f : Core → Core) : (s.modCore c f).dieReset = s.dieReset := rfl
@[simp] theorem State.modCore_nearGiB (s : State) (c : Nat) (f : Core → Core) : (s.modCore c f).nearGiB = s.nearGiB := rfl
@[simp] theorem State.modCore_farGiB (s : State) (c : Nat) (f : Core → Core) : (s.modCore c f).farGiB = s.farGiB := rfl
@[simp] theorem State.modCore_tick (s : State) (c : Nat) (f : Core → Core) : (s.modCore c f).tick = s.tick := rfl
@[simp] theorem State.modCore_turn (s : State) (c : Nat) (f : Core → Core) : (s.modCore c f).turn = s.turn := rfl
@[simp] theorem State.modCore_late (s : State) (c : Nat) (f : Core → Core) : (s.modCore c f).late = s.late := rfl
@[simp] theorem State.modCore_curCore (s : State) (c : Nat) (f : Core → Core) : (s.modCore c f).curCore = s.curCore := rfl
@[simp] theorem State.modCore_curSlot (s : State) (c : Nat) (f : Core → Core) : (s.modCore c f).curSlot = s.curSlot := rfl
@[simp] theorem State.modCore_curWord (s : State) (c : Nat) (f : Core → Core) : (s.modCore c f).curWord = s.curWord := rfl

/-! State.setSlot. -/

@[simp] theorem State.setSlot_mem (s : State) (c k : Nat) (y : Slot) : (s.setSlot c k y).mem = s.mem := rfl
@[simp] theorem State.setSlot_tags (s : State) (c k : Nat) (y : Slot) : (s.setSlot c k y).tags = s.tags := rfl
@[simp] theorem State.setSlot_poison (s : State) (c k : Nat) (y : Slot) : (s.setSlot c k y).poison = s.poison := rfl
@[simp] theorem State.setSlot_lines (s : State) (c k : Nat) (y : Slot) : (s.setSlot c k y).lines = s.lines := rfl
@[simp] theorem State.setSlot_cdata (s : State) (c k : Nat) (y : Slot) : (s.setSlot c k y).cdata = s.cdata := rfl
@[simp] theorem State.setSlot_ctags (s : State) (c k : Nat) (y : Slot) : (s.setSlot c k y).ctags = s.ctags := rfl
@[simp] theorem State.setSlot_cpoison (s : State) (c k : Nat) (y : Slot) : (s.setSlot c k y).cpoison = s.cpoison := rfl
@[simp] theorem State.setSlot_missWait (s : State) (c k : Nat) (y : Slot) : (s.setSlot c k y).missWait = s.missWait := rfl
@[simp] theorem State.setSlot_walkCache (s : State) (c k : Nat) (y : Slot) : (s.setSlot c k y).walkCache = s.walkCache := rfl
@[simp] theorem State.setSlot_ptroot (s : State) (c k : Nat) (y : Slot) : (s.setSlot c k y).ptroot = s.ptroot := rfl
@[simp] theorem State.setSlot_ptwinBase (s : State) (c k : Nat) (y : Slot) : (s.setSlot c k y).ptwinBase = s.ptwinBase := rfl
@[simp] theorem State.setSlot_ptwinSet (s : State) (c k : Nat) (y : Slot) : (s.setSlot c k y).ptwinSet = s.ptwinSet := rfl
@[simp] theorem State.setSlot_drbase (s : State) (c k : Nat) (y : Slot) : (s.setSlot c k y).drbase = s.drbase := rfl
@[simp] theorem State.setSlot_hrtbase (s : State) (c k : Nat) (y : Slot) : (s.setSlot c k y).hrtbase = s.hrtbase := rfl
@[simp] theorem State.setSlot_links (s : State) (c k : Nat) (y : Slot) : (s.setSlot c k y).links = s.links := rfl
@[simp] theorem State.setSlot_hostReplies (s : State) (c k : Nat) (y : Slot) : (s.setSlot c k y).hostReplies = s.hostReplies := rfl
@[simp] theorem State.setSlot_net (s : State) (c k : Nat) (y : Slot) : (s.setSlot c k y).net = s.net := rfl
@[simp] theorem State.setSlot_nacks (s : State) (c k : Nat) (y : Slot) : (s.setSlot c k y).nacks = s.nacks := rfl
@[simp] theorem State.setSlot_held (s : State) (c k : Nat) (y : Slot) : (s.setSlot c k y).held = s.held := rfl
@[simp] theorem State.setSlot_grants (s : State) (c k : Nat) (y : Slot) : (s.setSlot c k y).grants = s.grants := rfl
@[simp] theorem State.setSlot_flights (s : State) (c k : Nat) (y : Slot) : (s.setSlot c k y).flights = s.flights := rfl
@[simp] theorem State.setSlot_lineHolds (s : State) (c k : Nat) (y : Slot) : (s.setSlot c k y).lineHolds = s.lineHolds := rfl
@[simp] theorem State.setSlot_groups (s : State) (c k : Nat) (y : Slot) : (s.setSlot c k y).groups = s.groups := rfl
@[simp] theorem State.setSlot_tasks (s : State) (c k : Nat) (y : Slot) : (s.setSlot c k y).tasks = s.tasks := rfl
@[simp] theorem State.setSlot_taskOrder (s : State) (c k : Nat) (y : Slot) : (s.setSlot c k y).taskOrder = s.taskOrder := rfl
@[simp] theorem State.setSlot_nextUid (s : State) (c k : Nat) (y : Slot) : (s.setSlot c k y).nextUid = s.nextUid := rfl
@[simp] theorem State.setSlot_spawned (s : State) (c k : Nat) (y : Slot) : (s.setSlot c k y).spawned = s.spawned := rfl
@[simp] theorem State.setSlot_records (s : State) (c k : Nat) (y : Slot) : (s.setSlot c k y).records = s.records := rfl
@[simp] theorem State.setSlot_absent (s : State) (c k : Nat) (y : Slot) : (s.setSlot c k y).absent = s.absent := rfl
@[simp] theorem State.setSlot_invals (s : State) (c k : Nat) (y : Slot) : (s.setSlot c k y).invals = s.invals := rfl
@[simp] theorem State.setSlot_stops (s : State) (c k : Nat) (y : Slot) : (s.setSlot c k y).stops = s.stops := rfl
@[simp] theorem State.setSlot_saved (s : State) (c k : Nat) (y : Slot) : (s.setSlot c k y).saved = s.saved := rfl
@[simp] theorem State.setSlot_absence (s : State) (c k : Nat) (y : Slot) : (s.setSlot c k y).absence = s.absence := rfl
@[simp] theorem State.setSlot_absentHeld (s : State) (c k : Nat) (y : Slot) : (s.setSlot c k y).absentHeld = s.absentHeld := rfl
@[simp] theorem State.setSlot_probes (s : State) (c k : Nat) (y : Slot) : (s.setSlot c k y).probes = s.probes := rfl
@[simp] theorem State.setSlot_probeReq (s : State) (c k : Nat) (y : Slot) : (s.setSlot c k y).probeReq = s.probeReq := rfl
@[simp] theorem State.setSlot_accused (s : State) (c k : Nat) (y : Slot) : (s.setSlot c k y).accused = s.accused := rfl
@[simp] theorem State.setSlot_debugReports (s : State) (c k : Nat) (y : Slot) : (s.setSlot c k y).debugReports = s.debugReports := rfl
@[simp] theorem State.setSlot_debugOver (s : State) (c k : Nat) (y : Slot) : (s.setSlot c k y).debugOver = s.debugOver := rfl
@[simp] theorem State.setSlot_scanHead (s : State) (c k : Nat) (y : Slot) : (s.setSlot c k y).scanHead = s.scanHead := rfl
@[simp] theorem State.setSlot_wenlek (s : State) (c k : Nat) (y : Slot) : (s.setSlot c k y).wenlek = s.wenlek := rfl
@[simp] theorem State.setSlot_clock (s : State) (c k : Nat) (y : Slot) : (s.setSlot c k y).clock = s.clock := rfl
@[simp] theorem State.setSlot_dieReset (s : State) (c k : Nat) (y : Slot) : (s.setSlot c k y).dieReset = s.dieReset := rfl
@[simp] theorem State.setSlot_nearGiB (s : State) (c k : Nat) (y : Slot) : (s.setSlot c k y).nearGiB = s.nearGiB := rfl
@[simp] theorem State.setSlot_farGiB (s : State) (c k : Nat) (y : Slot) : (s.setSlot c k y).farGiB = s.farGiB := rfl
@[simp] theorem State.setSlot_tick (s : State) (c k : Nat) (y : Slot) : (s.setSlot c k y).tick = s.tick := rfl
@[simp] theorem State.setSlot_turn (s : State) (c k : Nat) (y : Slot) : (s.setSlot c k y).turn = s.turn := rfl
@[simp] theorem State.setSlot_late (s : State) (c k : Nat) (y : Slot) : (s.setSlot c k y).late = s.late := rfl
@[simp] theorem State.setSlot_curCore (s : State) (c k : Nat) (y : Slot) : (s.setSlot c k y).curCore = s.curCore := rfl
@[simp] theorem State.setSlot_curSlot (s : State) (c k : Nat) (y : Slot) : (s.setSlot c k y).curSlot = s.curSlot := rfl
@[simp] theorem State.setSlot_curWord (s : State) (c k : Nat) (y : Slot) : (s.setSlot c k y).curWord = s.curWord := rfl

/-! State.modSlot. -/

@[simp] theorem State.modSlot_mem (s : State) (c k : Nat) (f : Slot → Slot) : (s.modSlot c k f).mem = s.mem := rfl
@[simp] theorem State.modSlot_tags (s : State) (c k : Nat) (f : Slot → Slot) : (s.modSlot c k f).tags = s.tags := rfl
@[simp] theorem State.modSlot_poison (s : State) (c k : Nat) (f : Slot → Slot) : (s.modSlot c k f).poison = s.poison := rfl
@[simp] theorem State.modSlot_lines (s : State) (c k : Nat) (f : Slot → Slot) : (s.modSlot c k f).lines = s.lines := rfl
@[simp] theorem State.modSlot_cdata (s : State) (c k : Nat) (f : Slot → Slot) : (s.modSlot c k f).cdata = s.cdata := rfl
@[simp] theorem State.modSlot_ctags (s : State) (c k : Nat) (f : Slot → Slot) : (s.modSlot c k f).ctags = s.ctags := rfl
@[simp] theorem State.modSlot_cpoison (s : State) (c k : Nat) (f : Slot → Slot) : (s.modSlot c k f).cpoison = s.cpoison := rfl
@[simp] theorem State.modSlot_missWait (s : State) (c k : Nat) (f : Slot → Slot) : (s.modSlot c k f).missWait = s.missWait := rfl
@[simp] theorem State.modSlot_walkCache (s : State) (c k : Nat) (f : Slot → Slot) : (s.modSlot c k f).walkCache = s.walkCache := rfl
@[simp] theorem State.modSlot_ptroot (s : State) (c k : Nat) (f : Slot → Slot) : (s.modSlot c k f).ptroot = s.ptroot := rfl
@[simp] theorem State.modSlot_ptwinBase (s : State) (c k : Nat) (f : Slot → Slot) : (s.modSlot c k f).ptwinBase = s.ptwinBase := rfl
@[simp] theorem State.modSlot_ptwinSet (s : State) (c k : Nat) (f : Slot → Slot) : (s.modSlot c k f).ptwinSet = s.ptwinSet := rfl
@[simp] theorem State.modSlot_drbase (s : State) (c k : Nat) (f : Slot → Slot) : (s.modSlot c k f).drbase = s.drbase := rfl
@[simp] theorem State.modSlot_hrtbase (s : State) (c k : Nat) (f : Slot → Slot) : (s.modSlot c k f).hrtbase = s.hrtbase := rfl
@[simp] theorem State.modSlot_links (s : State) (c k : Nat) (f : Slot → Slot) : (s.modSlot c k f).links = s.links := rfl
@[simp] theorem State.modSlot_hostReplies (s : State) (c k : Nat) (f : Slot → Slot) : (s.modSlot c k f).hostReplies = s.hostReplies := rfl
@[simp] theorem State.modSlot_net (s : State) (c k : Nat) (f : Slot → Slot) : (s.modSlot c k f).net = s.net := rfl
@[simp] theorem State.modSlot_nacks (s : State) (c k : Nat) (f : Slot → Slot) : (s.modSlot c k f).nacks = s.nacks := rfl
@[simp] theorem State.modSlot_held (s : State) (c k : Nat) (f : Slot → Slot) : (s.modSlot c k f).held = s.held := rfl
@[simp] theorem State.modSlot_grants (s : State) (c k : Nat) (f : Slot → Slot) : (s.modSlot c k f).grants = s.grants := rfl
@[simp] theorem State.modSlot_flights (s : State) (c k : Nat) (f : Slot → Slot) : (s.modSlot c k f).flights = s.flights := rfl
@[simp] theorem State.modSlot_lineHolds (s : State) (c k : Nat) (f : Slot → Slot) : (s.modSlot c k f).lineHolds = s.lineHolds := rfl
@[simp] theorem State.modSlot_groups (s : State) (c k : Nat) (f : Slot → Slot) : (s.modSlot c k f).groups = s.groups := rfl
@[simp] theorem State.modSlot_tasks (s : State) (c k : Nat) (f : Slot → Slot) : (s.modSlot c k f).tasks = s.tasks := rfl
@[simp] theorem State.modSlot_taskOrder (s : State) (c k : Nat) (f : Slot → Slot) : (s.modSlot c k f).taskOrder = s.taskOrder := rfl
@[simp] theorem State.modSlot_nextUid (s : State) (c k : Nat) (f : Slot → Slot) : (s.modSlot c k f).nextUid = s.nextUid := rfl
@[simp] theorem State.modSlot_spawned (s : State) (c k : Nat) (f : Slot → Slot) : (s.modSlot c k f).spawned = s.spawned := rfl
@[simp] theorem State.modSlot_records (s : State) (c k : Nat) (f : Slot → Slot) : (s.modSlot c k f).records = s.records := rfl
@[simp] theorem State.modSlot_absent (s : State) (c k : Nat) (f : Slot → Slot) : (s.modSlot c k f).absent = s.absent := rfl
@[simp] theorem State.modSlot_invals (s : State) (c k : Nat) (f : Slot → Slot) : (s.modSlot c k f).invals = s.invals := rfl
@[simp] theorem State.modSlot_stops (s : State) (c k : Nat) (f : Slot → Slot) : (s.modSlot c k f).stops = s.stops := rfl
@[simp] theorem State.modSlot_saved (s : State) (c k : Nat) (f : Slot → Slot) : (s.modSlot c k f).saved = s.saved := rfl
@[simp] theorem State.modSlot_absence (s : State) (c k : Nat) (f : Slot → Slot) : (s.modSlot c k f).absence = s.absence := rfl
@[simp] theorem State.modSlot_absentHeld (s : State) (c k : Nat) (f : Slot → Slot) : (s.modSlot c k f).absentHeld = s.absentHeld := rfl
@[simp] theorem State.modSlot_probes (s : State) (c k : Nat) (f : Slot → Slot) : (s.modSlot c k f).probes = s.probes := rfl
@[simp] theorem State.modSlot_probeReq (s : State) (c k : Nat) (f : Slot → Slot) : (s.modSlot c k f).probeReq = s.probeReq := rfl
@[simp] theorem State.modSlot_accused (s : State) (c k : Nat) (f : Slot → Slot) : (s.modSlot c k f).accused = s.accused := rfl
@[simp] theorem State.modSlot_debugReports (s : State) (c k : Nat) (f : Slot → Slot) : (s.modSlot c k f).debugReports = s.debugReports := rfl
@[simp] theorem State.modSlot_debugOver (s : State) (c k : Nat) (f : Slot → Slot) : (s.modSlot c k f).debugOver = s.debugOver := rfl
@[simp] theorem State.modSlot_scanHead (s : State) (c k : Nat) (f : Slot → Slot) : (s.modSlot c k f).scanHead = s.scanHead := rfl
@[simp] theorem State.modSlot_wenlek (s : State) (c k : Nat) (f : Slot → Slot) : (s.modSlot c k f).wenlek = s.wenlek := rfl
@[simp] theorem State.modSlot_clock (s : State) (c k : Nat) (f : Slot → Slot) : (s.modSlot c k f).clock = s.clock := rfl
@[simp] theorem State.modSlot_dieReset (s : State) (c k : Nat) (f : Slot → Slot) : (s.modSlot c k f).dieReset = s.dieReset := rfl
@[simp] theorem State.modSlot_nearGiB (s : State) (c k : Nat) (f : Slot → Slot) : (s.modSlot c k f).nearGiB = s.nearGiB := rfl
@[simp] theorem State.modSlot_farGiB (s : State) (c k : Nat) (f : Slot → Slot) : (s.modSlot c k f).farGiB = s.farGiB := rfl
@[simp] theorem State.modSlot_tick (s : State) (c k : Nat) (f : Slot → Slot) : (s.modSlot c k f).tick = s.tick := rfl
@[simp] theorem State.modSlot_turn (s : State) (c k : Nat) (f : Slot → Slot) : (s.modSlot c k f).turn = s.turn := rfl
@[simp] theorem State.modSlot_late (s : State) (c k : Nat) (f : Slot → Slot) : (s.modSlot c k f).late = s.late := rfl
@[simp] theorem State.modSlot_curCore (s : State) (c k : Nat) (f : Slot → Slot) : (s.modSlot c k f).curCore = s.curCore := rfl
@[simp] theorem State.modSlot_curSlot (s : State) (c k : Nat) (f : Slot → Slot) : (s.modSlot c k f).curSlot = s.curSlot := rfl
@[simp] theorem State.modSlot_curWord (s : State) (c k : Nat) (f : Slot → Slot) : (s.modSlot c k f).curWord = s.curWord := rfl

/-! State.setMe. -/

@[simp] theorem State.setMe_mem (s : State) (y : Slot) : (s.setMe y).mem = s.mem := rfl
@[simp] theorem State.setMe_tags (s : State) (y : Slot) : (s.setMe y).tags = s.tags := rfl
@[simp] theorem State.setMe_poison (s : State) (y : Slot) : (s.setMe y).poison = s.poison := rfl
@[simp] theorem State.setMe_lines (s : State) (y : Slot) : (s.setMe y).lines = s.lines := rfl
@[simp] theorem State.setMe_cdata (s : State) (y : Slot) : (s.setMe y).cdata = s.cdata := rfl
@[simp] theorem State.setMe_ctags (s : State) (y : Slot) : (s.setMe y).ctags = s.ctags := rfl
@[simp] theorem State.setMe_cpoison (s : State) (y : Slot) : (s.setMe y).cpoison = s.cpoison := rfl
@[simp] theorem State.setMe_missWait (s : State) (y : Slot) : (s.setMe y).missWait = s.missWait := rfl
@[simp] theorem State.setMe_walkCache (s : State) (y : Slot) : (s.setMe y).walkCache = s.walkCache := rfl
@[simp] theorem State.setMe_ptroot (s : State) (y : Slot) : (s.setMe y).ptroot = s.ptroot := rfl
@[simp] theorem State.setMe_ptwinBase (s : State) (y : Slot) : (s.setMe y).ptwinBase = s.ptwinBase := rfl
@[simp] theorem State.setMe_ptwinSet (s : State) (y : Slot) : (s.setMe y).ptwinSet = s.ptwinSet := rfl
@[simp] theorem State.setMe_drbase (s : State) (y : Slot) : (s.setMe y).drbase = s.drbase := rfl
@[simp] theorem State.setMe_hrtbase (s : State) (y : Slot) : (s.setMe y).hrtbase = s.hrtbase := rfl
@[simp] theorem State.setMe_links (s : State) (y : Slot) : (s.setMe y).links = s.links := rfl
@[simp] theorem State.setMe_hostReplies (s : State) (y : Slot) : (s.setMe y).hostReplies = s.hostReplies := rfl
@[simp] theorem State.setMe_net (s : State) (y : Slot) : (s.setMe y).net = s.net := rfl
@[simp] theorem State.setMe_nacks (s : State) (y : Slot) : (s.setMe y).nacks = s.nacks := rfl
@[simp] theorem State.setMe_held (s : State) (y : Slot) : (s.setMe y).held = s.held := rfl
@[simp] theorem State.setMe_grants (s : State) (y : Slot) : (s.setMe y).grants = s.grants := rfl
@[simp] theorem State.setMe_flights (s : State) (y : Slot) : (s.setMe y).flights = s.flights := rfl
@[simp] theorem State.setMe_lineHolds (s : State) (y : Slot) : (s.setMe y).lineHolds = s.lineHolds := rfl
@[simp] theorem State.setMe_groups (s : State) (y : Slot) : (s.setMe y).groups = s.groups := rfl
@[simp] theorem State.setMe_tasks (s : State) (y : Slot) : (s.setMe y).tasks = s.tasks := rfl
@[simp] theorem State.setMe_taskOrder (s : State) (y : Slot) : (s.setMe y).taskOrder = s.taskOrder := rfl
@[simp] theorem State.setMe_nextUid (s : State) (y : Slot) : (s.setMe y).nextUid = s.nextUid := rfl
@[simp] theorem State.setMe_spawned (s : State) (y : Slot) : (s.setMe y).spawned = s.spawned := rfl
@[simp] theorem State.setMe_records (s : State) (y : Slot) : (s.setMe y).records = s.records := rfl
@[simp] theorem State.setMe_absent (s : State) (y : Slot) : (s.setMe y).absent = s.absent := rfl
@[simp] theorem State.setMe_invals (s : State) (y : Slot) : (s.setMe y).invals = s.invals := rfl
@[simp] theorem State.setMe_stops (s : State) (y : Slot) : (s.setMe y).stops = s.stops := rfl
@[simp] theorem State.setMe_saved (s : State) (y : Slot) : (s.setMe y).saved = s.saved := rfl
@[simp] theorem State.setMe_absence (s : State) (y : Slot) : (s.setMe y).absence = s.absence := rfl
@[simp] theorem State.setMe_absentHeld (s : State) (y : Slot) : (s.setMe y).absentHeld = s.absentHeld := rfl
@[simp] theorem State.setMe_probes (s : State) (y : Slot) : (s.setMe y).probes = s.probes := rfl
@[simp] theorem State.setMe_probeReq (s : State) (y : Slot) : (s.setMe y).probeReq = s.probeReq := rfl
@[simp] theorem State.setMe_accused (s : State) (y : Slot) : (s.setMe y).accused = s.accused := rfl
@[simp] theorem State.setMe_debugReports (s : State) (y : Slot) : (s.setMe y).debugReports = s.debugReports := rfl
@[simp] theorem State.setMe_debugOver (s : State) (y : Slot) : (s.setMe y).debugOver = s.debugOver := rfl
@[simp] theorem State.setMe_scanHead (s : State) (y : Slot) : (s.setMe y).scanHead = s.scanHead := rfl
@[simp] theorem State.setMe_wenlek (s : State) (y : Slot) : (s.setMe y).wenlek = s.wenlek := rfl
@[simp] theorem State.setMe_clock (s : State) (y : Slot) : (s.setMe y).clock = s.clock := rfl
@[simp] theorem State.setMe_dieReset (s : State) (y : Slot) : (s.setMe y).dieReset = s.dieReset := rfl
@[simp] theorem State.setMe_nearGiB (s : State) (y : Slot) : (s.setMe y).nearGiB = s.nearGiB := rfl
@[simp] theorem State.setMe_farGiB (s : State) (y : Slot) : (s.setMe y).farGiB = s.farGiB := rfl
@[simp] theorem State.setMe_tick (s : State) (y : Slot) : (s.setMe y).tick = s.tick := rfl
@[simp] theorem State.setMe_turn (s : State) (y : Slot) : (s.setMe y).turn = s.turn := rfl
@[simp] theorem State.setMe_late (s : State) (y : Slot) : (s.setMe y).late = s.late := rfl
@[simp] theorem State.setMe_curCore (s : State) (y : Slot) : (s.setMe y).curCore = s.curCore := rfl
@[simp] theorem State.setMe_curSlot (s : State) (y : Slot) : (s.setMe y).curSlot = s.curSlot := rfl
@[simp] theorem State.setMe_curWord (s : State) (y : Slot) : (s.setMe y).curWord = s.curWord := rfl

/-! State.modMe. -/

@[simp] theorem State.modMe_mem (s : State) (f : Slot → Slot) : (s.modMe f).mem = s.mem := rfl
@[simp] theorem State.modMe_tags (s : State) (f : Slot → Slot) : (s.modMe f).tags = s.tags := rfl
@[simp] theorem State.modMe_poison (s : State) (f : Slot → Slot) : (s.modMe f).poison = s.poison := rfl
@[simp] theorem State.modMe_lines (s : State) (f : Slot → Slot) : (s.modMe f).lines = s.lines := rfl
@[simp] theorem State.modMe_cdata (s : State) (f : Slot → Slot) : (s.modMe f).cdata = s.cdata := rfl
@[simp] theorem State.modMe_ctags (s : State) (f : Slot → Slot) : (s.modMe f).ctags = s.ctags := rfl
@[simp] theorem State.modMe_cpoison (s : State) (f : Slot → Slot) : (s.modMe f).cpoison = s.cpoison := rfl
@[simp] theorem State.modMe_missWait (s : State) (f : Slot → Slot) : (s.modMe f).missWait = s.missWait := rfl
@[simp] theorem State.modMe_walkCache (s : State) (f : Slot → Slot) : (s.modMe f).walkCache = s.walkCache := rfl
@[simp] theorem State.modMe_ptroot (s : State) (f : Slot → Slot) : (s.modMe f).ptroot = s.ptroot := rfl
@[simp] theorem State.modMe_ptwinBase (s : State) (f : Slot → Slot) : (s.modMe f).ptwinBase = s.ptwinBase := rfl
@[simp] theorem State.modMe_ptwinSet (s : State) (f : Slot → Slot) : (s.modMe f).ptwinSet = s.ptwinSet := rfl
@[simp] theorem State.modMe_drbase (s : State) (f : Slot → Slot) : (s.modMe f).drbase = s.drbase := rfl
@[simp] theorem State.modMe_hrtbase (s : State) (f : Slot → Slot) : (s.modMe f).hrtbase = s.hrtbase := rfl
@[simp] theorem State.modMe_links (s : State) (f : Slot → Slot) : (s.modMe f).links = s.links := rfl
@[simp] theorem State.modMe_hostReplies (s : State) (f : Slot → Slot) : (s.modMe f).hostReplies = s.hostReplies := rfl
@[simp] theorem State.modMe_net (s : State) (f : Slot → Slot) : (s.modMe f).net = s.net := rfl
@[simp] theorem State.modMe_nacks (s : State) (f : Slot → Slot) : (s.modMe f).nacks = s.nacks := rfl
@[simp] theorem State.modMe_held (s : State) (f : Slot → Slot) : (s.modMe f).held = s.held := rfl
@[simp] theorem State.modMe_grants (s : State) (f : Slot → Slot) : (s.modMe f).grants = s.grants := rfl
@[simp] theorem State.modMe_flights (s : State) (f : Slot → Slot) : (s.modMe f).flights = s.flights := rfl
@[simp] theorem State.modMe_lineHolds (s : State) (f : Slot → Slot) : (s.modMe f).lineHolds = s.lineHolds := rfl
@[simp] theorem State.modMe_groups (s : State) (f : Slot → Slot) : (s.modMe f).groups = s.groups := rfl
@[simp] theorem State.modMe_tasks (s : State) (f : Slot → Slot) : (s.modMe f).tasks = s.tasks := rfl
@[simp] theorem State.modMe_taskOrder (s : State) (f : Slot → Slot) : (s.modMe f).taskOrder = s.taskOrder := rfl
@[simp] theorem State.modMe_nextUid (s : State) (f : Slot → Slot) : (s.modMe f).nextUid = s.nextUid := rfl
@[simp] theorem State.modMe_spawned (s : State) (f : Slot → Slot) : (s.modMe f).spawned = s.spawned := rfl
@[simp] theorem State.modMe_records (s : State) (f : Slot → Slot) : (s.modMe f).records = s.records := rfl
@[simp] theorem State.modMe_absent (s : State) (f : Slot → Slot) : (s.modMe f).absent = s.absent := rfl
@[simp] theorem State.modMe_invals (s : State) (f : Slot → Slot) : (s.modMe f).invals = s.invals := rfl
@[simp] theorem State.modMe_stops (s : State) (f : Slot → Slot) : (s.modMe f).stops = s.stops := rfl
@[simp] theorem State.modMe_saved (s : State) (f : Slot → Slot) : (s.modMe f).saved = s.saved := rfl
@[simp] theorem State.modMe_absence (s : State) (f : Slot → Slot) : (s.modMe f).absence = s.absence := rfl
@[simp] theorem State.modMe_absentHeld (s : State) (f : Slot → Slot) : (s.modMe f).absentHeld = s.absentHeld := rfl
@[simp] theorem State.modMe_probes (s : State) (f : Slot → Slot) : (s.modMe f).probes = s.probes := rfl
@[simp] theorem State.modMe_probeReq (s : State) (f : Slot → Slot) : (s.modMe f).probeReq = s.probeReq := rfl
@[simp] theorem State.modMe_accused (s : State) (f : Slot → Slot) : (s.modMe f).accused = s.accused := rfl
@[simp] theorem State.modMe_debugReports (s : State) (f : Slot → Slot) : (s.modMe f).debugReports = s.debugReports := rfl
@[simp] theorem State.modMe_debugOver (s : State) (f : Slot → Slot) : (s.modMe f).debugOver = s.debugOver := rfl
@[simp] theorem State.modMe_scanHead (s : State) (f : Slot → Slot) : (s.modMe f).scanHead = s.scanHead := rfl
@[simp] theorem State.modMe_wenlek (s : State) (f : Slot → Slot) : (s.modMe f).wenlek = s.wenlek := rfl
@[simp] theorem State.modMe_clock (s : State) (f : Slot → Slot) : (s.modMe f).clock = s.clock := rfl
@[simp] theorem State.modMe_dieReset (s : State) (f : Slot → Slot) : (s.modMe f).dieReset = s.dieReset := rfl
@[simp] theorem State.modMe_nearGiB (s : State) (f : Slot → Slot) : (s.modMe f).nearGiB = s.nearGiB := rfl
@[simp] theorem State.modMe_farGiB (s : State) (f : Slot → Slot) : (s.modMe f).farGiB = s.farGiB := rfl
@[simp] theorem State.modMe_tick (s : State) (f : Slot → Slot) : (s.modMe f).tick = s.tick := rfl
@[simp] theorem State.modMe_turn (s : State) (f : Slot → Slot) : (s.modMe f).turn = s.turn := rfl
@[simp] theorem State.modMe_late (s : State) (f : Slot → Slot) : (s.modMe f).late = s.late := rfl
@[simp] theorem State.modMe_curCore (s : State) (f : Slot → Slot) : (s.modMe f).curCore = s.curCore := rfl
@[simp] theorem State.modMe_curSlot (s : State) (f : Slot → Slot) : (s.modMe f).curSlot = s.curSlot := rfl
@[simp] theorem State.modMe_curWord (s : State) (f : Slot → Slot) : (s.modMe f).curWord = s.curWord := rfl

/-! State.modEng. -/

@[simp] theorem State.modEng_mem (s : State) (c : Nat) (f : Engine → Engine) : (s.modEng c f).mem = s.mem := rfl
@[simp] theorem State.modEng_tags (s : State) (c : Nat) (f : Engine → Engine) : (s.modEng c f).tags = s.tags := rfl
@[simp] theorem State.modEng_poison (s : State) (c : Nat) (f : Engine → Engine) : (s.modEng c f).poison = s.poison := rfl
@[simp] theorem State.modEng_lines (s : State) (c : Nat) (f : Engine → Engine) : (s.modEng c f).lines = s.lines := rfl
@[simp] theorem State.modEng_cdata (s : State) (c : Nat) (f : Engine → Engine) : (s.modEng c f).cdata = s.cdata := rfl
@[simp] theorem State.modEng_ctags (s : State) (c : Nat) (f : Engine → Engine) : (s.modEng c f).ctags = s.ctags := rfl
@[simp] theorem State.modEng_cpoison (s : State) (c : Nat) (f : Engine → Engine) : (s.modEng c f).cpoison = s.cpoison := rfl
@[simp] theorem State.modEng_missWait (s : State) (c : Nat) (f : Engine → Engine) : (s.modEng c f).missWait = s.missWait := rfl
@[simp] theorem State.modEng_walkCache (s : State) (c : Nat) (f : Engine → Engine) : (s.modEng c f).walkCache = s.walkCache := rfl
@[simp] theorem State.modEng_ptroot (s : State) (c : Nat) (f : Engine → Engine) : (s.modEng c f).ptroot = s.ptroot := rfl
@[simp] theorem State.modEng_ptwinBase (s : State) (c : Nat) (f : Engine → Engine) : (s.modEng c f).ptwinBase = s.ptwinBase := rfl
@[simp] theorem State.modEng_ptwinSet (s : State) (c : Nat) (f : Engine → Engine) : (s.modEng c f).ptwinSet = s.ptwinSet := rfl
@[simp] theorem State.modEng_drbase (s : State) (c : Nat) (f : Engine → Engine) : (s.modEng c f).drbase = s.drbase := rfl
@[simp] theorem State.modEng_hrtbase (s : State) (c : Nat) (f : Engine → Engine) : (s.modEng c f).hrtbase = s.hrtbase := rfl
@[simp] theorem State.modEng_links (s : State) (c : Nat) (f : Engine → Engine) : (s.modEng c f).links = s.links := rfl
@[simp] theorem State.modEng_hostReplies (s : State) (c : Nat) (f : Engine → Engine) : (s.modEng c f).hostReplies = s.hostReplies := rfl
@[simp] theorem State.modEng_net (s : State) (c : Nat) (f : Engine → Engine) : (s.modEng c f).net = s.net := rfl
@[simp] theorem State.modEng_nacks (s : State) (c : Nat) (f : Engine → Engine) : (s.modEng c f).nacks = s.nacks := rfl
@[simp] theorem State.modEng_held (s : State) (c : Nat) (f : Engine → Engine) : (s.modEng c f).held = s.held := rfl
@[simp] theorem State.modEng_grants (s : State) (c : Nat) (f : Engine → Engine) : (s.modEng c f).grants = s.grants := rfl
@[simp] theorem State.modEng_flights (s : State) (c : Nat) (f : Engine → Engine) : (s.modEng c f).flights = s.flights := rfl
@[simp] theorem State.modEng_lineHolds (s : State) (c : Nat) (f : Engine → Engine) : (s.modEng c f).lineHolds = s.lineHolds := rfl
@[simp] theorem State.modEng_groups (s : State) (c : Nat) (f : Engine → Engine) : (s.modEng c f).groups = s.groups := rfl
@[simp] theorem State.modEng_tasks (s : State) (c : Nat) (f : Engine → Engine) : (s.modEng c f).tasks = s.tasks := rfl
@[simp] theorem State.modEng_taskOrder (s : State) (c : Nat) (f : Engine → Engine) : (s.modEng c f).taskOrder = s.taskOrder := rfl
@[simp] theorem State.modEng_nextUid (s : State) (c : Nat) (f : Engine → Engine) : (s.modEng c f).nextUid = s.nextUid := rfl
@[simp] theorem State.modEng_spawned (s : State) (c : Nat) (f : Engine → Engine) : (s.modEng c f).spawned = s.spawned := rfl
@[simp] theorem State.modEng_records (s : State) (c : Nat) (f : Engine → Engine) : (s.modEng c f).records = s.records := rfl
@[simp] theorem State.modEng_absent (s : State) (c : Nat) (f : Engine → Engine) : (s.modEng c f).absent = s.absent := rfl
@[simp] theorem State.modEng_invals (s : State) (c : Nat) (f : Engine → Engine) : (s.modEng c f).invals = s.invals := rfl
@[simp] theorem State.modEng_stops (s : State) (c : Nat) (f : Engine → Engine) : (s.modEng c f).stops = s.stops := rfl
@[simp] theorem State.modEng_saved (s : State) (c : Nat) (f : Engine → Engine) : (s.modEng c f).saved = s.saved := rfl
@[simp] theorem State.modEng_absence (s : State) (c : Nat) (f : Engine → Engine) : (s.modEng c f).absence = s.absence := rfl
@[simp] theorem State.modEng_absentHeld (s : State) (c : Nat) (f : Engine → Engine) : (s.modEng c f).absentHeld = s.absentHeld := rfl
@[simp] theorem State.modEng_probes (s : State) (c : Nat) (f : Engine → Engine) : (s.modEng c f).probes = s.probes := rfl
@[simp] theorem State.modEng_probeReq (s : State) (c : Nat) (f : Engine → Engine) : (s.modEng c f).probeReq = s.probeReq := rfl
@[simp] theorem State.modEng_accused (s : State) (c : Nat) (f : Engine → Engine) : (s.modEng c f).accused = s.accused := rfl
@[simp] theorem State.modEng_debugReports (s : State) (c : Nat) (f : Engine → Engine) : (s.modEng c f).debugReports = s.debugReports := rfl
@[simp] theorem State.modEng_debugOver (s : State) (c : Nat) (f : Engine → Engine) : (s.modEng c f).debugOver = s.debugOver := rfl
@[simp] theorem State.modEng_scanHead (s : State) (c : Nat) (f : Engine → Engine) : (s.modEng c f).scanHead = s.scanHead := rfl
@[simp] theorem State.modEng_wenlek (s : State) (c : Nat) (f : Engine → Engine) : (s.modEng c f).wenlek = s.wenlek := rfl
@[simp] theorem State.modEng_clock (s : State) (c : Nat) (f : Engine → Engine) : (s.modEng c f).clock = s.clock := rfl
@[simp] theorem State.modEng_dieReset (s : State) (c : Nat) (f : Engine → Engine) : (s.modEng c f).dieReset = s.dieReset := rfl
@[simp] theorem State.modEng_nearGiB (s : State) (c : Nat) (f : Engine → Engine) : (s.modEng c f).nearGiB = s.nearGiB := rfl
@[simp] theorem State.modEng_farGiB (s : State) (c : Nat) (f : Engine → Engine) : (s.modEng c f).farGiB = s.farGiB := rfl
@[simp] theorem State.modEng_tick (s : State) (c : Nat) (f : Engine → Engine) : (s.modEng c f).tick = s.tick := rfl
@[simp] theorem State.modEng_turn (s : State) (c : Nat) (f : Engine → Engine) : (s.modEng c f).turn = s.turn := rfl
@[simp] theorem State.modEng_late (s : State) (c : Nat) (f : Engine → Engine) : (s.modEng c f).late = s.late := rfl
@[simp] theorem State.modEng_curCore (s : State) (c : Nat) (f : Engine → Engine) : (s.modEng c f).curCore = s.curCore := rfl
@[simp] theorem State.modEng_curSlot (s : State) (c : Nat) (f : Engine → Engine) : (s.modEng c f).curSlot = s.curSlot := rfl
@[simp] theorem State.modEng_curWord (s : State) (c : Nat) (f : Engine → Engine) : (s.modEng c f).curWord = s.curWord := rfl

/-! State.modMx. -/

@[simp] theorem State.modMx_mem (s : State) (c : Nat) (f : Mx → Mx) : (s.modMx c f).mem = s.mem := rfl
@[simp] theorem State.modMx_tags (s : State) (c : Nat) (f : Mx → Mx) : (s.modMx c f).tags = s.tags := rfl
@[simp] theorem State.modMx_poison (s : State) (c : Nat) (f : Mx → Mx) : (s.modMx c f).poison = s.poison := rfl
@[simp] theorem State.modMx_lines (s : State) (c : Nat) (f : Mx → Mx) : (s.modMx c f).lines = s.lines := rfl
@[simp] theorem State.modMx_cdata (s : State) (c : Nat) (f : Mx → Mx) : (s.modMx c f).cdata = s.cdata := rfl
@[simp] theorem State.modMx_ctags (s : State) (c : Nat) (f : Mx → Mx) : (s.modMx c f).ctags = s.ctags := rfl
@[simp] theorem State.modMx_cpoison (s : State) (c : Nat) (f : Mx → Mx) : (s.modMx c f).cpoison = s.cpoison := rfl
@[simp] theorem State.modMx_missWait (s : State) (c : Nat) (f : Mx → Mx) : (s.modMx c f).missWait = s.missWait := rfl
@[simp] theorem State.modMx_walkCache (s : State) (c : Nat) (f : Mx → Mx) : (s.modMx c f).walkCache = s.walkCache := rfl
@[simp] theorem State.modMx_ptroot (s : State) (c : Nat) (f : Mx → Mx) : (s.modMx c f).ptroot = s.ptroot := rfl
@[simp] theorem State.modMx_ptwinBase (s : State) (c : Nat) (f : Mx → Mx) : (s.modMx c f).ptwinBase = s.ptwinBase := rfl
@[simp] theorem State.modMx_ptwinSet (s : State) (c : Nat) (f : Mx → Mx) : (s.modMx c f).ptwinSet = s.ptwinSet := rfl
@[simp] theorem State.modMx_drbase (s : State) (c : Nat) (f : Mx → Mx) : (s.modMx c f).drbase = s.drbase := rfl
@[simp] theorem State.modMx_hrtbase (s : State) (c : Nat) (f : Mx → Mx) : (s.modMx c f).hrtbase = s.hrtbase := rfl
@[simp] theorem State.modMx_links (s : State) (c : Nat) (f : Mx → Mx) : (s.modMx c f).links = s.links := rfl
@[simp] theorem State.modMx_hostReplies (s : State) (c : Nat) (f : Mx → Mx) : (s.modMx c f).hostReplies = s.hostReplies := rfl
@[simp] theorem State.modMx_net (s : State) (c : Nat) (f : Mx → Mx) : (s.modMx c f).net = s.net := rfl
@[simp] theorem State.modMx_nacks (s : State) (c : Nat) (f : Mx → Mx) : (s.modMx c f).nacks = s.nacks := rfl
@[simp] theorem State.modMx_held (s : State) (c : Nat) (f : Mx → Mx) : (s.modMx c f).held = s.held := rfl
@[simp] theorem State.modMx_grants (s : State) (c : Nat) (f : Mx → Mx) : (s.modMx c f).grants = s.grants := rfl
@[simp] theorem State.modMx_flights (s : State) (c : Nat) (f : Mx → Mx) : (s.modMx c f).flights = s.flights := rfl
@[simp] theorem State.modMx_lineHolds (s : State) (c : Nat) (f : Mx → Mx) : (s.modMx c f).lineHolds = s.lineHolds := rfl
@[simp] theorem State.modMx_groups (s : State) (c : Nat) (f : Mx → Mx) : (s.modMx c f).groups = s.groups := rfl
@[simp] theorem State.modMx_tasks (s : State) (c : Nat) (f : Mx → Mx) : (s.modMx c f).tasks = s.tasks := rfl
@[simp] theorem State.modMx_taskOrder (s : State) (c : Nat) (f : Mx → Mx) : (s.modMx c f).taskOrder = s.taskOrder := rfl
@[simp] theorem State.modMx_nextUid (s : State) (c : Nat) (f : Mx → Mx) : (s.modMx c f).nextUid = s.nextUid := rfl
@[simp] theorem State.modMx_spawned (s : State) (c : Nat) (f : Mx → Mx) : (s.modMx c f).spawned = s.spawned := rfl
@[simp] theorem State.modMx_records (s : State) (c : Nat) (f : Mx → Mx) : (s.modMx c f).records = s.records := rfl
@[simp] theorem State.modMx_absent (s : State) (c : Nat) (f : Mx → Mx) : (s.modMx c f).absent = s.absent := rfl
@[simp] theorem State.modMx_invals (s : State) (c : Nat) (f : Mx → Mx) : (s.modMx c f).invals = s.invals := rfl
@[simp] theorem State.modMx_stops (s : State) (c : Nat) (f : Mx → Mx) : (s.modMx c f).stops = s.stops := rfl
@[simp] theorem State.modMx_saved (s : State) (c : Nat) (f : Mx → Mx) : (s.modMx c f).saved = s.saved := rfl
@[simp] theorem State.modMx_absence (s : State) (c : Nat) (f : Mx → Mx) : (s.modMx c f).absence = s.absence := rfl
@[simp] theorem State.modMx_absentHeld (s : State) (c : Nat) (f : Mx → Mx) : (s.modMx c f).absentHeld = s.absentHeld := rfl
@[simp] theorem State.modMx_probes (s : State) (c : Nat) (f : Mx → Mx) : (s.modMx c f).probes = s.probes := rfl
@[simp] theorem State.modMx_probeReq (s : State) (c : Nat) (f : Mx → Mx) : (s.modMx c f).probeReq = s.probeReq := rfl
@[simp] theorem State.modMx_accused (s : State) (c : Nat) (f : Mx → Mx) : (s.modMx c f).accused = s.accused := rfl
@[simp] theorem State.modMx_debugReports (s : State) (c : Nat) (f : Mx → Mx) : (s.modMx c f).debugReports = s.debugReports := rfl
@[simp] theorem State.modMx_debugOver (s : State) (c : Nat) (f : Mx → Mx) : (s.modMx c f).debugOver = s.debugOver := rfl
@[simp] theorem State.modMx_scanHead (s : State) (c : Nat) (f : Mx → Mx) : (s.modMx c f).scanHead = s.scanHead := rfl
@[simp] theorem State.modMx_wenlek (s : State) (c : Nat) (f : Mx → Mx) : (s.modMx c f).wenlek = s.wenlek := rfl
@[simp] theorem State.modMx_clock (s : State) (c : Nat) (f : Mx → Mx) : (s.modMx c f).clock = s.clock := rfl
@[simp] theorem State.modMx_dieReset (s : State) (c : Nat) (f : Mx → Mx) : (s.modMx c f).dieReset = s.dieReset := rfl
@[simp] theorem State.modMx_nearGiB (s : State) (c : Nat) (f : Mx → Mx) : (s.modMx c f).nearGiB = s.nearGiB := rfl
@[simp] theorem State.modMx_farGiB (s : State) (c : Nat) (f : Mx → Mx) : (s.modMx c f).farGiB = s.farGiB := rfl
@[simp] theorem State.modMx_tick (s : State) (c : Nat) (f : Mx → Mx) : (s.modMx c f).tick = s.tick := rfl
@[simp] theorem State.modMx_turn (s : State) (c : Nat) (f : Mx → Mx) : (s.modMx c f).turn = s.turn := rfl
@[simp] theorem State.modMx_late (s : State) (c : Nat) (f : Mx → Mx) : (s.modMx c f).late = s.late := rfl
@[simp] theorem State.modMx_curCore (s : State) (c : Nat) (f : Mx → Mx) : (s.modMx c f).curCore = s.curCore := rfl
@[simp] theorem State.modMx_curSlot (s : State) (c : Nat) (f : Mx → Mx) : (s.modMx c f).curSlot = s.curSlot := rfl
@[simp] theorem State.modMx_curWord (s : State) (c : Nat) (f : Mx → Mx) : (s.modMx c f).curWord = s.curWord := rfl

/-! State.modLink. -/

@[simp] theorem State.modLink_cores (s : State) (n : Nat) (f : Link → Link) : (s.modLink n f).cores = s.cores := rfl
@[simp] theorem State.modLink_mem (s : State) (n : Nat) (f : Link → Link) : (s.modLink n f).mem = s.mem := rfl
@[simp] theorem State.modLink_tags (s : State) (n : Nat) (f : Link → Link) : (s.modLink n f).tags = s.tags := rfl
@[simp] theorem State.modLink_poison (s : State) (n : Nat) (f : Link → Link) : (s.modLink n f).poison = s.poison := rfl
@[simp] theorem State.modLink_lines (s : State) (n : Nat) (f : Link → Link) : (s.modLink n f).lines = s.lines := rfl
@[simp] theorem State.modLink_cdata (s : State) (n : Nat) (f : Link → Link) : (s.modLink n f).cdata = s.cdata := rfl
@[simp] theorem State.modLink_ctags (s : State) (n : Nat) (f : Link → Link) : (s.modLink n f).ctags = s.ctags := rfl
@[simp] theorem State.modLink_cpoison (s : State) (n : Nat) (f : Link → Link) : (s.modLink n f).cpoison = s.cpoison := rfl
@[simp] theorem State.modLink_missWait (s : State) (n : Nat) (f : Link → Link) : (s.modLink n f).missWait = s.missWait := rfl
@[simp] theorem State.modLink_walkCache (s : State) (n : Nat) (f : Link → Link) : (s.modLink n f).walkCache = s.walkCache := rfl
@[simp] theorem State.modLink_ptroot (s : State) (n : Nat) (f : Link → Link) : (s.modLink n f).ptroot = s.ptroot := rfl
@[simp] theorem State.modLink_ptwinBase (s : State) (n : Nat) (f : Link → Link) : (s.modLink n f).ptwinBase = s.ptwinBase := rfl
@[simp] theorem State.modLink_ptwinSet (s : State) (n : Nat) (f : Link → Link) : (s.modLink n f).ptwinSet = s.ptwinSet := rfl
@[simp] theorem State.modLink_drbase (s : State) (n : Nat) (f : Link → Link) : (s.modLink n f).drbase = s.drbase := rfl
@[simp] theorem State.modLink_hrtbase (s : State) (n : Nat) (f : Link → Link) : (s.modLink n f).hrtbase = s.hrtbase := rfl
@[simp] theorem State.modLink_hostReplies (s : State) (n : Nat) (f : Link → Link) : (s.modLink n f).hostReplies = s.hostReplies := rfl
@[simp] theorem State.modLink_net (s : State) (n : Nat) (f : Link → Link) : (s.modLink n f).net = s.net := rfl
@[simp] theorem State.modLink_nacks (s : State) (n : Nat) (f : Link → Link) : (s.modLink n f).nacks = s.nacks := rfl
@[simp] theorem State.modLink_held (s : State) (n : Nat) (f : Link → Link) : (s.modLink n f).held = s.held := rfl
@[simp] theorem State.modLink_grants (s : State) (n : Nat) (f : Link → Link) : (s.modLink n f).grants = s.grants := rfl
@[simp] theorem State.modLink_flights (s : State) (n : Nat) (f : Link → Link) : (s.modLink n f).flights = s.flights := rfl
@[simp] theorem State.modLink_lineHolds (s : State) (n : Nat) (f : Link → Link) : (s.modLink n f).lineHolds = s.lineHolds := rfl
@[simp] theorem State.modLink_groups (s : State) (n : Nat) (f : Link → Link) : (s.modLink n f).groups = s.groups := rfl
@[simp] theorem State.modLink_tasks (s : State) (n : Nat) (f : Link → Link) : (s.modLink n f).tasks = s.tasks := rfl
@[simp] theorem State.modLink_taskOrder (s : State) (n : Nat) (f : Link → Link) : (s.modLink n f).taskOrder = s.taskOrder := rfl
@[simp] theorem State.modLink_nextUid (s : State) (n : Nat) (f : Link → Link) : (s.modLink n f).nextUid = s.nextUid := rfl
@[simp] theorem State.modLink_spawned (s : State) (n : Nat) (f : Link → Link) : (s.modLink n f).spawned = s.spawned := rfl
@[simp] theorem State.modLink_records (s : State) (n : Nat) (f : Link → Link) : (s.modLink n f).records = s.records := rfl
@[simp] theorem State.modLink_absent (s : State) (n : Nat) (f : Link → Link) : (s.modLink n f).absent = s.absent := rfl
@[simp] theorem State.modLink_invals (s : State) (n : Nat) (f : Link → Link) : (s.modLink n f).invals = s.invals := rfl
@[simp] theorem State.modLink_stops (s : State) (n : Nat) (f : Link → Link) : (s.modLink n f).stops = s.stops := rfl
@[simp] theorem State.modLink_saved (s : State) (n : Nat) (f : Link → Link) : (s.modLink n f).saved = s.saved := rfl
@[simp] theorem State.modLink_absence (s : State) (n : Nat) (f : Link → Link) : (s.modLink n f).absence = s.absence := rfl
@[simp] theorem State.modLink_absentHeld (s : State) (n : Nat) (f : Link → Link) : (s.modLink n f).absentHeld = s.absentHeld := rfl
@[simp] theorem State.modLink_probes (s : State) (n : Nat) (f : Link → Link) : (s.modLink n f).probes = s.probes := rfl
@[simp] theorem State.modLink_probeReq (s : State) (n : Nat) (f : Link → Link) : (s.modLink n f).probeReq = s.probeReq := rfl
@[simp] theorem State.modLink_accused (s : State) (n : Nat) (f : Link → Link) : (s.modLink n f).accused = s.accused := rfl
@[simp] theorem State.modLink_debugReports (s : State) (n : Nat) (f : Link → Link) : (s.modLink n f).debugReports = s.debugReports := rfl
@[simp] theorem State.modLink_debugOver (s : State) (n : Nat) (f : Link → Link) : (s.modLink n f).debugOver = s.debugOver := rfl
@[simp] theorem State.modLink_scanHead (s : State) (n : Nat) (f : Link → Link) : (s.modLink n f).scanHead = s.scanHead := rfl
@[simp] theorem State.modLink_wenlek (s : State) (n : Nat) (f : Link → Link) : (s.modLink n f).wenlek = s.wenlek := rfl
@[simp] theorem State.modLink_clock (s : State) (n : Nat) (f : Link → Link) : (s.modLink n f).clock = s.clock := rfl
@[simp] theorem State.modLink_dieReset (s : State) (n : Nat) (f : Link → Link) : (s.modLink n f).dieReset = s.dieReset := rfl
@[simp] theorem State.modLink_nearGiB (s : State) (n : Nat) (f : Link → Link) : (s.modLink n f).nearGiB = s.nearGiB := rfl
@[simp] theorem State.modLink_farGiB (s : State) (n : Nat) (f : Link → Link) : (s.modLink n f).farGiB = s.farGiB := rfl
@[simp] theorem State.modLink_tick (s : State) (n : Nat) (f : Link → Link) : (s.modLink n f).tick = s.tick := rfl
@[simp] theorem State.modLink_turn (s : State) (n : Nat) (f : Link → Link) : (s.modLink n f).turn = s.turn := rfl
@[simp] theorem State.modLink_late (s : State) (n : Nat) (f : Link → Link) : (s.modLink n f).late = s.late := rfl
@[simp] theorem State.modLink_curCore (s : State) (n : Nat) (f : Link → Link) : (s.modLink n f).curCore = s.curCore := rfl
@[simp] theorem State.modLink_curSlot (s : State) (n : Nat) (f : Link → Link) : (s.modLink n f).curSlot = s.curSlot := rfl
@[simp] theorem State.modLink_curWord (s : State) (n : Nat) (f : Link → Link) : (s.modLink n f).curWord = s.curWord := rfl

/-! physWrite. -/

@[simp] theorem physWrite_cores (a : Nat) (l : List Byte) (g : Bool) (s : State) : (physWrite a l g s).cores = s.cores := rfl
@[simp] theorem physWrite_lines (a : Nat) (l : List Byte) (g : Bool) (s : State) : (physWrite a l g s).lines = s.lines := rfl
@[simp] theorem physWrite_cdata (a : Nat) (l : List Byte) (g : Bool) (s : State) : (physWrite a l g s).cdata = s.cdata := rfl
@[simp] theorem physWrite_ctags (a : Nat) (l : List Byte) (g : Bool) (s : State) : (physWrite a l g s).ctags = s.ctags := rfl
@[simp] theorem physWrite_cpoison (a : Nat) (l : List Byte) (g : Bool) (s : State) : (physWrite a l g s).cpoison = s.cpoison := rfl
@[simp] theorem physWrite_missWait (a : Nat) (l : List Byte) (g : Bool) (s : State) : (physWrite a l g s).missWait = s.missWait := rfl
@[simp] theorem physWrite_walkCache (a : Nat) (l : List Byte) (g : Bool) (s : State) : (physWrite a l g s).walkCache = s.walkCache := rfl
@[simp] theorem physWrite_ptroot (a : Nat) (l : List Byte) (g : Bool) (s : State) : (physWrite a l g s).ptroot = s.ptroot := rfl
@[simp] theorem physWrite_ptwinBase (a : Nat) (l : List Byte) (g : Bool) (s : State) : (physWrite a l g s).ptwinBase = s.ptwinBase := rfl
@[simp] theorem physWrite_ptwinSet (a : Nat) (l : List Byte) (g : Bool) (s : State) : (physWrite a l g s).ptwinSet = s.ptwinSet := rfl
@[simp] theorem physWrite_drbase (a : Nat) (l : List Byte) (g : Bool) (s : State) : (physWrite a l g s).drbase = s.drbase := rfl
@[simp] theorem physWrite_hrtbase (a : Nat) (l : List Byte) (g : Bool) (s : State) : (physWrite a l g s).hrtbase = s.hrtbase := rfl
@[simp] theorem physWrite_links (a : Nat) (l : List Byte) (g : Bool) (s : State) : (physWrite a l g s).links = s.links := rfl
@[simp] theorem physWrite_hostReplies (a : Nat) (l : List Byte) (g : Bool) (s : State) : (physWrite a l g s).hostReplies = s.hostReplies := rfl
@[simp] theorem physWrite_net (a : Nat) (l : List Byte) (g : Bool) (s : State) : (physWrite a l g s).net = s.net := rfl
@[simp] theorem physWrite_nacks (a : Nat) (l : List Byte) (g : Bool) (s : State) : (physWrite a l g s).nacks = s.nacks := rfl
@[simp] theorem physWrite_held (a : Nat) (l : List Byte) (g : Bool) (s : State) : (physWrite a l g s).held = s.held := rfl
@[simp] theorem physWrite_grants (a : Nat) (l : List Byte) (g : Bool) (s : State) : (physWrite a l g s).grants = s.grants := rfl
@[simp] theorem physWrite_flights (a : Nat) (l : List Byte) (g : Bool) (s : State) : (physWrite a l g s).flights = s.flights := rfl
@[simp] theorem physWrite_lineHolds (a : Nat) (l : List Byte) (g : Bool) (s : State) : (physWrite a l g s).lineHolds = s.lineHolds := rfl
@[simp] theorem physWrite_groups (a : Nat) (l : List Byte) (g : Bool) (s : State) : (physWrite a l g s).groups = s.groups := rfl
@[simp] theorem physWrite_tasks (a : Nat) (l : List Byte) (g : Bool) (s : State) : (physWrite a l g s).tasks = s.tasks := rfl
@[simp] theorem physWrite_taskOrder (a : Nat) (l : List Byte) (g : Bool) (s : State) : (physWrite a l g s).taskOrder = s.taskOrder := rfl
@[simp] theorem physWrite_nextUid (a : Nat) (l : List Byte) (g : Bool) (s : State) : (physWrite a l g s).nextUid = s.nextUid := rfl
@[simp] theorem physWrite_spawned (a : Nat) (l : List Byte) (g : Bool) (s : State) : (physWrite a l g s).spawned = s.spawned := rfl
@[simp] theorem physWrite_records (a : Nat) (l : List Byte) (g : Bool) (s : State) : (physWrite a l g s).records = s.records := rfl
@[simp] theorem physWrite_absent (a : Nat) (l : List Byte) (g : Bool) (s : State) : (physWrite a l g s).absent = s.absent := rfl
@[simp] theorem physWrite_invals (a : Nat) (l : List Byte) (g : Bool) (s : State) : (physWrite a l g s).invals = s.invals := rfl
@[simp] theorem physWrite_stops (a : Nat) (l : List Byte) (g : Bool) (s : State) : (physWrite a l g s).stops = s.stops := rfl
@[simp] theorem physWrite_saved (a : Nat) (l : List Byte) (g : Bool) (s : State) : (physWrite a l g s).saved = s.saved := rfl
@[simp] theorem physWrite_absence (a : Nat) (l : List Byte) (g : Bool) (s : State) : (physWrite a l g s).absence = s.absence := rfl
@[simp] theorem physWrite_absentHeld (a : Nat) (l : List Byte) (g : Bool) (s : State) : (physWrite a l g s).absentHeld = s.absentHeld := rfl
@[simp] theorem physWrite_probes (a : Nat) (l : List Byte) (g : Bool) (s : State) : (physWrite a l g s).probes = s.probes := rfl
@[simp] theorem physWrite_probeReq (a : Nat) (l : List Byte) (g : Bool) (s : State) : (physWrite a l g s).probeReq = s.probeReq := rfl
@[simp] theorem physWrite_accused (a : Nat) (l : List Byte) (g : Bool) (s : State) : (physWrite a l g s).accused = s.accused := rfl
@[simp] theorem physWrite_debugReports (a : Nat) (l : List Byte) (g : Bool) (s : State) : (physWrite a l g s).debugReports = s.debugReports := rfl
@[simp] theorem physWrite_debugOver (a : Nat) (l : List Byte) (g : Bool) (s : State) : (physWrite a l g s).debugOver = s.debugOver := rfl
@[simp] theorem physWrite_scanHead (a : Nat) (l : List Byte) (g : Bool) (s : State) : (physWrite a l g s).scanHead = s.scanHead := rfl
@[simp] theorem physWrite_wenlek (a : Nat) (l : List Byte) (g : Bool) (s : State) : (physWrite a l g s).wenlek = s.wenlek := rfl
@[simp] theorem physWrite_clock (a : Nat) (l : List Byte) (g : Bool) (s : State) : (physWrite a l g s).clock = s.clock := rfl
@[simp] theorem physWrite_dieReset (a : Nat) (l : List Byte) (g : Bool) (s : State) : (physWrite a l g s).dieReset = s.dieReset := rfl
@[simp] theorem physWrite_nearGiB (a : Nat) (l : List Byte) (g : Bool) (s : State) : (physWrite a l g s).nearGiB = s.nearGiB := rfl
@[simp] theorem physWrite_farGiB (a : Nat) (l : List Byte) (g : Bool) (s : State) : (physWrite a l g s).farGiB = s.farGiB := rfl
@[simp] theorem physWrite_tick (a : Nat) (l : List Byte) (g : Bool) (s : State) : (physWrite a l g s).tick = s.tick := rfl
@[simp] theorem physWrite_turn (a : Nat) (l : List Byte) (g : Bool) (s : State) : (physWrite a l g s).turn = s.turn := rfl
@[simp] theorem physWrite_late (a : Nat) (l : List Byte) (g : Bool) (s : State) : (physWrite a l g s).late = s.late := rfl
@[simp] theorem physWrite_curCore (a : Nat) (l : List Byte) (g : Bool) (s : State) : (physWrite a l g s).curCore = s.curCore := rfl
@[simp] theorem physWrite_curSlot (a : Nat) (l : List Byte) (g : Bool) (s : State) : (physWrite a l g s).curSlot = s.curSlot := rfl
@[simp] theorem physWrite_curWord (a : Nat) (l : List Byte) (g : Bool) (s : State) : (physWrite a l g s).curWord = s.curWord := rfl

/-! cacheWrite. -/

@[simp] theorem cacheWrite_cores (h v : Nat) (l : List Byte) (g : Bool) (s : State) : (cacheWrite h v l g s).cores = s.cores := rfl
@[simp] theorem cacheWrite_mem (h v : Nat) (l : List Byte) (g : Bool) (s : State) : (cacheWrite h v l g s).mem = s.mem := rfl
@[simp] theorem cacheWrite_tags (h v : Nat) (l : List Byte) (g : Bool) (s : State) : (cacheWrite h v l g s).tags = s.tags := rfl
@[simp] theorem cacheWrite_poison (h v : Nat) (l : List Byte) (g : Bool) (s : State) : (cacheWrite h v l g s).poison = s.poison := rfl
@[simp] theorem cacheWrite_missWait (h v : Nat) (l : List Byte) (g : Bool) (s : State) : (cacheWrite h v l g s).missWait = s.missWait := rfl
@[simp] theorem cacheWrite_walkCache (h v : Nat) (l : List Byte) (g : Bool) (s : State) : (cacheWrite h v l g s).walkCache = s.walkCache := rfl
@[simp] theorem cacheWrite_ptroot (h v : Nat) (l : List Byte) (g : Bool) (s : State) : (cacheWrite h v l g s).ptroot = s.ptroot := rfl
@[simp] theorem cacheWrite_ptwinBase (h v : Nat) (l : List Byte) (g : Bool) (s : State) : (cacheWrite h v l g s).ptwinBase = s.ptwinBase := rfl
@[simp] theorem cacheWrite_ptwinSet (h v : Nat) (l : List Byte) (g : Bool) (s : State) : (cacheWrite h v l g s).ptwinSet = s.ptwinSet := rfl
@[simp] theorem cacheWrite_drbase (h v : Nat) (l : List Byte) (g : Bool) (s : State) : (cacheWrite h v l g s).drbase = s.drbase := rfl
@[simp] theorem cacheWrite_hrtbase (h v : Nat) (l : List Byte) (g : Bool) (s : State) : (cacheWrite h v l g s).hrtbase = s.hrtbase := rfl
@[simp] theorem cacheWrite_links (h v : Nat) (l : List Byte) (g : Bool) (s : State) : (cacheWrite h v l g s).links = s.links := rfl
@[simp] theorem cacheWrite_hostReplies (h v : Nat) (l : List Byte) (g : Bool) (s : State) : (cacheWrite h v l g s).hostReplies = s.hostReplies := rfl
@[simp] theorem cacheWrite_net (h v : Nat) (l : List Byte) (g : Bool) (s : State) : (cacheWrite h v l g s).net = s.net := rfl
@[simp] theorem cacheWrite_nacks (h v : Nat) (l : List Byte) (g : Bool) (s : State) : (cacheWrite h v l g s).nacks = s.nacks := rfl
@[simp] theorem cacheWrite_held (h v : Nat) (l : List Byte) (g : Bool) (s : State) : (cacheWrite h v l g s).held = s.held := rfl
@[simp] theorem cacheWrite_grants (h v : Nat) (l : List Byte) (g : Bool) (s : State) : (cacheWrite h v l g s).grants = s.grants := rfl
@[simp] theorem cacheWrite_flights (h v : Nat) (l : List Byte) (g : Bool) (s : State) : (cacheWrite h v l g s).flights = s.flights := rfl
@[simp] theorem cacheWrite_lineHolds (h v : Nat) (l : List Byte) (g : Bool) (s : State) : (cacheWrite h v l g s).lineHolds = s.lineHolds := rfl
@[simp] theorem cacheWrite_groups (h v : Nat) (l : List Byte) (g : Bool) (s : State) : (cacheWrite h v l g s).groups = s.groups := rfl
@[simp] theorem cacheWrite_tasks (h v : Nat) (l : List Byte) (g : Bool) (s : State) : (cacheWrite h v l g s).tasks = s.tasks := rfl
@[simp] theorem cacheWrite_taskOrder (h v : Nat) (l : List Byte) (g : Bool) (s : State) : (cacheWrite h v l g s).taskOrder = s.taskOrder := rfl
@[simp] theorem cacheWrite_nextUid (h v : Nat) (l : List Byte) (g : Bool) (s : State) : (cacheWrite h v l g s).nextUid = s.nextUid := rfl
@[simp] theorem cacheWrite_spawned (h v : Nat) (l : List Byte) (g : Bool) (s : State) : (cacheWrite h v l g s).spawned = s.spawned := rfl
@[simp] theorem cacheWrite_records (h v : Nat) (l : List Byte) (g : Bool) (s : State) : (cacheWrite h v l g s).records = s.records := rfl
@[simp] theorem cacheWrite_absent (h v : Nat) (l : List Byte) (g : Bool) (s : State) : (cacheWrite h v l g s).absent = s.absent := rfl
@[simp] theorem cacheWrite_invals (h v : Nat) (l : List Byte) (g : Bool) (s : State) : (cacheWrite h v l g s).invals = s.invals := rfl
@[simp] theorem cacheWrite_stops (h v : Nat) (l : List Byte) (g : Bool) (s : State) : (cacheWrite h v l g s).stops = s.stops := rfl
@[simp] theorem cacheWrite_saved (h v : Nat) (l : List Byte) (g : Bool) (s : State) : (cacheWrite h v l g s).saved = s.saved := rfl
@[simp] theorem cacheWrite_absence (h v : Nat) (l : List Byte) (g : Bool) (s : State) : (cacheWrite h v l g s).absence = s.absence := rfl
@[simp] theorem cacheWrite_absentHeld (h v : Nat) (l : List Byte) (g : Bool) (s : State) : (cacheWrite h v l g s).absentHeld = s.absentHeld := rfl
@[simp] theorem cacheWrite_probes (h v : Nat) (l : List Byte) (g : Bool) (s : State) : (cacheWrite h v l g s).probes = s.probes := rfl
@[simp] theorem cacheWrite_probeReq (h v : Nat) (l : List Byte) (g : Bool) (s : State) : (cacheWrite h v l g s).probeReq = s.probeReq := rfl
@[simp] theorem cacheWrite_accused (h v : Nat) (l : List Byte) (g : Bool) (s : State) : (cacheWrite h v l g s).accused = s.accused := rfl
@[simp] theorem cacheWrite_debugReports (h v : Nat) (l : List Byte) (g : Bool) (s : State) : (cacheWrite h v l g s).debugReports = s.debugReports := rfl
@[simp] theorem cacheWrite_debugOver (h v : Nat) (l : List Byte) (g : Bool) (s : State) : (cacheWrite h v l g s).debugOver = s.debugOver := rfl
@[simp] theorem cacheWrite_scanHead (h v : Nat) (l : List Byte) (g : Bool) (s : State) : (cacheWrite h v l g s).scanHead = s.scanHead := rfl
@[simp] theorem cacheWrite_wenlek (h v : Nat) (l : List Byte) (g : Bool) (s : State) : (cacheWrite h v l g s).wenlek = s.wenlek := rfl
@[simp] theorem cacheWrite_clock (h v : Nat) (l : List Byte) (g : Bool) (s : State) : (cacheWrite h v l g s).clock = s.clock := rfl
@[simp] theorem cacheWrite_dieReset (h v : Nat) (l : List Byte) (g : Bool) (s : State) : (cacheWrite h v l g s).dieReset = s.dieReset := rfl
@[simp] theorem cacheWrite_nearGiB (h v : Nat) (l : List Byte) (g : Bool) (s : State) : (cacheWrite h v l g s).nearGiB = s.nearGiB := rfl
@[simp] theorem cacheWrite_farGiB (h v : Nat) (l : List Byte) (g : Bool) (s : State) : (cacheWrite h v l g s).farGiB = s.farGiB := rfl
@[simp] theorem cacheWrite_tick (h v : Nat) (l : List Byte) (g : Bool) (s : State) : (cacheWrite h v l g s).tick = s.tick := rfl
@[simp] theorem cacheWrite_turn (h v : Nat) (l : List Byte) (g : Bool) (s : State) : (cacheWrite h v l g s).turn = s.turn := rfl
@[simp] theorem cacheWrite_late (h v : Nat) (l : List Byte) (g : Bool) (s : State) : (cacheWrite h v l g s).late = s.late := rfl
@[simp] theorem cacheWrite_curCore (h v : Nat) (l : List Byte) (g : Bool) (s : State) : (cacheWrite h v l g s).curCore = s.curCore := rfl
@[simp] theorem cacheWrite_curSlot (h v : Nat) (l : List Byte) (g : Bool) (s : State) : (cacheWrite h v l g s).curSlot = s.curSlot := rfl
@[simp] theorem cacheWrite_curWord (h v : Nat) (l : List Byte) (g : Bool) (s : State) : (cacheWrite h v l g s).curWord = s.curWord := rfl

/-! Slots and cores. -/

@[simp] theorem Slot.setC_holds (y : Slot) (n : Nat) (r : Reg) : (y.setC n r).holds = y.holds := by
  cases y; rfl
@[simp] theorem Slot.setC_resvFor (y : Slot) (n : Nat) (r : Reg) : (y.setC n r).resvFor = y.resvFor := by
  cases y; rfl
@[simp] theorem Slot.setC_tenant (y : Slot) (n : Nat) (r : Reg) : (y.setC n r).tenant = y.tenant := by
  cases y; rfl
@[simp] theorem Slot.setC_pcc (y : Slot) (n : Nat) (r : Reg) : (y.setC n r).pcc = y.pcc := by
  cases y; rfl
@[simp] theorem Slot.setC_v (y : Slot) (n : Nat) (r : Reg) : (y.setC n r).v = y.v := by
  cases y; rfl
@[simp] theorem Slot.setC_k (y : Slot) (n : Nat) (r : Reg) : (y.setC n r).k = y.k := by
  cases y; rfl
@[simp] theorem Slot.setC_domain (y : Slot) (n : Nat) (r : Reg) : (y.setC n r).domain = y.domain := by
  cases y; rfl
@[simp] theorem Slot.setC_autoMig (y : Slot) (n : Nat) (r : Reg) : (y.setC n r).autoMig = y.autoMig := by
  cases y; rfl
@[simp] theorem Slot.setC_composed (y : Slot) (n : Nat) (r : Reg) : (y.setC n r).composed = y.composed := by
  cases y; rfl
@[simp] theorem Slot.setC_exposed (y : Slot) (n : Nat) (r : Reg) : (y.setC n r).exposed = y.exposed := by
  cases y; rfl
@[simp] theorem Slot.setC_inTrap (y : Slot) (n : Nat) (r : Reg) : (y.setC n r).inTrap = y.inTrap := by
  cases y; rfl
@[simp] theorem Slot.setC_mode (y : Slot) (n : Nat) (r : Reg) : (y.setC n r).mode = y.mode := by
  cases y; rfl
@[simp] theorem Slot.setC_prio (y : Slot) (n : Nat) (r : Reg) : (y.setC n r).prio = y.prio := by
  cases y; rfl
@[simp] theorem Slot.setC_tvec (y : Slot) (n : Nat) (r : Reg) : (y.setC n r).tvec = y.tvec := by
  cases y; rfl
@[simp] theorem Slot.setC_tcause (y : Slot) (n : Nat) (r : Reg) : (y.setC n r).tcause = y.tcause := by
  cases y; rfl
@[simp] theorem Slot.setC_tval (y : Slot) (n : Nat) (r : Reg) : (y.setC n r).tval = y.tval := by
  cases y; rfl
@[simp] theorem Slot.setC_tpc (y : Slot) (n : Nat) (r : Reg) : (y.setC n r).tpc = y.tpc := by
  cases y; rfl
@[simp] theorem Slot.setC_waitr (y : Slot) (n : Nat) (r : Reg) : (y.setC n r).waitr = y.waitr := by
  cases y; rfl
@[simp] theorem Slot.setC_spawnlim (y : Slot) (n : Nat) (r : Reg) : (y.setC n r).spawnlim = y.spawnlim := by
  cases y; rfl
@[simp] theorem Slot.setC_miPos (y : Slot) (n : Nat) (r : Reg) : (y.setC n r).miPos = y.miPos := by
  cases y; rfl
@[simp] theorem Slot.setC_header (y : Slot) (n : Nat) (r : Reg) : (y.setC n r).header = y.header := by
  cases y; rfl
@[simp] theorem Slot.setC_payload (y : Slot) (n : Nat) (r : Reg) : (y.setC n r).payload = y.payload := by
  cases y; rfl
@[simp] theorem Slot.setC_sender (y : Slot) (n : Nat) (r : Reg) : (y.setC n r).sender = y.sender := by
  cases y; rfl
@[simp] theorem Slot.setC_wait (y : Slot) (n : Nat) (r : Reg) : (y.setC n r).wait = y.wait := by
  cases y; rfl
@[simp] theorem Slot.setC_decl (y : Slot) (n : Nat) (r : Reg) : (y.setC n r).decl = y.decl := by
  cases y; rfl
@[simp] theorem Slot.setC_tomb (y : Slot) (n : Nat) (r : Reg) : (y.setC n r).tomb = y.tomb := by
  cases y; rfl
@[simp] theorem Slot.setC_halted (y : Slot) (n : Nat) (r : Reg) : (y.setC n r).halted = y.halted := by
  cases y; rfl
@[simp] theorem Slot.setC_stepping (y : Slot) (n : Nat) (r : Reg) : (y.setC n r).stepping = y.stepping := by
  cases y; rfl
@[simp] theorem Slot.setC_killPend (y : Slot) (n : Nat) (r : Reg) : (y.setC n r).killPend = y.killPend := by
  cases y; rfl
@[simp] theorem Slot.setC_pend (y : Slot) (n : Nat) (r : Reg) : (y.setC n r).pend = y.pend := by
  cases y; rfl
@[simp] theorem Slot.setC_graphFault (y : Slot) (n : Nat) (r : Reg) : (y.setC n r).graphFault = y.graphFault := by
  cases y; rfl
@[simp] theorem Slot.setC_commit (y : Slot) (n : Nat) (r : Reg) : (y.setC n r).commit = y.commit := by
  cases y; rfl
@[simp] theorem Slot.setC_heldMsgs (y : Slot) (n : Nat) (r : Reg) : (y.setC n r).heldMsgs = y.heldMsgs := by
  cases y; rfl
@[simp] theorem Slot.setC_ctxCount (y : Slot) (n : Nat) (r : Reg) : (y.setC n r).ctxCount = y.ctxCount := by
  cases y; rfl
@[simp] theorem Slot.setC_run (y : Slot) (n : Nat) (r : Reg) : (y.setC n r).run = y.run := by
  cases y; rfl
@[simp] theorem Slot.setC_waitSince (y : Slot) (n : Nat) (r : Reg) : (y.setC n r).waitSince = y.waitSince := by
  cases y; rfl
@[simp] theorem Slot.setC_overCount (y : Slot) (n : Nat) (r : Reg) : (y.setC n r).overCount = y.overCount := by
  cases y; rfl
@[simp] theorem Slot.setC_urgent (y : Slot) (n : Nat) (r : Reg) : (y.setC n r).urgent = y.urgent := by
  cases y; rfl
@[simp] theorem Slot.setC_redeliveries (y : Slot) (n : Nat) (r : Reg) : (y.setC n r).redeliveries = y.redeliveries := by
  cases y; rfl
@[simp] theorem Slot.setC_trigger (y : Slot) (n : Nat) (r : Reg) : (y.setC n r).trigger = y.trigger := by
  cases y; rfl
@[simp] theorem Slot.setC_task (y : Slot) (n : Nat) (r : Reg) : (y.setC n r).task = y.task := by
  cases y; rfl
@[simp] theorem Slot.setC_replies (y : Slot) (n : Nat) (r : Reg) : (y.setC n r).replies = y.replies := by
  cases y; rfl
@[simp] theorem Slot.setC_origin (y : Slot) (n : Nat) (r : Reg) : (y.setC n r).origin = y.origin := by
  cases y; rfl
@[simp] theorem Slot.setC_parkWant (y : Slot) (n : Nat) (r : Reg) : (y.setC n r).parkWant = y.parkWant := by
  cases y; rfl
@[simp] theorem Slot.setC_barGroup (y : Slot) (n : Nat) (r : Reg) : (y.setC n r).barGroup = y.barGroup := by
  cases y; rfl
@[simp] theorem Slot.setC_uid (y : Slot) (n : Nat) (r : Reg) : (y.setC n r).uid = y.uid := by
  cases y; rfl
@[simp] theorem Slot.setC_chanWait (y : Slot) (n : Nat) (r : Reg) : (y.setC n r).chanWait = y.chanWait := by
  cases y; rfl
@[simp] theorem Slot.setC_waitArg (y : Slot) (n : Nat) (r : Reg) : (y.setC n r).waitArg = y.waitArg := by
  cases y; rfl
@[simp] theorem Slot.setC_asRem (y : Slot) (n : Nat) (r : Reg) : (y.setC n r).asRem = y.asRem := by
  cases y; rfl
@[simp] theorem Slot.setC_kept (y : Slot) (n : Nat) (r : Reg) : (y.setC n r).kept = y.kept := by
  cases y; rfl
@[simp] theorem Slot.setC_svc (y : Slot) (n : Nat) (r : Reg) : (y.setC n r).svc = y.svc := by
  cases y; rfl

@[simp] theorem Slot.setV_holds (y : Slot) (n : Nat) (x : BitVec 512) : (y.setV n x).holds = y.holds := by
  cases y; rfl
@[simp] theorem Slot.setV_resvFor (y : Slot) (n : Nat) (x : BitVec 512) : (y.setV n x).resvFor = y.resvFor := by
  cases y; rfl
@[simp] theorem Slot.setV_tenant (y : Slot) (n : Nat) (x : BitVec 512) : (y.setV n x).tenant = y.tenant := by
  cases y; rfl
@[simp] theorem Slot.setV_c (y : Slot) (n : Nat) (x : BitVec 512) : (y.setV n x).c = y.c := by
  cases y; rfl
@[simp] theorem Slot.setV_pcc (y : Slot) (n : Nat) (x : BitVec 512) : (y.setV n x).pcc = y.pcc := by
  cases y; rfl
@[simp] theorem Slot.setV_k (y : Slot) (n : Nat) (x : BitVec 512) : (y.setV n x).k = y.k := by
  cases y; rfl
@[simp] theorem Slot.setV_domain (y : Slot) (n : Nat) (x : BitVec 512) : (y.setV n x).domain = y.domain := by
  cases y; rfl
@[simp] theorem Slot.setV_autoMig (y : Slot) (n : Nat) (x : BitVec 512) : (y.setV n x).autoMig = y.autoMig := by
  cases y; rfl
@[simp] theorem Slot.setV_composed (y : Slot) (n : Nat) (x : BitVec 512) : (y.setV n x).composed = y.composed := by
  cases y; rfl
@[simp] theorem Slot.setV_exposed (y : Slot) (n : Nat) (x : BitVec 512) : (y.setV n x).exposed = y.exposed := by
  cases y; rfl
@[simp] theorem Slot.setV_inTrap (y : Slot) (n : Nat) (x : BitVec 512) : (y.setV n x).inTrap = y.inTrap := by
  cases y; rfl
@[simp] theorem Slot.setV_mode (y : Slot) (n : Nat) (x : BitVec 512) : (y.setV n x).mode = y.mode := by
  cases y; rfl
@[simp] theorem Slot.setV_prio (y : Slot) (n : Nat) (x : BitVec 512) : (y.setV n x).prio = y.prio := by
  cases y; rfl
@[simp] theorem Slot.setV_tvec (y : Slot) (n : Nat) (x : BitVec 512) : (y.setV n x).tvec = y.tvec := by
  cases y; rfl
@[simp] theorem Slot.setV_tcause (y : Slot) (n : Nat) (x : BitVec 512) : (y.setV n x).tcause = y.tcause := by
  cases y; rfl
@[simp] theorem Slot.setV_tval (y : Slot) (n : Nat) (x : BitVec 512) : (y.setV n x).tval = y.tval := by
  cases y; rfl
@[simp] theorem Slot.setV_tpc (y : Slot) (n : Nat) (x : BitVec 512) : (y.setV n x).tpc = y.tpc := by
  cases y; rfl
@[simp] theorem Slot.setV_waitr (y : Slot) (n : Nat) (x : BitVec 512) : (y.setV n x).waitr = y.waitr := by
  cases y; rfl
@[simp] theorem Slot.setV_spawnlim (y : Slot) (n : Nat) (x : BitVec 512) : (y.setV n x).spawnlim = y.spawnlim := by
  cases y; rfl
@[simp] theorem Slot.setV_miPos (y : Slot) (n : Nat) (x : BitVec 512) : (y.setV n x).miPos = y.miPos := by
  cases y; rfl
@[simp] theorem Slot.setV_header (y : Slot) (n : Nat) (x : BitVec 512) : (y.setV n x).header = y.header := by
  cases y; rfl
@[simp] theorem Slot.setV_payload (y : Slot) (n : Nat) (x : BitVec 512) : (y.setV n x).payload = y.payload := by
  cases y; rfl
@[simp] theorem Slot.setV_sender (y : Slot) (n : Nat) (x : BitVec 512) : (y.setV n x).sender = y.sender := by
  cases y; rfl
@[simp] theorem Slot.setV_wait (y : Slot) (n : Nat) (x : BitVec 512) : (y.setV n x).wait = y.wait := by
  cases y; rfl
@[simp] theorem Slot.setV_decl (y : Slot) (n : Nat) (x : BitVec 512) : (y.setV n x).decl = y.decl := by
  cases y; rfl
@[simp] theorem Slot.setV_tomb (y : Slot) (n : Nat) (x : BitVec 512) : (y.setV n x).tomb = y.tomb := by
  cases y; rfl
@[simp] theorem Slot.setV_halted (y : Slot) (n : Nat) (x : BitVec 512) : (y.setV n x).halted = y.halted := by
  cases y; rfl
@[simp] theorem Slot.setV_stepping (y : Slot) (n : Nat) (x : BitVec 512) : (y.setV n x).stepping = y.stepping := by
  cases y; rfl
@[simp] theorem Slot.setV_killPend (y : Slot) (n : Nat) (x : BitVec 512) : (y.setV n x).killPend = y.killPend := by
  cases y; rfl
@[simp] theorem Slot.setV_pend (y : Slot) (n : Nat) (x : BitVec 512) : (y.setV n x).pend = y.pend := by
  cases y; rfl
@[simp] theorem Slot.setV_graphFault (y : Slot) (n : Nat) (x : BitVec 512) : (y.setV n x).graphFault = y.graphFault := by
  cases y; rfl
@[simp] theorem Slot.setV_commit (y : Slot) (n : Nat) (x : BitVec 512) : (y.setV n x).commit = y.commit := by
  cases y; rfl
@[simp] theorem Slot.setV_heldMsgs (y : Slot) (n : Nat) (x : BitVec 512) : (y.setV n x).heldMsgs = y.heldMsgs := by
  cases y; rfl
@[simp] theorem Slot.setV_ctxCount (y : Slot) (n : Nat) (x : BitVec 512) : (y.setV n x).ctxCount = y.ctxCount := by
  cases y; rfl
@[simp] theorem Slot.setV_run (y : Slot) (n : Nat) (x : BitVec 512) : (y.setV n x).run = y.run := by
  cases y; rfl
@[simp] theorem Slot.setV_waitSince (y : Slot) (n : Nat) (x : BitVec 512) : (y.setV n x).waitSince = y.waitSince := by
  cases y; rfl
@[simp] theorem Slot.setV_overCount (y : Slot) (n : Nat) (x : BitVec 512) : (y.setV n x).overCount = y.overCount := by
  cases y; rfl
@[simp] theorem Slot.setV_urgent (y : Slot) (n : Nat) (x : BitVec 512) : (y.setV n x).urgent = y.urgent := by
  cases y; rfl
@[simp] theorem Slot.setV_redeliveries (y : Slot) (n : Nat) (x : BitVec 512) : (y.setV n x).redeliveries = y.redeliveries := by
  cases y; rfl
@[simp] theorem Slot.setV_trigger (y : Slot) (n : Nat) (x : BitVec 512) : (y.setV n x).trigger = y.trigger := by
  cases y; rfl
@[simp] theorem Slot.setV_task (y : Slot) (n : Nat) (x : BitVec 512) : (y.setV n x).task = y.task := by
  cases y; rfl
@[simp] theorem Slot.setV_replies (y : Slot) (n : Nat) (x : BitVec 512) : (y.setV n x).replies = y.replies := by
  cases y; rfl
@[simp] theorem Slot.setV_origin (y : Slot) (n : Nat) (x : BitVec 512) : (y.setV n x).origin = y.origin := by
  cases y; rfl
@[simp] theorem Slot.setV_parkWant (y : Slot) (n : Nat) (x : BitVec 512) : (y.setV n x).parkWant = y.parkWant := by
  cases y; rfl
@[simp] theorem Slot.setV_barGroup (y : Slot) (n : Nat) (x : BitVec 512) : (y.setV n x).barGroup = y.barGroup := by
  cases y; rfl
@[simp] theorem Slot.setV_uid (y : Slot) (n : Nat) (x : BitVec 512) : (y.setV n x).uid = y.uid := by
  cases y; rfl
@[simp] theorem Slot.setV_chanWait (y : Slot) (n : Nat) (x : BitVec 512) : (y.setV n x).chanWait = y.chanWait := by
  cases y; rfl
@[simp] theorem Slot.setV_waitArg (y : Slot) (n : Nat) (x : BitVec 512) : (y.setV n x).waitArg = y.waitArg := by
  cases y; rfl
@[simp] theorem Slot.setV_asRem (y : Slot) (n : Nat) (x : BitVec 512) : (y.setV n x).asRem = y.asRem := by
  cases y; rfl
@[simp] theorem Slot.setV_kept (y : Slot) (n : Nat) (x : BitVec 512) : (y.setV n x).kept = y.kept := by
  cases y; rfl
@[simp] theorem Slot.setV_svc (y : Slot) (n : Nat) (x : BitVec 512) : (y.setV n x).svc = y.svc := by
  cases y; rfl

@[simp] theorem Slot.setPc_holds (y : Slot) (a : Nat) : (y.setPc a).holds = y.holds := by
  cases y; rfl
@[simp] theorem Slot.setPc_resvFor (y : Slot) (a : Nat) : (y.setPc a).resvFor = y.resvFor := by
  cases y; rfl
@[simp] theorem Slot.setPc_tenant (y : Slot) (a : Nat) : (y.setPc a).tenant = y.tenant := by
  cases y; rfl
@[simp] theorem Slot.setPc_c (y : Slot) (a : Nat) : (y.setPc a).c = y.c := by
  cases y; rfl
@[simp] theorem Slot.setPc_v (y : Slot) (a : Nat) : (y.setPc a).v = y.v := by
  cases y; rfl
@[simp] theorem Slot.setPc_k (y : Slot) (a : Nat) : (y.setPc a).k = y.k := by
  cases y; rfl
@[simp] theorem Slot.setPc_domain (y : Slot) (a : Nat) : (y.setPc a).domain = y.domain := by
  cases y; rfl
@[simp] theorem Slot.setPc_autoMig (y : Slot) (a : Nat) : (y.setPc a).autoMig = y.autoMig := by
  cases y; rfl
@[simp] theorem Slot.setPc_composed (y : Slot) (a : Nat) : (y.setPc a).composed = y.composed := by
  cases y; rfl
@[simp] theorem Slot.setPc_exposed (y : Slot) (a : Nat) : (y.setPc a).exposed = y.exposed := by
  cases y; rfl
@[simp] theorem Slot.setPc_inTrap (y : Slot) (a : Nat) : (y.setPc a).inTrap = y.inTrap := by
  cases y; rfl
@[simp] theorem Slot.setPc_mode (y : Slot) (a : Nat) : (y.setPc a).mode = y.mode := by
  cases y; rfl
@[simp] theorem Slot.setPc_prio (y : Slot) (a : Nat) : (y.setPc a).prio = y.prio := by
  cases y; rfl
@[simp] theorem Slot.setPc_tvec (y : Slot) (a : Nat) : (y.setPc a).tvec = y.tvec := by
  cases y; rfl
@[simp] theorem Slot.setPc_tcause (y : Slot) (a : Nat) : (y.setPc a).tcause = y.tcause := by
  cases y; rfl
@[simp] theorem Slot.setPc_tval (y : Slot) (a : Nat) : (y.setPc a).tval = y.tval := by
  cases y; rfl
@[simp] theorem Slot.setPc_tpc (y : Slot) (a : Nat) : (y.setPc a).tpc = y.tpc := by
  cases y; rfl
@[simp] theorem Slot.setPc_waitr (y : Slot) (a : Nat) : (y.setPc a).waitr = y.waitr := by
  cases y; rfl
@[simp] theorem Slot.setPc_spawnlim (y : Slot) (a : Nat) : (y.setPc a).spawnlim = y.spawnlim := by
  cases y; rfl
@[simp] theorem Slot.setPc_miPos (y : Slot) (a : Nat) : (y.setPc a).miPos = y.miPos := by
  cases y; rfl
@[simp] theorem Slot.setPc_header (y : Slot) (a : Nat) : (y.setPc a).header = y.header := by
  cases y; rfl
@[simp] theorem Slot.setPc_payload (y : Slot) (a : Nat) : (y.setPc a).payload = y.payload := by
  cases y; rfl
@[simp] theorem Slot.setPc_sender (y : Slot) (a : Nat) : (y.setPc a).sender = y.sender := by
  cases y; rfl
@[simp] theorem Slot.setPc_wait (y : Slot) (a : Nat) : (y.setPc a).wait = y.wait := by
  cases y; rfl
@[simp] theorem Slot.setPc_decl (y : Slot) (a : Nat) : (y.setPc a).decl = y.decl := by
  cases y; rfl
@[simp] theorem Slot.setPc_tomb (y : Slot) (a : Nat) : (y.setPc a).tomb = y.tomb := by
  cases y; rfl
@[simp] theorem Slot.setPc_halted (y : Slot) (a : Nat) : (y.setPc a).halted = y.halted := by
  cases y; rfl
@[simp] theorem Slot.setPc_stepping (y : Slot) (a : Nat) : (y.setPc a).stepping = y.stepping := by
  cases y; rfl
@[simp] theorem Slot.setPc_killPend (y : Slot) (a : Nat) : (y.setPc a).killPend = y.killPend := by
  cases y; rfl
@[simp] theorem Slot.setPc_pend (y : Slot) (a : Nat) : (y.setPc a).pend = y.pend := by
  cases y; rfl
@[simp] theorem Slot.setPc_graphFault (y : Slot) (a : Nat) : (y.setPc a).graphFault = y.graphFault := by
  cases y; rfl
@[simp] theorem Slot.setPc_commit (y : Slot) (a : Nat) : (y.setPc a).commit = y.commit := by
  cases y; rfl
@[simp] theorem Slot.setPc_heldMsgs (y : Slot) (a : Nat) : (y.setPc a).heldMsgs = y.heldMsgs := by
  cases y; rfl
@[simp] theorem Slot.setPc_ctxCount (y : Slot) (a : Nat) : (y.setPc a).ctxCount = y.ctxCount := by
  cases y; rfl
@[simp] theorem Slot.setPc_run (y : Slot) (a : Nat) : (y.setPc a).run = y.run := by
  cases y; rfl
@[simp] theorem Slot.setPc_waitSince (y : Slot) (a : Nat) : (y.setPc a).waitSince = y.waitSince := by
  cases y; rfl
@[simp] theorem Slot.setPc_overCount (y : Slot) (a : Nat) : (y.setPc a).overCount = y.overCount := by
  cases y; rfl
@[simp] theorem Slot.setPc_urgent (y : Slot) (a : Nat) : (y.setPc a).urgent = y.urgent := by
  cases y; rfl
@[simp] theorem Slot.setPc_redeliveries (y : Slot) (a : Nat) : (y.setPc a).redeliveries = y.redeliveries := by
  cases y; rfl
@[simp] theorem Slot.setPc_trigger (y : Slot) (a : Nat) : (y.setPc a).trigger = y.trigger := by
  cases y; rfl
@[simp] theorem Slot.setPc_task (y : Slot) (a : Nat) : (y.setPc a).task = y.task := by
  cases y; rfl
@[simp] theorem Slot.setPc_replies (y : Slot) (a : Nat) : (y.setPc a).replies = y.replies := by
  cases y; rfl
@[simp] theorem Slot.setPc_origin (y : Slot) (a : Nat) : (y.setPc a).origin = y.origin := by
  cases y; rfl
@[simp] theorem Slot.setPc_parkWant (y : Slot) (a : Nat) : (y.setPc a).parkWant = y.parkWant := by
  cases y; rfl
@[simp] theorem Slot.setPc_barGroup (y : Slot) (a : Nat) : (y.setPc a).barGroup = y.barGroup := by
  cases y; rfl
@[simp] theorem Slot.setPc_uid (y : Slot) (a : Nat) : (y.setPc a).uid = y.uid := by
  cases y; rfl
@[simp] theorem Slot.setPc_chanWait (y : Slot) (a : Nat) : (y.setPc a).chanWait = y.chanWait := by
  cases y; rfl
@[simp] theorem Slot.setPc_waitArg (y : Slot) (a : Nat) : (y.setPc a).waitArg = y.waitArg := by
  cases y; rfl
@[simp] theorem Slot.setPc_asRem (y : Slot) (a : Nat) : (y.setPc a).asRem = y.asRem := by
  cases y; rfl
@[simp] theorem Slot.setPc_kept (y : Slot) (a : Nat) : (y.setPc a).kept = y.kept := by
  cases y; rfl
@[simp] theorem Slot.setPc_svc (y : Slot) (a : Nat) : (y.setPc a).svc = y.svc := by
  cases y; rfl

@[simp] theorem Slot.setK_holds (y : Slot) (n : Nat) (x : Word) : (y.setK n x).holds = y.holds := by
  unfold Slot.setK; split <;> rfl
@[simp] theorem Slot.setK_resvFor (y : Slot) (n : Nat) (x : Word) : (y.setK n x).resvFor = y.resvFor := by
  unfold Slot.setK; split <;> rfl
@[simp] theorem Slot.setK_tenant (y : Slot) (n : Nat) (x : Word) : (y.setK n x).tenant = y.tenant := by
  unfold Slot.setK; split <;> rfl
@[simp] theorem Slot.setK_c (y : Slot) (n : Nat) (x : Word) : (y.setK n x).c = y.c := by
  unfold Slot.setK; split <;> rfl
@[simp] theorem Slot.setK_pcc (y : Slot) (n : Nat) (x : Word) : (y.setK n x).pcc = y.pcc := by
  unfold Slot.setK; split <;> rfl
@[simp] theorem Slot.setK_v (y : Slot) (n : Nat) (x : Word) : (y.setK n x).v = y.v := by
  unfold Slot.setK; split <;> rfl
@[simp] theorem Slot.setK_domain (y : Slot) (n : Nat) (x : Word) : (y.setK n x).domain = y.domain := by
  unfold Slot.setK; split <;> rfl
@[simp] theorem Slot.setK_autoMig (y : Slot) (n : Nat) (x : Word) : (y.setK n x).autoMig = y.autoMig := by
  unfold Slot.setK; split <;> rfl
@[simp] theorem Slot.setK_composed (y : Slot) (n : Nat) (x : Word) : (y.setK n x).composed = y.composed := by
  unfold Slot.setK; split <;> rfl
@[simp] theorem Slot.setK_exposed (y : Slot) (n : Nat) (x : Word) : (y.setK n x).exposed = y.exposed := by
  unfold Slot.setK; split <;> rfl
@[simp] theorem Slot.setK_inTrap (y : Slot) (n : Nat) (x : Word) : (y.setK n x).inTrap = y.inTrap := by
  unfold Slot.setK; split <;> rfl
@[simp] theorem Slot.setK_mode (y : Slot) (n : Nat) (x : Word) : (y.setK n x).mode = y.mode := by
  unfold Slot.setK; split <;> rfl
@[simp] theorem Slot.setK_prio (y : Slot) (n : Nat) (x : Word) : (y.setK n x).prio = y.prio := by
  unfold Slot.setK; split <;> rfl
@[simp] theorem Slot.setK_tvec (y : Slot) (n : Nat) (x : Word) : (y.setK n x).tvec = y.tvec := by
  unfold Slot.setK; split <;> rfl
@[simp] theorem Slot.setK_tcause (y : Slot) (n : Nat) (x : Word) : (y.setK n x).tcause = y.tcause := by
  unfold Slot.setK; split <;> rfl
@[simp] theorem Slot.setK_tval (y : Slot) (n : Nat) (x : Word) : (y.setK n x).tval = y.tval := by
  unfold Slot.setK; split <;> rfl
@[simp] theorem Slot.setK_tpc (y : Slot) (n : Nat) (x : Word) : (y.setK n x).tpc = y.tpc := by
  unfold Slot.setK; split <;> rfl
@[simp] theorem Slot.setK_waitr (y : Slot) (n : Nat) (x : Word) : (y.setK n x).waitr = y.waitr := by
  unfold Slot.setK; split <;> rfl
@[simp] theorem Slot.setK_spawnlim (y : Slot) (n : Nat) (x : Word) : (y.setK n x).spawnlim = y.spawnlim := by
  unfold Slot.setK; split <;> rfl
@[simp] theorem Slot.setK_miPos (y : Slot) (n : Nat) (x : Word) : (y.setK n x).miPos = y.miPos := by
  unfold Slot.setK; split <;> rfl
@[simp] theorem Slot.setK_header (y : Slot) (n : Nat) (x : Word) : (y.setK n x).header = y.header := by
  unfold Slot.setK; split <;> rfl
@[simp] theorem Slot.setK_payload (y : Slot) (n : Nat) (x : Word) : (y.setK n x).payload = y.payload := by
  unfold Slot.setK; split <;> rfl
@[simp] theorem Slot.setK_sender (y : Slot) (n : Nat) (x : Word) : (y.setK n x).sender = y.sender := by
  unfold Slot.setK; split <;> rfl
@[simp] theorem Slot.setK_wait (y : Slot) (n : Nat) (x : Word) : (y.setK n x).wait = y.wait := by
  unfold Slot.setK; split <;> rfl
@[simp] theorem Slot.setK_decl (y : Slot) (n : Nat) (x : Word) : (y.setK n x).decl = y.decl := by
  unfold Slot.setK; split <;> rfl
@[simp] theorem Slot.setK_tomb (y : Slot) (n : Nat) (x : Word) : (y.setK n x).tomb = y.tomb := by
  unfold Slot.setK; split <;> rfl
@[simp] theorem Slot.setK_halted (y : Slot) (n : Nat) (x : Word) : (y.setK n x).halted = y.halted := by
  unfold Slot.setK; split <;> rfl
@[simp] theorem Slot.setK_stepping (y : Slot) (n : Nat) (x : Word) : (y.setK n x).stepping = y.stepping := by
  unfold Slot.setK; split <;> rfl
@[simp] theorem Slot.setK_killPend (y : Slot) (n : Nat) (x : Word) : (y.setK n x).killPend = y.killPend := by
  unfold Slot.setK; split <;> rfl
@[simp] theorem Slot.setK_pend (y : Slot) (n : Nat) (x : Word) : (y.setK n x).pend = y.pend := by
  unfold Slot.setK; split <;> rfl
@[simp] theorem Slot.setK_graphFault (y : Slot) (n : Nat) (x : Word) : (y.setK n x).graphFault = y.graphFault := by
  unfold Slot.setK; split <;> rfl
@[simp] theorem Slot.setK_commit (y : Slot) (n : Nat) (x : Word) : (y.setK n x).commit = y.commit := by
  unfold Slot.setK; split <;> rfl
@[simp] theorem Slot.setK_heldMsgs (y : Slot) (n : Nat) (x : Word) : (y.setK n x).heldMsgs = y.heldMsgs := by
  unfold Slot.setK; split <;> rfl
@[simp] theorem Slot.setK_ctxCount (y : Slot) (n : Nat) (x : Word) : (y.setK n x).ctxCount = y.ctxCount := by
  unfold Slot.setK; split <;> rfl
@[simp] theorem Slot.setK_run (y : Slot) (n : Nat) (x : Word) : (y.setK n x).run = y.run := by
  unfold Slot.setK; split <;> rfl
@[simp] theorem Slot.setK_waitSince (y : Slot) (n : Nat) (x : Word) : (y.setK n x).waitSince = y.waitSince := by
  unfold Slot.setK; split <;> rfl
@[simp] theorem Slot.setK_overCount (y : Slot) (n : Nat) (x : Word) : (y.setK n x).overCount = y.overCount := by
  unfold Slot.setK; split <;> rfl
@[simp] theorem Slot.setK_urgent (y : Slot) (n : Nat) (x : Word) : (y.setK n x).urgent = y.urgent := by
  unfold Slot.setK; split <;> rfl
@[simp] theorem Slot.setK_redeliveries (y : Slot) (n : Nat) (x : Word) : (y.setK n x).redeliveries = y.redeliveries := by
  unfold Slot.setK; split <;> rfl
@[simp] theorem Slot.setK_trigger (y : Slot) (n : Nat) (x : Word) : (y.setK n x).trigger = y.trigger := by
  unfold Slot.setK; split <;> rfl
@[simp] theorem Slot.setK_task (y : Slot) (n : Nat) (x : Word) : (y.setK n x).task = y.task := by
  unfold Slot.setK; split <;> rfl
@[simp] theorem Slot.setK_replies (y : Slot) (n : Nat) (x : Word) : (y.setK n x).replies = y.replies := by
  unfold Slot.setK; split <;> rfl
@[simp] theorem Slot.setK_origin (y : Slot) (n : Nat) (x : Word) : (y.setK n x).origin = y.origin := by
  unfold Slot.setK; split <;> rfl
@[simp] theorem Slot.setK_parkWant (y : Slot) (n : Nat) (x : Word) : (y.setK n x).parkWant = y.parkWant := by
  unfold Slot.setK; split <;> rfl
@[simp] theorem Slot.setK_barGroup (y : Slot) (n : Nat) (x : Word) : (y.setK n x).barGroup = y.barGroup := by
  unfold Slot.setK; split <;> rfl
@[simp] theorem Slot.setK_uid (y : Slot) (n : Nat) (x : Word) : (y.setK n x).uid = y.uid := by
  unfold Slot.setK; split <;> rfl
@[simp] theorem Slot.setK_chanWait (y : Slot) (n : Nat) (x : Word) : (y.setK n x).chanWait = y.chanWait := by
  unfold Slot.setK; split <;> rfl
@[simp] theorem Slot.setK_waitArg (y : Slot) (n : Nat) (x : Word) : (y.setK n x).waitArg = y.waitArg := by
  unfold Slot.setK; split <;> rfl
@[simp] theorem Slot.setK_asRem (y : Slot) (n : Nat) (x : Word) : (y.setK n x).asRem = y.asRem := by
  unfold Slot.setK; split <;> rfl
@[simp] theorem Slot.setK_kept (y : Slot) (n : Nat) (x : Word) : (y.setK n x).kept = y.kept := by
  unfold Slot.setK; split <;> rfl
@[simp] theorem Slot.setK_svc (y : Slot) (n : Nat) (x : Word) : (y.setK n x).svc = y.svc := by
  unfold Slot.setK; split <;> rfl

@[simp] theorem Core.setSlot_q (x : Core) (k : Nat) (y : Slot) : (x.setSlot k y).q = x.q := rfl
@[simp] theorem Core.setSlot_ports (x : Core) (k : Nat) (y : Slot) : (x.setSlot k y).ports = x.ports := rfl
@[simp] theorem Core.setSlot_qerr (x : Core) (k : Nat) (y : Slot) : (x.setSlot k y).qerr = x.qerr := rfl
@[simp] theorem Core.setSlot_blocked (x : Core) (k : Nat) (y : Slot) : (x.setSlot k y).blocked = x.blocked := rfl
@[simp] theorem Core.setSlot_sem (x : Core) (k : Nat) (y : Slot) : (x.setSlot k y).sem = x.sem := rfl
@[simp] theorem Core.setSlot_bankrole (x : Core) (k : Nat) (y : Slot) : (x.setSlot k y).bankrole = x.bankrole := rfl
@[simp] theorem Core.setSlot_rolePend (x : Core) (k : Nat) (y : Slot) : (x.setSlot k y).rolePend = x.rolePend := rfl
@[simp] theorem Core.setSlot_cnt (x : Core) (k : Nat) (y : Slot) : (x.setSlot k y).cnt = x.cnt := rfl
@[simp] theorem Core.setSlot_arrbase (x : Core) (k : Nat) (y : Slot) : (x.setSlot k y).arrbase = x.arrbase := rfl
@[simp] theorem Core.setSlot_arrcap (x : Core) (k : Nat) (y : Slot) : (x.setSlot k y).arrcap = x.arrcap := rfl
@[simp] theorem Core.setSlot_spill (x : Core) (k : Nat) (y : Slot) : (x.setSlot k y).spill = x.spill := rfl
@[simp] theorem Core.setSlot_arrPend (x : Core) (k : Nat) (y : Slot) : (x.setSlot k y).arrPend = x.arrPend := rfl
@[simp] theorem Core.setSlot_arrNext (x : Core) (k : Nat) (y : Slot) : (x.setSlot k y).arrNext = x.arrNext := rfl
@[simp] theorem Core.setSlot_arrivals (x : Core) (k : Nat) (y : Slot) : (x.setSlot k y).arrivals = x.arrivals := rfl
@[simp] theorem Core.setSlot_vtabTenant (x : Core) (k : Nat) (y : Slot) : (x.setSlot k y).vtabTenant = x.vtabTenant := rfl
@[simp] theorem Core.setSlot_vtabOffset (x : Core) (k : Nat) (y : Slot) : (x.setSlot k y).vtabOffset = x.vtabOffset := rfl
@[simp] theorem Core.setSlot_vtabEnable (x : Core) (k : Nat) (y : Slot) : (x.setSlot k y).vtabEnable = x.vtabEnable := rfl
@[simp] theorem Core.setSlot_fqEnable (x : Core) (k : Nat) (y : Slot) : (x.setSlot k y).fqEnable = x.fqEnable := rfl
@[simp] theorem Core.setSlot_fqType (x : Core) (k : Nat) (y : Slot) : (x.setSlot k y).fqType = x.fqType := rfl
@[simp] theorem Core.setSlot_fqSeq (x : Core) (k : Nat) (y : Slot) : (x.setSlot k y).fqSeq = x.fqSeq := rfl
@[simp] theorem Core.setSlot_wdOff (x : Core) (k : Nat) (y : Slot) : (x.setSlot k y).wdOff = x.wdOff := rfl
@[simp] theorem Core.setSlot_wdExp (x : Core) (k : Nat) (y : Slot) : (x.setSlot k y).wdExp = x.wdExp := rfl
@[simp] theorem Core.setSlot_fmta (x : Core) (k : Nat) (y : Slot) : (x.setSlot k y).fmta = x.fmta := rfl
@[simp] theorem Core.setSlot_fmtb (x : Core) (k : Nat) (y : Slot) : (x.setSlot k y).fmtb = x.fmtb := rfl
@[simp] theorem Core.setSlot_fmtc (x : Core) (k : Nat) (y : Slot) : (x.setSlot k y).fmtc = x.fmtc := rfl
@[simp] theorem Core.setSlot_scla (x : Core) (k : Nat) (y : Slot) : (x.setSlot k y).scla = x.scla := rfl
@[simp] theorem Core.setSlot_sclb (x : Core) (k : Nat) (y : Slot) : (x.setSlot k y).sclb = x.sclb := rfl
@[simp] theorem Core.setSlot_mx (x : Core) (k : Nat) (y : Slot) : (x.setSlot k y).mx = x.mx := rfl
@[simp] theorem Core.setSlot_engine (x : Core) (k : Nat) (y : Slot) : (x.setSlot k y).engine = x.engine := rfl
@[simp] theorem Core.setSlot_resv (x : Core) (k : Nat) (y : Slot) : (x.setSlot k y).resv = x.resv := rfl
@[simp] theorem Core.setSlot_turnBit (x : Core) (k : Nat) (y : Slot) : (x.setSlot k y).turnBit = x.turnBit := rfl
@[simp] theorem Core.setSlot_ended (x : Core) (k : Nat) (y : Slot) : (x.setSlot k y).ended = x.ended := rfl
@[simp] theorem Core.setSlot_rr (x : Core) (k : Nat) (y : Slot) : (x.setSlot k y).rr = x.rr := rfl
@[simp] theorem Core.setSlot_plb (x : Core) (k : Nat) (y : Slot) : (x.setSlot k y).plb = x.plb := rfl
@[simp] theorem Core.setSlot_pcache (x : Core) (k : Nat) (y : Slot) : (x.setSlot k y).pcache = x.pcache := rfl
@[simp] theorem Core.setSlot_predictor (x : Core) (k : Nat) (y : Slot) : (x.setSlot k y).predictor = x.predictor := rfl
@[simp] theorem Core.setSlot_locks (x : Core) (k : Nat) (y : Slot) : (x.setSlot k y).locks = x.locks := rfl
@[simp] theorem Core.setSlot_chans (x : Core) (k : Nat) (y : Slot) : (x.setSlot k y).chans = x.chans := rfl
@[simp] theorem Core.setSlot_comp (x : Core) (k : Nat) (y : Slot) : (x.setSlot k y).comp = x.comp := rfl
@[simp] theorem Core.setSlot_ctombs (x : Core) (k : Nat) (y : Slot) : (x.setSlot k y).ctombs = x.ctombs := rfl
@[simp] theorem Core.setSlot_cgen (x : Core) (k : Nat) (y : Slot) : (x.setSlot k y).cgen = x.cgen := rfl
@[simp] theorem Core.setSlot_frames (x : Core) (k : Nat) (y : Slot) : (x.setSlot k y).frames = x.frames := rfl
@[simp] theorem Core.setSlot_frameWait (x : Core) (k : Nat) (y : Slot) : (x.setSlot k y).frameWait = x.frameWait := rfl
@[simp] theorem Core.setSlot_parked (x : Core) (k : Nat) (y : Slot) : (x.setSlot k y).parked = x.parked := rfl
@[simp] theorem Core.setSlot_parkTurn (x : Core) (k : Nat) (y : Slot) : (x.setSlot k y).parkTurn = x.parkTurn := rfl
@[simp] theorem Core.setSlot_gen (x : Core) (k : Nat) (y : Slot) : (x.setSlot k y).gen = x.gen := rfl
@[simp] theorem Core.setSlot_backoff (x : Core) (k : Nat) (y : Slot) : (x.setSlot k y).backoff = x.backoff := rfl
@[simp] theorem Core.setSlot_debugger (x : Core) (k : Nat) (y : Slot) : (x.setSlot k y).debugger = x.debugger := rfl

/-! What a read finds after an update. -/

@[simp] theorem Core.slot_setSlot_self (x : Core) (k : Nat) (y : Slot) : (x.setSlot k y).slot k = y :=
  SMap.get_put_self _ _ _ _

theorem Core.slot_setSlot_ne (x : Core) (k j : Nat) (y : Slot) (h : j ≠ k) : (x.setSlot k y).slot j = x.slot j :=
  SMap.get_put_ne _ _ _ _ _ h

@[simp] theorem State.core_setCore_self (s : State) (c : Nat) (x : Core) : (s.setCore c x).core c = x :=
  SMap.get_put_self _ _ _ _

theorem State.core_setCore_ne (s : State) (c d : Nat) (x : Core) (h : d ≠ c) : (s.setCore c x).core d = s.core d :=
  SMap.get_put_ne _ _ _ _ _ h

@[simp] theorem State.core_modCore_self (s : State) (c : Nat) (f : Core → Core) : (s.modCore c f).core c = f (s.core c) :=
  State.core_setCore_self _ _ _

theorem State.core_modCore_ne (s : State) (c d : Nat) (f : Core → Core) (h : d ≠ c) :
    (s.modCore c f).core d = s.core d := State.core_setCore_ne _ _ _ _ h

@[simp] theorem State.slot_setSlot_self (s : State) (c k : Nat) (y : Slot) : (s.setSlot c k y).slot c k = y := by
  simp [State.slot, State.setSlot]

theorem State.slot_setSlot_ne (s : State) (c k d j : Nat) (y : Slot) (h : d ≠ c ∨ j ≠ k) :
    (s.setSlot c k y).slot d j = s.slot d j := by
  unfold State.slot State.setSlot
  by_cases hd : d = c
  · subst hd
    rw [State.core_setCore_self, Core.slot_setSlot_ne _ _ _ _ (h.resolve_left (by simp))]
  · rw [State.core_setCore_ne _ _ _ _ hd]

theorem State.core_setSlot_ne (s : State) (c k d : Nat) (y : Slot) (h : d ≠ c) : (s.setSlot c k y).core d = s.core d :=
  State.core_setCore_ne _ _ _ _ h

@[simp] theorem State.core_setSlot_self (s : State) (c k : Nat) (y : Slot) :
    (s.setSlot c k y).core c = (s.core c).setSlot k y := State.core_setCore_self _ _ _

@[simp] theorem State.slot_modSlot_self (s : State) (c k : Nat) (f : Slot → Slot) :
    (s.modSlot c k f).slot c k = f (s.slot c k) := State.slot_setSlot_self _ _ _ _

@[simp] theorem State.me_setMe (s : State) (y : Slot) : (s.setMe y).me = y := State.slot_setSlot_self _ _ _ _

@[simp] theorem State.me_modMe (s : State) (f : Slot → Slot) : (s.modMe f).me = f s.me := State.slot_setSlot_self _ _ _ _

@[simp] theorem State.modMe_modMe (s : State) (f g : Slot → Slot) : (s.modMe f).modMe g = s.modMe (g ∘ f) := by
  simp only [State.modMe, State.modSlot, State.setSlot, State.setCore, State.slot, State.core, Core.slot, Core.setSlot,
    SMap.get_put_self, SMap.put_put, Function.comp]

@[simp] theorem State.link_modLink_self (s : State) (n : Nat) (f : Link → Link) : (s.modLink n f).link n = f (s.link n) :=
  SMap.get_put_self _ _ _ _

theorem State.link_modLink_ne (s : State) (n m : Nat) (f : Link → Link) (h : m ≠ n) :
    (s.modLink n f).link m = s.link m := SMap.get_put_ne _ _ _ _ _ h

@[simp] theorem Slot.cr_setC_self (y : Slot) (n : Nat) (r : Reg) : (y.setC n r).cr n = r := SMap.get_put_self _ _ _ _

theorem Slot.cr_setC_ne (y : Slot) (n m : Nat) (r : Reg) (h : m ≠ n) : (y.setC n r).cr m = y.cr m :=
  SMap.get_put_ne _ _ _ _ _ h

@[simp] theorem Slot.vr_setV_self (y : Slot) (n : Nat) (x : BitVec 512) : (y.setV n x).vr n = x := SMap.get_put_self _ _ _ _

theorem Slot.vr_setV_ne (y : Slot) (n m : Nat) (x : BitVec 512) (h : m ≠ n) : (y.setV n x).vr m = y.vr m :=
  SMap.get_put_ne _ _ _ _ _ h

/-- k0 discards writes and reads all ones (R109). -/
@[simp] theorem Slot.kr_zero (y : Slot) : y.kr 0 = 0xFFFFFFFFFFFFFFFF := rfl

@[simp] theorem Slot.setK_zero (y : Slot) (x : Word) : y.setK 0 x = y := rfl

theorem Slot.kr_setK_self (y : Slot) (n : Nat) (x : Word) (h : n ≠ 0) : (y.setK n x).kr n = x := by
  simp [Slot.kr, Slot.setK, h, SMap.get_put_self]

theorem Slot.kr_setK_ne (y : Slot) (n m : Nat) (x : Word) (h : m ≠ n) : (y.setK n x).kr m = y.kr m := by
  unfold Slot.kr Slot.setK
  split
  · rfl
  · split
    · rfl
    · exact SMap.get_put_ne _ _ _ _ _ h

end Sys2Proof.Machine
end

