-- ==== Sys2Proof/Laws/Memory.lean ====
section
/-! SUPPORT. Every operation over memory keeps its canonical form. -/

namespace Sys2Proof.Machine

theorem reset_canonical : State.reset.Canonical :=
  ⟨SMap.canon_nil 0, SMap.canon_nil 0, SMap.canon_nil false, SMap.canon_nil false, SMap.canon_nil false, SMap.canon_nil false⟩

/-- A state with the same memory is as canonical. -/
theorem State.Canonical.of_eq {s t : State} (h : s.Canonical) (h1 : t.mem = s.mem) (h2 : t.cdata = s.cdata)
    (h3 : t.tags = s.tags) (h4 : t.ctags = s.ctags) (h5 : t.poison = s.poison) (h6 : t.cpoison = s.cpoison) : t.Canonical :=
  ⟨h1 ▸ h.mem, h2 ▸ h.cdata, h3 ▸ h.tags, h4 ▸ h.ctags, h5 ▸ h.poison, h6 ▸ h.cpoison⟩

theorem canonical_setCore {s : State} (h : s.Canonical) (c : Nat) (x : Core) : (s.setCore c x).Canonical :=
  h.of_eq rfl rfl rfl rfl rfl rfl

theorem canonical_modCore {s : State} (h : s.Canonical) (c : Nat) (f : Core → Core) : (s.modCore c f).Canonical :=
  h.of_eq rfl rfl rfl rfl rfl rfl

theorem canonical_modSlot {s : State} (h : s.Canonical) (c k : Nat) (f : Slot → Slot) : (s.modSlot c k f).Canonical :=
  h.of_eq rfl rfl rfl rfl rfl rfl

theorem canonical_modMe {s : State} (h : s.Canonical) (f : Slot → Slot) : (s.modMe f).Canonical :=
  h.of_eq rfl rfl rfl rfl rfl rfl

theorem canonical_modLink {s : State} (h : s.Canonical) (n : Nat) (f : Link → Link) : (s.modLink n f).Canonical :=
  h.of_eq rfl rfl rfl rfl rfl rfl

theorem canonical_physWrite {s : State} (h : s.Canonical) (a : Nat) (l : List Byte) (g : Bool) :
    (physWrite a l g s).Canonical :=
  ⟨Memory.wf_putBytes h.mem a l, h.cdata, canon_storeTags h.tags _ _ _, h.ctags, canon_storePoison h.poison _ _, h.cpoison⟩

theorem canonical_cacheWrite {s : State} (h : s.Canonical) (home va : Nat) (l : List Byte) (g : Bool) :
    (cacheWrite home va l g s).Canonical :=
  ⟨h.mem, Memory.wf_putBytes h.cdata _ l, h.tags, canon_storeTags h.ctags _ _ _, h.poison, canon_storePoison h.cpoison _ _⟩

theorem canonical_fillSector {s : State} (h : s.Canonical) (home va pa : Nat) : (fillSector home va pa s).Canonical := by
  unfold fillSector
  dsimp only
  generalize List.range 16 = r
  generalize List.range 4 = q
  generalize bytesAt s.mem _ 256 = l
  generalize cacheKey home _ = a
  exact ⟨h.mem, Memory.wf_putBytes h.cdata a l, h.tags, SMap.canon_foldl_set false r _ _ h.ctags, h.poison,
    SMap.canon_foldl_set false q _ _ h.cpoison⟩

theorem canonical_flushSector {s : State} (h : s.Canonical) (home va : Nat) : (flushSector home va s).Canonical := by
  unfold flushSector
  dsimp only
  generalize List.range 16 = r
  generalize List.range 4 = q
  generalize bytesAt s.cdata _ 256 = l
  generalize frameAddr s home _ = p
  exact ⟨Memory.wf_putBytes h.mem p l, h.cdata, SMap.canon_foldl_set false r _ _ h.tags, h.ctags,
    SMap.canon_foldl_set false q _ _ h.poison, h.cpoison⟩

theorem canonical_clearSector {s : State} (h : s.Canonical) (home va : Nat) : (clearSector home va s).Canonical := by
  unfold clearSector
  dsimp only
  generalize List.replicate 256 (0 : Byte) = l
  generalize cacheKey home _ = a
  generalize 16 = n
  generalize 4 = m
  exact ⟨h.mem, Memory.wf_putBytes h.cdata a l, h.tags, canon_setMarks h.ctags _ n _, h.poison, canon_setMarks h.cpoison _ m _⟩

theorem canonical_lines {s : State} (h : s.Canonical) (l : SMap Line) : { s with lines := l }.Canonical :=
  ⟨h.mem, h.cdata, h.tags, h.ctags, h.poison, h.cpoison⟩

theorem canonical_dropSector {s : State} (h : s.Canonical) (home va : Nat) : (dropSector home va s).Canonical := by
  unfold dropSector
  exact canonical_lines (canonical_clearSector h home va) _

theorem canonical_foldl {β : Type} (l : List β) (f : State → β → State) (hf : ∀ s b, s.Canonical → (f s b).Canonical)
    {s : State} (h : s.Canonical) : (l.foldl f s).Canonical := by
  induction l generalizing s with
  | nil => exact h
  | cons b l ih => exact ih (hf s b h)

theorem canonical_showHurt {s : State} (h : s.Canonical) (key : Nat) (p : Nat → Bool) : (showHurt key p s).Canonical := by
  unfold showHurt
  extract_lets x base l
  split
  · exact h
  · exact ⟨h.mem, h.cdata, h.tags, h.ctags, h.poison, SMap.canon_foldl_set false l _ _ h.cpoison⟩

theorem canonical_evictSector {s : State} (h : s.Canonical) (home va : Nat) : (evictSector home va s).Canonical := by
  have hs := canonical_showHurt h (lineKey home va) (· == sectorOf va)
  unfold evictSector
  dsimp only
  split
  · exact canonical_dropSector (canonical_flushSector hs home va) home va
  · exact canonical_dropSector hs home va

theorem canonical_evictLine {s : State} (h : s.Canonical) (home va : Nat) : (evictLine home va s).Canonical :=
  canonical_foldl _ _ (fun _ _ h => canonical_evictSector h _ _) h

theorem canonical_leaveBanks {s : State} (h : s.Canonical) (key : Nat) : (leaveBanks key s).Canonical :=
  canonical_lines (canonical_showHurt h key _) _

theorem canonical_bankWay {s : State} (h : s.Canonical) (home va : Nat) : (bankWay home va s).2.Canonical := by
  unfold bankWay
  dsimp only
  split
  · exact h
  · split
    · exact canonical_leaveBanks h _
    · exact h

theorem canonical_releaseWay {s : State} (h : s.Canonical) (tile set : Nat) : (releaseWay tile set s).Canonical := by
  unfold releaseWay
  split
  · exact h
  · split
    · exact canonical_evictLine h _ _
    · exact h

theorem canonical_ite {p : Prop} [Decidable p] {a b : State} (ha : a.Canonical) (hb : b.Canonical) :
    (if p then a else b).Canonical := by split <;> assumption

theorem canonical_fillFrom {s : State} (h : s.Canonical) (home va pa hint : Nat) : (fillFrom home va pa hint s).Canonical := by
  unfold fillFrom
  extract_lets sec absent s1 useBank way s2 x x'
  have h1 : s1.Canonical := canonical_ite (canonical_releaseWay h _ _) h
  have h2 : s2.Canonical := by
    show way.2.Canonical
    simp only [way]
    split
    · exact canonical_bankWay h1 home va
    · exact h1
  exact canonical_lines (canonical_fillSector h2 _ _ _) _

theorem canonical_touchLine {s : State} (h : s.Canonical) (home va : Nat) : (touchLine home va s).Canonical :=
  canonical_lines h _

theorem canonical_ready {s : State} (h : s.Canonical) (src : Src) (va hint : Nat) : (src.ready va hint s).Canonical := by
  unfold Src.ready
  split
  · exact canonical_ite h (canonical_fillFrom h _ _ _ _)
  · exact h

theorem canonical_writeAt {s : State} (h : s.Canonical) (src : Src) (va : Nat) (l : List Byte) (g : Bool) :
    (writeAt src va l g s).Canonical := by
  cases src
  case bank => exact canonical_physWrite h _ l g
  case cached => exact canonical_cacheWrite (canonical_ready h _ va 0) _ va l g
  case frame => exact canonical_physWrite h _ l g
  all_goals exact h

theorem canonical_setPoison {s : State} (h : s.Canonical) (src : Src) (va n : Nat) (m : Bool) :
    (setPoison src va n m s).Canonical := by
  unfold setPoison
  split
  · exact ⟨h.mem, h.cdata, h.tags, h.ctags, canon_setMarks h.poison _ _ _, h.cpoison⟩
  · exact ⟨h.mem, h.cdata, h.tags, h.ctags, h.poison, canon_setMarks h.cpoison _ _ _⟩
  · exact ⟨h.mem, h.cdata, h.tags, h.ctags, canon_setMarks h.poison _ _ _, h.cpoison⟩
  · exact h

theorem canonical_poisonMark {s : State} (h : s.Canonical) (src : Src) (va n : Nat) : (poisonMark src va n s).Canonical :=
  canonical_setPoison h src va n true

theorem canonical_tagMark {s : State} (h : s.Canonical) (src : Src) (va : Nat) : (tagMark src va s).Canonical := by
  unfold tagMark
  split
  · exact ⟨h.mem, h.cdata, canon_setMarks h.tags _ _ _, h.ctags, h.poison, h.cpoison⟩
  · exact ⟨h.mem, h.cdata, h.tags, canon_setMarks h.ctags _ _ _, h.poison, h.cpoison⟩
  · exact ⟨h.mem, h.cdata, canon_setMarks h.tags _ _ _, h.ctags, h.poison, h.cpoison⟩
  · exact h

theorem canonical_noteRelease {s : State} (h : s.Canonical) (home va n : Nat) : (noteRelease home va n s).Canonical :=
  h.of_eq rfl rfl rfl rfl rfl rfl

theorem canonical_amoAt {s : State} (h : s.Canonical) (src : Src) (va n amo b e : Nat) :
    (amoAt src va n amo b e s).2.Canonical := by
  unfold amoAt
  simp only
  split
  · exact h
  · cases amoNew amo n (leNat (readAt s src va n)) b e with
    | none => exact h
    | some v =>
      have hw := canonical_writeAt h src va (leBytes n v) false
      cases src with
      | cached home =>
        simp only
        split
        · exact hw
        · exact canonical_noteRelease hw _ _ _
      | _ => exact hw

theorem canonical_writeOver {s : State} (h : s.Canonical) (src : Src) (va hint : Nat) (l : List Byte) (g : Bool) :
    (writeOver src va hint l g s).Canonical :=
  canonical_foldl _ _ (fun _ _ h => canonical_writeAt h _ _ _ _) h

theorem canonical_performFlight {s : State} (h : s.Canonical) (f : Flight) : (performFlight f s).2.Canonical := by
  unfold performFlight
  dsimp only
  split
  · exact h
  · split
    · exact canonical_writeOver h _ _ _ _ _
    · exact canonical_amoAt h _ _ _ _ _ _
    · exact h
    · exact h

theorem canonical_flights {s : State} (h : s.Canonical) (l : List Flight) : { s with flights := l }.Canonical :=
  ⟨h.mem, h.cdata, h.tags, h.ctags, h.poison, h.cpoison⟩

theorem canonical_finishFlight {s : State} (h : s.Canonical) (f : Flight) : (finishFlight f s).Canonical := by
  unfold finishFlight
  split
  · exact canonical_ite (canonical_setPoison (canonical_performFlight (canonical_flights h _) f) _ _ _ _)
      (canonical_performFlight (canonical_flights h _) f)
  · exact canonical_flights (canonical_performFlight h f) _

theorem canonical_settleBy {s : State} (h : s.Canonical) (va : Nat) : (settleBy va s).Canonical :=
  canonical_foldl _ _ (fun _ f h => canonical_ite (canonical_finishFlight h f) h) h

theorem canonical_arriveSector {s : State} (h : s.Canonical) (home va fill hint : Nat) :
    (arriveSector home va fill hint s).Canonical :=
  canonical_ite (canonical_ite (canonical_touchLine h _ _) h)
    (canonical_ite h (canonical_fillFrom (canonical_settleBy h _) _ _ _ _))

theorem canonical_arrives {s : State} (h : s.Canonical) (f : Flight) : (f.arrives s).Canonical := by
  unfold Flight.arrives
  split
  · exact canonical_foldl _ _ (fun _ _ h => canonical_arriveSector h _ _ _ _) h
  · exact h

theorem canonical_landFlight {s : State} (h : s.Canonical) (f : Flight) : (landFlight f s).Canonical :=
  canonical_finishFlight (canonical_arrives h f) f

theorem canonical_landAll {s : State} (h : s.Canonical) (p : Flight → Bool) (l : List Flight) :
    (landAll p l s).Canonical := by
  induction l generalizing s with
  | nil => exact h
  | cons f l ih => exact ih (canonical_ite (canonical_landFlight h f) h)

theorem canonical_settle {s : State} (h : s.Canonical) (p : Flight → Bool) : (settle p s).Canonical :=
  canonical_landAll h p _

theorem canonical_drainWhere {s : State} (h : s.Canonical) (p : Flight → Bool) : (drainWhere p s).Canonical :=
  canonical_settle h _

theorem canonical_drainAgent {s : State} (h : s.Canonical) (c k : Nat) : (drainAgent c k s).Canonical :=
  canonical_drainWhere h _

theorem canonical_drainScope {s : State} (h : s.Canonical) (c k n : Nat) : (drainScope c k n s).Canonical :=
  canonical_drainWhere h _

theorem canonical_drainLine {s : State} (h : s.Canonical) (c k va : Nat) : (drainLine c k va s).Canonical :=
  canonical_drainWhere h _

theorem canonical_tableFill {s : State} (h : s.Canonical) (pa : Nat) : (tableFill pa s).Canonical := by
  unfold tableFill
  split
  · exact canonical_ite (canonical_touchLine h _ _) (canonical_lines (canonical_fillFrom (canonical_settleBy h _) _ _ _ _) _)
  · exact h

theorem canonical_tableWrite {s : State} (h : s.Canonical) (pa n v : Nat) : (tableWrite pa n v s).Canonical :=
  canonical_writeAt (canonical_tableFill h pa) _ _ _ _

theorem canonical_materialise {s : State} (h : s.Canonical) (e level a va : Nat) : (materialise e level a va s).Canonical := by
  have ht := canonical_tableWrite h a 8 (e - 4)
  exact ⟨SMap.canon_filter 0 ht.mem _, ht.cdata, SMap.canon_filter false ht.tags _, ht.ctags,
    SMap.canon_filter false ht.poison _, ht.cpoison⟩

end Sys2Proof.Machine
end

