-- ==== Sys2Proof/Laws/Ops.lean ====
section
/-! SUPPORT. What the shared operations of issue and completion do. -/

namespace Sys2Proof.Machine

/-- An instruction whose fields are ready issues with every pop made. -/
theorem issue_ready {reads writes : List Nat} {s : State} (h : Ready reads writes s) :
    issue reads writes s = .go (taken reads writes s).1 (taken reads writes s).2 := by
  obtain ⟨h1, h2, h3⟩ := h
  have hr : (reads.any (absentField s.curCore) || writes.any (absentField s.curCore)) = false := by
    simp only [List.mem_append] at h1
    simp only [Bool.or_eq_false_iff, List.any_eq_false]
    exact ⟨fun f hf => by simp [h1 f (.inl hf)], fun f hf => by simp [h1 f (.inr hf)]⟩
  unfold issue taken readied
  simp only [hr, h2, Bool.false_eq_true, if_false]
  cases keptFor s reads writes with
  | some x => rfl
  | none =>
    by_cases hq : touchesQueue (reads ++ writes) = true
    · obtain ⟨hd, hb⟩ := h3 hq
      unfold drains at hd
      unfold readied at hb
      simp only [hq, if_true] at hb ⊢
      cases he : exposeMe (giveBack s.curCore s.curSlot s) with
      | ok a t =>
        simp only [he] at hb
        simp [hb]
      | stall t => simp [he] at hd
      | exc e t => simp [he] at hd
    · simp only [hq, if_false, Bool.false_eq_true]

/-- A field that names nothing on this core makes the instruction illegal. -/
theorem issue_absent {reads writes : List Nat} {s : State} {f : Nat} (hf : f ∈ reads ++ writes)
    (h : absentField s.curCore f = true) : issue reads writes s = .stop (illegal s) := by
  have hr : (reads.any (absentField s.curCore) || writes.any (absentField s.curCore)) = true := by
    simp only [List.mem_append] at hf
    simp only [Bool.or_eq_true, List.any_eq_true]
    exact hf.imp (fun hf => ⟨f, hf, h⟩) fun hf => ⟨f, hf, h⟩
  unfold issue
  simp [hr]

theorem intOp2_ready {len d a b : Nat} {s : State} (f : Word → Word → Word) (h : Ready [a, b] [d] s) :
    intOp2 len d a b f s = doneWith len [a, b] d (.ofWord (f (sourceWord [a, b] [d] s 0) (sourceWord [a, b] [d] s 1))) s := by
  unfold intOp2
  rw [issue_ready h]
  rfl

theorem intOp1_ready {len d a : Nat} {s : State} (f : Word → Word) (h : Ready [a] [d] s) :
    intOp1 len d a f s = doneWith len [a] d (.ofWord (f (sourceWord [a] [d] s 0))) s := by
  unfold intOp1
  rw [issue_ready h]
  rfl

/-- A capability instruction that never traps. -/
theorem capOp_ready {len d : Nat} {reads : List Nat} {s : State} (f : Reg → Reg → Reg) (h : Ready reads [d] s) :
    capOp len d reads f s = doneWith len reads d (f (source reads [d] s 0) (source reads [d] s 1)) s := by
  unfold capOp
  rw [issue_ready h]
  rfl

/-! A general register, mi or z is never absent and never waits. -/

theorem plain_isQueue {f : Nat} (h : plainField f = true) : isQueue f = false := by
  simp [plainField, isQueue] at *; omega

theorem plain_isPort {f : Nat} (h : plainField f = true) : isPort f = false := by
  simp [plainField, isPort] at *; omega

theorem plain_absent {c f : Nat} (h : plainField f = true) : absentField c f = false := by
  have h1 := plain_isPort h
  have : ¬ (16 ≤ f ∧ f < 22) := by simp [plainField] at h; omega
  simp [absentField, h1]
  omega

theorem touchesQueue_plain {l : List Nat} (h : ∀ f ∈ l, plainField f = true) : touchesQueue l = false := by
  simp only [touchesQueue, List.any_eq_false]
  intro f hf
  simp [plain_isQueue (h f hf), plain_isPort (h f hf)]

theorem ready_plain {reads writes : List Nat} (s : State) (h : ∀ f ∈ reads ++ writes, plainField f = true) :
    Ready reads writes s := by
  refine ⟨fun f hf => plain_absent (h f hf), ?_, fun hq => by simp [touchesQueue_plain h] at hq⟩
  simp only [List.mem_append] at h
  generalize giveBack s.curCore s.curSlot s = t
  have hr : reads.find? (fun f => (isQueue f || isPort f) &&
      (decide (available t t.curCore f < countOf reads f) || behind t t.curCore t.curSlot f)) = none := by
    rw [List.find?_eq_none]
    intro f hf
    simp [plain_isQueue (h f (.inl hf)), plain_isPort (h f (.inl hf))]
  have hw : writes.find? (fun f => (isQueue f || isPort f) &&
      (decide (depthOf f < pushedTo t t.curCore f - (if isQueue f then countOf reads f else 0) + countOf writes f)
        || behind t t.curCore t.curSlot (f + 32))) = none := by
    rw [List.find?_eq_none]
    intro f hf
    simp [plain_isQueue (h f (.inr hf)), plain_isPort (h f (.inr hf))]
  unfold unmet
  simp only [hr, hw]
  split <;> rfl

end Sys2Proof.Machine
end

