-- ==== Sys2Proof/Tests/Slice0.lean ====
section
/-! SUPPORT. Decode tests (one word of each row of the opcode table, written out from its match and fields), ill-formed
terms, and a witness for the hypotheses of each obligation. -/

namespace Sys2Proof.Tests

open Sys2Proof Sys2Proof.Machine

set_option maxRecDepth 4000
set_option exponentiation.threshold 1024

theorem test_words_alu_r_0 :
    [0x000C4281, 0x004C4281, 0x008C4281, 0x00CC4281, 0x010C4281, 0x014C4281, 0x018C4281, 0x01CC4281, 0x020C4281,
      0x024C4281, 0x028C4281, 0x02CC4281, 0x030C4281, 0x034C4281].map decodeCore =
    ([.add 5 4 6, .sub 5 4 6, .mul 5 4 6, .mulh 5 4 6, .mulhu 5 4 6, .div 5 4 6, .divu 5 4 6, .rem 5 4 6,
      .remu 5 4 6, .and 5 4 6, .or 5 4 6, .xor 5 4 6, .andn 5 4 6, .sll 5 4 6] : List Instr).map some :=
  by rfl

theorem test_words_alu_r_1 :
    [0x038C4281, 0x03CC4281, 0x040C4281, 0x044C4281, 0x048C4281, 0x04CC4281, 0x050C4281, 0x054C4281, 0x058C4281,
      0x05CC4281, 0x06004281, 0x06404281, 0x06804281, 0x3ECC4281].map decodeCore =
    ([.srl 5 4 6, .sra 5 4 6, .rol 5 4 6, .ror 5 4 6, .slt 5 4 6, .sltu 5 4 6, .min 5 4 6, .max 5 4 6, .minu 5 4 6,
      .maxu 5 4 6, .clz 5 4, .ctz 5 4, .popc 5 4, .sel 5 4 6 7] : List Instr).map some :=
  by rfl

theorem test_words_alu_i :
    [0x8A304283, 0x02A24283, 0x02A44283, 0x02A64283].map decodeCore =
    ([.addi 5 4 (-1885), .slli 5 4 42, .srli 5 4 42, .srai 5 4 42] : List Instr).map some :=
  by rfl

theorem test_words_alu_i2 :
    [0x8A304285, 0x8A324285, 0x8A344285, 0x8A364285, 0x8A384285].map decodeCore =
    ([.andi 5 4 (-1885), .ori 5 4 (-1885), .xori 5 4 (-1885), .slti 5 4 (-1885), .sltui 5 4 (-1885)] : List Instr).map some :=
  by rfl

theorem test_words_cap_r :
    [0x000C4289, 0x004C4289, 0x008C4289, 0x00CC4289, 0x010C4289, 0x01404289, 0x01804289, 0x01C04289, 0x02004289,
      0x02404289, 0x02804289].map decodeCore =
    ([.csetb 5 4 6, .cinc 5 4 6, .candp 5 4 6, .csub 5 4 6, .ctest 5 4 6, .cgetb 5 4, .cgetl 5 4, .cgetp 5 4,
      .cgett 5 4, .cclr 5 4, .cmov 5 4] : List Instr).map some :=
  by rfl

theorem test_words_load :
    [0x8A30428F, 0x8A32428F, 0x8A34428F, 0x8A36428F, 0x8A38428F, 0x8A3A428F, 0x8A3C428F, 0x8A3E428F].map decodeCore =
    ([.lb 5 4 (-1885), .lbu 5 4 (-1885), .lh 5 4 (-1885), .lhu 5 4 (-1885), .lw 5 4 (-1885), .lwu 5 4 (-1885),
      .ld 5 4 (-1885), .lcap 5 4 (-1885)] : List Instr).map some :=
  by rfl

theorem test_words_store :
    [0x8A0C4191, 0x8A4C4191, 0x8A8C4191, 0x8ACC4191, 0x8B0C4191, 0x8B4C4191].map decodeCore =
    ([.sb 6 4 (-1885), .sh 6 4 (-1885), .sw 6 4 (-1885), .sd 6 4 (-1885), .sq 6 4 (-1885), .scap 6 4 (-1885)] : List Instr).map some :=
  by rfl

theorem test_words_load_x :
    [0x04C24293, 0x14C24293, 0x24C24293, 0x34C24293, 0x44C24293, 0x54C24293, 0x64C24293, 0x74C24293, 0x84C24293,
      0x90004293, 0xA0004013, 0xB0004013].map decodeCore =
    ([.lbX 5 4 1 3 1, .lbuX 5 4 1 3 1, .lhX 5 4 1 3 1, .lhuX 5 4 1 3 1, .lwX 5 4 1 3 1, .lwuX 5 4 1 3 1,
      .ldX 5 4 1 3 1, .lq 5 4 1 3 1, .lcapX 5 4 1 3 1, .home 5 4, .migr 4, .migrF 4] : List Instr).map some :=
  by rfl

theorem test_words_store_x :
    [0x04CC4095, 0x14CC4095, 0x24CC4095, 0x34CC4095, 0x44CC4095, 0x54CC4095].map decodeCore =
    ([.sbX 6 4 1 3 1, .shX 6 4 1 3 1, .swX 6 4 1 3 1, .sdX 6 4 1 3 1, .sqX 6 4 1 3 1, .scapX 6 4 1 3 1] : List Instr).map some :=
  by rfl

theorem test_words_atomic_0 :
    [0x0CCC4297, 0x1CCC4297, 0x2CCC4297, 0x3CCC4297, 0x4CCC4297, 0x5CCC4297, 0x6CCC4297, 0x7CCC4297, 0x8CCC4297,
      0x9CCC4297, 0xA4CC4297, 0xB8004297, 0xC8004297, 0xD0004017].map decodeCore =
    ([.amoadd 5 6 4 true true false 3, .amoand 5 6 4 true true false 3, .amoor 5 6 4 true true false 3,
      .amoxor 5 6 4 true true false 3, .amomin 5 6 4 true true false 3, .amomax 5 6 4 true true false 3,
      .amominu 5 6 4 true true false 3, .amomaxu 5 6 4 true true false 3, .amoswap 5 6 4 true true false 3,
      .cas 5 6 4 true true false 3, .casq 5 6 4 true false 3, .rwlr 5 4 true, .rwlw 5 4 true, .rwur 4] : List Instr).map some :=
  by rfl

theorem test_words_atomic_1 :
    [0xE0004017].map decodeCore =
    ([.rwuw 4] : List Instr).map some :=
  by rfl

theorem test_words_branch :
    [0x8A30621B, 0x8A32621B, 0x8A34621B, 0x8A36621B, 0x8A38621B, 0x8A3A621B].map decodeCore =
    ([.beq 4 6 (-1885), .bne 4 6 (-1885), .blt 4 6 (-1885), .bge 4 6 (-1885), .bltu 4 6 (-1885), .bgeu 4 6 (-1885)] : List Instr).map some :=
  by rfl

theorem test_words_vstore :
    [0x8A0C41A3, 0x264C41A3, 0x268C40A3, 0x66CC40A3, 0x670C40A3].map decodeCore =
    ([.vst 6 4 (-1885), .vsts 6 4 3 3 2, .vscat 6 4 1 3 2, .vscataAdd 6 4 1 3 2 true, .vscataFadd 6 4 1 3 2 true] : List Instr).map some :=
  by rfl

theorem test_words_vint_0 :
    [0x04CC42A5, 0x0CCC42A5, 0x14CC42A5, 0x1CCC42A5, 0x24CC42A5, 0x2CCC42A5, 0x34CC42A5, 0x3CCC42A5, 0x44CC42A5,
      0x4CC042A5, 0x54C042A5, 0x5CCC42A5, 0x64CC42A5, 0x6CCC42A5].map decodeCore =
    ([.vadd 5 4 6 3 2, .vsub 5 4 6 3 2, .vmul 5 4 6 3 2, .vmulh 5 4 6 3 2, .vmulhu 5 4 6 3 2, .vmin 5 4 6 3 2,
      .vmax 5 4 6 3 2, .vminu 5 4 6 3 2, .vmaxu 5 4 6 3 2, .vabs 5 4 3 2, .vneg 5 4 3 2, .vand 5 4 6 3 2,
      .vor 5 4 6 3 2, .vxor 5 4 6 3 2] : List Instr).map some :=
  by rfl

theorem test_words_vint_1 :
    [0x74CC42A5, 0x7CCC42A5, 0x84CC42A5].map decodeCore =
    ([.vsll 5 4 6 3 2, .vsrl 5 4 6 3 2, .vsra 5 4 6 3 2] : List Instr).map some :=
  by rfl

theorem test_words_vflt :
    [0x04CC42A7, 0x0CCC42A7, 0x14CC42A7, 0x1CCC42A7, 0x24CC42A7, 0x2CCC42A7, 0x34C042A7, 0x3CCC42A7, 0x44CC42A7,
      0x4CC042A7, 0x54C042A7].map decodeCore =
    ([.vaddFp 5 4 6 3 2, .vsubFp 5 4 6 3 2, .vmulFp 5 4 6 3 2, .vfma 5 4 6 3 2, .vfms 5 4 6 3 2, .vdiv 5 4 6 3 2,
      .vsqrt 5 4 3 2, .vminFp 5 4 6 3 2, .vmaxFp 5 4 6 3 2, .vabsFp 5 4 3 2, .vnegFp 5 4 3 2] : List Instr).map some :=
  by rfl

theorem test_words_vcmp :
    [0x04CC42A9, 0x0CCC42A9, 0x14CC42A9, 0x1CCC42A9, 0x24CC42A9, 0x2CCC42A9, 0x44CC42A9, 0x4CCC42A9, 0x54CC42A9,
      0x5CCC42A9, 0x64CC42A9, 0x84CC42A9].map decodeCore =
    ([.vcmpEq 5 4 6 3 2, .vcmpNe 5 4 6 3 2, .vcmpLt 5 4 6 3 2, .vcmpLe 5 4 6 3 2, .vcmpLtu 5 4 6 3 2,
      .vcmpLeu 5 4 6 3 2, .vcmpFeq 5 4 6 3 2, .vcmpFne 5 4 6 3 2, .vcmpFlt 5 4 6 3 2, .vcmpFle 5 4 6 3 2,
      .vcmpFuno 5 4 6 3 2, .vsel 5 4 6 3 2] : List Instr).map some :=
  by rfl

theorem test_words_vperm :
    [0x04C042AB, 0x0C0C42AB, 0x140C42AB, 0x1CCC42AB, 0x24CC42AB, 0x2CCC42AB, 0x34C042AB, 0x3CC042AB].map decodeCore =
    ([.vbcast 5 4 3 2, .vext 5 4 6 2, .vins 5 4 6 2, .vperm 5 4 6 3 2, .vslideUp 5 4 6 3 2, .vslideDn 5 4 6 3 2,
      .vcompr 5 4 3 2, .vexpnd 5 4 3 2] : List Instr).map some :=
  by rfl

theorem test_words_vred :
    [0x04C042AD, 0x0CC042AD, 0x14C042AD, 0x1CC042AD, 0x24C042AD, 0x2CC042AD, 0x34C042AD, 0x3CC042AD, 0x44C042AD,
      0x4CC042AD, 0x54C042AD].map decodeCore =
    ([.vredAdd 5 4 3 2, .vredMin 5 4 3 2, .vredMax 5 4 3 2, .vredMinu 5 4 3 2, .vredMaxu 5 4 3 2, .vredAnd 5 4 3 2,
      .vredOr 5 4 3 2, .vredXor 5 4 3 2, .vredFadd 5 4 3 2, .vredFmin 5 4 3 2, .vredFmax 5 4 3 2] : List Instr).map some :=
  by rfl

theorem test_words_vmask :
    [0x000C42B3, 0x080C42B3, 0x100C42B3, 0x180C42B3, 0x200042B3, 0x400042B3, 0x480042B3, 0x500042B3].map decodeCore =
    ([.kopAnd 5 4 6, .kopOr 5 4 6, .kopXor 5 4 6, .kopAndn 5 4 6, .kopNot 5 4, .kmovToMask 5 4, .kmovFromMask 5 4,
      .kpop 5 4] : List Instr).map some :=
  by rfl

theorem test_words_msg :
    [0x1A0C42B5, 0x1A4C42B5, 0x1A8C42B5, 0x00C00035, 0x010002B5, 0x014002B5].map decodeCore =
    ([.send 5 4 6 3 true, .sendv 5 4 6 3 true, .sendb 5 4 6 3 true, .mdone, .mlen 5, .msrc 5] : List Instr).map some :=
  by rfl

theorem test_words_thread :
    [0x000C42B7, 0x004C42B7, 0x00800037, 0x00C00037, 0x01004037, 0x01404037, 0x19804037].map decodeCore =
    ([.spawn 5 4 6, .spawnW 5 4 6, .exit, .yield, .kill 4, .prio 4, .waitc 3 4] : List Instr).map some :=
  by rfl

theorem test_words_sync :
    [0x00004039, 0x00404039, 0x00804039, 0x00CC4039, 0x09004039, 0x19404039, 0x19804039, 0x01C00039].map decodeCore =
    ([.barr 4, .barw 4, .baraw 4, .barset 4 6, .wdeclOne 4, .wdeclAll 4 3, .wdeclAny 4 3, .wclr] : List Instr).map some :=
  by rfl

theorem test_words_chan :
    [0x000C42BB, 0x0040403B, 0x008C403B, 0x38C042BB, 0x0100403B, 0x0140403B].map decodeCore =
    ([.chopen 5 4 6, .chprod 4, .chput 4 6, .chget 5 7 4, .cheos 4, .chclose 4] : List Instr).map some :=
  by rfl

theorem test_words_task :
    [0x100C82BD, 0x1840003D, 0x0080003D, 0x00C0403D].map decodeCore =
    ([.tsub 5 8 6 3, .trel 3, .tdone, .tretry 4] : List Instr).map some :=
  by rfl

theorem test_words_engine :
    [0x000C403F, 0x0040403F, 0x0080403F, 0x40CC403F, 0x0100003F, 0x1940003F, 0x1980003F].map decodeCore =
    ([.mxq 4 6, .mxwait 4, .mxcure 4, .cekick 4 6 8, .cekickR, .semw 3, .sems 3] : List Instr).map some :=
  by rfl

theorem test_words_system :
    [0x0A3002C3, 0x0A324043, 0x0A344043, 0x0A364043, 0x0A380043, 0x0A3A4043, 0x000C0043, 0x001C0043, 0x002C0043].map decodeCore =
    ([.csrr 5 163, .csrw 163 4, .csrset 163 4, .csrclr 163 4, .trap 163, .syscall 163 4, .nop, .brk, .eret] : List Instr).map some :=
  by rfl

theorem test_words_service :
    [0x000C4045, 0x004C4045, 0x00804045, 0x00C04045, 0x01004045, 0x01404045].map decodeCore =
    ([.pinval 4 6, .plbinv 4 6, .tstop 4, .tresume 4, .mxtest 4, .pkill 4] : List Instr).map some :=
  by rfl

theorem test_words_one_row_majors_0 :
    [0x8A3C5287, 0x8A30428B, 0x4A32428B, 0x0414428B, 0x8A3C528D, 0x05300019, 0x00020019, 0x8A3C529D, 0x8A30429F,
      0x8A3042A1, 0x263242A1, 0x261442A1, 0x00F442AF, 0x70CC42AF].map decodeCore =
    ([.lih 5 566213, .cincI 5 4 (-1885), .csetbI 5 4 1187, .candpI 5 4 65, .cpcrel 5 (-482363), .fence 3 5, .fenceI,
      .jal 5 (-482363), .jalr 5 4 (-1885), .vld 5 4 (-1885), .vlds 5 4 3 3 2, .vgath 5 4 1 3 2, .vcvt 5 4 3 1 10,
      .vcvttDec 5 4 6 3 true 2] : List Instr).map some :=
  by rfl

theorem test_words_one_row_majors_1 :
    [0xB0CC42AF, 0x04C042B1, 0x0CCC42B1, 0x20000041, 0x00400041].map decodeCore =
    ([.vcvttEnc 5 4 6 3 true 2, .vconf 5 4 3 2, .visect 5 4 6 3, .compose 4, .decompose] : List Instr).map some :=
  by rfl

theorem test_words_compact_0 :
    [0x0002, 0x0944, 0x0946, 0x0948, 0x094A, 0x094C, 0x094E, 0xA750, 0xA752, 0x5554, 0x5556, 0xA758, 0x395A, 0x395C].map decodeCompact =
    ([.cNop, .cAdd 5 4, .cSub 5 4, .cAnd 5 4, .cOr 5 4, .cXor 5 4, .cMov 5 4, .cAddi 5 (-45), .cLi 5 (-45),
      .cSlli 5 42, .cSrli 5 42, .cCinc 5 (-45), .cLd 5 4 3, .cSd 5 4 3] : List Instr).map some :=
  by rfl

theorem test_words_compact_1 :
    [0x395E, 0x3960, 0xA722, 0xA724, 0x94E6, 0x0828, 0x002A, 0x002C].map decodeCompact =
    ([.cLw 5 4 3, .cSw 5 4 3, .cBeqz 4 (-45), .cBnez 4 (-45), .cJ (-429), .cJr 4, .cYield, .cMdone] : List Instr).map some :=
  by rfl

theorem test_words_copy_engine_0 :
    [0x18A3C541, 0x00019142, 0xA28C1143, 0x00019144, 0x00019145, 0x00A81146, 0x00A81147, 0xA28D9088, 0xA28F1449,
      0xA28CD14A, 0x0005014A, 0xA28CD14B, 0x000D014B, 0x0005914C].map decodeEngine =
    ([.eli 5 35388 1 true, .eadd 5 4 6, .eaddi 5 4 (-5981), .esub 5 4 6, .eand 5 4 6, .eshl 5 4 42, .eshr 5 4 42,
      .eb 2 4 6 (-5981), .ej (-24495023), .eld 5 4 3 (-5981), .eldQ 5 1, .est 5 4 3 (-5981), .estQ 5 3, .blk 5 4 6 1] : List Instr).map some :=
  by rfl

theorem test_words_copy_engine_1 :
    [0x0005914D, 0x0005914E, 0x000C000F, 0x000C1010, 0x00040011, 0x000C0012, 0x000C0013, 0x00001014, 0x00040014,
      0x00099014, 0x00001015].map decodeEngine =
    ([.gath 5 4 6 1, .scat 5 4 6 1, .scout 3, .ewait 3 4, .efence 1, .semwEngine 3, .semsEngine 3, .barbBind 4,
      .barbUnbind, .barbAdd 4 6, .edone 4] : List Instr).map some :=
  by rfl
/-! Ill-formed terms, refused by `Instr.wf`: one for each check of WellFormed. -/

/-- Register fields: a source of q0, q1, 30 and 31; a destination of q2, q5, mi and 31; a capability field of q6, p0 and mi
(R103, R215). -/
theorem test_wf_refuses_registers :
    [Instr.add 5 16 6, .add 5 17 6, .add 5 4 30, .sub 5 31 6, .clz 5 16, .add 18 4 6, .add 21 4 6, .addi 28 4 1, .lih 31 0,
      .lb 5 16 0, .csetb 22 4 6, .cmov 5 28, .cclr 24 5, .scap 24 5 0, .sq 5 30 0, .cas 22 6 4 false false false 0,
      .sel 5 4 6 16].map Instr.wf = List.replicate 17 false := by rfl

/-- Vector, mask, compact and engine register fields, element widths (R214, R227, R230, R66). -/
theorem test_wf_refuses_vector_fields :
    [Instr.vadd 32 1 2 0 0, .vadd 0 32 2 0 0, .vadd 0 1 32 0 0, .vadd 0 1 2 8 0, .vadd 0 1 2 0 4, .vaddFp 0 1 2 0 0,
      .vaddFp 0 1 2 0 4, .vcmpEq 8 1 2 0 0, .vredFadd 5 1 0 0, .cAdd 8 0, .cAdd 0 8, .eadd 16 0 0, .eadd 0 16 0, .eadd 0 0 16,
      .kopNot 8 0, .kmovToMask 8 4, .kmovFromMask 5 8].map Instr.wf = List.replicate 17 false := by rfl

/-- Immediates and offsets one past each end (R213, R230, R66). -/
theorem test_wf_refuses_immediates :
    [Instr.addi 5 4 2048, .addi 5 4 (-2049), .cAddi 5 64, .cAddi 5 (-65), .cJ 512, .cJ (-513), .eaddi 1 2 8192,
      .eaddi 1 2 (-8193), .ej 33554432, .ej (-33554433), .jal 0 524288, .jal 0 (-524289), .slli 5 4 64, .lih 5 1048576,
      .csetbI 5 4 2048, .candpI 5 4 256, .cSlli 1 64, .cLd 1 2 16, .eshl 1 2 64, .eli 1 65536 0 false, .eli 1 0 4 false,
      .trap 4096, .syscall 4096 4, .csrr 5 4096, .csrw 4096 5].map Instr.wf = List.replicate 25 false := by rfl

/-- Hints, scopes, routes; an atomic's scope without an ordering bit, and an ordering bit without a scope; a fence's kinds and
scope (R217, R223, R224). -/
theorem test_wf_refuses_modifiers :
    [Instr.lbX 5 4 3 0 0, .lbX 5 4 0 6 0, .sbX 5 4 0 0 3, .amoadd 5 6 4 false false false 1, .amoadd 5 6 4 false true false 0,
      .amoadd 5 6 4 false false true 6, .fence 0 1, .fence 16 1, .fence 1 0, .fence 1 6].map Instr.wf =
      List.replicate 10 false := by rfl

/-- The vector operations with fields of their own (R227, R228, R281, R289 to R292). -/
theorem test_wf_refuses_vector_operations :
    [Instr.vscataAdd 1 4 2 0 1 true, .vscataFadd 1 4 2 0 1 true, .vscataFadd 1 4 2 0 0 false, .vcvt 1 2 0 12 0, .vcvt 1 2 0 0 12,
      .vcvt 1 2 0 3 3, .vcvttDec 1 2 5 0 false 3, .vcvttEnc 1 2 5 0 false 3, .vconf 1 2 0 1, .visect 1 2 3 0].map Instr.wf =
      List.replicate 10 false := by rfl

/-- Counts, register ranges and distinctness of the message, wait, channel and task instructions (R228, R229). -/
theorem test_wf_refuses_coordination :
    [Instr.send 0 4 6 17 false, .send 10 4 6 7 false, .send 1 4 6 0 false, .sendv 1 4 6 9 false, .sendb 5 4 6 32 false,
      .waitc 16 4, .wdeclOne 16, .wdeclAll 4 0, .wdeclAll 4 5, .wdeclAny 14 3, .chget 5 5 4, .chget 4 5 4, .chget 5 4 4,
      .tsub 5 8 6 0, .tsub 5 8 6 5, .tsub 5 14 6 3, .tsub 6 8 6 2, .tsub 9 8 6 2, .trel 4, .semw 8, .sems 8, .compose 3,
      .pinval 16 4, .pinval 4 16, .plbinv 16 4].map Instr.wf = List.replicate 25 false := by rfl

/-- The copy engines' fields (R66 to R80), and a matrix command whose opcode is another's (R160). -/
theorem test_wf_refuses_engine_fields :
    [Instr.eb 3 1 2 0, .eb 0 1 2 0, .eb 2 16 2 0, .eld 1 2 4 0, .eldQ 1 2, .est 1 2 4 0, .estQ 1 1, .estQ 1 4, .blk 1 2 3 4, .gath 1 2 5 4,
      .scat 1 2 4 16, .scout 65, .ewait 16 1, .efence 5, .semwEngine 8, .semsEngine 8, .barbBind 16, .barbAdd 1 16, .edone 16,
      .mxNop ⟨1, 0, 0, 0, 0, 0, 0, 0⟩, .mxFmap ⟨0, 0, 0, 0, 0, 0, 0, 0⟩].map Instr.wf = List.replicate 21 false := by rfl

/-- Words that name nothing: a reserved major opcode, a used bit in an unused field, an unused f5, register 30, a route of 3; a
compact halfword of opcode 0; an engine word of an unused opcode (R214, R219, R220, R232, R67). -/
theorem test_reserved_words_name_nothing :
    [0x00000047, 0x080C4281, 0x07004281, 0x000DE281, 0x000C4F01, 0x04C64293].map decodeCore = List.replicate 6 none ∧
    decodeCompact 0x0000 = none ∧ decodeEngine 0x0000003D = none := by
  exact ⟨rfl, rfl, rfl⟩
/-! Small states for the witnesses: slot 0 of core 0 holds a thread with capabilities over its own banks through the self
window (R16, R92), a send capability over everything and a code capability. -/

/-- A capability over the core's own memory through the self window, with the given permissions and cursor. -/
def own (perms off : Nat) : Reg := mkCap perms 9 1 0xFFFFFFFFC0000 (0xFFFFFFFFC0000 + off)

/-- The thread of the witnesses. -/
def y0 : Slot :=
  { Slot.empty with
    holds := .thread
    tvec := 0x100
    pcc := own 0x05 0x10040
    c := [(2, .ofWord 7), (3, own 0x3F 0x10200), (4, own 0x3F 0x10100), (6, .ofWord 3), (7, own 0x07 0x10080)] }

/-- Slot 0 of core 0 is `y`; the core's PLB gives its domain every right on its own window. -/
def st (y : Slot) : State :=
  { State.reset with cores := [(0, { Core.reset with slots := [(0, y)], plb := [(0, 2 ^ 23 - 1, 31)] })] }

def s0 : State := st y0

/-- Fields that are no queue and no port need no draining. -/
theorem ready_of {r w : List Nat} {s : State} (h : ∀ f ∈ r ++ w, absentField s.curCore f = false)
    (h1 : unmet (giveBack s.curCore s.curSlot s) r w = none) (h2 : touchesQueue (r ++ w) = false) : Ready r w s :=
  ⟨h, h1, fun h3 => Bool.noConfusion (h2.symm.trans h3)⟩

/-! Witnesses: states and operands that meet the hypotheses of the obligation named. -/

theorem witness_IntegerResults : Ready [4, 6] [5] s0 ∧ Ready [4] [5] s0 ∧ Ready [29, 28] [29] s0 :=
  ⟨ready_of (by decide) rfl rfl, ready_of (by decide) rfl rfl, ready_of (by decide) rfl rfl⟩

theorem witness_DivisionResults : Ready [4, 29] [5] s0 ∧ (6 : Word) ≠ 0 ∧ remS (-20) 6 ≠ 0 :=
  ⟨ready_of (by decide) rfl rfl, by decide, by decide⟩

theorem witness_SelectResult : Ready [4, 6, 29] [5] s0 ∧ Ready [4, 6, 2] [5] s0 := ⟨ready_of (by decide) rfl rfl, ready_of (by decide) rfl rfl⟩

theorem witness_ImmediateResults :
    Ready [4] [5] s0 ∧ Ready [] [5] s0 ∧ (2 ^ 20 - 1 : Nat) < 2 ^ 20 ∧ Ready [5, 4] [5] s0 ∧ Ready [5] [5] s0 ∧
      Ready [29] [5] s0 :=
  ⟨ready_of (by decide) rfl rfl, ready_of (by decide) rfl rfl, by decide, ready_of (by decide) rfl rfl, ready_of (by decide) rfl rfl, ready_of (by decide) rfl rfl⟩

theorem witness_CapabilityMoves :
    Ready [4, 6] [5] s0 ∧ Ready [4] [5] s0 ∧ Ready [5] [5] s0 ∧ Ready [] [5] s0 :=
  ⟨ready_of (by decide) rfl rfl, ready_of (by decide) rfl rfl, ready_of (by decide) rfl rfl, ready_of (by decide) rfl rfl⟩

theorem witness_CapabilityInspection : Ready [4] [5] s0 ∧ Ready [4, 3] [5] s0 := ⟨ready_of (by decide) rfl rfl, ready_of (by decide) rfl rfl⟩

/-- The last two bytes of the source, exactly. -/
theorem witness_BoundsSetting :
    let s := st (y0.setC 4 (own 0x3F 0x3F001))
    Ready [4, 6] [5] s ∧ (source [4, 6] [5] s 0).tag = true ∧
      (source [4] [5] s 0).base ≤ (source [4] [5] s 0).cursor ∧
      (source [4] [5] s 0).cursor + 4095 ≤ (source [4] [5] s 0).top ∧
      (source [4] [5] s 0).cursor + 4095 = (source [4] [5] s 0).top :=
  ⟨ready_of (by decide) rfl rfl, by decide, by decide, by decide, by decide⟩

theorem witness_AuthorityShrinks : ∃ r, setBounds (own 0x3F 0x100) 16 = .ok r := ⟨_, rfl⟩

/-- A jump through an untagged source, one without execute permission and one that has it. -/
theorem witness_BranchesAndJumps :
    Ready [4, 6] [] s0 ∧ Ready [4, 29] [] s0 ∧ Ready [] [5] s0 ∧ Ready [4] [5] s0 ∧ Ready [4] [29] s0 ∧
      ((source [7] [5] s0 0).tag = true ∧ (source [7] [5] s0 0).nat.testBit 122 = true) ∧
      (source [6] [5] s0 0).tag = false ∧
      (let s := st (y0.setC 4 (own 0x3B 0)); (source [4] [5] s 0).tag = true ∧ (source [4] [5] s 0).nat.testBit 122 = false) :=
  ⟨ready_of (by decide) rfl rfl, ready_of (by decide) rfl rfl, ready_of (by decide) rfl rfl, ready_of (by decide) rfl rfl, ready_of (by decide) rfl rfl, ⟨by decide, by decide⟩,
    by decide, by decide, by decide⟩

/-- The first and the last queue, the first and the last port of a core that has neighbours on all sides. -/
theorem witness_FieldsReadAndWritten :
    let s : State := { s0 with cores := [(0, { Core.reset with q := [(0, [5]), (7, [6, 7])], ports := [(0, [1]), (3, [2])] })] }
    (s.core s.curCore).queue 0 = 5 :: [] ∧ (s.core s.curCore).queue 7 = 6 :: [7] ∧ (s.core s.curCore).port 0 = 1 :: [] ∧
      (s.core s.curCore).port 3 = 2 :: [] ∧ neighbour 41 0 = some 33 ∧ neighbour 41 3 = some 40 ∧
      (let s := st { y0 with holds := .activation, payload := [1, 2], miPos := 1 };
        s.me.holds = .activation ∧ s.me.payload[s.me.miPos]? = some 2) ∧ s0.me.holds ≠ .activation ∧
      (let s := st { y0 with holds := .activation, payload := [1, 2], miPos := 2 }; s.me.payload.length ≤ s.me.miPos) :=
  ⟨by decide, by decide, by decide, by decide, by decide, by decide, by decide, by decide, by decide⟩

/-- A read of an empty q2, a write to a full q6, and a north port at the edge of the die. -/
theorem witness_IssueWaits :
    (∀ f ∈ [18, 6, 22], absentField s0.curCore f = false) ∧ unmet s0 [18, 6] [22] = some (18, false) ∧
      keptFor s0 [18, 6] [22] = none ∧ s0.me.kept = none ∧ giveBack s0.curCore s0.curSlot s0 = s0 ∧
      unmet { s0 with cores := [(0, { Core.reset with q := [(6, List.replicate 16 0)] })] } [4, 6] [22] = some (22, true) ∧
      absentField s0.curCore 24 = true :=
  ⟨by decide, by decide, rfl, rfl, rfl, by decide, by decide⟩

theorem witness_RegisterFrame :
    registerOnly (.sel 5 4 6 28) = some ([4, 6, 28], [5]) ∧ (∀ f ∈ [4, 6, 28] ++ [5], plainField f = true) ∧
      registerOnly (.cAdd 5 4) = some ([5, 4], [5]) ∧ (∀ f ∈ [5, 4] ++ [5], plainField f = true) ∧ s0.me.kept = none :=
  ⟨rfl, by decide, rfl, by decide, rfl⟩

theorem witness_CompletionEffect :
    let s := st { y0 with wait := ⟨0xFFFF, 1, 3, 1, [7]⟩ }
    s.me.stepping = false ∧ s.me.wait.mode ≠ 0 ∧ s.me.wait.reason ≠ 0x0F ∧ s.me.decl = none :=
  ⟨rfl, by decide, by decide, rfl⟩

/-- A write of slot 0 of core 0 to a host, not yet acknowledged. -/
def hostWrite : Request := ⟨1, 2, 0, 0, 8, [], 0, 0, 0, false, false, 0, 2 ^ 32, 0, 0, 0, 0, none, true, []⟩

/-- A trap outside a trap; one inside a trap with a free frame place; one without a vector. -/
theorem witness_TakingATrap :
    ((s0.slot 0 0).inTrap = false ∧ (s0.slot 0 0).tvec / 2 ≠ 0 ∧ (s0.slot 0 0).wait.reason ≠ 0x0D ∧ (s0.slot 0 0).stepping = false) ∧
      ((st { y0 with inTrap := true }).slot 0 0).inTrap = true ∧ ((st { y0 with tvec := 0 }).slot 0 0).tvec / 2 = 0 ∧
      freePlace (s0.core (tileKeystone (globalTile 0))) = some 0 ∧ hostWritesOf s0 (s0.agentAt 0 0) = false ∧
      hostWritesOf { s0 with links := [(0, { Link.reset with requests := [hostWrite] })] } (s0.agentAt 0 0) = true ∧
      freePlace { Core.reset with frames := (List.range 32).map fun p => (p, ⟨1, p, 0, false⟩) } = none :=
  ⟨⟨rfl, by decide, by decide, rfl⟩, rfl, rfl, by decide, rfl, by decide, by decide⟩

/-- LB and SB in the core's own banks. -/
def lb0 : LoadForm := ⟨.lb 5 4 0, 4, 4, 5, 0, 1, 1, 0, 0, 0, signExt 1⟩
def sb0 : StoreForm := ⟨.sb 6 4 0, 4, 6, 4, 0, 1, 1, 0, 0, 0, false⟩
def scap0 : StoreForm := ⟨.scap 3 4 0, 4, 3, 4, 0, 16, 16, 0, 0, 0, true⟩

theorem isLoad_lb0 : IsLoad lb0 := .inl ⟨_, List.mem_cons_self, 5, 4, 0, rfl⟩
theorem isStore_sb0 : IsStore sb0 := .inl ⟨_, List.mem_cons_self, 6, 4, 0, rfl⟩
theorem isStore_scap0 : IsStore scap0 := .inl ⟨_, by simp [storeForms]; exact .inr (.inr (.inr (.inr (.inr rfl)))), 3, 4, 0, rfl⟩

theorem witness_LoadAndStoreResults :
    (∃ t1 t2 t3 va rights x, memCheck (whoMe s0) (source [4] [5] s0 0) (lb0.ea s0) 1 1 1 1 s0 = .ok va t1 ∧
      migrateTo (whoMe s0) va 1 0 [5] t1 = none ∧ loadAt (whoMe s0) va 1 0 0 t1 = .ok x t2 ∧ x.poison = none ∧
      rightsOf (whoMe s0) va t2 = .ok rights t3 ∧ x.bytes.length = 1) ∧
    (∃ t1 t2 va, capCheck (source [4, 3] [] s0 0) (scap0.ea s0) 16 (scap0.perms s0) 1 = none ∧ scap0.tagged s0 = true ∧
      windowAt s0.curCore (vaOf (scap0.ea s0)) = some (s0.curCore, 0x10100) ∧
      memCheck (whoMe s0) (source [4, 3] [] s0 0) (scap0.ea s0) 16 2 16 (scap0.perms s0) s0 = .ok va t1 ∧
      migrateTo (whoMe s0) va 16 0 [3] t1 = none ∧
      storeSlot (whoMe s0) va 0 0 (leBytes 16 (source [4, 3] [] s0 1).nat) true t1 = .ok () t2) :=
  ⟨⟨_, _, _, _, _, _, rfl, rfl, rfl, rfl, rfl, rfl⟩, ⟨_, _, _, rfl, rfl, rfl, rfl, rfl, rfl⟩⟩

/-- Untagged, out of bounds, without the permission, misaligned. -/
theorem witness_AccessChecks :
    (source [6] [5] s0 0).tag = false ∧
      (let r := own 0x3F 0x3FFFF; r.tag = true ∧ (r.top : Int) < r.cursor + 2) ∧
      (let r := own 0x3E 0; r.tag = true ∧ r.base ≤ r.cursor ∧ r.cursor + 1 ≤ r.top ∧ r.nat.testBit 120 = false) ∧
      (let r := own 0x3D 0; r.tag = true ∧ r.base ≤ r.cursor ∧ r.cursor + 1 ≤ r.top ∧ r.nat.testBit 121 = false) ∧
      (let r := own 0x3F 8; r.tag = true ∧ r.base ≤ r.cursor ∧ r.cursor + 16 ≤ r.top ∧ r.nat.testBit 120 = true ∧
        r.nat.testBit 121 = true ∧ r.cursor % 16 ≠ 0) :=
  ⟨by decide, by decide, by decide, by decide, by decide⟩

theorem witness_OwnBankAccesses :
    capField 4 ∧ capField 6 ∧ s0.Canonical ∧ s0.flights = [] ∧ (s0.me.holds = .activation → s0.me.exposed = true) ∧
      sb0.tagged s0 = false ∧ sb0.scope ≠ 5 ∧ CapOk (source [4, 6] [] s0 0) (sb0.ea s0) 1 2 1 ∧
      OwnBank s0 (sb0.ea s0) 1 0x10100 31 ∧ s0.me.commit = [] ∧ s0.me.replies = [] ∧ s0.curSlot < 16 ∧
      CapOk (source [4] [5] s0 0) (lb0.ea s0) 1 1 1 ∧ OwnBank s0 (lb0.ea s0) 1 0x10100 31 ∧
      s0.links.all (fun p => p.2.requests.isEmpty) = true ∧ physPoison s0 (localKey s0.curCore 0x10100) 1 = false ∧
      capField 3 ∧ scap0.tagged s0 = true ∧ scap0.scope ≠ 5 ∧ CapOk (source [4, 3] [] s0 0) (scap0.ea s0) 16 0x12 16 ∧
      OwnBank s0 (scap0.ea s0) 16 0x10100 31 ∧ (31 : Nat) &&& 0x12 = 0x12 :=
  ⟨.inl (by decide), .inl (by decide), ⟨by decide, by decide, by decide, by decide, by decide, by decide⟩, rfl, by decide, rfl,
    by decide,
    ⟨by decide, by decide, by decide, by decide, by decide⟩,
    ⟨by decide, by decide, by decide, by decide, by decide, by decide, by decide⟩, rfl, rfl, by decide,
    ⟨by decide, by decide, by decide, by decide, by decide⟩,
    ⟨by decide, by decide, by decide, by decide, by decide, by decide, by decide⟩, rfl, by decide,
    .inl (by decide), by decide, by decide, ⟨by decide, by decide, by decide, by decide, by decide⟩,
    ⟨by decide, by decide, by decide, by decide, by decide, by decide, by decide⟩, by decide⟩

/-- HOME; MIGR of an address of core 1 and of core 0, by a thread that may migrate; a departure with nothing
unacknowledged. -/
def homeAt (core : Nat) : State :=
  { s0 with cores := [(0, { Core.reset with
      slots := [(0, y0.setC 4 (mkCap 0x3F 9 1 0x100000000 0x100000400))]
      pcache := [(0x10000, 0, ⟨4, 0, 0, core, []⟩)] })] }
theorem witness_HomeAndMigration :
    Ready [4] [5] (homeAt 1) ∧ Ready [4] [] (homeAt 1) ∧
    (∃ t, homeWord (whoMe (homeAt 1)) 0x100000400 (homeAt 1) = .ok 1 t ∧ (1 % 2 ^ 13 ≠ t.curCore) ∧
      onLink (whoMe t) 0x100000400 t = false ∧ mayMigrate t = true) ∧
    (∃ t, homeWord (whoMe (homeAt 0)) 0x100000400 (homeAt 0) = .ok 0 t ∧ 0 % 2 ^ 13 = t.curCore) ∧
    (let r := source [4] [] (homeAt 1) 0; r.cursor = 0x100000400 ∧ capCheck r r.cursor 1 0 1 = none ∧ inWindow r.cursor = false) ∧
    hostWritesOf (drainMe s0) (s0.agentAt s0.curCore s0.curSlot) = false ∧ s0.absent = [] ∧ s0.absentHeld = [] :=
  ⟨ready_of (by decide) rfl rfl, ready_of (by decide) rfl rfl, ⟨_, rfl, by decide, rfl, rfl⟩, ⟨_, rfl, rfl⟩, ⟨by decide, rfl, rfl⟩, rfl, rfl, rfl⟩

/-- A service context of frame place 31 of a keystone, for the held slot 0 of core 0. -/
def keystoneState (y : Slot) : State :=
  { s0 with
    cores := [(0, { Core.reset with slots := [(0, { y0 with svc := some ⟨0x10, 5, false, false, 0, 0⟩, wait := ⟨1, 1, 0x13, 1, [serviceParty 0]⟩ })] }),
      (6144, { Core.reset with slots := [(0, y)], frames := [(31, ⟨0, 0, 1, true⟩)] })]
    mem := [(localKey 6144 (placeOff 31) + 0x31, 2), (localKey 6144 (placeOff 31) + 0x178, 3)]
    curCore := 6144 }

theorem witness_TrapReturn :
    (let s := st { y0 with inTrap := true }; s.me.mode = .user ∧ s.me.inTrap = true ∧ s.me.stepping = false) ∧
    (s0.me.mode = .user ∧ s0.me.inTrap = false) ∧
    (let s := st { y0 with mode := .service }; s.me.mode ≠ .user ∧ s.me.origin = none) ∧
    (let s := keystoneState { Slot.empty with holds := .thread, mode := .service, origin := some 31 };
      s.me.mode ≠ .user ∧ s.me.origin = some 31 ∧ SMap.find (s.core s.curCore).frames 31 = some ⟨0, 0, 1, true⟩ ∧
      (s.slot 0 0).svc.isSome = true ∧ (s.slot 0 0).holds = .thread ∧ ¬ (0 = s.curCore ∧ 0 = s.curSlot) ∧
      frameNat s s.curCore 31 0x178 8 / 2 % 4 = 1 ∧ frameNat s s.curCore 31 0x08 8 / 8 % 2 = 0 ∧
      frameNat s s.curCore 31 0x30 8 % 2 ^ 52 / 2 * 2 ≠ 0) :=
  ⟨by decide, by decide, by decide, by decide⟩

/-- A system call; a core without a debugger; a fetch whose check fails; an untagged PCC. -/
theorem witness_TrapInstructions :
    Ready [6] [] s0 ∧ (s0.core s0.curCore).debugger = false ∧
      (∃ u e, fetchSlot 0 0 (st { y0 with pcc := own 0x01 0x10040 }) = .exc e u) ∧
      (st { y0 with pcc := ⟨0, false⟩ }).me.pcc.tag = false :=
  ⟨ready_of (by decide) rfl rfl, rfl, ⟨_, _, rfl⟩, rfl⟩

/-- AMOADD of 8 bytes with acquire and release at .sys, CASQ. -/
def amo0 : AtomForm := ⟨.amoadd 5 6 4 false true true 5, 0, 8, 5, 6, 4, 5, 5⟩
def casq0 : AtomForm := ⟨.casq 5 6 4 false false 0, 10, 16, 5, 6, 4, 0, 0⟩
theorem isAtomic_amo0 : IsAtomic amo0 := .inl ⟨_, List.mem_cons_self, 5, 6, 4, false, true, true, 5, rfl⟩
theorem isAtomic_casq0 : IsAtomic casq0 := .inr ⟨5, 6, 4, false, false, 0, rfl⟩

/-- Checked in this turn; and gone to its home in an earlier one, its value back. -/
theorem witness_AtomicResults :
    Ready [4, 6] [5] s0 ∧
    (begun (whoMe s0) (vaOf (amo0.base s0).cursor) 8 s0 = false ∧
      ∃ t1 t2 t3 va x, memCheck (whoMe s0) (amo0.base s0) (amo0.base s0).cursor 8 3 8 3 s0 = .ok va t1 ∧ exposeMe t1 = .ok () t2 ∧
        atomicAt (whoMe s0) va 8 0 (amo0.operand s0) (amo0.expected s0) 5 5 t2 = .ok x t3 ∧ x.poison = false ∧
        leNat x.bytes < 2 ^ 64) ∧
    (let s := st { y0 with replies := [⟨0xFFFFFFFFD0100, leBytes 8 9, [], false, 0xFFFFFFFFD0100⟩] };
      begun (whoMe s) (vaOf (amo0.base s).cursor) 8 s = true ∧ ∃ t2 t3 x, exposeMe s = .ok () t2 ∧
        atomicAt (whoMe s) (vaOf (amo0.base s).cursor) 8 0 (amo0.operand s) (amo0.expected s) 5 5 t2 = .ok x t3 ∧ x.poison = false ∧
        leNat x.bytes < 2 ^ 64) ∧
    (capField 4 ∧ capField 5 ∧ capField 6 ∧ s0.Canonical ∧ s0.late = false ∧ casq0.scope ≤ 5 ∧ amo0.scope ≤ 5) ∧
    (CapOk (casq0.base s0) (casq0.base s0).cursor 16 3 16 ∧ OwnBank s0 (casq0.base s0).cursor 16 0x10100 31 ∧ (31 : Nat) &&& 3 = 3 ∧
      physPoison s0 (localKey s0.curCore 0x10100) 16 = false) :=
  ⟨ready_of (by decide) rfl rfl, ⟨rfl, _, _, _, _, _, rfl, rfl, rfl, rfl, by decide⟩,
    ⟨by decide, _, _, _, rfl, rfl, rfl, by decide⟩,
    ⟨.inl (by decide), .inl (by decide), .inl (by decide), ⟨by decide, by decide, by decide, by decide, by decide, by decide⟩, rfl,
      by decide, by decide⟩,
    ⟨by decide, by decide, by decide, by decide, by decide⟩,
    ⟨by decide, by decide, by decide, by decide, by decide, by decide, by decide⟩, by decide, by decide⟩

/-- A free lock word in the core's own bank; a request that has been granted; a word with a writer; one with the largest number of
readers. -/
def lockVa : Nat := 0xFFFFFFFFD0100
def granted0 : State :=
  { s0 with cores := [(0, { Core.reset with
      slots := [(0, y0)], plb := [(0, 2 ^ 23 - 1, 31)], locks := [(lockVa, ⟨[], [⟨slotParty 0 0, 0, true, true⟩]⟩)] })] }
theorem witness_LockResults :
    Ready [4] [5] s0 ∧ Ready [4] [] s0 ∧ vaOf (source [4] [5] s0 0).cursor = lockVa ∧
    (listedAt s0 (whoMe s0).party 0 (lockKey s0.curCore lockVa) = none ∧ inFlight (whoMe s0) 3 lockVa s0 = false ∧
      findReply (whoMe s0) lockVa 8 s0 = none ∧ askedFor s0 (whoMe s0) lockVa = false) ∧
    (∃ t1 t2 u, lockCheck (whoMe s0) (source [4] [5] s0 0) s0 = .ok lockVa t1 ∧ exposeMe t1 = .ok () t2 ∧
      lockLocate (whoMe s0) lockVa true t2 = .ok (.bank 0 0x10100) u ∧ isLink (.bank 0 0x10100) = false ∧
      toOwner u (.bank 0 0x10100) = none ∧
      poisonAt u (.bank 0 0x10100) lockVa 8 = false ∧ (lockInfo u (lockPlace (.bank 0 0x10100) lockVa)).waiters = [] ∧
      lockFields (leNat (readAt u (.bank 0 0x10100) lockVa 8)) = (false, false, 0, 0)) ∧
    (∃ t1 t2 u, lockCheck (whoMe s0) (source [4] [] s0 0) s0 = .ok lockVa t1 ∧ exposeMe t1 = .ok () t2 ∧
      lockLocate (whoMe s0) lockVa false (drainMe t2) = .ok (.bank 0 0x10100) u ∧ toOwner u (.bank 0 0x10100) = none ∧
      poisonAt u (.bank 0 0x10100) lockVa 8 = false ∧ (lockInfo u (lockPlace (.bank 0 0x10100) lockVa)).waiters = []) ∧
    (Ready [4] [5] granted0 ∧
      listedAt granted0 (whoMe granted0).party 0 (lockKey granted0.curCore lockVa) = some (0, ⟨slotParty 0 0, 0, true, true⟩)) ∧
    (∃ w, lockFields w = (false, true, 0, 0)) ∧ (∃ w, lockFields w = (true, false, 1, 2 ^ 32 - 1)) :=
  ⟨ready_of (by decide) rfl rfl, ready_of (by decide) rfl rfl, by decide, ⟨by decide, rfl, rfl, rfl⟩,
    ⟨_, _, _, rfl, rfl, rfl, rfl, rfl, by decide, by decide, by decide⟩, ⟨_, _, _, rfl, rfl, rfl, rfl, by decide, by decide⟩,
    ⟨ready_of (by decide) rfl rfl, by decide⟩, ⟨2 ^ 62, by decide⟩, ⟨2 ^ 63 + 2 ^ 48 + 2 ^ 32 - 1, by decide⟩⟩

/-- A fence of stores; one of earlier loads alone; a .sys fence with a host write unacknowledged. -/
theorem witness_FenceResults :
    (8 : Nat).testBit 3 = true ∧ (4 : Nat).testBit 2 = true ∧ (1 : Nat).testBit 2 = false ∧ (1 : Nat).testBit 3 = false ∧
      hostWritesOf s0 (s0.agentAt 0 0) = false ∧
      (let t := drainScope 0 0 5 { s0 with links := [(0, { Link.reset with requests := [hostWrite] })] };
        hostWritesOf t (t.agentAt 0 0) = true) :=
  ⟨by decide, by decide, by decide, by decide, by decide, by decide⟩

/-- VLD, VST, VSCAT and VSCATA.add in the core's own banks, under a mask of two lanes. -/
def sv : State := st { y0 with k := [(1, 0x8001)], v := [(2, 3)] }
def vlds0 : VecForm := ⟨.vlds 1 4 6 1 0, [4, 6], 1, 1, 1, strideOf⟩
def vsts0 : VecForm := ⟨.vsts 1 4 6 1 0, [4, 6], 1, 1, 1, strideOf⟩
theorem isVecLoad_vlds0 : IsVecLoad vlds0 := .inr (.inl ⟨1, 4, 6, 1, 0, by decide, rfl⟩)
theorem isVecStore_vsts0 : IsVecStore vsts0 := .inr ⟨1, 4, 6, 1, 0, by decide, rfl⟩

/-- The lanes of VSTS in their order, that is moved on by no lane; with a stride of 0 by a free number. -/
theorem witness_VectorLoadsStores :
    Ready [4, 6] [] sv ∧ Ready [4] [] sv ∧ sourceWord [4, 6] [] sv 1 ≠ 0 ∧
    (∃ t1 t2 vs, checkParts (whoMe sv) (source [4, 6] [] sv 0) 1 1 1 1 (vlds0.addresses sv) sv = ([], t1) ∧
      loadMany (whoMe sv) 1 (vlds0.addresses sv) t1 = .ok vs t2) ∧
    (∃ t1 t2, checkParts (whoMe sv) (source [4, 6] [] sv 0) 1 2 1 2 (vsts0.addresses sv) sv = ([], t1) ∧
      storeMany (whoMe sv) ((((List.range 64).filter (onLane sv.me 1)).rotateLeft 0).map fun i =>
        (vaOf (vsts0.at_ sv.me (source [4, 6] [] sv 0) (sourceWord [4, 6] [] sv 1) i), leBytes 1 (laneAt (sv.me.vr 1) 8 i).toNat))
        t1 = .ok () t2) ∧
    (∃ t1 t2, checkParts (whoMe sv) (source [4] [] sv 0) 4 2 4 2
        (((List.range 16).filter (onLane sv.me 1)).map fun i => indexedAt 2 4 sv.me (source [4] [] sv 0) 0 i) sv = ([], t1) ∧
      storeMany (whoMe sv) ((scatterLanes sv.me 2 1 4).map fun i =>
        (vaOf (indexedAt 2 4 sv.me (source [4] [] sv 0) 0 i), leBytes 4 (laneAt (sv.me.vr 1) 32 i).toNat)) t1 = .ok () t2) :=
  ⟨ready_of (by decide) rfl rfl, ready_of (by decide) rfl rfl, by decide, ⟨_, _, _, rfl, rfl⟩, ⟨_, _, rfl, rfl⟩, ⟨_, _, rfl, rfl⟩⟩

theorem witness_VectorLoadsStores_at :
    let u := sv
    let r := source [4] [] sv 0
    scatMark (whoMe u) u = none ∧
    ∃ t1, checkParts (whoMe u) r 4 3 4 3 ((u.me.actives 1 (laneCount (ewBits 2))).map (indexAt r (u.me.vr 2) (ewBits 2))) u = ([], t1) ∧
      (∃ olds t2 t3, loadMany (whoMe u) 4 ((scatElems u.me r 1 2 1 2 u.curCore false).map fun e => e.2.1) t1 = .ok olds t2 ∧
        storeMany (whoMe u) (((scatElems u.me r 1 2 1 2 u.curCore false).zip olds).map fun p =>
          (vaOf p.1.2.1, leBytes 4 (scatSum false 2 t2.curCore p.1.1 p.2 p.1.2.2))) t2 = .ok () t3) ∧
      (∃ t2 t3 places, exposeMe t1 = .ok () t2 ∧
        readyAll (whoMe t2) ((scatElems u.me r 1 2 1 2 u.curCore false).map fun e => (vaOf e.2.1, 4)) t2 = .ok places t3 ∧
        ∀ p ∈ (scatElems u.me r 1 2 1 2 u.curCore false).zip places, isLink p.2.2.2 = false ∧
          poisonAt (holdLines (whoMe t2) ((((scatElems u.me r 1 2 1 2 u.curCore false).zip places).map fun p => holdKey t2.curCore (vaOf p.1.2.1))) t3)
            p.2.2.2 (vaOf p.1.2.1) 4 = false) :=
  ⟨by decide, _, rfl, ⟨_, _, _, rfl, rfl⟩, ⟨_, _, _, rfl, rfl, by decide⟩⟩

/-- Every element width. -/
theorem witness_VectorIntegerLanes : (0 : Nat) < 4 ∧ (3 : Nat) < 4 ∧ vecInt2 ≠ [] ∧ vecInt1 ≠ [] :=
  ⟨by decide, by decide, by simp [vecInt2], by simp [vecInt1]⟩

/-- A signalling FP16 NaN of sign 1 in lane 0. -/
theorem witness_VectorFloatLanes :
    (1 : Nat) ≤ 1 ∧ (3 : Nat) < 4 ∧ isNan ((fmtOf 1).read (laneAt 0xFC01 16 0).toNat) = true := ⟨by decide, by decide, by decide⟩

theorem witness_VectorMasksAndSelect : (0 : Nat) < 4 ∧ (1 : Nat) ≤ 1 ∧ (3 : Nat) < 4 ∧ plainField 28 = true ∧ (1 : Nat) ≠ 0 ∧ Ready [] [29] s0 :=
  ⟨by decide, by decide, by decide, rfl, by decide, ready_of (by decide) rfl rfl⟩

theorem witness_VectorPermutation :
    (0 : Nat) < 4 ∧ (2 : Nat) ≤ 2 ∧ plainField 4 = true ∧ plainField 28 = true ∧ Ready [6] [5] s0 ∧
      onLane s0.me 0 63 = true ∧ onLane sv.me 1 15 = true ∧ onLane sv.me 1 14 = false :=
  ⟨by decide, by decide, rfl, rfl, ready_of (by decide) rfl rfl, by decide, by decide, by decide⟩

theorem witness_VectorReductions : (0 : Nat) < 4 ∧ (1 : Nat) ≤ 1 ∧ (3 : Nat) < 4 ∧ Ready [] [5] sv :=
  ⟨by decide, by decide, by decide, ready_of (by decide) rfl rfl⟩

/-- Both ends of the formats; a table that is malformed and one that is good. -/
theorem witness_VectorConversions :
    (0 : Nat) < 12 ∧ (11 : Nat) < 12 ∧ (0 : Nat) ≠ 11 ∧ (0 : Nat) < 3 ∧ (2 : Nat) < 3 ∧ plainField 6 = true ∧ (1 : Nat) ≠ 0 ∧
      s0.me.kept = none ∧ partsAhead s0 0x10101 = [] ∧ slotTable s0 true 0x10101 = none ∧ partsAhead s0 1 = [] ∧
      (∃ tab, slotTable s0 true 1 = some tab) ∧ (Config.readsFirst 0 = some [3] → partsAhead s0 0x10000 = [3]) :=
  ⟨by decide, by decide, by decide, by decide, by decide, rfl, by decide, rfl, rfl, by decide, rfl, ⟨_, rfl⟩,
    fun h => by unfold partsAhead; rw [show s0.tick = 0 from rfl, h]; decide⟩

/-- A send of two words, of a thread, of an unexposed activation with room, and with the slot's last message refused. -/
def send0 : SendForm := ⟨.send 2 3 6 2 false, 3, 6, 2, false, fun t => .ok ((List.range 2).map fun j => (t.me.cr (2 + j)).word) t⟩
theorem isSend_send0 : IsSend send0 := .inl ⟨2, 3, 6, 2, false, rfl⟩
def sa : State := st { y0 with holds := .activation, header := 0x20003, payload := [1, 2], sender := 5 }
def refused0 : Held := ⟨⟨0, 0, 0, 0, 0, 1, none, 3, [], none, 0, false⟩, .general, none⟩
theorem witness_MessageResults :
    Ready [3, 6] [] s0 ∧ destOf s0.curCore (source [3, 6] [] s0 0) = .ok 0 ∧ headerBad (mayStart s0) 3 = false ∧ (3 : Nat).testBit 12 = false ∧
      (∃ t l e, send0.pay s0 = .ok l t ∧ l.length = 2 ∧ exposeMe t = .ok () e) ∧ s0.me.holds ≠ .activation ∧
      (sa.me.holds = .activation ∧ sa.me.exposed = false ∧ sa.me.heldMsgs.length < 16) ∧
      awaitsGrant s0 s0.curCore s0.curSlot = none ∧ awaitsGrant { s0 with held := [refused0] } 0 0 = some refused0.msg ∧
      (let s := { st (y0.setC 6 (.ofNat 0x1303)) with links := [(0, { Link.reset with requests := [hostWrite] })] };
        Ready [3, 6] [] s ∧ headerBad (mayStart s) 0x1303 = false ∧ (sourceWord [3, 6] [] s 1).toNat = 0x1303 ∧
        ∃ e, exposeMe s = .ok () e ∧ hostWritesOf (drainMe e) ((drainMe e).agentAt 0 0) = true) :=
  ⟨ready_of (by decide) rfl rfl, rfl, rfl, by decide, ⟨_, _, _, rfl, rfl, rfl⟩, by decide, ⟨rfl, rfl, by decide⟩, rfl, rfl,
    ready_of (by decide) rfl rfl, by decide, by decide, _, rfl, by decide⟩

theorem witness_ActivationResults :
    (sa.me.holds = .activation ∧ sa.absent = [] ∧ sa.me.commit = [] ∧ sa.me.heldMsgs = [] ∧ sa.flights = [] ∧ sa.me.task = none) ∧
      (∃ u v, drainCommit sa.curCore sa.curSlot sa = .ok () u ∧ releaseHeld sa.curCore sa.curSlot u = .ok () v ∧ v.absent = [] ∧
        v.absentHeld = []) ∧
      s0.me.holds ≠ .activation ∧ Ready [] [5] s0 := ⟨by decide, ⟨_, _, rfl, rfl, rfl, rfl⟩, by decide, ready_of (by decide) rfl rfl⟩

/-- A thread within its spawn limits (the tenant's limit 1 in its descriptor); at the tenant's limit; at its own. -/
def sp (lim : Nat) (spawns : List (Nat × Nat × Nat)) : State :=
  { st { (y0.setC 4 (own 0x3F 0x10100)) with spawnlim := 1 } with
    spawned := spawns
    mem := if lim = 0 then [] else [(0x1010, BitVec.ofNat 8 lim)] }
theorem witness_ThreadResults_spawn :
    Ready [3, 4] [5] (sp 1 []) ∧ destOf 0 (source [3, 4] [5] (sp 1 []) 0) = .ok 0 ∧ isKeystone 0 = false ∧
      (let e := source [3, 4] [5] (sp 1 []) 1; capCheck e e.cursor 4 4 1 = none) ∧
      spawnStatus (sp 1 []) = 0 ∧ (∃ e, exposeMe (sp 1 []) = .ok () e) ∧ spawnStatus (sp 0 []) = 1 ∧ spawnStatus (sp 1 [(0, 7, 1)]) = 2 ∧ (sp 1 [(0, 7, 1)]).me.spawnlim ≠ 0 :=
  ⟨ready_of (by decide) rfl rfl, rfl, rfl, rfl, by decide, ⟨_, rfl⟩, by decide, by decide, by decide⟩

/-- A killed slot; a KILL of this slot's own context and one that names nobody; a counter below and at the value waited for;
the most registers of a declaration. -/
theorem witness_ThreadResults :
    s0.me.holds ≠ .activation ∧ sa.me.holds = .activation ∧
      (let s := st { y0 with killPend := true }; (s.slot 0 0).killPend = true ∧ (s.slot 0 0).holds = .thread) ∧
      Ready [6] [] s0 ∧ s0.me.replies = [] ∧ (∃ u, exposeMe s0 = .ok () u ∧ killTargets u 0 (some s0.me.tenant) = [(0, 0)] ∧
        killTargets u 3 (some s0.me.tenant) = []) ∧
      (let v := (source [6] [] s0 0).nat % 2 ^ 32; v = 3 ∧ SMap.get 0 (s0.core 0).cnt 15 < v) ∧ Ready [29] [] s0 ∧
      (source [29] [] s0 0).nat % 2 ^ 32 ≤ SMap.get 0 (s0.core 0).cnt 15 :=
  ⟨by decide, by decide, by decide, ready_of (by decide) rfl rfl, rfl, ⟨_, rfl, by decide, by decide⟩, by decide, ready_of (by decide) rfl rfl, by decide⟩

/-- A composed core of two members, led by core 0, whose context is parked, and a KILL of it. -/
def parked0 : Parked := ⟨0x10000, false, [0x10000], { Slot.empty with holds := .thread, composed := true }⟩
def sk : State :=
  { s0 with cores := [(0, { Core.reset with
      slots := [(0, y0.setC 6 (.ofNat (composedParty 0 2)))], comp := some ⟨0, 1, 2, true⟩, parked := [parked0]
      plb := [(0, 2 ^ 23 - 1, 31)] }), (1, { Core.reset with comp := some ⟨0, 1, 2, true⟩ })] }
theorem witness_ThreadResults_parked :
    Ready [6] [] sk ∧ sk.me.replies = [] ∧ (source [6] [] sk 0).nat % 2 ^ 32 = composedParty 0 2 ∧
      ∃ u, exposeMe sk = .ok () u ∧ pKind (composedParty 0 2) = 6 ∧ pWhere (composedParty 0 2) = some 0 ∧
        (u.core 0).comp = some ⟨0, 1, 2, true⟩ ∧ pIndex (composedParty 0 2) = 2 ∧
        ((u.core 0).parked.find? fun q => q.slot.composed) = some parked0 ∧ parked0.slot.tenant = u.me.tenant :=
  ⟨ready_of (by decide) rfl rfl, rfl, by decide, _, rfl, by decide, by decide, by decide, by decide, by decide, by decide⟩

/-- Group 3 of the slot's tenant with one member, expected once, and with a member that has arrived in full. -/
def group0 (n arrived : Nat) : Group := ⟨some 0, true, false, 0xFFFF, [(0, n)], 0, none, if arrived = 0 then [] else [(0, arrived)], 0, [], [], [], 0⟩
def sg (x : Group) : State := { s0 with groups := [(3, x)] }
theorem witness_BarrierResults :
    (let s := sg (group0 1 0); let x := s.group 3;
      Ready [6] [] s ∧ (source [6] [] s 0).nat % 1024 = 3 ∧ x.tenant = some s.me.tenant ∧ x.valid = true ∧ x.byteMode = false ∧
      SMap.has x.members s.curCore = true ∧ SMap.get 0 x.arrived s.curCore < SMap.get 0 x.members s.curCore ∧ x.pending = none ∧
      x.carried = [] ∧ s.me.barGroup = none ∧ x.past 0 (x.lastOf 0) = false ∧ x.past 0 (.generation 0xFFFE) = true ∧
      (∃ y, x.arrive s.curCore = some y) ∧ ∃ e, exposeMe s = .ok () e ∧ (drainMe e).group 3 = s.group 3) ∧
    (s0.group 3).tenant ≠ some s0.me.tenant ∧
    (let x := (sg (group0 1 1)).group 3; SMap.has x.members 0 = true ∧ SMap.get 0 x.members 0 ≤ SMap.get 0 x.arrived 0) ∧
    (let x := (sg { group0 1 0 with members := [(1, 1)], pending := some (false, [(0, 1)], 0) }).group 3;
      SMap.has x.members 0 = false ∧ x.pending = some (false, [(0, 1)], 0) ∧ SMap.has [(0, 1)] 0 = true) ∧
    (let x := (sg { group0 1 0 with byteMode := true, target := 8 }).group 3; x.valid = true ∧ x.byteMode = true ∧ x.bytes < x.target) :=
  ⟨⟨ready_of (by decide) rfl rfl, by decide, by decide, by decide, by decide, by decide, by decide, by decide, by decide, rfl, by decide,
    by decide, ⟨_, rfl⟩, ⟨_, rfl, rfl⟩⟩, by decide, by decide, by decide, by decide⟩

/-- A descriptor of one member, core 0, expected twice, in the core's own bank, for a defined and for an undefined group. -/
def sb (valid : Bool) : State :=
  { sg { group0 1 0 with valid := valid } with mem := putBytes [] (localKey 0 0x10100) (leBytes 8 0x10000 ++ leBytes 4 0x20000) }
theorem witness_BarrierResults_set :
    Ready [6, 4] [] (sb true) ∧ (∃ x, ownGroup 3 (sb true) = some x ∧ x.valid = true) ∧ (∃ x, ownGroup 3 (sb false) = some x ∧ x.valid = false) ∧
    ∃ v1 t1 h1 t2 v2 t3 h2 t4 m, let u := sb true
      let r := source [6, 4] [] (sb true) 1;
      memCheck (whoMe u) r r.cursor 8 1 8 1 u = .ok v1 t1 ∧ loadAt (whoMe u) v1 8 0 0 t1 = .ok h1 t2 ∧
      leNat (overlay (whoMe u) v1 h1 t2).bytes = 0x10000 ∧ descriptorLen 0x10000 = 12 ∧
      memCheck (whoMe u) r r.cursor 12 1 8 1 (trainMe v1 8 t2) = .ok v2 t3 ∧ loadAt (whoMe u) v2 12 0 0 t3 = .ok h2 t4 ∧
      membership 0x10000 (overlay (whoMe u) v2 h2 t4).bytes = some m ∧ m = (false, [(0, 2)], 0) :=
  ⟨ready_of (by decide) rfl rfl, ⟨_, rfl, rfl⟩, ⟨_, rfl, rfl⟩, _, _, _, _, _, _, _, _, _, rfl, rfl, rfl, rfl, rfl, rfl, rfl, rfl⟩

/-- A channel header of capacity 2 at the cursor of c4, with the given words 0 to 2 and 3; producer 0 is this slot. -/
def sc (w0 w1 w2 : Nat) : State :=
  { s0 with mem := putBytes [] (localKey 0 0x10100) (leBytes 8 w0 ++ leBytes 8 w1 ++ leBytes 8 w2) }
def chan0 (w0 w1 w2 : Nat) : Chan := ⟨0xFFFFFFFFD0100, .bank 0 0x10100, 0, [w0, w1, w2, 0, 0, 0, 0, 0]⟩
theorem witness_ChannelResults :
    (Ready [4, 6] [5] s0 ∧ (sourceWord [4, 6] [5] s0 1).toNat = 3 ∧ ∃ t, Reaches [4, 6] [5] false (64 + 3 * 8) s0 (chan0 0 0 0) t ∧
      (chan0 0 0 0).info t = none ∧ freeNumber t 0 = some 0) ∧
    (Ready [4] [] s0 ∧ (∃ t, Reaches [4] [] false 64 (sc 2 0 0) (chan0 2 0 0) t ∧ t.partyAt t.curCore t.curSlot = 0) ∧
      (chan0 2 0 0).closed = false ∧ (chan0 2 0 0).producer 0 = none ∧
      (List.range 8).find? (fun p => !(chan0 2 0 0).registered p) = some 0 ∧ (chan0 2 0 1).producer 0 = some 0 ∧
      (chan0 (2 ^ 63 + 2) 0 0).closed = true) ∧
    (∃ t, Reaches [4, 6] [] true 64 (sc 2 0 1) (chan0 2 0 1) t ∧ t.partyAt t.curCore t.curSlot = 0 ∧ (chan0 2 0 1).ended 0 = false ∧
      (chan0 2 0 1).entries < (chan0 2 0 1).capacity ∧ ∃ va src t2, ringAt (chan0 2 0 1) 0 true t = .ok (va, src) t2) ∧
    ((chan0 2 (2 * 2 ^ 32) 1).capacity ≤ (chan0 2 (2 * 2 ^ 32) 1).entries ∧ (chan0 2 0 0x101).ended 0 = true) ∧
    (Ready [4] [5, 29] s0 ∧ (chan0 2 (2 ^ 32) 1).entries ≠ 0 ∧
      ∃ t, Reaches [4] [5, 29] false 64 (sc 2 (2 ^ 32) 1) (chan0 2 (2 ^ 32) 1) t ∧
        ∃ va src t2, ringAt (chan0 2 (2 ^ 32) 1) 0 false t = .ok (va, src) t2 ∧
          poisonAt t2 src va 8 = false) ∧
    (∃ t, Reaches [4] [] true 64 (sc 2 0 1) (chan0 2 0 1) t ∧ t.partyAt t.curCore t.curSlot = 0) ∧
    ((chan0 2 0 0x101).entries = 0 ∧ (chan0 2 0 0x101).atEnd = true ∧ (chan0 2 0 1).atEnd = false) :=
  ⟨⟨ready_of (by decide) rfl rfl, by decide, _, ⟨_, _, _, .bank 0 0x10100, rfl, rfl, rfl, rfl, rfl, rfl, rfl, by decide⟩, rfl, by decide⟩,
    ⟨ready_of (by decide) rfl rfl, ⟨_, ⟨_, _, _, .bank 0 0x10100, rfl, rfl, rfl, rfl, rfl, rfl, rfl, by decide⟩, rfl⟩, by decide,
      by decide, by decide, by decide, by decide⟩,
    ⟨_, ⟨_, _, _, .bank 0 0x10100, rfl, rfl, rfl, rfl, rfl, rfl, rfl, by decide⟩, rfl, by decide, by decide, _, _, _, rfl⟩,
    ⟨by decide, by decide⟩,
    ⟨ready_of (by decide) rfl rfl, by decide, _, ⟨_, _, _, .bank 0 0x10100, rfl, rfl, rfl, rfl, rfl, rfl, rfl, by decide⟩, _, _, _, rfl, rfl⟩,
    ⟨_, ⟨_, _, _, .bank 0 0x10100, rfl, rfl, rfl, rfl, rfl, rfl, rfl, by decide⟩, rfl⟩, ⟨by decide, by decide, by decide⟩⟩

/-- A task range at the cursor of c4; a gate with every entry taken has no free one; a running task's activation; a DEAD task
in service mode; a composition of two empty cores, one that waits, a composed core. -/
def task0 (x : TState) : Task := ⟨0, 1, [⟨0, 8, true, none⟩], 3, 7, 0, [], x, ⟨0, 0, 0, 0, []⟩, 0, 0⟩
theorem witness_TaskAndCompositionResults :
    (Ready [6, 4] [5] s0 ∧ (let r := source [6, 4] [5] s0 1; r.tag = true ∧ r.cursor < r.top ∧ r.canWrite = true ∧ r.canRead = true) ∧
      (sourceWord [6, 4] [5] s0 0).toNat % 256 < 0xF0 ∧ (taken [6, 4] [5] s0).1.length = 2 ∧
      ∃ t e, taskHome (source [6, 4] [5] s0 1).cursor s0 = .ok 0 t ∧ exposeMe t = .ok () e) ∧
    (let s := { st { y0 with holds := .activation, task := some (taskParty 0 5) } with tasks := [(5, task0 .running)] };
      s.me.holds = .activation ∧ s.me.task = some (taskParty 0 5) ∧
      ∃ e, exposeMe s = .ok () e ∧ SMap.find (drainMe e).tasks (taskIndex (taskParty 0 5)) = some (task0 .running)) ∧
    (s0.me.holds ≠ .activation ∧ s0.me.task = none) ∧
    (let s := { st { (y0.setC 4 (.ofNat (taskParty 0 5))) with mode := .service } with tasks := [(5, task0 .dead)] };
      s.me.mode = .service ∧ Ready [4] [] s ∧ SMap.find s.tasks (taskIndex (taskParty 0 5)) = some (task0 .dead) ∧ pKind (taskParty 0 5) = 5 ∧
      (source [4] [] s 0).nat % 2 ^ 32 = taskParty 0 5 ∧ taskIndex (taskParty 0 5) = 5) ∧
    (composeBad s0 2 = false ∧ composeWaits s0 0 0 2 = [] ∧ composeBad sa 2 = true) ∧
    (let s := { s0 with cores := [(0, { Core.reset with slots := [(0, { y0 with wait := ⟨1, 2, 0x0D, 0, [composedParty 0 2]⟩ })], comp := some ⟨0, 0, 2, false⟩ }),
        (1, { Core.reset with comp := some ⟨0, 0, 2, false⟩ })] };
      (s.core 0).comp = some ⟨0, 0, 2, false⟩ ∧ (s.slot 0 0).wait.reason = 0x0D ∧ (s.slot 0 0).halted = false ∧ composeWaits s 0 0 2 = []) ∧
    (s0.me.composed = false ∧ (st { y0 with composed := true }).me.composed = true) :=
  ⟨⟨ready_of (by decide) rfl rfl, by decide, by decide, rfl, _, _, rfl, rfl⟩, ⟨by decide, by decide, _, rfl, by decide⟩, by decide,
    ⟨rfl, ready_of (by decide) rfl rfl, by decide, by decide, by decide, by decide⟩, by decide, by decide, by decide⟩

/-- A result that is a value in a state which satisfy `p`. -/
def okWith {α : Type} (r : Res α) (p : α → State → Bool) : Bool := match r with | .ok a t => p a t | _ => false

/-- A core whose engine has the given registers and a reach over its own memory, in a machine with a queue word. -/
def eng0 : Engine :=
  { Engine.reset with
    e := [(1, 0xFFFFFFFFD0100), (2, 0xFFFFFFFFD0200), (4, 0x100000010), (5, 0)]
    reach := own 0x3F 0
    mailbox := 0xFFFFFFFFD0300
    state := .running }
def se (e : Engine) : State :=
  { s0 with cores := [(0, { Core.reset with
      slots := [(0, y0)]
      engine := e
      q := [(0, [9]), (1, List.replicate 8 0)]
      sem := [(1, 65535), (2, 65534)]
      cnt := [(3, 5)]
      plb := [(0, 2 ^ 23 - 1, 31)] })] }
def s1 : State := se eng0

theorem witness_EngineScalars :
    (0xFFFF : Nat) < 2 ^ 16 ∧ (3 : Nat) < 4 ∧ (2 : Nat) < 3 ∧ (s1.core s1.curCore).queue 0 = 9 :: [] ∧ (s1.core s1.curCore).badWord 16 1 = false ∧ (s0.core s0.curCore).queue 0 = [] ∧
      ((s1.core s1.curCore).queue 0).length < 8 ∧ 8 ≤ ((s1.core s1.curCore).queue 1).length ∧ semOf s1 0 = 0 ∧ semOf s1 1 = 65535 ∧
      semOf s1 2 < 65535 ∧ hostWritesOf (drainEngine s1) (engineParty s1.curCore) = false ∧ (s1.engMe.reg 5).toNat ≤ SMap.get 0 (s1.core s1.curCore).cnt 3 ∧
      SMap.get 0 (s1.core s1.curCore).cnt 3 < (s1.engMe.reg 1).toNat :=
  ⟨by decide, by decide, by decide, by decide, by decide, by decide, by decide, by decide, by decide, by decide, by decide, by decide,
    by decide⟩

/-- Accesses within reach, one outside it, one without the permission; a byte-mode group; a kick, an engine that is busy. -/
theorem witness_EngineAccesses :
    (let va := (s1.engMe.reg 1 + BitVec.ofInt 64 8).toNat; let r := s1.engMe.reach;
      r.tag = true ∧ va < 2 ^ 52 ∧ r.base ≤ va ∧ va + 8 ≤ r.top ∧ va % 8 = 0 ∧ r.nat.testBit 120 = true ∧ r.nat.testBit 121 = true ∧
      okWith (engineLoad (whoEngine s1 0) va 8 s1) (fun x _ => x.poison.isNone) = true ∧
      okWith (engineStore (whoEngine s1 0) va 0 (leBytes 8 0) s1) (fun _ _ => true) = true) ∧
    ((s1.engMe.reg 5 + BitVec.ofInt 64 0).toNat < s1.engMe.reach.base ∧ (engineRecord 0 0x04 0 false 0 0 [] s1).isSome = true) ∧
    (let s := se { eng0 with reach := own 0x3D 0 };
      s.engMe.reach.nat.testBit 121 = false ∧ (windowSrc s 0 0xFFFFFFFFD0100 8).isSome = true ∧
      (engineRecord 0 0x05 0xFFFFFFFFD0100 true 0 0 [] s).isSome = true) ∧
    (hostWritesOf (drainScope 0 16 5 s1) (engineParty 0) = false) ∧
    (mailboxWritten s1 = false ∧ eldCheck s1 s1.engMe.mailbox 8 2 = none ∧ hostWritesOf (drainEngine s1) (engineParty 0) = false ∧
      okWith (engineStore (whoEngine s1 0) s1.engMe.mailbox 5 (leBytes 8 7) (drainEngine s1)) (fun _ _ => true) = true) ∧
    (mailboxWritten (se { eng0 with replies := [⟨eng0.mailbox, [], [], false, 0⟩] }) = true) ∧
    (let s := { s1 with groups := [(0, ⟨some 0, true, true, 0, [], 9, none, [], 0, [], [], [], 0⟩)] };
      (s.engMe.reg 5).toNat < 1024 ∧ boundGroup s 0 = true ∧ (arriveBytes 0 s.engMe.tenant 9 (drainEngine s)).isSome = true) ∧
    (Ready [7, 4, 3] [] s0 ∧ kickCheck (source [7, 4, 3] [] s0 0) (source [7, 4, 3] [] s0 1) (source [7, 4, 3] [] s0 2) = none ∧
      s0.engMe.busy = false ∧ okWith (exposeMe s0) (fun _ _ => true) = true ∧ s1.engMe.busy = true ∧ isKeystone s0.curCore = false) ∧
    (({ s0 with curCore := 6144 } : State).curCore = 6144 ∧ isKeystone 6144 = true) ∧
    (semOf s1 0 = 0 ∧ semOf s1 1 = 65535 ∧ semOf s1 2 < 65535 ∧ semOf s1 2 ≠ 0) :=
  ⟨by decide, by decide, by decide, by decide, by decide, by decide, by decide,
    ⟨ready_of (by decide) rfl rfl, by decide, by decide, by decide, by decide, by decide⟩,
    by decide, by decide⟩

/-- A BLK of one row of 16 bytes within reach, one of no bytes; a copy with a sector left, one with none, one with a fault; a
kicker with its interrupt due. -/
def copy0 (pos : Nat) (fault : Option (Nat × Nat × Bool)) : Copy :=
  ⟨0, 0xFFFFFFFFD0200, 0xFFFFFFFFD0100, 1, 16, 0, 0, 0, 0, 16, 0, 0, pos, none, 0, none, none, 0, 0, 0, [], fault, 0⟩
theorem witness_CopyResults_forms :
    (let s := se { eng0 with e := [(1, 0xFFFFFFFFD0100), (2, 0xFFFFFFFFD0400), (4, 2 * 2 ^ 32 + 16), (5, 64 * 2 ^ 32 + 32), (6, 0xFFFFFFFFD0800)] };
      let e := s.engMe;
      let half (i : Nat) : Int := (BitVec.ofNat 32 ((e.reg 5).toNat / 2 ^ (32 * i))).toInt;
      let se := extent (e.reg 1).toNat 2 16 (half 0);
      let de := extent (e.reg 2).toNat 2 16 (half 1);
      RecordOk s (e.reg 6).toNat ∧ (∀ f ∈ [(se, 120), (de, 121)], 0 ≤ f.1.1 ∧ f.1.1 < 2 ^ 52 ∧ (e.reach.base : Int) ≤ f.1.1 ∧
        f.1.2 ≤ (e.reach.top : Int) ∧ e.reach.nat.testBit f.2 = true) ∧ se.2 ≤ de.1 ∧
      hostWritesOf (drainEngine s) (engineParty s.curCore) = false) ∧
    (∀ k ∈ [1, 2], let x : Copy := { copy0 0 none with kind := k, list := 0xFFFFFFFFD0800, esize := 16 };
      let s := se { eng0 with copy := some x };
      (s.eng 0).copy = some x ∧ (∀ p, x.word = some p → p.1 ≠ x.pos / x.esize) ∧ inTransfer s 0 < 64 ∧
      okWith (engineLoad (whoEngine s 0) x.list 4 s) (fun v _ => v.poison.isNone) = true) ∧
    (∀ k ∈ [1, 2], let x : Copy := { copy0 0 none with kind := k, list := 0xFFFFFFFFD0800, esize := 16, word := some (0, 1) };
      let s := se { eng0 with copy := some x };
      x.word = some (x.pos / x.esize, 1) ∧ elementCheck (s.eng 0) x 1 = none ∧ x.skips (x.addr 1 x.pos) = false ∧
      okWith (bulkLoad (whoEngine s 0) (x.addr 1 0).1 16 s) (fun rs t =>
        okWith (bulkStore (whoEngine s 0) (x.addr 1 0).2 (loadedOf rs).bytes t) fun _ _ => true) = true) ∧
    (let x : Copy := { copy0 0 none with kind := 1, esize := 16, word := some (0, 2 ^ 31) };
      (elementCheck eng0 x (2 ^ 31)).isSome = true) ∧
    (let s := { se { eng0 with copy := some (copy0 16 none), group := some 0 } with
        groups := [(0, ⟨some 0, true, true, 0, [], 99, none, [], 0, [], [], [], 0⟩)] };
      (s.eng 0).group = some 0 ∧ (arriveBytes 0 (s.eng 0).tenant 16 (drainAgent 0 16 s)).isSome = true) ∧
    (let x : Copy := { copy0 0 none with marked := [(false, 0)], spanEnd := 16 }
     let y := { x with marked := [(false, 1)] }; x.skips (x.addr 0 0) = false ∧ y.skips (y.addr 0 0) = true) :=
  ⟨⟨.inr ⟨_, rfl, rfl⟩, by decide, by decide, by decide⟩, by decide, by decide, by decide, by decide, by decide⟩
theorem witness_CopyResults :
    (let e := s1.engMe;
      (e.reg 4).toNat / 2 ^ 32 = 1 ∧ 0 < (e.reg 4).toNat % 2 ^ 32 ∧ e.reach.tag = true ∧ e.reg 3 = 0 ∧
      (∀ f ∈ [(1, 120), (2, 121)], e.reach.base ≤ (e.reg f.1).toNat ∧ (e.reg f.1).toNat + (e.reg 4).toNat % 2 ^ 32 ≤ e.reach.top ∧
        (e.reg f.1).toNat + (e.reg 4).toNat % 2 ^ 32 ≤ 2 ^ 52 ∧ e.reach.nat.testBit f.2 = true) ∧
      (e.reg 1).toNat + (e.reg 4).toNat % 2 ^ 32 ≤ (e.reg 2).toNat ∧ (e.reg 6).toNat / 2 ^ 32 * ((e.reg 6).toNat % 2 ^ 32) = 0) ∧
    (let e := (se { eng0 with e := [(4, 0xFFFFFFFFD0100), (5, 8 * 2 ^ 32 + 2)] }).engMe;
      (e.reg 5).toNat / 2 ^ 32 ≤ 8 ∧ (e.reg 5).toNat % 2 ^ 32 * 2 ^ ((e.reg 5).toNat / 2 ^ 32) < 2 ^ 32 ∧ 0 < (e.reg 5).toNat % 2 ^ 32 ∧
      e.reg 3 = 0 ∧ e.reach.base ≤ (e.reg 4).toNat % 2 ^ 52 ∧ (e.reg 4).toNat % 2 ^ 52 + 4 * ((e.reg 5).toNat % 2 ^ 32) ≤ e.reach.top ∧
      e.reach.nat.testBit 120 = true) ∧
    (let s := se { eng0 with copy := some (copy0 0 none) };
      (s.eng 0).copy = some (copy0 0 none) ∧ (copy0 0 none).pos < (copy0 0 none).total ∧ (s.eng 0).state ≠ .faulted ∧ (copy0 0 none).marked = [] ∧
      (copy0 0 none).addr 0 0 = (0xFFFFFFFFD0100, 0xFFFFFFFFD0200) ∧ (copy0 0 none).rest 0 = 16 ∧ inTransfer s 0 < 64 ∧
      okWith (bulkLoad (whoEngine s 0) 0xFFFFFFFFD0100 16 s) (fun rs t => (loadedOf rs).poison.isNone && (loadedOf rs).tags.all (! ·) &&
        okWith (bulkStore (whoEngine s 0) 0xFFFFFFFFD0200 (loadedOf rs).bytes t) fun _ _ => true) = true) ∧
    (let s := se { eng0 with copy := some (copy0 16 none) };
      (s.eng 0).copy = some (copy0 16 none) ∧ (copy0 16 none).total ≤ (copy0 16 none).pos ∧ (s.eng 0).state ≠ .faulted ∧
      hostWritesOf (drainAgent 0 16 s) (engineParty 0) = false) ∧
    (let s := se { eng0 with copy := some (copy0 0 (some (1, 0x10000, true))), interrupts := [(0, 5)], scout := 1 };
      (s.eng 0).copy = some (copy0 0 (some (1, 0x10000, true))) ∧ (s.eng 0).group = none ∧
      (s.slot 0 0).able = true ∧ dueCause s 0 0 = some ⟨0x0F, 5⟩ ∧ (s.slot 0 0).tvec / 2 ≠ 0 ∧ (s.slot 0 0).wait.reason ≠ 0x0D ∧
      (s.eng 0).scout ≠ 0 ∧ (engineRecord 0 6 s.engMe.epc false 0 0 [] s).isSome = true ∧
      (scoutNext s 0 (copy0 0 none)).isSome = true) :=
  ⟨by decide, by decide, ⟨by decide, by decide, by decide, by decide, by decide, by decide, by decide, by decide⟩, by decide,
    ⟨by decide, by decide, by decide, by decide, by decide, by decide, by decide, by decide, by decide⟩⟩

/-- The record of a stop goes to the telemetry of a tenant without a control block, whatever its progress. -/
theorem record_of (s : State) (total done : Nat) (marked : List Nat) (h : blockOk s (s.eng 0).tenant = false)
    (h2 : s.records = []) : ∃ t1, engineRecord 0 1 0x10000 true total done marked s =
      some (engineParty 0 * 2 ^ 32 + 0 * 2 ^ 16 + (2 ^ 15 + 1 * 256 + 3), t1) := by
  simp [engineRecord, postNow, rec1, h, h2]
theorem witness_CopyResults_record :
    let s := drainAgent 0 16 (se { eng0 with copy := some (copy0 0 (some (1, 0x10000, true))) });
    ∀ total done marked, ∃ t1, engineRecord 0 1 0x10000 true total done marked s =
      some (engineParty 0 * 2 ^ 32 + 0 * 2 ^ 16 + (2 ^ 15 + 1 * 256 + 3), t1) :=
  fun _ _ _ => record_of _ _ _ _ (by decide) rfl

/-- A unit with command `q` first in its queue, and one with `x` started, on core 0. -/
def sm (m : Mx) : State :=
  { s0 with cores := [(0, { Core.reset with slots := [(0, y0)], mx := m, plb := [(0, 2 ^ 23 - 1, 31)] })] }
def cmd0 (w0 w1 w2 w3 : Word) : Cmd := ⟨w0, w1, w2, w3, 0, 0, 0, 0⟩
def queued0 (c : Cmd) (cancelled : Bool) : Queued := ⟨c, own 0x3F 0, 7, 0, 0, 0, 0, cancelled⟩
def started0 (c : Cmd) (waiting : Bool) : Started :=
  ⟨queued0 c false, 0, 0, 0, waiting, true, 0, 0, 0, some ⟨[], [], false⟩, some ⟨[], [], false⟩, some ⟨[], [], false⟩, 0, 0, [], [], none, none, false⟩

theorem witness_MatrixConfiguration :
    let q := queued0 (cmd0 0 0 0 0) false;
    let s := sm { Mx.reset with queue := [q] };
    MxReady s s.curCore q ∧ (cmd0 0x100 0 0 0).readsLocal = false ∧ restZero (cmd0 0x100 0 0 0) 1 ∧ (cmd0 0x100 0 0 0).word 0 / 256 = 1 ∧ restZero (cmd0 1 (2 + 1 * 2 ^ 32 + 1 * 2 ^ 48) 0 0) 2 ∧
      ringBad 0 (cmd0 1 (2 + 1 * 2 ^ 32 + 1 * 2 ^ 48) 0 0) = false ∧ (cmd0 0 0 5 0).word 1 = 0 ∧ (cmd0 0 0 5 0).word 2 ≠ 0 :=
  ⟨⟨rfl, ⟨[], rfl⟩, by decide, rfl, by decide, .inl rfl, .inr (by decide), rfl, by decide, by decide⟩, by decide, fun i h1 h2 => (by decide : ∀ i < 8, 1 ≤ i → (cmd0 0x100 0 0 0).word i = 0) i h2 h1, by decide,
    fun i h1 h2 => (by decide : ∀ i < 8, 2 ≤ i → (cmd0 1 (2 + 1 * 2 ^ 32 + 1 * 2 ^ 48) 0 0).word i = 0) i h2 h1, by decide, by decide, by decide⟩

/-- A cancelled command; a unit with 19 retired rows is offline. -/
theorem witness_MatrixConfiguration_stop :
    (let s := sm { Mx.reset with queue := [queued0 (cmd0 0 0 0 0) true] };
      (s.mx 0).cur = none ∧ mayStartCmd s 0 = true ∧ s.flights = [] ∧ hostWritesOf s (seqParty 0) = false ∧ (s.core 0).load 4 < 8) ∧
    (let s := sm { Mx.reset with queue := [queued0 (cmd0 0 0 0 0) false], spalled := (List.range 38).map fun i => (i / 2, i % 2) };
      (s.mx 0).offline = true ∧ mayStartCmd s 0 = true) :=
  ⟨by decide, by decide⟩

/-- LDA of one row of 16 bytes from the core's scratchpad to its TOB banks, STC of one FP32 row, FMAP, and a reach that fails. -/
def lda0 : Cmd := cmd0 (4 + 2 ^ 32) 0xFFFFFFFFD0100 16 0x30000
def stc0 : Cmd := cmd0 (0x0B + 2 ^ 32) 0xFFFFFFFFD0100 0 0
theorem witness_MatrixLoadsStores :
    (let s := sm { Mx.reset with cur := some (started0 lda0 false) };
      MxRuns s s.curCore (started0 lda0 false) ∧ lda0.readsLocal = false) ∧
    (let s := sm { Mx.reset with cur := some (started0 lda0 false) };
      reachCause (own 0x3F 0) (extent 0xFFFFFFFFD0100 1 16 0) 1 = none ∧
      ∃ u, ldaRows (whoSeq 0 (queued0 lda0 false)) 0xFFFFFFFFD0100 16 0x30000 0 0 0 1 s = some (false, u) ∧ u.flights = [] ∧
        hostWritesOf u (seqParty 0) = false) ∧
    ((lda0.flag 0 = false) ∧ localPoison s0 0 0x30000 512 = false ∧ stc0.word 3 % 2 ^ 52 = 0) ∧
    (let s := sm { Mx.reset with cur := some (started0 stc0 false) };
      reachCause (own 0x3F 0) (extent 0xFFFFFFFFD0100 1 (4 * outBits 0) 0) 2 = none ∧
      (stcRows (whoSeq 0 (queued0 stc0 false)) 0xFFFFFFFFD0100 0 (fun i => outRow 0 none 127 [] (0 + i)) false 0 1 (mxRun 0 s)).isSome = true) ∧
    (reachCause (own 0x3F 0) ((0xFFFFFFFFD0100 : Int), (0xFFFFFFFFD0100 : Int) + 288) 2 = none ∧
      okWith (bulkStore (whoSeq 0 (queued0 stc0 false)) 0xFFFFFFFFD0100 ((s0.mx 0).image.map (leBytes 8)).flatten s0) (fun _ t => t.flights.isEmpty) = true ∧
      reachCause (own 0x3D 0) ((0xFFFFFFFFD0100 : Int), (0xFFFFFFFFD0100 : Int) + 288) 2 = some 0x04) ∧
    ((reachCause (own 0x3E 0) (extent 0xFFFFFFFFD0100 1 16 0) 1).isSome = true ∧
      (reachCause (own 0x3D 0) (extent 0xFFFFFFFFD0100 1 (4 * outBits 0) 0) 2).isSome = true ∧
      (s0.core s0.curCore).load 5 < 8) :=
  ⟨⟨⟨rfl, rfl, rfl, rfl, rfl, rfl, rfl, rfl, rfl, .inl rfl, rfl, by decide, by decide⟩, by decide⟩, ⟨by decide, _, rfl, by decide, by decide⟩, by decide, ⟨by decide, by decide⟩,
    ⟨by decide, by decide, by decide⟩, ⟨by decide, by decide, by decide⟩⟩

/-- A ring of two units, cores 0 and 1; a step sent and received; the reports of both members. -/
def ring0 : Ring := ⟨2, 0, 1, 1, 0⟩
def ring1 : Ring := ⟨2, 1, 0, 0, 0⟩
def sr (m n : Mx) : State :=
  { s0 with cores := [(0, { Core.reset with slots := [(0, y0)], mx := { m with ring := some ring0 } }),
      (1, { Core.reset with mx := { n with ring := some ring1 } })] }
def mma0 : Cmd := cmd0 (6 + 2 ^ 32) (0x30000 + 1 * 2 ^ 24) 0 0
theorem witness_MatrixMultiply :
    (let m : MulCmd := ⟨mma0, 1, false⟩; let x := started0 mma0 false; let s := sm { Mx.reset with cur := some x }
      MxRuns s s.curCore x ∧ (s.mx 0).poison mma0.acc = false ∧ m.poisoned x 0 1 s = false ∧ m.rows = 1) ∧
    ((⟨true, false, fun _ _ => 3, fun _ _ => 5, false, fun _ _ => 127, fun _ _ => 127, fun _ => true⟩ : MulArgs).int = true) ∧
    (let x := started0 (cmd0 (7 + 2 ^ 32) 0 0 0) false;
      let s := sr { Mx.reset with cur := some x, ringRecv := 1 } Mx.reset;
      MxRuns s s.curCore x ∧ x.q.cmd.readsLocal = false ∧ (s.mx s.curCore).ring = some ring0 ∧ x.q.cmd.count = 1 ∧
      ((rotateTry 0 (setCur 0 { x with waiting := true } s)).mx 0).ringDone = (s.mx 0).ringDone + 1) ∧
    (let x := started0 (cmd0 (7 + 2 ^ 32) 0 0 0) false;
      let s := sr { Mx.reset with cur := some x } Mx.reset;
      ((rotateTry 0 (setCur 0 { x with waiting := true } s)).mx 0).ringDone = (s.mx 0).ringDone) ∧
    (let s := sr { Mx.reset with ringSent := 1, ringRecv := 1 } Mx.reset;
      (s.mx 0).ringSent = (s.mx 0).ringDone + 1 ∧ (s.mx 0).ringRecv = (s.mx 0).ringDone + 1) ∧
    (let s := sr Mx.reset Mx.reset;
      0 < ring0.size ∧ (ring0.pos + ring0.size - 1 % ring0.size) % ring0.size = 1 ∧ (sendPartial 0 ⟨some [], false⟩ s).isSome = true ∧
      (ring0.pos + ring0.size - 0 % ring0.size) % ring0.size = 0 ∧ (s.mx 0).redIn = none) ∧
    (cmd0 (0x0A + 2 ^ 32) 0 0 0).readsLocal = false ∧
    (let x := started0 (cmd0 (8 + 2 ^ 32) 0 0 0) false;
      let m : MulCmd := ⟨x.q.cmd, 32, false⟩
      let s := sr { Mx.reset with cur := some x, ringRecv := 1 } Mx.reset;
      let y := m.record x 0 1 s
      MxRuns s s.curCore x ∧ tileMismatch (s.mx 0).front m.int = false ∧ (s.mx 0).poison 0 = false ∧ m.poisoned y 0 1 (y.overlay 0 s) = false ∧
      ((rotateTry 0 (setCur 0 { (m.apply y 0 1 s).1 with waiting := true } (m.apply y 0 1 s).2)).mx 0).ringDone
        = (s.mx 0).ringDone + 1 ∧ Memory.wf s.mem) ∧
    (let x := started0 (cmd0 0x0C 0 0 0) false;
      let s := sr { Mx.reset with cur := some x } { Mx.reset with cur := some { x with waiting := true } };
      MxRuns s s.curCore x ∧ x.q.cmd.readsLocal = false ∧ ringMembers s s.curCore = some [0, 1] ∧ x.q.cmd.op = 0x0C ∧
      (s.mx 0).syncDone = false ∧ ∀ d ∈ [0, 1], d ≠ 0 → inSync (s.mx d) = true ∧ (s.mx d).syncs = (s.mx 0).syncs) ∧
    (let s := sr { Mx.reset with syncDone := true } Mx.reset;
      (s.mx 0).syncDone = true) ∧
    (let s := sr Mx.reset Mx.reset;
      ∃ d ∈ [0, 1], d ≠ 0 ∧ (inSync (s.mx d) = false ∨ (s.mx d).syncs ≠ (s.mx 0).syncs)) ∧
    (let r : Ring := ⟨3, 0, 1, 2, 0⟩;
      (r.pos + r.size - 1 % r.size) % r.size ≠ 0 ∧ (r.pos + r.size - 1 % r.size) % r.size ≠ 1 ∧
      partialIn (sr { Mx.reset with redIn := some ⟨some [], false⟩ } Mx.reset) 0 r = some ⟨some [], false⟩ ∧
      partialIn s0 0 r = none) :=
  ⟨⟨⟨rfl, rfl, rfl, rfl, rfl, rfl, rfl, rfl, rfl, .inl rfl, rfl, by decide, by decide⟩, by decide, by decide, by decide⟩, rfl,
    ⟨⟨rfl, rfl, rfl, rfl, rfl, rfl, rfl, rfl, rfl, .inl rfl, rfl, by decide, by decide⟩, by decide, rfl, by decide, by decide⟩, by decide,
    by decide, by decide, by decide,
    ⟨⟨rfl, rfl, rfl, rfl, rfl, rfl, rfl, rfl, rfl, .inl rfl, rfl, by decide, by decide⟩, by decide, by decide, by decide, by decide, by decide⟩,
    ⟨⟨rfl, rfl, rfl, rfl, rfl, rfl, rfl, rfl, rfl, .inl rfl, rfl, by decide, by decide⟩, by decide, by decide, by decide, by decide, by decide⟩,
    by decide, by decide, by decide⟩

theorem witness_MatrixUnitEvents :
    ((sm { Mx.reset with token := some 5 }).mx 0).token = some 5 ∧ (s0.core 0).load 4 < 8 ∧
      8 ≤ ({ s0 with cores := [(0, { Core.reset with q := [(4, List.replicate 8 0)] })] }.core 0).load 4 ∧
    (let s := sr { Mx.reset with cur := some (started0 (cmd0 (7 + 2 ^ 32) 0 0 0) true), ringSent := 1, ringRecv := 1 } Mx.reset;
      rotating s 0 = true ∧ ((rotateTry 0 s).mx 0).ringDone ≠ (s.mx 0).ringDone) ∧
    (let x := started0 stc0 false;
      let s := sr { Mx.reset with cur := some x, report := some (some 3) } { Mx.reset with report := some none };
      ringMembers s 0 = some [0, 1] ∧ ringKeeper s 0 = 0 ∧ (∀ d ∈ [0, 1], (s.mx d).report.isSome = true) ∧ x.tabC = some ⟨[], [], false⟩ ∧
      [0, 1].Nodup) ∧
    (let s := sm { Mx.reset with scanning := true, done := 5, spalled := [(33, 32)] };
      (s.mx 0).scanning = true ∧ (s.mx 0).cur = none ∧ (s.mx 0).failures < 65535 ∧ seqLe (s.mx 0).done (s.mx 0).mark = false ∧
      (∀ p ∈ (s.mx 0).spalled, p.1 < 34 ∧ p.2 < 33)) ∧
    (let x := { started0 (cmd0 0 0 0 0) false with ramp := true };
      let s := { sm { Mx.reset with cur := some x, ramped := false } with clock := 12001 };
      let tile := (List.range 32).map fun i => 0 / 32 * 32 + i
      (s.mx s.curCore).cur = some x ∧ x.fault = none ∧ x.sampled = true ∧ x.ramp = true ∧ (s.mx s.curCore).ramped = false ∧
      x.q.cmd.readsLocal = false ∧
      (s.mx 0).ramping = none ∧ (tile.filter fun d => (s.mx d).ramping.isSome).length < 4 ∧ tile.find? (wantsRamp s) = some 0) ∧
    (let s := { sm { Mx.reset with ramping := some 8 } with clock := 520 };
      (s.mx 0).ramping = some 8 ∧ 8 + 512 ≤ s.clock) ∧
    ((s0.mx 0).queue.length < 2 ∧ exposeMe (taken [6] [] s0).2 = .ok () (taken [6] [] s0).2 ∧
      2 ≤ ((sm { Mx.reset with queue := [queued0 mma0 false, queued0 mma0 false] }).mx 0).queue.length) ∧
    (Ready [4] [] s0 ∧ Ready [6] [] s0 ∧ isKeystone s0.curCore = false) ∧
    (let x := { Mx.reset with seq := 5, done := 3, mark := 2, revoked := [none, some ⟨3, 3⟩] };
      seqLe 3 x.seq = true ∧ seqLe 6 x.seq = false ∧ seqLe 3 x.done = true ∧ seqLe 4 x.done = false ∧ revokedBy x 3 = some ⟨3, 3⟩ ∧
      revokedBy x 2 = none ∧ seqLe 2 x.mark = true ∧ revokedBy x 4 = none ∧ seqLe 4 x.mark = false) ∧
    (let s := sm { Mx.reset with geomPend := [(0, 9)] };
      (s.slot 0 0).able = true ∧ dueCause s 0 0 = some ⟨0x0E, 9⟩ ∧ (s.slot 0 0).tvec / 2 ≠ 0 ∧ (s.slot 0 0).wait.reason ≠ 0x0D) :=
  ⟨rfl, by decide, by decide, by decide, by decide, by decide, by decide, by decide, ⟨by decide, rfl, by decide⟩, ⟨ready_of (by decide) rfl rfl, ready_of (by decide) rfl rfl, by decide⟩, by decide, by decide⟩

/-- No unit of the die is scanned, and core 0's has a command past its mark. -/
theorem witness_MatrixUnitEvents_scan :
    let s := sm { Mx.reset with seq := 1 };
    ((List.range 1536).filter fun i => (s.mx (0 * 1536 + i)).scanning).length < 4 ∧
      (scanOrder s 0).find? (fun d => wantsScan (s.mx d)) = some 0 :=
  ⟨by decide, by decide⟩

/-- A register of every kind, an RO one, one of service mode; a core with a BANKROLE change that has to wait. -/
def bankUser : Mx := { Mx.reset with cur := some (started0 mma0 false) }
theorem witness_CsrReadsAndWrites :
    Ready [] [5] s0 ∧ (csrValue 0x002 s0).isSome = true ∧ csrValue 0x002 (taken [] [5] s0).2 = some 0x100 ∧ csrValue 0x00D s0 = none ∧
      s0.me.mode = .user ∧ csrReadOnly 0x008 = true ∧ csrReadOnly 0x001 = false ∧ csrValue 0x001 s0 = some 0 ∧ Ready [6] [] s0 ∧
      csrIllegal 0x001 3 (taken [6] [] s0).2 = false ∧ csrValue 0x800 s0 = some 0 ∧ isKeystone s0.curCore = false ∧
      csrIllegal 0x102 65 s0 = true ∧ csrIllegal 0x102 64 s0 = false ∧
      (let s := sm bankUser; csrIllegal 0x100 0 s = false ∧ exposeMe s = .ok () s ∧ rolesDone s = false ∧ rolesWait 0 s = true ∧
        (s.core s.curCore).rolePend = none) ∧
      (let s := st { y0 with replies := [⟨0, [], [], false, 0⟩] }; rolesDone s = true) ∧
      (let s : State := { s0 with cores := [(0, { Core.reset with rolePend := some (0, 0) })] };
        (s.core 0).rolePend = some (0, 0) ∧ tobBusy 0 0 s = false ∧ (s.core 0).bankrole.toNat / 4 ^ 0 % 4 = 1 ∧
        (0 : Word).toNat / 4 ^ 0 % 4 ≠ 1) ∧
      Writes 0x001 s0 s0 ∧ Writes 0x100 s0 s0 ∧ rolesDone s0 = false ∧ rolesWait (s0.core 0).bankrole s0 = false :=
  ⟨ready_of (by decide) rfl rfl, by decide, by decide, by decide, by decide, by decide, by decide, by decide, ready_of (by decide) rfl rfl, by decide,
    by decide, by decide, by decide, by decide, ⟨by decide, rfl, by decide, by decide, by decide⟩, by decide, by decide, rfl, rfl, by decide, by decide⟩

/-- A service context of core 0, its registers; an engine and a host requester to kill, a slot that waits for a purge or a stop. -/
def svc0 : State := st { y0 with mode := .service, c := [(4, .ofWord 0x10000), (6, .ofWord 0x2000000), (7, .ofWord (BitVec.ofNat 64 (engineParty 0))),
  (8, .ofWord (BitVec.ofNat 64 (hostParty 31 4095))), (9, .ofWord 6143), (10, .ofWord 6144)] }
theorem witness_ServiceResults_waits :
    (∀ k ∈ [0, 1], checkedBy svc0 0 k 0 (2 ^ 52) = false) ∧ svc0.flights = [] ∧
      (let y := { Slot.empty with commit := [⟨0x10000, [1], false, 0, false⟩] };
        y.domain = (sourceWord [6, 29] [] svc0 0).toNat % 256 ∧ (⟨0x10000, [1], false, 0, false⟩ : Buffered) ∈ y.commit ∧
        (⟨0x10000, [1], false, 0, false⟩ : Buffered).va < 2 ^ 52) :=
  ⟨by decide, rfl, by decide⟩
theorem witness_ServiceResults :
    s0.me.mode = .user ∧ svc0.me.mode ≠ .user ∧ invalOf svc0 svc0.curCore svc0.curSlot = none ∧ Ready [4, 6] [] svc0 ∧ svc0.links = [] ∧
      pinvalIllegal (source [4, 6] [] svc0 0).cursor (sourceWord [4, 6] [] svc0 1).toNat = false ∧ pinvalIllegal 0x10001 65536 = true ∧
      (let s := { svc0 with invals := [⟨0, 0, 0, 65536, 0, true, []⟩] };
        invalOf s 0 0 = some ⟨0, 0, 0, 65536, 0, true, []⟩ ∧ Inval.waits ⟨0, 0, 0, 65536, 0, true, []⟩ s = false) ∧
      stopOf svc0 svc0.curCore svc0.curSlot = none ∧ Ready [29] [] svc0 ∧
      (let s := { svc0 with stops := [⟨0, 0, 5, []⟩] };
        stopOf s 0 0 = some ⟨0, 0, 5, []⟩ ∧ stopReady ⟨0, 0, 5, []⟩ s = true ∧ (s.slot 0 0).mode ≠ .user) ∧
      (let x := (sourceWord [4] [] svc0 0).toNat; x.testBit 8 = false ∧ x / 2 ^ 9 % 64 < 48) :=
  ⟨by decide, by decide, by decide, ready_of (by decide) rfl rfl, by decide, by decide, by decide, by decide, by decide, ready_of (by decide) rfl rfl,
    by decide, by decide⟩

/-- The last small core and the first keystone; an idle and a busy unit; an engine, a host requester and a slot. -/
theorem witness_ServiceResults_units :
    Ready [9] [] svc0 ∧ (sourceWord [9] [] svc0 0).toNat % 2 ^ 13 = 6143 ∧ (svc0.mx 6143).cur = none ∧ (svc0.mx 6143).scanning = false ∧
      Ready [10] [] svc0 ∧ (sourceWord [10] [] svc0 0).toNat % 2 ^ 13 = 6144 ∧ ((sm bankUser).mx 0).cur ≠ none ∧
      svc0.me.replies = [] ∧ Ready [7] [] svc0 ∧ (source [7] [] svc0 0).nat % 2 ^ 32 = engineParty 0 ∧ Ready [8] [] svc0 ∧
      (source [8] [] svc0 0).nat % 2 ^ 32 = hostParty 31 4095 ∧ pKind ((source [29] [] svc0 0).nat % 2 ^ 32) = 0 ∧
      exposeMe (taken [29] [] svc0).2 = .ok () (taken [29] [] svc0).2 ∧ killTargets (taken [29] [] svc0).2 0 none = [(0, 0)] :=
  ⟨ready_of (by decide) rfl rfl, by decide, by decide, by decide, ready_of (by decide) rfl rfl, by decide, by decide, by decide, ready_of (by decide) rfl rfl, by decide,
    ready_of (by decide) rfl rfl, by decide, by decide, rfl, by decide⟩

/-- Link 0 as `x`; a link that is up with every lane. -/
def sl (x : Link) : State := { s0 with links := [(0, x)] }
def up0 : Link := { Link.reset with role := .host, up := true, rxMap := 0xFFFF, txMap := 0xFFFF, rxOk := true }

/-- A configuration with links 0 and 1 to device 0 and call link 0; the first bytes of an image of version 3 with a body of three
bytes. -/
def config0 : ConfigBody := ⟨128, 1536, List.replicate 32 .host, [[0, 1]], [[0]], [], 2200⟩
def image0 (kind : Nat) : Image :=
  ⟨[BitVec.ofNat 8 kind, 1, 0, 0, 3, 0, 0, 0, 3, 0, 0, 0, 0, 0, 0, 0], config0, ⟨0, [], 0, 0⟩⟩

/-- Page tables: 0x100000000 is a page of frame 4 in the near tier, homed on core 0; domain 1 may read and write it. -/
def paged : State :=
  { st { y0 with domain := 1 } with
    nearGiB := 1
    ptroot := 1
    mem := [(8, 1), (0xA, 5), (0x800, 4), (0x1001, 8), (0x10000, 1), (0x10002, 2), (0x20040, 1), (0x20042, 3), (0x30000, 1), (0x30002, 4),
      (0x40400, 0x5A), (0x50000, 1), (0x50002, 6), (0x60008, 3)] }
def va0 : Nat := 0x100000400
def cached0 (dirty : List Nat) : State :=
  { paged with lines := [(lineKey 0 va0, { Line.none with frame := 0x40400, valid := [0], dirty := dirty })] }
/-- The sector also has a copy in bank 0. -/
def banked (dirty : List Nat) : State :=
  { paged with lines := [(lineKey 0 va0, { Line.none with frame := 0x40400, valid := [0], bankValid := [0], bankDirty := dirty })] }
def flight0 (op : Nat) (src : Src) : Flight := ⟨op, 0, 0, src, va0, if op = 1 then [7] else [], 8, false, 0, false, 0, 3, 0, none, none, none⟩

theorem witness_MemoryEvents :
    (∃ e level a, (walk paged 0 va0 256).1 = .leaf e level a) ∧ (∃ f, (walk s0 0 va0 256).1 = .fault f) ∧
    (∃ e level a p, (walk paged (coreDie 0) va0 (paged.core 0).vtabTenant).1 = .leaf e level a ∧
      placementSet paged (paged.core 0).vtabTenant (pteSet e) = some p ∧
      ∀ q ∈ (paged.core 0).pcache, ¬ (q.1 = va0 / 65536 ∧ q.2.1 = (paged.core 0).vtabTenant)) ∧
    (rightsByte paged 1 va0 = some 3 ∧ ∀ e ∈ (paged.core 0).plb, ¬ (e.1 = 1 ∧ e.2.1 = va0 / 2 ^ 29 % 2 ^ 23)) ∧
    rightsByte { paged with poison := [(0, true)] } 1 va0 = none ∧
    (paged.Canonical ∧ inWindow va0 = false ∧ held paged va0 = false ∧ lineHeld paged (whoCore paged 0) va0 = false ∧ paged.flights = [] ∧ paged.late = false ∧
      ∃ u e level a l, homeOf (whoCore paged 0) va0 paged = .ok 0 u ∧ (u.line 0 va0).valid = [] ∧
        (va0 / 2 ^ 42 ≠ paged.ptwinBase ∨ (u.line 0 va0).walked = false) ∧
        walk u (coreDie 0) va0 (paged.core 0).vtabTenant = (.leaf e level a, l) ∧ pteMigrating e = false ∧ pteLoc e < 2 ∧ pteDiscard e = false ∧
        ((cacheWalk 0 va0 l u).line 0 va0).valid = []) ∧
    ((paged.line 0 va0).valid = [] ∧ fullSet paged (globalTile 0) (sliceSet va0) = false ∧ 0x40400 % 1024 = va0 % 1024) :=
  ⟨⟨_, _, _, rfl⟩, ⟨_, rfl⟩, ⟨_, _, _, _, rfl, rfl, by decide⟩, ⟨by decide, by decide⟩, by decide,
    ⟨⟨by decide, by decide, by decide, by decide, by decide, by decide⟩, by decide, by decide, by decide, rfl, by decide,
      ⟨_, _, _, _, _, rfl, by decide, .inr (by decide), rfl, by decide, by decide, by decide, by decide⟩⟩, by decide, by decide, by decide⟩

/-- A full set: 24 lines of set 0 of tile 0, one in each of 24 cores' slices, and a fill that waits for a way. -/
def manyLines : State :=
  { s0 with
    lines := (List.range 24).map fun h => (lineKey h 0, { Line.none with valid := [0], dirty := [0], stamp := h + 1 })
    missWait := [(0, 0)] }
theorem witness_MemoryEvents_release :
    manyLines.Canonical ∧ (0, 0) ∈ manyLines.missWait ∧ 24 ≤ (setLines manyLines 0 0).length ∧
      manyLines.lines.Pairwise (fun p q => p.1 < q.1) ∧
      ∃ k x, oldest Line.stamp (setLines manyLines 0 0) = some (k, x) ∧ x.valid ≠ [] ∧ x.valid.Nodup ∧ (∀ n ∈ x.valid, n < 4) ∧ 0 ∈ x.dirty :=
  ⟨⟨by decide, by decide, by decide, by decide, by decide, by decide⟩, by decide, by decide, by decide,
    ⟨_, _, rfl, by decide, by decide, by decide, by decide⟩⟩

theorem witness_MemoryEvents_accesses :
    (∀ op ∈ [0, 1], ∀ src ∈ [Src.cached 0 0x40400, .bank 1 0x100, .frame 0 0x40400], let s := { paged with flights := [flight0 op src] };
      s.flights[0]? = some (flight0 op src) ∧ (flight0 op src).reply = none ∧ behindFlight s 0 (flight0 op src) = false ∧ lineTaken s (flight0 op src) = false) ∧
    (let s := { paged with flights := [flight0 2 (.bank 0 0x100)] };
      ownerQueue s 0 = [flight0 2 (.bank 0 0x100)] ∧ (s.core 0).ended = false ∧ lineTaken s (flight0 2 (.bank 0 0x100)) = false ∧
      poisonAt s (.bank 0 0x100) va0 8 = false ∧ amoNew 0 8 (leNat (readAt s (.bank 0 0x100) va0 8)) 3 0 = some 3) ∧
    (let s := { paged with flights := [{ flight0 0 (.cached 0 0x40400) with reply := some ⟨va0, [1], [], false, 0⟩ }] };
      s.flights.findIdx? (fun f => f.core == 0 && f.slot == 0 && f.reply.isSome) = some 0) ∧
    inTier paged (0x3FFFFFF * 64 % 2 ^ 30) = true ∧
    (∀ d ∈ [[], [0]], cachedAt (cached0 d) 0 va0 = true ∧ (cached0 d).lines.Pairwise (fun p q => p.1 < q.1)) ∧
    sectorOf va0 ∈ ((cached0 [0]).line 0 va0).dirty ∧ sectorOf va0 ∉ ((cached0 [0]).line 0 va0).bankValid ∧ ¬ (sectorOf va0 ∈ ((cached0 []).line 0 va0).dirty) ∧
    (let s := banked [0]; cachedAt s 0 va0 = true ∧ sectorOf va0 ∈ (s.line 0 va0).bankDirty ∧ sectorOf va0 ∉ (s.line 0 va0).dirty) ∧
    (let s := banked []; cachedAt s 0 va0 = true ∧ sectorOf va0 ∈ (s.line 0 va0).bankValid ∧ sectorOf va0 ∉ (s.line 0 va0).bankDirty) ∧
    (s0.slot 0 0).holds = .thread ∧ physPlace paged (2 ^ 30 - 8) 8 = some (2 ^ 30 - 8) ∧ physPlace paged (2 ^ 30 - 7) 8 = none ∧
    physPlace paged 0x03FF00010000 8 = some (localKey 0 0x10000) ∧
    (11 < ((Core.reset.port 3).length) + 12 ∧ (0 : Nat) < (({ Core.reset with ports := [(3, [7])] } : Core).port (11 - 8)).length) ∧
    (physAway (sl up0) (2 ^ 30) 8 = none ∧ physPlace (sl up0) 0x800000000000 8 = none ∧ physAway (sl up0) 0x800000000000 8 = some (some 0, 0x800000000000) ∧
      physAway (sl up0) 0xC00000000000 8 = some (none, 0) ∧
      (sendRequest 0 (mkRequest whoWenlek 2 0x800000000000 0x800000000000 8 [1] 0 0 0 false false true) (sl up0)).isSome = true) :=
  ⟨by decide, by decide, by decide, by decide, by decide, by decide, by decide, by decide, by decide, by decide, by decide, by decide, by decide,
    by decide, by decide, by decide⟩

/-- Tenant 0 in the near tier's page 0: a descriptor that keeps R328's layout; core 0 takes its messages, by a table at offset
0x10000 of its scratchpad whose entry 3 is `w1`. -/
def tenanted (w1 : Nat) (slots : List (Nat × Slot)) : State :=
  { s0 with
    nearGiB := 1
    cores := [(0, { Core.reset with slots := slots, vtabEnable := true, vtabOffset := 0x10 })]
    mem := putBytes (putBytes (putBytes [(0x1001, 8), (0x1018, 12)] 0x1020 (leBytes 16 (own 0x05 0).nat)) 0x1030
      (leBytes 16 (own 0x3F 0).nat)) (localKey 0 0x10030) (leBytes 8 0x4000 ++ leBytes 8 w1)
    tags := [(0x102, true), (0x103, true)] }
def msg0 : Msg := ⟨slotParty 1 2, 1, 2, 0, 0, 0, none, 3, [9], none, 0, false⟩
/-- Six general slots that hold threads. -/
def busy : List (Nat × Slot) := (List.range 6).map fun k => (k, y0)

theorem arriving_msg0 (w1 : Nat) (h : w1 = 0x4E ∨ w1 = 0x1807082) :
    Arriving { tenanted w1 [(0, y0)] with net := [msg0] } 0 msg0 ⟨0x4000, w1⟩ := by
  obtain rfl | rfl := h <;>
    exact ⟨rfl, rfl, rfl, rfl, rfl, by decide, by decide, by decide, by decide, rfl, rfl, by decide, by decide, by decide⟩

theorem witness_MessageArrivals :
    (let s := { tenanted 0x4E [(0, y0)] with net := [msg0, msg0] }; s.net[1]? = some msg0 ∧ overtaken s 1 msg0 = true) ∧
    (let s := { tenanted 0x4E [(0, y0)] with net := [msg0] };
      (⟨0x4000, 0x4E⟩ : Entry).mode = 1 ∧ descOk s msg0.tenant = true ∧ openSlot s msg0.dst (⟨0x4000, 0x4E⟩ : Entry).urgent = some 1) ∧
    (let s := { tenanted 0x1807082 [(0, y0)] with net := [msg0] };
      (⟨0x4000, 0x1807082⟩ : Entry).mode = 2 ∧ scratch s 0 (bits 0x1807082 16 10 * 256) 256 = true) :=
  ⟨⟨rfl, by decide⟩, ⟨by decide, by decide, by decide⟩, ⟨by decide, by decide⟩⟩

theorem witness_MessageArrivals_refused :
    (∃ u, arrive msg0 { tenanted 0x4E busy with net := [] } = .refuse .general u) ∧ (∃ u, arrive msg0 s0 = .fail 2 u) ∧
    (let n : Nack := ⟨msg0, .general, false⟩; ({ s0 with nacks := [n] } : State).nacks[0]? = some n) ∧
    (∀ h ∈ ({ s0 with nacks := [⟨msg0, .general, false⟩] } : State).held, ¬ (h.msg.srcCore = 1 ∧ h.msg.srcSlot = 2)) ∧
    (let h : Held := ⟨msg0, .general, none⟩
     let s := { s0 with grants := [(0, ⟨1, 2, .general⟩)], held := [h] };
      s.grants[0]? = some (0, ⟨1, 2, .general⟩) ∧ (1 : Nat) < numCores ∧ grantedFlight s 0 ⟨1, 2, .general⟩ = none ∧
        s.held.findIdx? (fun h => grantedMsg 0 ⟨1, 2, .general⟩ h.msg h.cls && h.resendAt.isNone) = some 0) ∧
    (let f : Flight := { flight0 2 (.bank 0 0x100) with core := 1, slot := 2, refused := some none };
      grantedFlight { s0 with grants := [(0, ⟨1, 2, .owner⟩)], flights := [f] } 0 ⟨1, 2, .owner⟩ = some f) ∧
    (let s := { s0 with held := [⟨msg0, .general, some 0⟩] };
      s.held.findIdx? (fun h => h.msg.srcCore == 1 && h.msg.srcSlot == 2 && h.resendAt.any fun t => decide (t ≤ s.clock)) = some 0) ∧
    (let s : State := { s0 with cores := [(0, { Core.reset with backoff := [(0, msg0)] })] };
      (s.core 0).backoff.findIdx? (fun p => decide (p.1 ≤ s.clock)) = some 0) ∧
    (let s := { s0 with absentHeld := [(1024, msg0)] }; s.absentHeld[0]? = some (1024, msg0) ∧ s.clock < 1024) ∧
    (let s := { s0 with absentHeld := [(0, msg0)] };
      0 ≤ s.clock ∧ ((s.absentHeld.take 0).any fun h => sameFlow msg0 h.2) = false ∧ s.absent.contains (0, globalTile 0) = false) ∧
    (let s := { s0 with absent := [(0, 0)], absentHeld := [(0, msg0)] };
      msg0.peer = none ∧ s.absent.contains (0, globalTile 0) = true ∧ tenantState s 0 ≠ 2 ∧ ¬ (0 < (absenceBuf s 0).2)) :=
  ⟨⟨_, rfl⟩, ⟨_, rfl⟩, rfl, by decide, ⟨rfl, by decide, by decide, by decide⟩, by decide, by decide, by decide, ⟨rfl, by decide⟩,
    by decide, by decide⟩

/-- A migrated thread's frame, an arrival, a parked context, a frame place of the keystone that waits. -/
def frame0 : Frame := ⟨false, 0, 1, false, false, own 0x05 0, [], 2, 0, 0, false, 1⟩
def arrival0 : Arrival := ⟨{ msg0 with header := 0xFD, frame := some frame0 }, 0, none⟩
def parked1 : Parked := ⟨va0, true, [va0], y0⟩
def core0 (f : Core → Core) : State := { s0 with cores := [(0, f { Core.reset with slots := [(0, y0)] })] }
theorem witness_SlotDispatches :
    (let s := core0 fun x => { x with resv := [⟨1, 2, .general⟩] };
      returnComposed 0 s = none ∧ freeSlot s 0 false = some 1 ∧ firstResv s 0 false = some ⟨1, 2, .general⟩ ∧ waitingFor s 0 false = none) ∧
    (let s := core0 fun x => { x with resv := [⟨1, 2, .general⟩], arrivals := [arrival0], turnBit := true };
      returnComposed 0 s = none ∧ freeSlot s 0 false = some 1 ∧ waitingFor s 0 false = some (.arrival arrival0) ∧ (s.core 0).turnBit = true ∧
      (arrivalBytes 0 arrival0 (s.modCore 0 fun x => { x with turnBit := false })).isSome = true ∧ arrival0.msg.frame = some frame0 ∧ arrival0.msg.header.toNat % 256 ≠ 0xFE) ∧
    (let s := core0 fun x => { x with parked := [parked1] };
      returnComposed 0 s = none ∧ freeSlot s 0 false = some 1 ∧ waitingFor s 0 false = some (.parked parked1) ∧ firstResv s 0 false = none) ∧
    (let s := core0 fun x => { x with parked := [parked1], arrivals := [arrival0] };
      waitingFor s 0 false = some (.arrival arrival0) ∧ (parkedReady s 0 false).isSome = true ∧
      waitingFor (s.modCore 0 fun x => { x with parkTurn := true }) 0 false = some (.parked parked1) ∧ (arrivalReady s 0 false).isSome = true) ∧
    (let s : State := { s0 with cores := s0.cores ++ [(6144, { Core.reset with frames := [(31, ⟨0, 0, 1, false⟩)] })] };
      isKeystone 6144 = true ∧ placeNext 6144 s = s ∧ oldestFrame s 6144 = some (31, ⟨0, 0, 1, false⟩) ∧ (⟨0, 0, 1, false⟩ : Place).slot ≠ 0xFFFF ∧ freeSlot s 6144 false = some 0) :=
  ⟨⟨by decide, by decide, by decide, by decide⟩, ⟨by decide, by decide, by decide, by decide, by decide, rfl, by decide⟩,
    ⟨by decide, by decide, by decide, by decide⟩, ⟨by decide, by decide, by decide, by decide⟩, ⟨by decide, rfl, by decide, by decide, by decide⟩⟩

/-- Slot 0 waits to be parked; the tenant's park region is the page of `paged`. A record waits; the ring is not defined, and full. -/
def parking (region : Bool) : State :=
  { paged with
    cores := [(0, { Core.reset with slots := [(0, { y0 with parkWant := some ⟨0x4000, 0x200000000, 0x200000000, 8, false, false⟩ })] })]
    mem := paged.mem.take 4 ++ (if region then [(0x9030, 1), (0x9034, 1)] else []) ++ paged.mem.drop 4 }
def rec0 : Rec := ⟨0, 0, [[1, 2, 3, 4, 5, 6, 7, 8]]⟩
theorem witness_SlotDispatches_park :
    ((parking true).slot 0 0).parkWant = some ⟨0x4000, 0x200000000, 0x200000000, 8, false, false⟩ ∧ freePark (parking false) 0 0 = none ∧ isKeystone 0 = false ∧
    (∀ r ∈ (parking true).records, r.tenant ≠ ((parking true).slot 0 0).tenant) ∧
    (let s := { paged with records := [rec0] };
      s.records.find? (fun r => r.tenant == 0) = some rec0 ∧ (postNow rec0 s).isSome = true) ∧
    (let s := { paged with records := [rec0], mem := [(0x9000, 6), (0x9001, 0xE0), (0x9002, 3), (0x9008, 64)] };
      s.records.find? (fun r => r.tenant == 0) = some rec0 ∧ postNow rec0 s = none) :=
  ⟨by decide, by decide, by decide, by decide, ⟨by decide, by decide⟩, ⟨by decide, by decide⟩⟩


/-- The parked context goes to the first eight lines of the region. -/
theorem witness_SlotDispatches_lines :
    (match freePark (parking true) 0 0,
        postNow (parkRec (parking true) 0 0 ⟨0x4000, 0x200000000, 0x200000000, 8, false, false⟩) (parking true) with
      | some lines, some (seq, s1) =>
        (writeLines (whoSlot (parking true) 0 0) lines ((List.range 32).map fun i => (256 * i, ((fullFrame ((parking true).partyAt 0 0)
          ((parking true).slot 0 0) 1 seq 7 0x200000000).drop (256 * i)).take 256)) s1).isSome
      | _, _ => false) = true := by decide +kernel

/-- Slot 0 of core 0 waits for slot 1, which waits for slot 0, or is DEAD; its idle threshold has passed. -/
def waits (q : Slot) : State :=
  { s0 with
    cores := [(0, { Core.reset with slots := [(0, { y0 with wait := ⟨1, 1, 0x0C, 1, [slotParty 0 1]⟩ }), (1, q)] })]
    clock := 2 ^ 16 }
def back : Slot := { y0 with wait := ⟨1, 1, 0x0C, 1, [slotParty 0 0]⟩ }
def grave : Slot := { Slot.empty with tomb := .dead }
def probe0 (stage : Nat) : Probe :=
  ⟨slotParty 0 0, 0, 0, [(slotParty 0 0, 0, 1, 1), (slotParty 0 1, 0x0C, 1, 1)], 2, 1, 0, [], stage, 7⟩

theorem witness_WaitGraphResults :
    originSlot s0 (slotParty 0 0) = some (0, 0) ∧ inWait s0 (slotParty 0 0) = false ∧
    (let s := waits grave; let p := slotParty 0 0;
      originSlot s p = some (0, 0) ∧ inWait s p = true ∧ (s.slot 0 0).waitSince + 2 ^ (s.core 0).wdExp ≤ s.clock ∧
      isAccused s p (readNode s p 0).gen = false ∧ s.stops.any (fun q => q.tenant == (s.slot 0 0).tenant) = false ∧ (s.core 0).wdOff = false ∧
      (readNode s (canonical s p) 0).st = 1 ∧ (readNode s (canonical s p) 0).targets = [slotParty 0 1] ∧
      canonical s (slotParty 0 1) ≠ canonical s p ∧ (readNode s (canonical s (slotParty 0 1)) 0x0C).st = 2) ∧
    (let s := waits { Slot.empty with tomb := .stopped }; (readNode s (slotParty 0 1) 0x0C).st = 3) ∧
    (readNode s0 (canonical s0 (slotParty 0 0)) 0).st = 0 ∧
    (let s : State := { s0 with cores := [(0, { Core.reset with slots := [(0, back)] })] };
      (readNode s (slotParty 0 0) 0).st = 1 ∧ (readNode s (slotParty 0 0) 0).targets = [slotParty 0 0]) :=
  ⟨by decide, by decide, by decide, by decide, by decide, by decide⟩

theorem witness_WaitGraphResults_probe :
    (∀ q ∈ [back, grave], let p := slotParty 0 0; let s := { waits q with probeReq := [p] };
      (s.probeReq.find? fun q => pDie q == pDie p) = some p ∧ running s (pDie p) < 16 ∧
      (originOf s p).isSome = true ∧ ((exploreFrom s false p).1 = 1 ∨ (exploreFrom s false p).1 = 2)) ∧
    originOf s0 (slotParty 0 7) = none ∧ (exploreFrom s0 false (slotParty 0 0)).1 = 0 ∧
    (let s := waits { y0 with halted := true };
      (exploreFrom s false (slotParty 0 0)).1 = 0 ∧ (exploreFrom s true (slotParty 0 0)).1 = 2) ∧
    (let x := probe0 0; let s := { waits back with probes := [x] };
      (s.probes.find? fun x => x.origin == slotParty 0 0 && x.stage == 0) = some x ∧ s.clock ≤ x.start + 32768 + 32768 ∧
      ∀ n ∈ x.nodes, n.1 ≠ slotParty 0 0 → (readNode s n.1 n.2.1).gen = n.2.2.1 ∧ (readNode s n.1 n.2.1).st = n.2.2.2 ∧
        isAccused s n.1 (readNode s n.1 n.2.1).gen = false) ∧
    (let x := probe0 0; let s := { waits grave with probes := [x], clock := 32768 };
      s.clock ≤ x.start + 32768 ∧ ∃ n ∈ x.nodes, n.1 ≠ slotParty 0 0 ∧ ¬ ((readNode s n.1 n.2.1).gen = n.2.2.1)) ∧
    (let x := probe0 1; let s := { waits back with probes := [x], clock := 32769 };
      (s.probes.find? fun x => x.origin == slotParty 0 0 && decide (x.stage < 2) && decide (x.start + 32768 < s.clock)) = some x) :=
  ⟨by decide, by decide, by decide, by decide, by decide, by decide, by decide⟩

/-- An unchanged origin with a trap vector, a changed one, and a pending task. -/
theorem witness_WaitGraphResults_delivery :
    (let x := probe0 1; let p := slotParty 0 0; let s := { waits back with probes := [x], clock := 9 };
      (s.probes.find? fun x => x.origin == p && decide (1 ≤ x.stage)) = some x ∧ s.clock ≤ x.start + 32768 ∧
      (readNode s p 0).st = 1 ∧ isAccused s p (readNode s p 0).gen = false ∧
      (∃ n ∈ x.nodes, n.1 = p ∧ n.2.2.1 = (readNode s p 0).gen) ∧ originSlot s p = some (0, 0) ∧
      (∀ y ∈ s.records, y.tenant ≠ x.tenant) ∧ (s.slot 0 0).composed = false ∧ (s.slot 0 0).wait.reason ≠ 0x0D ∧ (s.slot 0 0).inTrap = false ∧ (s.slot 0 0).tvec / 2 ≠ 0 ∧
      (postNow (x.record s.clock) (commitFault x (readNode s p 0).gen s)).isSome = true) ∧
    (readNode s0 (slotParty 0 0) 0).st ≠ 1 ∧
    (let y : Task := ⟨0, 5, [⟨0, 64, false, none⟩], 3, 0, 0, [taskParty 0 2], .pending, ⟨1, 2, 0x0C, 1, [taskParty 0 2]⟩, 0, 0⟩
     let z : Task := ⟨0, 0, [⟨0, 64, true, none⟩], 3, 0, 0, [], .running, ⟨1, 0, 0, 0, []⟩, 0, 0⟩
     let s := { s0 with tasks := [(1, y), (2, z)] };
      originSlot s (taskParty 0 1) = none ∧ (originTask s (taskParty 0 1)).isSome = true ∧ (readNode s (taskParty 0 1) 0).st = 1) :=
  ⟨by decide, by decide, by decide⟩

/-- A halted thread; one in a wait; a core whose slots are all halted; the first and the last queue and port. -/
def sh : State := st { y0 with halted := true }
theorem witness_DebugResults :
    (sh.slot 0 0).halted = true ∧ debugRead 0 0 4 sh = some ((own 0x3F 0x10100).nat, true) ∧ (s0.slot 0 0).halted = false ∧
    (s0.slot 0 0).wait.mode = 0 ∧ atBoundary s0 0 0 = true ∧ (∃ k ∈ debugSlots 0, k = 0) ∧
    absentField 0 (16 + 0) = false ∧ absentField 49 (16 + 11) = false ∧ coreHalted s0 0 = false ∧
    (let s : State := { s0 with cores := [(0, { Core.reset with slots := (List.range 7).map fun k => (k, { y0 with halted := true }) })] };
      coreHalted s 0 = true ∧ ([1, 2] : List Nat).length ≤ depthOf (16 + 11)) ∧ (sh.slot 0 0).holds = .thread ∧ (0 : Nat) < 7 :=
  ⟨by decide, by decide, by decide, by decide, by decide, by decide, by decide, by decide, by decide, by decide, by decide, by decide⟩

theorem witness_LinkLayer :
    LinkUp (sl up0) 0 ∧ ((sl up0).link 0).rxExpect < 2 ^ 14 ∧ 2 ^ 14 % 2 ^ 14 = ((sl up0).link 0).rxExpect ∧
    (let s := sl { up0 with rxMap := 0xFF0F, mapPending := some 0xFFFF, discarded := 338 };
      LinkUp s 0 ∧ 2 ^ 14 % 2 ^ 14 = (s.link 0).rxExpect ∧ (s.link 0).mapPending = some 0xFFFF) ∧
    (let s := sl { up0 with requestAt := some 0 }; (s.link 0).requestAt = some 0 ∧ s.clock < 0 + 2400 ∧ (0 : Nat) + 2400 ≤ 2400) ∧
    (let m := 0xFFFF - (0xFFFF &&& 0x1); m ≠ 0xFFFF ∧ 4 ≤ linkLanes m) ∧ linkLanes (0xFFFF - (0xFFFF &&& 0xFFF8)) < 4 ∧
    linkLanes (0xFFFF - (0xFFFF &&& 0xFFF0)) = 4 ∧ 0xF % 2 ^ 16 ≠ ((sl up0).link 0).txMap ∧
    (let s := sl { up0 with mapPending := some 0xFFFF, mapFails := 7 }; (s.link 0).mapPending = some 0xFFFF ∧ 8 ≤ (s.link 0).mapFails + 1) ∧
    (let s := sl { up0 with rxMap := 0x7FFF }; (s.link 0).rxMap.testBit 15 = false ∧ (15 : Nat) < 16) ∧
    (let s := sl { Link.reset with role := .peer }; (s.link 0).role ≠ .unused ∧ (s.link 0).up = false) ∧
    (let s := { sl { Link.reset with requests := [{ hostWrite with op := 1 }] } with clock := 12000000 };
      (s.link 0).up = false ∧ (s.link 0).requests = [{ hostWrite with op := 1 }] ∧ ({ hostWrite with op := 1 } : Request).slot ≠ 18 ∧
      max (s.link 0).downSince ({ hostWrite with op := 1 } : Request).since + 12000000 ≤ s.clock) :=
  ⟨⟨rfl, rfl⟩, by decide, by decide, ⟨⟨rfl, rfl⟩, by decide, rfl⟩, ⟨rfl, by decide, by decide⟩, ⟨by decide, by decide⟩, by decide, by decide, by decide,
    ⟨rfl, by decide⟩, ⟨by decide, by decide⟩, ⟨by decide, rfl⟩, ⟨rfl, rfl, by decide, by decide⟩⟩

/-- A packet that waits for room while a replay is asked for, twenty flits to replay after a lane map, and a peer with a link that is
still up. -/
theorem witness_LinkLayer_replay :
    (let x := { up0 with replay := [1, 2, 3], queue := [⟨0, 0, 0, 0, 8, 3, 5, true, false, false, false, 0, 1, 0, [], []⟩] };
      ((sl x).link 0).up = true ∧ leftAbove ((sl x).link 0) 1 = [2, 3]) ∧
    (let s := sl { up0 with replay := List.range 20 };
      LinkUp s 0 ∧ 0x7FFF % 2 ^ 16 ≠ (s.link 0).txMap ∧ 4 ≤ linkLanes (0x7FFF % 2 ^ 16) ∧ (leftAbove (s.link 0) 0).length = 19) ∧
    linkLanes (0x7 % 2 ^ 16) < 4 :=
  ⟨by decide, ⟨⟨rfl, rfl⟩, by decide, by decide, by decide⟩, by decide⟩

/-- A part after bring-up with link 0 to a host, whose requester 5 has tenant 0, domain 1 and the physical right, in the tables of
`paged`. -/
def sn (x : Link) : State :=
  { paged with
    links := [(0, x)]
    hrtbase := 0x10
    mem := paged.mem ++ [(0x100028, 1), (0x10002A, 1), (0x10002B, 1)]
    wenlek := { Wenlek.reset with stage := 7 } }
def pk (op : Nat) : Packet := ⟨0, 0, 0, 0, 8, 3, 5, true, false, false, false, 0, op, 0x40400, [1, 0], [1, 2, 3, 4, 5, 6, 7, 8]⟩
def entry5 : Nat × Nat × Bool := (0, 1, true)
/-- Four flits have come in. -/
def up4 : Link := { up0 with inbound := 4 }
def sv4 : State := (sn up4).modLink 0 fun x => { x with inbound := 2 }
theorem hostAsk_pk (op : Nat) (h : op ∈ [1, 2, 3, 4]) : HostAsk (sn up4) (pk op) op entry5 sv4 := by
  simp only [List.mem_cons, List.not_mem_nil, or_false] at h
  obtain rfl | rfl | rfl | rfl := h <;> exact ⟨rfl, by decide, by decide, by decide, by decide, by decide, by decide, by decide⟩
theorem witness_LinkTransactions :
    takePacket (pk 1) (sn up0) = none ∧ (∀ op ∈ [1, 2, 3, 4], HostAsk (sn up4) (pk op) op entry5 sv4) ∧
    (takePacket (pk 1) (sl up4)).isSome = true ∧ (sl up4).wenlek.stage < 7 ∧
    (7 ≤ sv4.wenlek.stage ∧ (sv4.link 0).role ≠ .unused ∧ (pk 9).op ≠ 0x01) ∧
    hostEntry sv4 0 6 = none ∧
    overrun ((sn { up0 with hostWait := [{ pk 1 with address := 0 }] }).link 0) (pk 1) = true ∧
    (let s := sn { up4 with role := .peer };
      takePacket (pk 1) s = some (s.modLink 0 fun x => { x with inbound := 2 }) ∧
      7 ≤ s.wenlek.stage ∧ (s.link 0).role = .peer ∧ overrun (s.link 0) (pk 1) = false ∧ waitsBehind (s.link 0) (pk 1) = false ∧
        physPlace s 0x40400 8 = some 0x40400) ∧
    physPlace sv4 0x40400 8 = some 0x40400 ∧ (physPlace sv4 (2 ^ 30) 8 = none ∧ physAway sv4 (2 ^ 30) 8 = none) ∧
    physPoison sv4 0x40400 8 = false ∧
    (∃ va level u, requestParts { pk 1 with physical := false, address := 0x200000000 } (asker (pk 1) entry5) 1 false 8 sv4 =
      .exc (.svc 0x06 va level) u) ∧
    (∃ va level u, requestParts { pk 3 with physical := false, address := 0x200000000 } (asker (pk 3) entry5) 3 true 8 sv4 =
      .exc (.svc 0x06 va level) u) ∧
    (∃ l u, requestParts { pk 1 with physical := false, address := va0 } (asker (pk 1) entry5) 1 false 8 sv4 = .ok l u ∧
      ∀ q ∈ l, isLink q.2.2 = false) ∧
    (∃ va n src u, requestParts { pk 1 with physical := false, address := va0 } (asker (pk 1) entry5) 2 true 8 sv4 =
      .ok [(va, n, src)] u ∧ isLink src = false) ∧ (8 : Nat) = 8 ∧ (pk 3).address % 8 = 0 ∧ (pk 3).atomicOp ≤ 10 :=
  ⟨by decide, hostAsk_pk, by decide, by decide, ⟨by decide, by decide, by decide⟩, by decide, by decide, ⟨rfl, by decide⟩, by decide, by decide,
    by decide, ⟨_, _, _, rfl⟩, ⟨_, _, _, rfl⟩, ⟨_, _, rfl, by decide⟩, ⟨_, _, _, _, rfl, rfl⟩, by decide⟩

/-- The message packet of a requester to core 0, without and with a vector table; a call; answers to a read, an atomic, a write,
a message, a refused message and a call. -/
def request0 (op : Nat) : Request := { hostWrite with tag := 3, op := op, slot := 0, length := 8, va := va0, msg := some msg0 }
theorem witness_LinkTransactions_messages :
    inWindow (0xFF * 2 ^ 44) = true ∧ 0xFF * 2 ^ 44 < 0xFFFFFFFF00000 ∧ windowAt 0 (0xFF * 2 ^ 44) = some (0, 0) ∧
    (∃ u, arrive (linkMsg (pk 4) (asker (pk 4) entry5) 0 false (sn up0)) (sn up0) = .fail 2 u) ∧
    (∃ u, arrive (linkMsg { pk 4 with words := [3] } (asker (pk 4) entry5) 0 false (tenanted 0x4E busy)) (tenanted 0x4E busy) =
      .refuse .general u ∧ (u.core 0).resv.length < 64) ∧
    (∃ u, arrive (linkMsg { pk 4 with words := [3] } (asker (pk 4) entry5) 0 false (tenanted 0x4E [])) (tenanted 0x4E []) = .done u) ∧
    (let m := linkMsg { pk 4 with words := [3] } (asker (pk 4) entry5) 0 false (sn up0);
      refusedBefore m (sn up0) = false ∧
      (let s := { sn up0 with cores := [(0, { Core.reset with resv := [⟨m.srcCore, 9, .general⟩] })] };
        refusedBefore m s = true ∧ (s.core 0).resv.length < 64)) ∧
    (∀ op ∈ [1, 2, 3, 4, 5, 6], let s := sn { up4 with requests := [request0 op] };
      (takePacket (pk 1) s).isSome = true ∧
      (s.link 0).up = true ∧ s.links.all (fun q => q.2.waiting.isEmpty) = true ∧ (request0 op).slot ≠ 18 ∧ (request0 op).slot ≠ 22 ∧
      (s.link 0).requests.find? (fun r => r.tag == (pk 1).tag && [op].contains r.op) = some (request0 op)) ∧
    freeTag up0 = some 0 ∧ (request0 4).msg = some msg0 :=
  ⟨by decide, by decide, by decide, ⟨_, rfl⟩, ⟨_, rfl, by decide⟩, ⟨_, rfl⟩, by decide, by decide, by decide, rfl⟩

def sw (n : Nat) (x : Wenlek) : State := { s0 with wenlek := { x with stage := n } }
theorem witness_LinkTransactions_call :
    let s := { sl up0 with wenlek := { Wenlek.reset with config := some (image0 2) } }
    (pk 5).op = 0x05 ∧ callLink s (pk 5) = true ∧ freeTag (s.link 0) = some 0 := ⟨rfl, by decide, by decide⟩

/-- Device 0 behind links 0 and 1: a message for its core 5 with link 1 down, with both down, with every tag in use. -/
def peer0 (x : Link) : State := { sl x with wenlek := { Wenlek.reset with config := some (image0 2) }, net := [{ msg0 with peer := some 0 }] }
theorem witness_MessageArrivals_peer :
    (peer0 up0).net[0]? = some { msg0 with peer := some 0 } ∧ overtaken (peer0 up0) 0 { msg0 with peer := some 0 } = false ∧
    peerLink (peer0 up0) 0 1 0 = some 0 ∧ freeTag ((peer0 up0).link 0) = some 0 ∧ peerLink (peer0 Link.reset) 0 1 0 = none ∧
    peerPresent (peer0 up0) 1 = true ∧ peerPresent (peer0 Link.reset) 1 = false :=
  ⟨rfl, by decide, by decide, by decide, by decide, by decide, by decide⟩
theorem witness_MessageArrivals_tags :
    freeTag { up0 with requests := (List.range 1024).map fun t => { hostWrite with tag := t } } = none := by
  refine List.find?_eq_none.mpr fun t h g => ?_
  simpa using List.all_eq_true.mp g _ (List.mem_map.mpr ⟨t, h, rfl⟩)

/-- An image of the wrong kind, and one below the lowest version; the third and the last die; an entry block for die 3's
keystones, with a register to write. (Whether an image's signature verifies is a free value, so that case has no witness.) -/
theorem witness_BringUpResults :
    (sw 1 Wenlek.reset).atStage 1 = true ∧ imageWord (image0 2) 0 1 ≠ 1 ∧ (sw 2 { Wenlek.reset with lowConfig := 4 }).atStage 2 = true ∧
    ¬ 4 ≤ imageVersion (image0 2) ∧
    (let s := sw 3 { Wenlek.reset with poweredDies := [0, 2], heldDies := [1] };
      s.atStage 3 = true ∧ 3 = s.wenlek.poweredDies.length + s.wenlek.heldDies.length) ∧
    ((sw 4 { Wenlek.reset with poweredDies := [0] }).atStage 4 = true ∧ 1535 ∈ poweredUnits (sw 4 { Wenlek.reset with poweredDies := [0] })) ∧
    (let s := { sl { Link.reset with role := .host } with wenlek := { Wenlek.reset with stage := 6 } };
      s.atStage 6 = true ∧ (s.link 0).role ≠ .unused ∧ (s.link 0).up = false ∧
      ([(0, 0xF, 0xFFFF)] : List (Nat × Nat × Nat)).find? (fun p => p.1 == 0) = some (0, 0xF, 0xFFFF) ∧ linkLanes 0xF = 4 ∧
      ([] : List (Nat × Nat × Nat)).find? (fun p => p.1 == 0) = none) ∧
    (∀ n ∈ [1, 2, 3, 4, 5, 6], (sw 0 Wenlek.reset).atStage n = false) :=
  ⟨by decide, by decide, by decide, by decide, ⟨by decide, by decide⟩, ⟨by decide, by simp [poweredUnits, sw]⟩,
    ⟨by decide, by decide, by decide, by decide, by decide, by decide⟩, by decide⟩

def configured : Image := { image0 2 with config := { config0 with registers := [(0x802, 2 ^ 16)] } }
theorem witness_BringUpResults_entries :
      let s := sw 5 { Wenlek.reset with poweredDies := [3], firmware := some (image0 1), config := some configured };
      s.Canonical ∧ s.atStage 5 = true ∧ s.wenlek.firmware = some (image0 1) ∧ s.wenlek.config = some configured ∧
      (∀ r ∈ configured.config.registers, serviceRegister r.1 = true) ∧ configured.config.registers = [(0x802, 2 ^ 16)] ∧
      s.wenlek.poweredDies.Nodup ∧ (∀ d ∈ s.wenlek.poweredDies, d < 4) ∧ 6335 ∈ poweredKeystones s :=
  ⟨⟨by decide, by decide, by decide, by decide, by decide, by decide⟩, by decide, rfl, rfl, by decide, rfl, by decide, by decide,
    by simp only [poweredKeystones, sw, numSmall]; decide⟩

/-- Both images run; a shutdown with a tenant that has not stopped, with none, and before any. -/
theorem witness_ControllerResults :
    (let s := sw 7 { Wenlek.reset with firmware := some (image0 1), config := some (image0 2) };
      s.wenlek.firmware = some (image0 1) ∧ s.wenlek.config = some (image0 2)) ∧
    (let s := { sw 7 { Wenlek.reset with shutdown := true } with
        stops := [⟨numCores, 0, 0, [0]⟩]
        cores := [(0, { Core.reset with vtabEnable := true, slots := [(0, y0)] })]
        flights := [flight0 0 (.bank 1 0x100)] };
      s.wenlek.shutdown = true ∧ ∃ p ∈ shutdownStops s, stopReady p s = false) ∧
    (∀ p ∈ shutdownStops (sw 7 { Wenlek.reset with shutdown := true }), stopReady p (sw 7 { Wenlek.reset with shutdown := true }) = true) ∧
    (sw 7 Wenlek.reset).wenlek.shutdown = false :=
  ⟨⟨rfl, rfl⟩, ⟨rfl, ⟨_, List.mem_cons_self, by decide⟩⟩, by decide, rfl⟩

theorem witness_DecodeWords :
    0x22 < 0x7E / 2 % 64 ∧ 0x16 < 0x2E / 2 % 32 ∧ dstOk 29 = true ∧ (0xFFFFF : Nat) < 2 ^ 20 ∧ mma0.op = 0x06 ∧
      0x0D < (cmd0 0x0E 0 0 0).op := ⟨by decide, by decide, rfl, by decide, by decide, by decide⟩

theorem witness_CoreWordsRoundTrip :
    (Instr.addi 5 4 0x7FF).wf = true ∧ wordless (.addi 5 4 0x7FF) = false ∧ (Instr.addi 5 4 0x7FF).isCompact = false ∧
      engineWord (.addi 5 4 0x7FF) = false ∧ decodeCore 0x00506303 = some (.addi 6 6 5) ∧ 0x00506303 % 2 = 1 :=
  ⟨by decide, rfl, rfl, rfl, rfl, rfl⟩

theorem witness_ShortWordsRoundTrip :
    (Instr.cAdd 5 4).wf = true ∧ (Instr.cAdd 5 4).isCompact = true ∧ (Instr.edone 3).wf = true ∧ engineWord (.edone 3) = true ∧
      decodeCompact (encode (.cAdd 5 4)) = some (.cAdd 5 4) ∧ decodeEngine (encode (.edone 3)) = some (.edone 3) :=
  ⟨by decide, rfl, by decide, rfl, rfl, rfl⟩

/-- ADDI c6, c6, 5 at the PC; a word that no instruction has; ELI at an engine's PC; an MMA at the head of a queue; an event. -/
def sx (w : Nat) : State :=
  { st { y0 with pcc := own 0x05 0x10040 } with mem := putBytes [] (localKey 0 0x10040) (leBytes 4 w), turn := .issue 0 [] }
theorem witness_StepRunsDecoded :
    (∀ w ∈ [0x00506303, 0x0000007F], let s := { (sx w).prep with curCore := 0 }; let u := setPointer 0 (0, 0) { s with curCore := 0, curSlot := 0 };
      (0 : Nat) < numCores ∧ (!([] : List Nat).contains 7 && ownerReady s 0) = false ∧ contenders s 0 [] = (0, 0) :: [] ∧ (s.core 0).comp = none ∧ u.me.killPend = false ∧
      dueCause u 0 0 = none) ∧
    (let s := { sx 0x00506303 with flights := [flight0 2 (.bank 0 0x100)] };
      (!([] : List Nat).contains 7 && ownerReady s 0) = true ∧ (s.core 0).ended = false) ∧
    (∃ t, fetchSlot 0 0 (setPointer 0 (0, 0) { (sx 0x00506303).prep with curCore := 0, curSlot := 0 }) = .ok (0x00506303, 4) t) ∧
    (∃ e t, fetchSlot 0 0 (st { y0 with pcc := .ofWord 0 }) = .exc e t) ∧
    (∃ i, decodeFetched (0x00506303, 4) = some i) ∧ decodeFetched (0x0000007F, 4) = none ∧
    (let s := { sx 0x00506303 with curCore := 0, curSlot := 0 };
      CapOk s.me.pcc s.me.pc 4 4 2 ∧ OwnBank s s.me.pc 4 0x10040 31 ∧ (31 : Nat) &&& 4 = 4 ∧ s.flights = [] ∧
      physPoison s (localKey s.curCore 0x10040) 4 = false) :=
  ⟨by decide, by decide, ⟨_, rfl⟩, ⟨_, _, rfl⟩, ⟨_, rfl⟩, rfl, ⟨by decide, by decide, by decide, by decide, by decide⟩,
    ⟨by decide, by decide, by decide, by decide, by decide, by decide, by decide⟩, by decide, rfl, by decide⟩

theorem witness_StepRunsDecoded_units :
    (let e : Engine := { Engine.reset with state := .running, epc := 0xFFFFFFFFD0040, fetchCap := own 0x05 0 }
     let s : State := { st y0 with
       cores := [(0, { Core.reset with engine := e, plb := [(0, 2 ^ 23 - 1, 31)] })]
       mem := putBytes [] (localKey 0 0x10040) (leBytes 4 (encode (.edone 3)))
       turn := .engine 0 };
      (0 : Nat) < numSmall ∧ (s.eng 0).halted = false ∧ (s.eng 0).copy = none ∧ (s.eng 0).state = .running ∧ (s.eng 0).stopping = none ∧
      (∃ t, fetchEngine 0 { s.prep with curCore := 0 } = .ok (encode (.edone 3)) t) ∧ decodeEngine (encode (.edone 3)) = some (.edone 3)) ∧
    (let s := sm { Mx.reset with cur := some (started0 mma0 false) };
      currentCommand 0 { s.prep with curCore := 0 } = some mma0 ∧ decodeCmd mma0 = some (.mxMma mma0)) ∧
    (let e : Engine := { Engine.reset with state := .blocked, stopping := some (4, 0, false, 0) }; e.stopping = some (4, 0, false, 0) ∧
      e.copy = none ∧ e.halted = false) ∧
    (Instr.walk 0 0).isEvent = true :=
  ⟨⟨by decide, rfl, rfl, rfl, rfl, ⟨_, rfl⟩, rfl⟩, ⟨rfl, rfl⟩, ⟨rfl, rfl, rfl⟩, rfl⟩

theorem witness_EveryInstructionGoesOn : (Turn.issue 6335 []).exists = true ∧ (Turn.engine 6143).exists = true := ⟨by decide, by decide⟩

theorem witness_ResetState : (6143 : Nat) < numSmall := by decide

/-- A step from a state in canonical form. -/
theorem witness_StepKeepsCanonical :
    State.reset.Canonical ∧ manyLines.Canonical ∧ ∃ t, step manyLines = .next t :=
  ⟨⟨by decide, by decide, by decide, by decide, by decide, by decide⟩, ⟨by decide, by decide, by decide, by decide, by decide, by decide⟩,
    ⟨_, rfl⟩⟩

/-- The digest of no bytes (FIPS 202). -/
theorem test_sha3_empty :
    sha3 [] = leBytes 32 0x4A43F8804B0AD882FA493BE44DFF80F562D661A05647C15166D71EBFF8C6FFA7 := by decide +kernel

/-- The worked trailer of R399: flit 906 replayed, with ack 7. -/
theorem test_flit_trailer : (⟨1, [], 7, 906⟩ : Flit).low = 0x1001C38A := by decide

/-- A flit striped over the 15 lanes that are left (R398): bit 3 goes to lane 4, bit 15 to lane 0's second slot. -/
theorem test_lane_striping : flitLane 0xFFF7 3 = (4, 0) ∧ flitLane 0xFFF7 15 = (0, 1) := by decide

/-- The record of "a peer copy through a laser failure" on device 1's link 9: map 0xFF0F, 338 discarded flits, the TIME of
detection (R433). -/
theorem test_lane_record :
    (match execDataFlit 9 true 0 0 { s0 with links := [(9, { up0 with
        role := .peer
        rxMap := 0xFF0F
        mapPending := some 0xFFFF
        discarded := 338
        mapAt := 7003250 })] } with
      | .next t => t.wenlek.telemetry.map fun l => l.take 4
      | _ => []) = [[0xFF0FFFFF00000901, 0x0000000100000152, 0xFF, 0x6ADC72]] := by decide

/-- The ring of a peer link's records: in the host window of link 4 while that is a host's, else none (R432). -/
theorem test_peer_ring :
    let s (r : LinkRole) : State := { s0 with
      links := [(4, { up0 with role := r }), (9, { up0 with role := .peer, leqRing := 2 ^ 35 + 2 ^ 31, leqSize := 8 })] };
    eventRing (s .host) 9 = some (4, 2 ^ 47 + 4 * 2 ^ 41, 256) ∧ eventRing (s .peer) 9 = none := ⟨by decide, by decide⟩

end Sys2Proof.Tests
end

section
/-! SUPPORT. A PLBINV that names a queue completes, whatever its own activation had buffered. -/

namespace Sys2Proof.Machine

/-- An unexposed activation in service mode, with a store to its core's own banks in the commit buffer. -/
def bufferingActivation : Slot :=
  { Slot.empty with
    holds := .activation
    mode := .service
    commit := [⟨0xFFFFFFFFC0100, [1], false, 0, false⟩] }

/-- The activation runs in slot 0 of the first keystone (R10), whose q6 holds a word that names domain 0. -/
def bufferingState : State :=
  { State.reset with
    cores := [(numSmall, { Core.reset with slots := [(0, bufferingActivation)], q := [(6, [0])] })]
    curCore := numSmall
    curSlot := 0 }

/-- q6 and z can be read: q6 is there on a keystone and holds a word, and the commit buffer drains without an exception. -/
theorem bufferingState_ready : Ready [22, 29] [] bufferingState :=
  ⟨by decide, by decide, fun _ => ⟨by decide, by decide⟩⟩

/-- Reading q6 exposes the activation (R382): its store is performed before the purge, so no access that the PLBINV would wait for
is left, and it completes at once. -/
theorem plbinv_bufferingState :
    ∃ t, exec (.plbinv 22 29) bufferingState = .next t ∧ t.me.pc = bufferingState.me.pc + 4 :=
  ⟨_, rfl, by decide⟩

end Sys2Proof.Machine

open Sys2Proof Sys2Proof.Machine in
/-- Refutes O44. Its clause on buffered stores takes every field number, and with q6 as the domain operand a PLBINV exposes its own
activation as it issues (R382): the store that it is said to wait for has left the commit buffer before the purge begins. R44 admits
only c0 to c15 there. -/
theorem not_serviceResults : ¬ Obligations.ServiceResults := by
  unfold Obligations.ServiceResults
  rintro ⟨-, -, hbuffered, -⟩
  obtain ⟨t, hrun, hstays, -⟩ := hbuffered 22 29 numSmall 0 _ bufferingActivation _ bufferingState (by decide) (by decide)
    bufferingState_ready rfl rfl rfl rfl (List.mem_singleton_self _) (.inr (by decide)) (by decide)
  obtain ⟨u, hcompletes, hmoves⟩ := plbinv_bufferingState
  obtain rfl : t = u := Host.Outcome.next.inj (hrun.symm.trans hcompletes)
  have hpc : t.me.pc = bufferingState.me.pc := congrArg Reg.cursor hstays
  omega
end

section
/-! SUPPORT. The canonical form of memory and its marks (log entry 1) under every function of the model, in the order in
which the model defines them: the state alone, the state with a value, and the results that carry a state. -/

namespace Sys2Proof.Machine

open Host (Outcome)

variable {s : State}

/-- The state that a result carries. -/
def Res.state {α : Type} : Res α → State
  | .ok _ s | .stall s | .exc _ s => s

/-- The state in which an issued instruction goes on, or that it leaves. -/
def Issued.state : Issued → State
  | .go _ s | .stop s => s

/-- The state that the arrival of a message leaves. -/
def Arrive.state : Arrive → State
  | .done s | .refuse _ s | .fail _ s => s

/-- Whatever a result says, the state it carries is in canonical form. -/
def Res.Canonical {α : Type} (r : Res α) : Prop := r.state.Canonical

/-- Whether or not the instruction goes on, its state is in canonical form. -/
def Issued.Canonical (r : Issued) : Prop := r.state.Canonical

/-- However a message is answered, the state left is in canonical form. -/
def Arrive.Canonical (r : Arrive) : Prop := r.state.Canonical

/-- A next state, if there is one, is in canonical form. -/
def CanonicalOutcome (o : Outcome State Fault Refusal) : Prop := ∀ t, o = .next t → t.Canonical

/-- A state, if there is one, is in canonical form. -/
def CanonicalOption (o : Option State) : Prop := ∀ t, o = some t → t.Canonical

/-- The state next to a value, if there is one, is in canonical form. -/
def CanonicalSecond {α : Type} (o : Option (α × State)) : Prop := ∀ p, o = some p → p.2.Canonical

theorem Res.canonical_ok {α : Type} (a : α) (s : State) : (Res.ok a s).Canonical ↔ s.Canonical := Iff.rfl

theorem Res.canonical_stall {α : Type} (s : State) : (Res.stall s : Res α).Canonical ↔ s.Canonical := Iff.rfl

theorem Res.canonical_exc {α : Type} (e : Exc) (s : State) : (Res.exc e s : Res α).Canonical ↔ s.Canonical := Iff.rfl

theorem Issued.canonical_go (l : List Reg) (s : State) : (Issued.go l s).Canonical ↔ s.Canonical := Iff.rfl

theorem Issued.canonical_stop (s : State) : (Issued.stop s).Canonical ↔ s.Canonical := Iff.rfl

theorem Arrive.canonical_done (s : State) : (Arrive.done s).Canonical ↔ s.Canonical := Iff.rfl

theorem Arrive.canonical_refuse (c : RClass) (s : State) : (Arrive.refuse c s).Canonical ↔ s.Canonical := Iff.rfl

theorem Arrive.canonical_fail (n : Nat) (s : State) : (Arrive.fail n s).Canonical ↔ s.Canonical := Iff.rfl

theorem canonicalOutcome_next {s : State} : CanonicalOutcome (.next s) ↔ s.Canonical := by simp [CanonicalOutcome]

theorem canonicalOutcome_fault (f : Fault) : CanonicalOutcome (.fault f) := by simp [CanonicalOutcome]

theorem canonicalOutcome_refused (f : Refusal) : CanonicalOutcome (.refused f) := by simp [CanonicalOutcome]

theorem canonicalOption_some {s : State} : CanonicalOption (some s) ↔ s.Canonical := by simp [CanonicalOption]

theorem canonicalOption_none : CanonicalOption none := by simp [CanonicalOption]

theorem canonicalSecond_some {α : Type} {p : α × State} : CanonicalSecond (some p) ↔ p.2.Canonical := by simp [CanonicalSecond]

theorem canonicalSecond_none {α : Type} : CanonicalSecond (none : Option (α × State)) := by simp [CanonicalSecond]

theorem CanonicalOption.getD {s : State} {o : Option State} (ho : CanonicalOption o) (h : s.Canonical) :
    (o.getD s).Canonical := by
  cases o with
  | none => exact h
  | some t => exact ho t rfl

theorem Res.Canonical.bind {α β : Type} {r : Res α} {f : α → State → Res β} (hr : r.Canonical)
    (hf : ∀ a t, t.Canonical → (f a t).Canonical) : (r.bind f).Canonical := by
  cases r with
  | ok a t => exact hf a t hr
  | stall t => exact hr
  | exc e t => exact hr

theorem Res.canonical_ite {α : Type} {p : Prop} [Decidable p] {a b : Res α} (ha : a.Canonical) (hb : b.Canonical) :
    (if p then a else b).Canonical := by split <;> assumption

theorem canonical_foldr {β : Type} {s : State} (l : List β) (f : β → State → State)
    (hf : ∀ b s, s.Canonical → (f b s).Canonical) (h : s.Canonical) : (l.foldr f s).Canonical := by
  induction l with
  | nil => exact h
  | cons b l ih => exact hf b _ ih

theorem Issued.Canonical.of_go {r : Issued} {l : List Reg} {t : State} (hr : r.Canonical) (e : r = .go l t) : t.Canonical := by
  subst e; exact hr

theorem Issued.Canonical.of_stop {r : Issued} {t : State} (hr : r.Canonical) (e : r = .stop t) : t.Canonical := by
  subst e; exact hr

theorem Res.Canonical.of_ok {α : Type} {r : Res α} {a : α} {t : State} (hr : r.Canonical) (e : r = .ok a t) : t.Canonical := by
  subst e; exact hr

theorem Res.Canonical.of_stall {α : Type} {r : Res α} {t : State} (hr : r.Canonical) (e : r = .stall t) : t.Canonical := by
  subst e; exact hr

theorem Res.Canonical.of_exc {α : Type} {r : Res α} {x : Exc} {t : State} (hr : r.Canonical) (e : r = .exc x t) :
    t.Canonical := by
  subst e; exact hr

theorem canonicalOutcome_ite {p : Prop} [Decidable p] {a b : Outcome State Fault Refusal} (ha : CanonicalOutcome a)
    (hb : CanonicalOutcome b) : CanonicalOutcome (if p then a else b) := by split <;> assumption

theorem canonicalOption_ite {p : Prop} [Decidable p] {a b : Option State} (ha : CanonicalOption a)
    (hb : CanonicalOption b) : CanonicalOption (if p then a else b) := by split <;> assumption

theorem Issued.canonical_ite {p : Prop} [Decidable p] {a b : Issued} (ha : a.Canonical) (hb : b.Canonical) :
    (if p then a else b).Canonical := by split <;> assumption

theorem Arrive.canonical_ite {p : Prop} [Decidable p] {a b : Arrive} (ha : a.Canonical) (hb : b.Canonical) :
    (if p then a else b).Canonical := by split <;> assumption

theorem canonicalSecond_ite {α : Type} {p : Prop} [Decidable p] {a b : Option (α × State)} (ha : CanonicalSecond a)
    (hb : CanonicalSecond b) : CanonicalSecond (if p then a else b) := by split <;> assumption

theorem canonical_ite_snd {α : Type} {p : Prop} [Decidable p] {a b : α × State} (ha : a.2.Canonical) (hb : b.2.Canonical) :
    (if p then a else b).2.Canonical := by split <;> assumption

theorem canonical_pair {α : Type} {a : α} {t : State} (ht : t.Canonical) : (a, t).2.Canonical := ht

theorem canonical_triple {α β : Type} {a : α} {b : β} {t : State} (ht : t.Canonical) : (a, b, t).2.2.Canonical := ht

theorem canonical_of_pair {α : Type} {p : α × State} {a : α} {t : State} (hp : p.2.Canonical) (e : p = (a, t)) :
    t.Canonical := by
  subst e; exact hp

theorem CanonicalOption.map {o : Option State} {f : State → State} (ho : CanonicalOption o)
    (hf : ∀ s, s.Canonical → (f s).Canonical) : CanonicalOption (o.map f) := by
  cases o with
  | none => exact canonicalOption_none
  | some t => exact canonicalOption_some.2 (hf t (ho t rfl))

theorem Arrive.Canonical.of_done {r : Arrive} {t : State} (hr : r.Canonical) (e : r = .done t) : t.Canonical := by
  subst e; exact hr

theorem Arrive.Canonical.of_refuse {r : Arrive} {c : RClass} {t : State} (hr : r.Canonical) (e : r = .refuse c t) :
    t.Canonical := by
  subst e; exact hr

theorem Arrive.Canonical.of_fail {r : Arrive} {n : Nat} {t : State} (hr : r.Canonical) (e : r = .fail n t) : t.Canonical := by
  subst e; exact hr

/-- A write to fields other than memory, the cached copies and their marks. -/
theorem canonical_update {cores lines missWait walkCache ptroot ptwinBase ptwinSet drbase hrtbase links hostReplies net nacks
  held grants flights lineHolds groups tasks taskOrder nextUid spawned records absent invals stops saved absence absentHeld
  probes probeReq accused debugReports debugOver scanHead wenlek clock dieReset nearGiB farGiB tick turn late curCore curSlot
  curWord} (h : s.Canonical) :
    State.Canonical ⟨cores, s.mem, s.tags, s.poison, lines, s.cdata, s.ctags, s.cpoison, missWait, walkCache, ptroot,
      ptwinBase, ptwinSet, drbase, hrtbase, links, hostReplies, net, nacks, held, grants, flights, lineHolds, groups, tasks,
      taskOrder, nextUid, spawned, records, absent, invals, stops, saved, absence, absentHeld, probes, probeReq, accused,
      debugReports, debugOver, scanHead, wenlek, clock, dieReset, nearGiB, farGiB, tick, turn, late, curCore, curSlot,
      curWord⟩ :=
  h.of_eq rfl rfl rfl rfl rfl rfl

/-- A poison mark of a cached copy is set or cleared. -/
theorem canonical_setCpoison (h : s.Canonical) (k : Nat) (v : Bool) :
    State.Canonical { s with cpoison := SMap.set false s.cpoison k v } :=
  ⟨h.mem, h.cdata, h.tags, h.ctags, h.poison, SMap.canon_set false h.cpoison k v⟩

/-- A poison mark of physical memory is set or cleared. -/
theorem canonical_setPoisonBit (h : s.Canonical) (k : Nat) (v : Bool) :
    State.Canonical { s with poison := SMap.set false s.poison k v } :=
  ⟨h.mem, h.cdata, h.tags, h.ctags, SMap.canon_set false h.poison k v, h.cpoison⟩

end Sys2Proof.Machine
end

section
/-! SUPPORT. The named operations of the state keep memory and its marks in canonical form. -/

namespace Sys2Proof.Machine

open Host (Outcome)

variable {s : State}

theorem canonical_setSlot (h : s.Canonical) (c k : Nat) (y : Slot) : (State.setSlot s c k y).Canonical :=
  canonical_setCore h _ _

theorem canonical_setMe (h : s.Canonical) (y : Slot) : (State.setMe s y).Canonical :=
  canonical_setSlot h _ _ _

theorem canonical_modEng (h : s.Canonical) (c : Nat) (f : Engine → Engine) : (State.modEng s c f).Canonical :=
  canonical_modCore h _ _

theorem canonical_modMx (h : s.Canonical) (c : Nat) (f : Mx → Mx) : (State.modMx s c f).Canonical :=
  canonical_modCore h _ _

theorem canonical_waitFor (h : s.Canonical) (mode reason : Nat) (group : Bool) (l : List Nat) :
    (waitFor mode reason group l s).Canonical :=
  canonical_modMe h _

theorem canonical_complete (h : s.Canonical) (n : Nat) : (complete n s).Canonical :=
  canonical_modMe h _

theorem canonical_completeAt (h : s.Canonical) (p : Reg) : (completeAt p s).Canonical :=
  canonical_modMe h _

theorem canonical_leaveBlocked (h : s.Canonical) (c k : Nat) : (leaveBlocked c k s).Canonical :=
  canonical_ite h (canonical_modCore h _ _)

theorem canonical_giveBack (h : s.Canonical) (c k : Nat) : (giveBack c k s).Canonical := by
  unfold giveBack
  split
  · exact h
  · exact canonical_modSlot (canonical_foldr _ _ (fun _ _ h => canonical_modCore h _ _) h) _ _ _

theorem canonical_drainMe (h : s.Canonical) : (drainMe s).Canonical :=
  canonical_drainAgent h _ _

theorem canonical_writeFrame {wr : Nat → List Byte → Bool → State → State} (h : s.Canonical)
    (hwr : ∀ y0 y1 y2 y3, y3.Canonical → (wr y0 y1 y2 y3).Canonical) (l : List Byte) (y : Slot) :
    (writeFrame wr l y s).Canonical := by
  unfold writeFrame
  extract_lets +onlyGivenNames s' cap s2
  have hs' : s'.Canonical := hwr _ _ _ _ h
  have hs2 : s2.Canonical := canonical_ite (hwr _ _ _ _ hs') hs'
  exact canonical_foldl _ _ (fun _ _ h => canonical_ite (hwr _ _ _ _ h) h) hs2

theorem canonical_reopen (h : s.Canonical) (lead : Nat) : (reopen lead s).Canonical :=
  canonical_update (canonical_ite (canonical_modCore h _ _) h)

theorem canonical_leaveCompose (h : s.Canonical) (c k : Nat) : (leaveCompose c k s).Canonical :=
  canonical_ite (canonical_reopen h _) h

theorem canonical_bumpOnce {t : State} (ht : t.Canonical) (c : Nat) : (bumpOnce c s t).Canonical := by
  unfold bumpOnce
  extract_lets +onlyGivenNames old
  exact canonical_modCore ht _ _

theorem canonical_placeFrame (h : s.Canonical) (c k : Nat) : (placeFrame c k s).Canonical := by
  unfold placeFrame
  extract_lets +onlyGivenNames y ks
  split
  · exact h
  split
  · exact canonical_modCore h _ _
  split
  · extract_lets +onlyGivenNames word l s'
    have hs' : s'.Canonical := canonical_writeFrame h (fun _ _ _ _ h => canonical_physWrite h _ _ _) _ _
    exact canonical_modCore hs' _ _
  · exact canonical_modCore h _ _

theorem canonical_placeNext (h : s.Canonical) (ks : Nat) : (placeNext ks s).Canonical := by
  unfold placeNext
  extract_lets +onlyGivenNames x
  split
  · exact canonical_placeFrame h _ _
  split
  · exact canonical_placeFrame h _ _
  · exact h

theorem canonical_setTpc (h : s.Canonical) (a : Nat) : (setTpc a s).Canonical :=
  canonical_modMe h _

theorem canonical_orphan (h : s.Canonical) (c k : Nat) : (orphan c k s).Canonical :=
  canonical_ite (canonical_update h) (canonical_update (canonical_update h))

theorem canonical_removeWaiter (h : s.Canonical) (party : Nat) (all : Bool) : (removeWaiter party all s).Canonical :=
  canonical_update h

theorem canonical_leaveLock (h : s.Canonical) (c k : Nat) : (leaveLock c k s).Canonical :=
  canonical_ite (canonical_removeWaiter h _ _) h

theorem canonical_abandon (h : s.Canonical) (c k : Nat) : (abandon c k s).Canonical :=
  canonical_orphan (canonical_leaveBlocked (canonical_giveBack (canonical_leaveLock
    (canonical_leaveCompose h _ _) _ _) _ _) _ _) _ _

theorem canonical_serviceTrap (h : s.Canonical) (c k cause tval resume : Nat) (double unhandled : Bool) (seq : Nat) :
    (serviceTrap c k cause tval resume double unhandled seq s).Canonical := by
  unfold serviceTrap
  extract_lets +onlyGivenNames s' s2
  have hs' : s'.Canonical := canonical_abandon (canonical_drainAgent h _ _) _ _
  have hs2 : s2.Canonical := canonical_modSlot hs' _ _ _
  exact canonical_placeFrame hs2 _ _

theorem canonical_trapAt (h : s.Canonical) (c k cause tval resume : Nat) : (trapAt c k cause tval resume s).Canonical :=
  canonical_ite (canonical_serviceTrap h _ _ _ _ _ _ _ _) (canonical_modSlot (canonical_abandon h _ _) _ _ _)

theorem canonical_trapMe (h : s.Canonical) (cause tval : Nat) : (trapMe cause tval s).Canonical :=
  canonical_trapAt h _ _ _ _ _

theorem canonical_serviceMe (h : s.Canonical) (cause tval seq : Nat) : (serviceMe cause tval seq s).Canonical :=
  canonical_serviceTrap (canonical_setTpc h _) _ _ _ _ _ _ _ _

theorem canonical_illegal (h : s.Canonical) : (illegal s).Canonical :=
  canonical_trapMe h _ _

theorem canonical_eretUser (h : s.Canonical) : (eretUser s).Canonical :=
  canonical_modMe h _

theorem canonical_restoreHeld (h : s.Canonical) (ks p : Nat) (o : Place) : (restoreHeld ks p o s).Canonical := by
  unfold restoreHeld
  extract_lets +onlyGivenNames base
  exact canonical_modSlot h _ _ _

end Sys2Proof.Machine
end

section
/-! SUPPORT. Translation and protection keep memory and its marks in canonical form. -/

namespace Sys2Proof.Machine

open Host (Outcome)

variable {s : State}

theorem canonical_tableBytes (h : s.Canonical) (pa : Nat) (l : List Byte) : (tableBytes pa l s).Canonical :=
  canonical_writeAt (canonical_tableFill h _) _ _ _ _

theorem canonical_tableWords (h : s.Canonical) (pa : Nat) (ws : List Nat) : (tableWords pa ws s).Canonical :=
  canonical_foldl _ _ (fun _ _ h => canonical_tableBytes h _ _) h

theorem canonical_walkFill (h : s.Canonical) (die va : Nat) : (walkFill die va s).Canonical := by
  unfold walkFill
  extract_lets +onlyGivenNames read next a0 t
  have ht : t.Canonical := canonical_ite h (canonical_tableFill h _)
  split
  · exact ht
  extract_lets +onlyGivenNames a1 t'
  have ht' : t'.Canonical := canonical_ite ht (canonical_tableFill ht _)
  split
  · exact ht'
  · exact canonical_ite ht' (canonical_tableFill ht' _)

theorem canonical_cacheWalk (h : s.Canonical) (die va : Nat) (l : List (Nat × Nat × Nat)) :
    (cacheWalk die va l s).Canonical :=
  canonical_update (canonical_walkFill h _ _)

theorem canonical_rightsFill (h : s.Canonical) (dom va : Nat) : (rightsFill dom va s).Canonical := by
  unfold rightsFill
  extract_lets +onlyGivenNames a e t
  have ht : t.Canonical := canonical_tableFill h _
  exact canonical_ite ht (canonical_ite (canonical_tableFill ht _) (canonical_tableFill (canonical_tableFill ht _) _))

theorem canonical_rightsOf (h : s.Canonical) (w : Who) (va : Nat) : (rightsOf w va s).Canonical := by
  unfold rightsOf
  extract_lets +onlyGivenNames region
  split
  · exact (Res.canonical_ok _ _).2 (canonical_modCore h _ _)
  split
  · exact (Res.canonical_exc _ _).2 (canonical_rightsFill h _ _)
  · exact (Res.canonical_ok _ _).2 (canonical_modCore (canonical_rightsFill h _ _) _ _)

theorem canonical_needRights (h : s.Canonical) (w : Who) (va need : Nat) : (needRights w va need s).Canonical :=
  Res.Canonical.bind (canonical_rightsOf h _ _) (fun _ _ h => Res.canonical_ite h h)

theorem canonical_needRegions (h : s.Canonical) (w : Who) (va n need : Nat) : (needRegions w va n need s).Canonical := by
  unfold needRegions
  split
  · exact canonical_needRights h _ _ _
  split
  · exact canonical_needRights ((canonical_needRights h _ _ _).of_ok ‹_›) _ _ _
  · split
    · exact (canonical_needRights ((canonical_needRights h _ _ _).of_exc ‹_›) _ _ _).of_exc ‹_›
    · exact (canonical_needRights h _ _ _).of_exc ‹_›
  · exact canonical_needRights h _ _ _

theorem canonical_placementOf (h : s.Canonical) (w : Who) (va : Nat) : (placementOf w va s).Canonical := by
  unfold placementOf
  extract_lets +onlyGivenNames page
  split
  · exact (Res.canonical_ok _ _).2 h
  split
  split
  · exact (Res.canonical_exc _ _).2 (canonical_cacheWalk h _ _ _)
  · exact (Res.canonical_exc _ _).2 (canonical_cacheWalk h _ _ _)
  split
  · exact (Res.canonical_exc _ _).2 (canonical_cacheWalk h _ _ _)
  · exact (Res.canonical_ok _ _).2 (canonical_modCore (canonical_cacheWalk h _ _ _) _ _)

theorem canonical_homeOf (h : s.Canonical) (w : Who) (va : Nat) : (homeOf w va s).Canonical :=
  Res.Canonical.bind (canonical_placementOf h _ _) (fun _ _ h => h)

end Sys2Proof.Machine
end

section
/-! SUPPORT. Accesses of every agent keep memory and its marks in canonical form. -/

namespace Sys2Proof.Machine

open Host (Outcome)

variable {s : State}

theorem canonical_forgetEntry (h : s.Canonical) (die key : Nat) : (forgetEntry die key s).Canonical :=
  canonical_update h

theorem canonical_missAt (h : s.Canonical) (home va pa hint : Nat) : (missAt home va pa hint s).Canonical :=
  Res.canonical_ite (canonical_update h) (canonical_fillFrom h _ _ _ _)

theorem canonical_locate (h : s.Canonical) (w : Who) (va hint : Nat) (write : Bool) :
    (locate w va hint write s).Canonical := by
  unfold locate
  refine Res.canonical_ite h (Res.canonical_ite ?_ (Res.canonical_ite h ((canonical_homeOf h w va).bind fun home t ht => ?_)))
  · split <;> exact h
  · extract_lets u
    have hu : u.Canonical := canonical_settleBy ht va
    clear_value u
    split
    · exact hu
    refine Res.canonical_ite (canonical_touchLine hu _ _) (Res.canonical_ite
      (Res.canonical_ite hu (canonical_missAt hu _ _ _ _)) ?_)
    split
    extract_lets v
    have hv : v.Canonical := canonical_cacheWalk hu _ _ _
    clear_value v
    split
    · exact hv
    · exact hv
    · have hm (e level addr) : (if pteDiscard e then materialise e level addr va v else v).Canonical :=
        canonical_ite (canonical_materialise hv _ _ _ _) hv
      exact Res.canonical_ite hv <| Res.canonical_ite hv <| Res.canonical_ite hv <| Res.canonical_ite hv <|
        Res.canonical_ite (canonical_forgetEntry hv _ _) <| Res.canonical_ite hv <| Res.canonical_ite hv <|
        Res.canonical_ite (hm _ _ _) (canonical_missAt (hm _ _ _) _ _ _ _)

theorem canonical_locateSpan (h : s.Canonical) (w : Who) (va n hint : Nat) (write : Bool) :
    (locateSpan w va n hint write s).Canonical :=
  Res.canonical_ite (canonical_locate h _ _ _ _) (Res.Canonical.bind (canonical_locate h _ _ _ _)
    (fun _ _ h => Res.Canonical.bind (canonical_locate h _ _ _ _) (fun _ _ h => h)))

theorem canonical_locateParts (h : s.Canonical) (w : Who) (hint : Nat) (write : Bool) (l : List (Nat × Nat)) :
    (locateParts w hint write l s).Canonical := by
  induction l generalizing s with
  | nil => exact h
  | cons p l ih =>
    exact (canonical_locateSpan h w p.1 p.2 hint write).bind fun _ _ h => (ih h).bind fun _ _ h => h

theorem canonical_setReplies (h : s.Canonical) (w : Who) (l : List Reply) : (setReplies w l s).Canonical :=
  canonical_ite (canonical_modEng h _ _) (canonical_ite (canonical_modMx h _ _) (canonical_ite (canonical_update h)
    (canonical_modSlot h _ _ _)))

theorem canonical_addReply (h : s.Canonical) (w : Who) (r : Reply) : (addReply w r s).Canonical :=
  canonical_setReplies h _ _

theorem canonical_sendRequest (h : s.Canonical) (n : Nat) (r : Request) : CanonicalOption (sendRequest n r s) := by
  unfold sendRequest
  extract_lets +onlyGivenNames x
  split
  · extract_lets +onlyGivenNames q
    exact canonicalOption_ite (canonicalOption_some.2 (canonical_modLink h _ _)) canonicalOption_none
  · exact canonicalOption_none

theorem canonical_askRemote (h : s.Canonical) (w : Who) (src : Src) (va n : Nat) (acq : Bool) :
    (askRemote w src va n acq s).Canonical := by
  unfold askRemote
  split
  · exact h
  split
  · exact CanonicalOption.getD (canonical_sendRequest h _ _) h
  · split
    · exact CanonicalOption.getD (canonical_sendRequest h _ _) h
    · exact canonical_addReply h _ _
  · exact h

theorem canonical_addFlight (h : s.Canonical) (f : Flight) : (addFlight f s).Canonical :=
  canonical_update h

theorem canonical_loadPart (h : s.Canonical) (w : Who) (hint : Nat) (acq : Bool) (p : Nat × Nat × Src) :
    (loadPart w hint acq p s).2.Canonical := by
  unfold loadPart
  split
  split
  · exact h
  split
  · extract_lets +onlyGivenNames s'
    have hs' : s'.Canonical := canonical_askRemote h _ _ _ _ _
    exact hs'
  · extract_lets +onlyGivenNames s'
    have hs' : s'.Canonical := canonical_askRemote h _ _ _ _ _
    exact hs'
  · exact canonical_ite_snd h (canonical_ite_snd (canonical_addFlight h _) h)

theorem canonical_loadParts (h : s.Canonical) (w : Who) (hint : Nat) (acq strict pend : Bool) (l : List (Nat × Nat)) :
    (loadParts w hint acq strict pend l s).Canonical := by
  induction l generalizing s pend with
  | nil =>
    unfold loadParts
    split <;> exact h
  | cons p l ih =>
    have hloc := canonical_locateSpan h w p.1 p.2 hint false
    have hpart (src) {s : State} (h : s.Canonical) := canonical_loadPart h w hint acq (p.1, p.2, src)
    have hgo (r : Option Reply × State) (hr : r.2.Canonical) : Res.Canonical (match r with
        | (none, s) => loadParts w hint acq strict true l s
        | (some r, s) =>
          if strict && r.poison then if pend || awaits w s then .stall s else .exc (.poison r.bad) s
          else (loadParts w hint acq strict pend l s).bind fun rs s => .ok (r :: rs) s) := by
      split
      · exact ih hr _
      · exact Res.canonical_ite (Res.canonical_ite hr hr) ((ih hr _).bind fun _ _ h => (Res.canonical_ok _ _).2 h)
    unfold loadParts
    dsimp only
    split
    · exact hgo (some _, s) h
    split <;> rename_i heq <;> rw [heq] at hloc
    · exact hgo _ (canonical_loadPart hloc _ _ _ _)
    · exact hloc
    · exact Res.canonical_ite hloc hloc

theorem canonical_loadAt (h : s.Canonical) (w : Who) (va n hint scope : Nat) : (loadAt w va n hint scope s).Canonical := by
  unfold loadAt
  extract_lets +onlyGivenNames s'
  have hs' : s'.Canonical := canonical_drainLine (canonical_drainLine h _ _ _) _ _ _
  exact Res.canonical_ite hs' (Res.Canonical.bind (canonical_loadParts hs' _ _ _ _ _ _) (fun _ _ h => h))

theorem canonical_storePart (h : s.Canonical) (w : Who) (hint : Nat) (rel tagged whole : Bool) (data : List Byte)
    (p : Nat × Nat × Src) : CanonicalOption (storePart w hint rel tagged whole data p s) := by
  unfold storePart
  split
  split
  · exact canonical_sendRequest h _ _
  · split
    · exact canonical_sendRequest h _ _
    · exact canonicalOption_some.2 (canonical_update h)
  · exact canonicalOption_ite (canonicalOption_some.2 (canonical_addFlight h _)) (canonicalOption_some.2 (canonical_ite
      (canonical_setPoison (canonical_writeOver h _ _ _ _ _) _ _ _ _) (canonical_writeOver h _ _ _ _ _)))

theorem canonical_storeParts (h : s.Canonical) (w : Who) (hint : Nat) (rel tagged : Bool) (whole : Nat → Bool)
    (l : List (Nat × Nat × Src)) (data : List Byte) : CanonicalOption (storeParts w hint rel tagged whole l data s) := by
  induction l generalizing s data with
  | nil => exact canonicalOption_some.2 h
  | cons p l ih =>
    have hp := canonical_storePart h w hint rel tagged (whole p.1) (data.take p.2.1) (p.1, p.2.1, p.2.2)
    unfold storeParts
    split
    · exact ih (hp _ ‹_›) _
    · exact canonicalOption_none

theorem canonical_carryPoison (h : s.Canonical) (w : Who) (src : Src) (va n : Nat) :
    (carryPoison w src va n s).Canonical := by
  unfold carryPoison
  split
  · exact canonical_modLink h _ _
  · split
    · exact canonical_modLink h _ _
    · exact h
  · exact canonical_poisonMark h _ _ _

theorem canonical_storeAt (h : s.Canonical) (w : Who) (va hint scope : Nat) (data : List Byte) (tagged : Bool) :
    (storeAt w va hint scope data tagged s).Canonical := by
  unfold storeAt
  extract_lets u
  have hu : u.Canonical := canonical_ite (canonical_drainLine (canonical_drainLine h _ _ _) _ _ _)
    (canonical_drainScope (canonical_drainLine (canonical_drainLine h _ _ _) _ _ _) _ _ _)
  refine Res.canonical_ite hu (Res.Canonical.bind (canonical_locateParts hu _ _ _ _) fun _ _ ht => ?_)
  split
  · exact canonical_storeParts ht _ _ _ _ _ _ _ _ ‹_›
  · exact ht

theorem canonical_postOwner (h : s.Canonical) (home : Nat) (f : Flight) : (postOwner home f s).Canonical :=
  canonical_ite (canonical_addFlight h _) (canonical_ite (canonical_modCore (canonical_addFlight h _) _ _)
    (canonical_addFlight h _))

theorem canonical_grantOwner (h : s.Canonical) (home : Nat) : (grantOwner home s).Canonical := by
  unfold grantOwner
  split
  · exact h
  extract_lets +onlyGivenNames r
  have hr : r.Canonical := canonical_modCore h _ _
  exact canonical_update hr

theorem canonical_atomicAt (h : s.Canonical) (w : Who) (va n amo b e scope acq : Nat) :
    (atomicAt w va n amo b e scope acq s).Canonical := by
  unfold atomicAt
  split
  · exact h
  split
  · exact h
  extract_lets s1 s2
  have h1 : s1.Canonical := canonical_drainLine h _ _ _
  have h2 : s2.Canonical := canonical_ite h1 (canonical_drainScope h1 _ _ _)
  split
  · exact h2
  refine (canonical_locate h2 _ _ _ _).bind fun src t ht => ?_
  refine Res.Canonical.bind ?_ fun src t ht => ?_
  · split
    · exact canonical_locate ht _ _ _ _
    · exact ht
  · grind [Res.canonical_ok, Res.canonical_stall, canonical_sendRequest, CanonicalOption.getD, canonical_postOwner,
      canonical_amoAt]

end Sys2Proof.Machine
end

section
/-! SUPPORT. Fault records, parking, the containment of activations and the end of a context keep memory and its marks in
  canonical form. -/

namespace Sys2Proof.Machine

open Host (Outcome)

variable {s : State}

theorem canonical_absenceWrite (h : s.Canonical) (m : Msg) : (absenceWrite m s).Canonical := by
  unfold absenceWrite
  split
  extract_lets +onlyGivenNames prod e ws s' s2
  have hs' : s'.Canonical := canonical_tableWords h _ _
  have hs2 : s2.Canonical := canonical_tableWrite hs' _ _ _
  exact canonical_update hs2

theorem canonical_netSend (h : s.Canonical) (m : Msg) : (netSend m s).Canonical := by
  unfold netSend
  split
  · exact canonical_update h
  split
  · split
    · exact canonical_ite (canonical_absenceWrite h _) (canonical_update h)
  · exact canonical_update h

theorem canonical_postNow (h : s.Canonical) (r : Rec) : CanonicalSecond (postNow r s) := by
  unfold postNow
  split
  · exact canonicalSecond_some.2 (h.of_eq rfl rfl rfl rfl rfl rfl)
  split
  · exact canonicalSecond_none
  extract_lets b w0 prod size k q first parts s1 s2 s3 word0 wen s4 pay w3 s5 s6
  have h1 : s1.Canonical := canonical_foldl _ _ (fun _ _ h => canonical_tableWords h _ _) h
  have h3 : s3.Canonical := canonical_tableWrite (canonical_tableWrite h1 _ _ _) _ _ _
  have h4 : s4.Canonical := canonical_ite (h3.of_eq rfl rfl rfl rfl rfl rfl) h3
  have h5 : s5.Canonical := canonical_ite (canonical_netSend h4 _) h4
  refine canonicalSecond_some.2 ?_
  show s6.Canonical
  clear_value s5
  grind [canonical_netSend, canonical_setCore]

theorem canonical_queueSeq (h : s.Canonical) (r : Rec) : (queueSeq r s).2.Canonical := by
  unfold queueSeq
  split
  · exact canonicalSecond_ite canonicalSecond_none (canonical_postNow h _) _ ‹_›
  · exact canonical_update h

theorem canonical_queueRecord (h : s.Canonical) (r : Rec) : (queueRecord r s).Canonical :=
  canonical_queueSeq h _

theorem canonical_failMsg (h : s.Canonical) (reason : Nat) (m : Msg) : (failMsg reason m s).Canonical :=
  canonical_ite h (canonical_queueRecord h _)

theorem canonical_bumpCore (h : s.Canonical) (c : Nat) : (bumpCore c s).Canonical := by
  unfold bumpCore
  extract_lets +onlyGivenNames s'
  have hs' : s'.Canonical := canonical_modCore h _ _
  split
  · exact canonical_ite hs' (canonical_modCore hs' _ _)
  · exact hs'

theorem canonical_refreshTombs (h : s.Canonical) : (refreshTombs s).Canonical :=
  canonical_update h

theorem canonical_taskRecord (h : s.Canonical) (id cause : Nat) (stopped : Bool) :
    (taskRecord id cause stopped s).Canonical := by
  unfold taskRecord
  split
  · exact h
  extract_lets +onlyGivenNames gate ids unrel rel held n words
  exact canonical_queueRecord h _

theorem canonical_endTask (h : s.Canonical) (id cause : Nat) (stopped : Bool) : (endTask id cause stopped s).Canonical := by
  unfold endTask
  split
  · exact h
  extract_lets +onlyGivenNames t' s'
  have hs' : s'.Canonical := canonical_update h
  exact canonical_taskRecord hs' _ _ _

theorem canonical_addLive (h : s.Canonical) (t : Nat) (d : Int) : (addLive t d s).Canonical :=
  canonical_tableWrite h _ _ _

theorem canonical_threadEnds (h : s.Canonical) (y : Slot) : (threadEnds y s).Canonical :=
  canonical_ite (canonical_addLive (canonical_update h) _ _) (canonical_update h)

theorem canonical_endComposed (h : s.Canonical) (c : Nat) (t : Tomb) : (endComposed c t s).Canonical :=
  canonical_reopen (canonical_modCore h _ _) _

theorem canonical_killSlot (h : s.Canonical) (c k cause : Nat) : (killSlot c k cause s).Canonical := by
  unfold killSlot
  extract_lets +onlyGivenNames y
  split
  · exact h
  extract_lets +onlyGivenNames s' s2 s3 s4 s5 s6
  have hs' : s'.Canonical := canonical_leaveBlocked (canonical_removeWaiter h _ _) _ _
  have hs2 : s2.Canonical := canonical_threadEnds hs' _
  have hs3 : s3.Canonical := canonical_modSlot (canonical_ite (canonical_endComposed hs2 _ _) (canonical_bumpCore
    (canonical_leaveCompose hs2 _ _) _)) _ _ _
  have hs4 : s4.Canonical := canonical_modCore hs3 _ _
  have hs5 : s5.Canonical := canonical_orphan hs4 _ _
  have hs6 : s6.Canonical := canonical_update hs5
  split
  · exact canonical_endTask hs6 _ _ _
  · exact hs6

theorem canonical_endContext (h : s.Canonical) (c k : Nat) : (endContext c k s).Canonical := by
  unfold endContext
  extract_lets +onlyGivenNames y tomb t s' s2
  have hs' : s'.Canonical := canonical_threadEnds (canonical_leaveBlocked h _ _) _
  have hs2 : s2.Canonical := canonical_ite (canonical_endComposed hs' _ _) (canonical_bumpCore hs' _)
  exact canonical_modSlot hs2 _ _ _

theorem canonical_readyCommit (h : s.Canonical) (w : Who) (l : List Buffered) : (readyCommit w l s).Canonical := by
  induction l generalizing s with
  | nil => exact h
  | cons b l ih => exact (canonical_locate h _ _ _ _).bind fun _ _ h => (ih h).bind fun _ _ h => h

theorem canonical_performCommit (h : s.Canonical) (w : Who) (l : List (Src × Buffered)) :
    (performCommit w l s).Canonical := by
  induction l generalizing s with
  | nil =>
    unfold performCommit
    exact (Res.canonical_ok _ _).2 (canonical_modSlot h _ _ _)
  | cons p l ih =>
    have hp := canonical_storePart h w p.2.hint false p.2.tagged p.2.whole p.2.bytes (p.2.va, p.2.bytes.length, p.1)
    unfold performCommit
    split
    · exact ih (hp _ ‹_›)
    · exact (Res.canonical_stall _).2 (canonical_modSlot h _ _ _)

theorem canonical_drainCommit (h : s.Canonical) (c k : Nat) : (drainCommit c k s).Canonical := by
  unfold drainCommit
  extract_lets +onlyGivenNames l
  exact Res.canonical_ite h (Res.Canonical.bind (canonical_readyCommit h _ _) (fun _ _ h => canonical_performCommit h _ _))

theorem canonical_releaseHeld (h : s.Canonical) (c k : Nat) : (releaseHeld c k s).Canonical := by
  unfold releaseHeld
  extract_lets +onlyGivenNames l s'
  have hs' : s'.Canonical := canonical_drainAgent h _ _
  exact Res.canonical_ite hs' (canonical_foldl _ _ (fun _ _ h => canonical_netSend h _) (canonical_modSlot hs' _ _ _))

theorem canonical_expose (h : s.Canonical) (c k : Nat) : (expose c k s).Canonical := by
  unfold expose
  extract_lets +onlyGivenNames y
  exact Res.canonical_ite (Res.Canonical.bind (canonical_drainCommit h _ _) (fun _ _ h => Res.Canonical.bind
    (canonical_releaseHeld h _ _) (fun _ _ h => (Res.canonical_ok _ _).2 (canonical_modSlot h _ _ _))))
    ((Res.canonical_ok _ _).2 h)

theorem canonical_exposeMe (h : s.Canonical) : (exposeMe s).Canonical :=
  canonical_expose h _ _

theorem canonical_containRecord (h : s.Canonical) (tenant party outcome count : Nat) (m : Option Msg) (va : Nat) :
    (containRecord tenant party outcome count m va s).Canonical :=
  canonical_queueRecord h _

theorem canonical_consumeError (h : s.Canonical) (ea va : Nat) : (consumeError ea va s).Canonical := by
  unfold consumeError
  extract_lets +onlyGivenNames y c k party
  refine canonical_ite (canonical_trapMe h _ _) (canonical_ite (canonical_killSlot
    (canonical_containRecord h _ _ _ _ _ _) _ _ _) (canonical_ite (canonical_containRecord ?_ _ _ _ _ _ _)
    (canonical_killSlot (canonical_containRecord h _ _ _ _ _ _) _ _ _)))
  split
  · exact canonical_modCore (canonical_bumpCore (canonical_setSlot (canonical_abandon h _ _) _ _ _) _) _ _
  · exact canonical_bumpCore (canonical_setSlot (canonical_abandon h _ _) _ _ _) _

theorem canonical_slotError (h : s.Canonical) (c k : Nat) : (slotError c k s).Canonical := by
  unfold slotError
  extract_lets +onlyGivenNames y
  exact canonical_ite (canonical_killSlot (canonical_containRecord h _ _ _ _ _ _) _ _ _) (canonical_ite (canonical_update
    (canonical_consumeError (canonical_update h) _ _)) h)

theorem canonical_writeLines (h : s.Canonical) (w : Who) (lines : List Nat) (l : List (Nat × List Byte)) :
    CanonicalOption (writeLines w lines l s) := by
  induction l generalizing s with
  | nil => exact canonicalOption_some.2 h
  | cons p l ih =>
    have hloc := canonical_locate h w (onLines lines p.1) 0 true
    unfold writeLines
    split
    · exact ih (canonical_writeAt (hloc.of_ok ‹_›) _ _ _ _)
    · exact canonicalOption_none

theorem canonical_tryPark (h : s.Canonical) (c k : Nat) : (tryPark c k s).Canonical := by
  unfold tryPark
  extract_lets y
  split
  · exact h
  split
  · exact h
  extract_lets r
  split
  · exact h
  rename_i s1 hpost
  have h1 : s1.Canonical := by
    split at hpost
    · simp at hpost
    · exact canonical_postNow h r _ hpost
  extract_lets word
  split
  · exact h
  rename_i s2 hwrite
  have h2 : s2.Canonical := canonical_writeLines h1 _ _ _ _ hwrite
  extract_lets cap s3 s4
  have hcap (off : Nat) (x : Reg) (s : State) (h : s.Canonical) : (cap off x s).Canonical :=
    canonical_ite (canonical_writeAt h _ _ _ _) h
  have h3 : s3.Canonical := canonical_foldl _ _ (fun _ _ h => hcap _ _ _ h) (hcap _ _ _ h2)
  exact canonical_bumpCore (canonical_modSlot (canonical_modCore h3 _ _) _ _ _) c

theorem canonical_parkMe (h : s.Canonical) (flags va : Nat) (a : Acc) : (parkMe flags va a s).Canonical := by
  unfold parkMe
  extract_lets +onlyGivenNames s' s2
  have hs' : s'.Canonical := canonical_waitFor (canonical_abandon (canonical_drainMe h) _ _) _ _ _ _
  have hs2 : s2.Canonical := canonical_modMe hs' _
  exact canonical_tryPark hs2 _ _

theorem canonical_walked (h : s.Canonical) (w : Who) (va : Nat) : (walked w va s).Canonical := by
  unfold walked
  extract_lets t
  have ht : t.Canonical := by
    have hr := canonical_rightsOf h w va
    unfold t
    split
    · exact hr.of_ok ‹_›
    · exact hr.of_stall ‹_›
    · exact hr.of_exc ‹_›
  have hp := canonical_placementOf ht w va
  split
  · exact ht
  split
  · exact canonical_cacheWalk (hp.of_ok ‹_›) _ _ _
  · exact hp.of_stall ‹_›
  · exact hp.of_exc ‹_›

theorem canonical_raise (h : s.Canonical) (a : Acc) (e : Exc) : (raise a e s).Canonical := by
  unfold raise
  split
  · exact canonical_trapMe h _ _
  · extract_lets +onlyGivenNames s'
    have hs' : s'.Canonical := canonical_walked h _ _
    split
    · exact canonical_serviceMe (canonical_of_pair (canonical_ite_snd (canonical_queueSeq hs' _) hs') ‹_›) _ _ _
  · exact canonical_parkMe (canonical_walked h _ _) _ _ _
  · exact canonical_consumeError h _ _

theorem canonical_raiseDrain (h : s.Canonical) (e : Exc) : (raiseDrain e s).Canonical :=
  canonical_raise h _ _

end Sys2Proof.Machine
end

section
/-! SUPPORT. Register fields keep memory and its marks in canonical form. -/

namespace Sys2Proof.Machine

open Host (Outcome)

variable {s : State}

theorem canonical_joinBlocked (h : s.Canonical) (c k key : Nat) : (joinBlocked c k key s).Canonical :=
  canonical_modCore h _ _

theorem canonical_readField (h : s.Canonical) (f : Nat) : (readField f s).2.Canonical := by
  unfold readField
  extract_lets +onlyGivenNames c
  split
  · exact h
  split
  · exact canonical_pair (canonical_modCore h _ _)
  split
  · exact canonical_pair (canonical_modCore h _ _)
  exact canonical_ite_snd (canonical_ite_snd (canonical_setMe h _) h) h

theorem canonical_readFields (h : s.Canonical) (l : List Nat) : (readFields l s).2.Canonical := by
  induction l generalizing s with
  | nil => exact h
  | cons f l ih => exact ih (canonical_readField h f)

theorem canonical_writeField (h : s.Canonical) (f : Nat) (r : Reg) : (writeField f r s).Canonical := by
  unfold writeField
  extract_lets +onlyGivenNames c
  split
  · exact canonical_modMe h _
  split
  · exact canonical_modCore h _ _
  split
  · split
    · exact canonical_modCore h _ _
    · exact h
  · exact h

theorem canonical_issue (h : s.Canonical) (reads writes : List Nat) : (issue reads writes s).Canonical := by
  unfold issue
  extract_lets +onlyGivenNames c k
  split
  · exact canonical_illegal h
  split
  · exact h
  extract_lets +onlyGivenNames s'
  have hs' : s'.Canonical := canonical_giveBack h _ _
  split
  · extract_lets +onlyGivenNames r key need s2
    have hs2 : s2.Canonical := canonical_modMe hs' _
    exact canonical_waitFor (canonical_joinBlocked hs2 _ _ _) _ _ _ _
  split
  · split
    · extract_lets +onlyGivenNames t
      have ht : t.Canonical := canonical_leaveBlocked ((canonical_exposeMe hs').of_ok ‹_›) _ _
      split
      · exact Issued.canonical_ite (canonical_slotError (canonical_of_pair (canonical_readFields ht _) ‹_›) _ _)
          (canonical_of_pair (canonical_readFields ht _) ‹_›)
    · exact canonical_modMe ((canonical_exposeMe hs').of_stall ‹_›) _
    · exact canonical_raiseDrain hs' _
  split
  · exact canonical_of_pair (canonical_readFields hs' _) ‹_›

theorem canonical_stallMe (h : s.Canonical) : (stallMe s).Canonical :=
  canonical_modMe h _

theorem canonical_keepTaken {t : State} (ht : t.Canonical) (reads writes : List Nat) :
    (keepTaken reads writes s t).Canonical :=
  canonical_modMe ht _

theorem canonical_stallOp {t : State} (ht : t.Canonical) (reads writes : List Nat) : (stallOp reads writes s t).Canonical :=
  canonical_stallMe (canonical_keepTaken ht _ _)

theorem canonical_unpop {t : State} (ht : t.Canonical) : (unpop s t).Canonical :=
  canonical_ite (canonical_giveBack ht _ _) (canonical_modMe (canonical_modCore ht _ _) _)

theorem canonical_exposing {t : State} {f : State → State} (h : s.Canonical) (ht : t.Canonical)
    (hf : ∀ y0, y0.Canonical → (f y0).Canonical) (reads writes : List Nat) : (exposing reads writes s t f).Canonical := by
  unfold exposing
  split
  · exact hf _ ((canonical_exposeMe ht).of_ok ‹_›)
  · exact canonical_stallOp ((canonical_exposeMe ht).of_stall ‹_›) _ _
  · exact canonical_raiseDrain h _

theorem canonical_intOp2 (h : s.Canonical) (len d a b : Nat) (f : Word → Word → Word) : (intOp2 len d a b f s).Canonical := by
  unfold intOp2
  split
  · exact (canonical_issue h _ _).of_stop ‹_›
  · exact canonical_complete (canonical_writeField ((canonical_issue h _ _).of_go ‹_›) _ _) _

theorem canonical_intOp1 (h : s.Canonical) (len d a : Nat) (f : Word → Word) : (intOp1 len d a f s).Canonical := by
  unfold intOp1
  split
  · exact (canonical_issue h _ _).of_stop ‹_›
  · exact canonical_complete (canonical_writeField ((canonical_issue h _ _).of_go ‹_›) _ _) _

end Sys2Proof.Machine
end

section
/-! SUPPORT. Loads, stores and migration keep memory and its marks in canonical form. -/

namespace Sys2Proof.Machine

open Host (Outcome)

variable {s : State}

theorem canonical_memCheck (h : s.Canonical) (w : Who) (r : Reg) (ea : Int) (n perms align need : Nat) :
    (memCheck w r ea n perms align need s).Canonical := by
  unfold memCheck
  extract_lets +onlyGivenNames va
  split
  · exact h
  · exact Res.canonical_ite h (Res.Canonical.bind (canonical_needRegions h _ _ _ _) (fun _ _ h => h))

theorem canonical_storeSlot (h : s.Canonical) (w : Who) (va hint scope : Nat) (data : List Byte) (tagged : Bool) :
    (storeSlot w va hint scope data tagged s).Canonical := by
  unfold storeSlot
  extract_lets +onlyGivenNames y
  refine Res.canonical_ite (Res.Canonical.bind (canonical_locateParts h _ _ _ _) (fun _ _ h => ?_))
    (canonical_storeAt h _ _ _ _ _ _)
  split
  · exact (Res.canonical_ok _ _).2 (canonical_modSlot h _ _ _)
  · exact Res.Canonical.bind (canonical_expose h _ _) (fun _ _ h => canonical_storeAt h _ _ _ _ _ _)

theorem canonical_train (h : s.Canonical) (c k x2 pc : Nat) : (train c k x2 pc s).Canonical := by
  unfold train
  split
  · exact h
  split
  · exact canonical_modSlot h _ _ _
  · exact canonical_ite (canonical_modSlot h _ _ _) (canonical_modSlot (canonical_ite h (canonical_modCore h _ _)) _ _ _)

theorem canonical_trainLine (h : s.Canonical) (va : Nat) : (trainLine va s).Canonical := by
  unfold trainLine
  split
  · exact h
  split
  · exact canonical_ite h (canonical_train ((canonical_homeOf h _ _).of_ok ‹_›) _ _ _ _)
  · exact h

theorem canonical_trainMe (h : s.Canonical) (va n : Nat) : (trainMe va n s).Canonical :=
  canonical_foldl _ _ (fun _ _ h => canonical_trainLine h _) h

theorem canonical_departMe (h : s.Canonical) (dst resume : Nat) (full byRoute : Bool) :
    (departMe dst resume full byRoute s).Canonical := by
  unfold departMe
  extract_lets +onlyGivenNames c k party s'
  have hs' : s'.Canonical := canonical_drainMe h
  exact canonical_ite (canonical_stallMe hs') (canonical_netSend (canonical_bumpCore (canonical_modMe hs' _) _) _)

theorem canonical_loadOp (h : s.Canonical) (len d a : Nat) (imm : Int) (n align hint scope route : Nat)
    (val : Reg → Nat → Nat → Bool → Reg) : (loadOp len d a imm n align hint scope route val s).Canonical := by
  unfold loadOp
  split
  · exact (canonical_issue h _ _).of_stop ‹_›
  extract_lets +onlyGivenNames r ea acc w
  split
  · exact canonical_raise h _ _
  · exact canonical_stallOp ((canonical_memCheck ((canonical_issue h _ _).of_go ‹_›) _ _ _ _ _ _ _).of_stall ‹_›) _ _
  split
  · exact canonical_departMe ((canonical_memCheck ((canonical_issue h _ _).of_go ‹_›) _ _ _ _ _ _ _).of_ok ‹_›) _ _ _ _
  split
  · exact canonical_raise h _ _
  · exact canonical_stallOp ((canonical_loadAt ((canonical_memCheck ((canonical_issue h _ _).of_go ‹_›) _ _ _ _ _ _ _).of_ok
      ‹_›) _ _ _ _ _).of_stall ‹_›) _ _
  extract_lets +onlyGivenNames x
  split
  · exact canonical_complete (canonical_writeField (canonical_trainMe ((canonical_rightsOf ((canonical_loadAt
      ((canonical_memCheck ((canonical_issue h _ _).of_go ‹_›) _ _ _ _ _ _ _).of_ok ‹_›) _ _ _ _ _).of_ok ‹_›) _ _).of_ok
      ‹_›) _ _) _ _) _
  · exact h

theorem canonical_storeOp (h : s.Canonical) (len b a : Nat) (imm : Int) (n align hint scope route : Nat) (cap : Bool) :
    (storeOp len b a imm n align hint scope route cap s).Canonical := by
  unfold storeOp
  split
  · exact (canonical_issue h _ _).of_stop ‹_›
  rename_i t heq
  have ht : t.Canonical := (canonical_issue h _ _).of_go heq
  extract_lets r x tagged ea acc w local_
  have hc : Res.Canonical (match capCheck r ea n (if tagged then 0x12 else 2) 1 with
      | some cause => Res.exc (.vec cause (vaOf ea)) t
      | none => if tagged && !x.isGlobal && !local_ then .exc (.vec 0x04 (vaOf ea)) t
                else memCheck w r ea n 2 align (if tagged then 0x12 else 2) t) := by
    split
    · exact (Res.canonical_exc _ _).2 ht
    · exact Res.canonical_ite ((Res.canonical_exc _ _).2 ht) (canonical_memCheck ht _ _ _ _ _ _ _)
  split
  · exact canonical_raise h _ _
  · exact canonical_stallOp (hc.of_stall ‹_›) _ _
  have hu := hc.of_ok ‹_›
  split
  · exact canonical_departMe hu _ _ _ _
  have hs := canonical_storeSlot hu w
  split
  · exact canonical_raise h _ _
  · exact canonical_stallOp ((hs _ _ _ _ _).of_stall ‹_›) _ _
  · exact canonical_complete (canonical_trainMe ((hs _ _ _ _ _).of_ok ‹_›) _ _) _

theorem canonical_homeWord (h : s.Canonical) (w : Who) (va : Nat) : (homeWord w va s).Canonical := by
  unfold homeWord
  split
  · split
    · exact h
    · exact h
  · exact Res.Canonical.bind (canonical_homeOf h _ _) (fun _ _ h => Res.canonical_ite h h)

theorem canonical_execHome (h : s.Canonical) (d a : Nat) : CanonicalOutcome (execHome d a s) := by
  unfold execHome
  split
  · exact canonicalOutcome_next.2 ((canonical_issue h _ _).of_stop ‹_›)
  extract_lets +onlyGivenNames r acc
  split
  · exact canonicalOutcome_next.2 (canonical_raise h _ _)
  split
  · exact canonicalOutcome_next.2 (canonical_complete (canonical_writeField ((canonical_homeWord
      ((canonical_issue h _ _).of_go ‹_›) _ _).of_ok ‹_›) _ _) _)
  · exact canonicalOutcome_next.2 (canonical_stallOp ((canonical_homeWord ((canonical_issue h _ _).of_go ‹_›) _ _).of_stall
      ‹_›) _ _)
  · exact canonicalOutcome_next.2 (canonical_raise h _ _)

theorem canonical_fenceComplete (h : s.Canonical) : (fenceComplete s).Canonical :=
  canonical_ite (canonical_stallMe (canonical_drainMe h)) (canonical_complete (canonical_drainMe h) _)

theorem canonical_migrOp (h : s.Canonical) (a : Nat) (full : Bool) : (migrOp a full s).Canonical := by
  unfold migrOp
  split
  · exact (canonical_issue h _ _).of_stop ‹_›
  extract_lets +onlyGivenNames r acc
  split
  · exact canonical_raise h _ _
  split
  · exact canonical_stallOp ((canonical_homeWord ((canonical_issue h _ _).of_go ‹_›) _ _).of_stall ‹_›) _ _
  · exact canonical_raise h _ _
  extract_lets +onlyGivenNames h'
  exact canonical_ite (canonical_raise h _ _) (canonical_ite (canonical_fenceComplete ((canonical_homeWord
    ((canonical_issue h _ _).of_go ‹_›) _ _).of_ok ‹_›)) (canonical_departMe ((canonical_homeWord
    ((canonical_issue h _ _).of_go ‹_›) _ _).of_ok ‹_›) _ _ _ _))

end Sys2Proof.Machine
end

section
/-! SUPPORT. Atomics, locks and fences keep memory and its marks in canonical form. -/

namespace Sys2Proof.Machine

open Host (Outcome)

variable {s : State}

theorem canonical_atomicOp (h : s.Canonical) (amo n d b a : Nat) (aq rl : Bool) (scope : Nat) :
    (atomicOp amo n d b a aq rl scope s).Canonical := by
  unfold atomicOp
  split
  · exact (canonical_issue h _ _).of_stop ‹_›
  extract_lets +onlyGivenNames r acc w m opnd expected
  split
  · exact canonical_raise h _ _
  · exact canonical_stallOp ((Res.canonical_ite ((Res.canonical_ok _ _).2 ((canonical_issue h _ _).of_go ‹_›))
      (canonical_memCheck ((canonical_issue h _ _).of_go ‹_›) _ _ _ _ _ _ _)).of_stall ‹_›) _ _
  refine canonical_exposing h ((Res.canonical_ite ((Res.canonical_ok _ _).2 ((canonical_issue h _ _).of_go ‹_›))
    (canonical_memCheck ((canonical_issue h _ _).of_go ‹_›) _ _ _ _ _ _ _)).of_ok ‹_›) (fun _ h => ?_) _ _
  split
  · exact canonical_raise (canonical_unpop ((canonical_atomicAt h _ _ _ _ _ _ _ _).of_exc ‹_›)) _ _
  · exact canonical_stallOp ((canonical_atomicAt h _ _ _ _ _ _ _ _).of_stall ‹_›) _ _
  · exact canonical_ite (canonical_raise (canonical_unpop ((canonical_atomicAt h _ _ _ _ _ _ _ _).of_ok ‹_›)) _ _)
      (canonical_complete (canonical_writeField ((canonical_atomicAt h _ _ _ _ _ _ _ _).of_ok ‹_›) _ _) _)

theorem canonical_setLock (h : s.Canonical) (p : Nat × Nat) (i : LockInfo) : (setLock p i s).Canonical :=
  canonical_modCore h _ _

theorem canonical_putLock (h : s.Canonical) (src : Src) (va w : Nat) (writer : Bool) (readers : Nat) (i : LockInfo) :
    (putLock src va w writer readers i s).Canonical :=
  canonical_writeAt (canonical_setLock h _ _) _ _ _ _

theorem canonical_lockRequest (h : s.Canonical) (x : Waiter) (try_ : Bool) (src : Src) (va : Nat) :
    (lockRequest x try_ src va s).2.Canonical :=
  canonical_ite_snd (canonical_putLock h _ _ _ _ _ _) (canonical_ite_snd h (canonical_putLock h _ _ _ _ _ _))

theorem canonical_lockRelease (h : s.Canonical) (party : Nat) (write : Bool) (src : Src) (va : Nat) :
    (lockRelease party write src va s).Canonical :=
  canonical_ite h (canonical_refreshTombs (canonical_putLock h _ _ _ _ _ _))

theorem canonical_lockCheck (h : s.Canonical) (w : Who) (r : Reg) : (lockCheck w r s).Canonical := by
  unfold lockCheck
  extract_lets +onlyGivenNames va
  split
  · exact h
  · exact Res.canonical_ite h (canonical_memCheck h _ _ _ _ _ _ _)

theorem canonical_lockLocate (h : s.Canonical) (w : Who) (va : Nat) (request : Bool) :
    (lockLocate w va request s).Canonical := by
  refine Res.Canonical.bind (canonical_locate (canonical_drainLine h _ _ _) _ _ _ _) fun _ _ ht => ?_
  split
  · exact (Res.canonical_exc _ _).2 ht
  · exact (Res.canonical_ok _ _).2 ht

theorem canonical_peerLock (h : s.Canonical) (w : Who) (d home va op : Nat) (try_ : Bool) :
    (peerLock w d home va op try_ s).Canonical := by
  unfold peerLock
  split
  · exact (Res.canonical_ok _ _).2 h
  split
  · exact (Res.canonical_stall _).2 h
  split
  · exact (Res.canonical_stall _).2 (CanonicalOption.getD (canonical_sendRequest h _ _) h)
  · exact (Res.canonical_ok _ _).2 h

theorem canonical_atOwner {t : State} {f : State → State} (ht : t.Canonical)
    (hf : ∀ y0, y0.Canonical → (f y0).Canonical) (act : Instr) (reads writes : List Nat) (served : Bool) (src : Src)
    (va : Nat) : (atOwner act reads writes served src va s t f).Canonical := by
  unfold atOwner
  split
  · exact canonical_stallOp (canonical_postOwner ht _ _) _ _
  · exact hf _ ht

theorem canonical_lockOp (h : s.Canonical) (d a : Nat) (try_ write served : Bool) :
    (lockOp d a try_ write served s).Canonical := by
  unfold lockOp
  split
  · exact (canonical_issue h _ _).of_stop ‹_›
  extract_lets r acc w va wait
  rename_i t heq
  have ht : t.Canonical := (canonical_issue h _ _).of_go heq
  have hwait (m u) (hu : u.Canonical) : (wait m u).Canonical := canonical_waitFor (canonical_keepTaken hu _ _) _ _ _ _
  clear_value wait
  split
  · grind [canonical_complete, canonical_writeField, canonical_setLock]
  split
  · exact canonical_stallOp ht _ _
  have hchk : Res.Canonical (if (served || (findReply w va 8 t).isSome || askedFor t w va) then .ok va t
      else lockCheck w r t) :=
    Res.canonical_ite ht (canonical_lockCheck ht _ _)
  split
  · exact canonical_raise h _ _
  · exact canonical_stallOp (hchk.of_stall ‹_›) _ _
  refine canonical_exposing h (hchk.of_ok ‹_›) (fun u hu => ?_) _ _
  have hloc := canonical_lockLocate hu w va true
  split
  · exact canonical_raise (canonical_unpop (hloc.of_exc ‹_›)) _ _
  · exact canonical_stallOp (hloc.of_stall ‹_›) _ _
  have hv := hloc.of_ok ‹_›
  split
  · grind [canonical_peerLock, canonical_raise, canonical_unpop, canonical_complete, canonical_writeField, canonical_stallOp,
      Res.Canonical.of_ok, Res.Canonical.of_stall, Res.Canonical.of_exc]
  · refine canonical_ite (canonical_raise (canonical_unpop hv) _ _) (canonical_atOwner hv (fun u hu => ?_) _ _ _ _ _ _)
    have hreq (q src) := canonical_lockRequest hu q try_ src va
    grind [canonical_complete, canonical_writeField]

theorem canonical_unlockOp (h : s.Canonical) (a : Nat) (write served : Bool) : (unlockOp a write served s).Canonical := by
  unfold unlockOp
  split
  · exact (canonical_issue h _ _).of_stop ‹_›
  extract_lets r acc w va
  rename_i t heq
  have ht : t.Canonical := (canonical_issue h _ _).of_go heq
  have hchk : Res.Canonical (if (served || (findReply w va 8 t).isSome || askedFor t w va) then .ok va t
      else lockCheck w r t) :=
    Res.canonical_ite ht (canonical_lockCheck ht _ _)
  split
  · exact canonical_stallOp ht _ _
  split
  · exact canonical_raise h _ _
  · exact canonical_stallOp (hchk.of_stall ‹_›) _ _
  refine canonical_exposing h (hchk.of_ok ‹_›) (fun u hu => ?_) _ _
  have hloc := canonical_lockLocate (canonical_drainMe hu) w va false
  split
  · exact canonical_raise (canonical_unpop (hloc.of_exc ‹_›)) _ _
  · exact canonical_stallOp (hloc.of_stall ‹_›) _ _
  have hv := hloc.of_ok ‹_›
  split
  · grind [canonical_peerLock, canonical_raise, canonical_unpop, canonical_complete, canonical_stallOp,
      Res.Canonical.of_ok, Res.Canonical.of_stall, Res.Canonical.of_exc]
  · exact canonical_ite (canonical_raise (canonical_unpop hv) _ _)
      (canonical_atOwner hv (fun u hu => canonical_complete (canonical_lockRelease hu _ _ _ _) _) _ _ _ _ _ _)

theorem canonical_execFence (h : s.Canonical) (kinds scope : Nat) : CanonicalOutcome (execFence kinds scope s) :=
  canonicalOutcome_ite (canonicalOutcome_ite (canonicalOutcome_next.2 (canonical_stallMe (canonical_drainScope h _ _ _)))
    (canonicalOutcome_next.2 (canonical_complete (canonical_drainScope h _ _ _) _))) (canonicalOutcome_next.2
    (canonical_complete h _))

end Sys2Proof.Machine
end

section
/-! SUPPORT. Messages as a program sees them keep memory and its marks in canonical form. -/

namespace Sys2Proof.Machine

open Host (Outcome)

variable {s : State}

theorem canonical_handOver {t : State} (h : s.Canonical) (ht : t.Canonical) (reads : List Nat) (rx : Bool) (m : Msg) :
    (handOver reads rx m s t).Canonical := by
  unfold handOver
  extract_lets +onlyGivenNames y l
  refine canonical_ite (canonical_complete (canonical_modMe ht _) _) (canonical_exposing h ht (fun _ h => canonical_ite
    (canonical_stallOp (canonical_ite h (canonical_drainMe h)) _ _) ?_) _ _)
  split
  · exact canonical_waitFor (canonical_unpop (canonical_ite h (canonical_drainMe h))) _ _ _ _
  · exact canonical_complete (canonical_netSend (canonical_ite h (canonical_drainMe h)) _) _

theorem canonical_sendOp {payload : State → Res (List Word)} {trap : Exc → State → State} (h : s.Canonical)
    (hpayload : ∀ y0, y0.Canonical → (payload y0).Canonical) (htrap : ∀ y0 y1, y1.Canonical → (trap y0 y1).Canonical)
    (a b : Nat) (rx : Bool) : (sendOp a b rx payload trap s).Canonical := by
  unfold sendOp
  split
  · exact (canonical_issue h _ _).of_stop ‹_›
  extract_lets +onlyGivenNames r h'
  split
  · exact canonical_trapMe h _ _
  split
  · exact canonical_trapMe h _ _
  split
  · exact htrap _ _ h
  · exact canonical_stallOp ((hpayload _ ((canonical_issue h _ _).of_go ‹_›)).of_stall ‹_›) _ _
  · exact canonical_handOver h ((hpayload _ ((canonical_issue h _ _).of_go ‹_›)).of_ok ‹_›) _ _ _

theorem canonical_payloadBytes (h : s.Canonical) (r : Reg) (n : Nat) : (payloadBytes r n s).Canonical :=
  Res.canonical_ite h (Res.Canonical.bind (canonical_memCheck h _ _ _ _ _ _ _) (fun _ _ h => Res.Canonical.bind
    (canonical_loadAt h _ _ _ _ _) (fun _ _ h => canonical_trainMe h _ _)))

theorem canonical_execSend (h : s.Canonical) (d a b n : Nat) (rx : Bool) : CanonicalOutcome (execSend d a b n rx s) :=
  canonicalOutcome_next.2 (canonical_sendOp h (fun _ h => (Res.canonical_ok _ _).2 h) (fun _ _ h => h) _ _ _)

theorem canonical_execSendv (h : s.Canonical) (d a b n : Nat) (rx : Bool) : CanonicalOutcome (execSendv d a b n rx s) :=
  canonicalOutcome_next.2 (canonical_sendOp h (fun _ h => (Res.canonical_ok _ _).2 h) (fun _ _ h => h) _ _ _)

theorem canonical_execSendb (h : s.Canonical) (d a b n : Nat) (rx : Bool) : CanonicalOutcome (execSendb d a b n rx s) :=
  canonicalOutcome_next.2 (canonical_sendOp h (fun _ h => canonical_payloadBytes h _ _)
    (fun _ _ h => canonical_raise h _ _) _ _ _)

theorem canonical_mdone (h : s.Canonical) : (mdone s).Canonical := by
  unfold mdone
  extract_lets +onlyGivenNames y c k
  split
  · exact canonical_illegal h
  split
  · exact canonical_raiseDrain h _
  · exact canonical_stallMe ((Res.Canonical.bind (canonical_drainCommit h _ _)
      (fun _ _ h => canonical_releaseHeld h _ _)).of_stall ‹_›)
  extract_lets +onlyGivenNames t
  have ht : t.Canonical := canonical_endContext ((Res.Canonical.bind (canonical_drainCommit h _ _)
    (fun _ _ h => canonical_releaseHeld h _ _)).of_ok ‹_›) _ _
  split
  · exact canonical_endTask ht _ _ _
  · exact ht

theorem canonical_fromMessage (h : s.Canonical) (d : Nat) (f : Slot → Nat) : (fromMessage d f s).Canonical := by
  unfold fromMessage
  split
  · exact (canonical_issue h _ _).of_stop ‹_›
  · exact canonical_complete (canonical_writeField ((canonical_issue h _ _).of_go ‹_›) _ _) _

end Sys2Proof.Machine
end

section
/-! SUPPORT. Threads and declared waits keep memory and its marks in canonical form. -/

namespace Sys2Proof.Machine

open Host (Outcome)

variable {s : State}

theorem canonical_spawnOp (h : s.Canonical) (d a b : Nat) (wait : Bool) : (spawnOp d a b wait s).Canonical := by
  unfold spawnOp
  split
  · exact (canonical_issue h _ _).of_stop ‹_›
  extract_lets +onlyGivenNames r e
  split
  · exact canonical_trapMe h _ _
  split
  · exact canonical_trapMe h _ _
  split
  · exact canonical_trapMe h _ _
  extract_lets +onlyGivenNames st
  exact canonical_ite (canonical_ite (canonical_waitFor (canonical_unpop ((canonical_issue h _ _).of_go ‹_›)) _ _ _ _)
    (canonical_exposing h ((canonical_issue h _ _).of_go ‹_›) (fun _ h => canonical_complete
    (canonical_writeField h _ _) _) _ _)) (canonical_exposing h ((canonical_issue h _ _).of_go ‹_›)
    (fun _ h => canonical_complete (canonical_writeField (canonical_netSend (canonical_update (canonical_addLive
    (canonical_drainMe h) _ _)) _) _ _) _) _ _)

theorem canonical_execExit (h : s.Canonical) : CanonicalOutcome (execExit s) :=
  canonicalOutcome_ite (canonicalOutcome_next.2 (canonical_illegal h)) (canonicalOutcome_next.2 (canonical_endContext
    (canonical_drainMe h) _ _))

theorem canonical_pointAt (h : s.Canonical) (c k : Nat) : (pointAt c k s).Canonical :=
  canonical_modCore h _ _

theorem canonical_killTask (h : s.Canonical) (id : Nat) (tenant : Option Nat) : (killTask id tenant s).Canonical := by
  unfold killTask
  split
  · exact canonical_ite (canonical_endTask (canonical_update h) _ _ _) h
  · exact h

theorem canonical_killParked (h : s.Canonical) (p : Nat) (tenant : Option Nat) : (killParked p tenant s).Canonical := by
  unfold killParked
  split
  · exact h
  split
  · exact canonical_ite (canonical_endComposed (canonical_threadEnds (canonical_modCore h _ _) _) _ _) h
  · exact h

theorem canonical_killOp (h : s.Canonical) (a : Nat) (any : Bool) : (killOp a any s).Canonical := by
  unfold killOp
  split
  · exact (canonical_issue h _ _).of_stop ‹_›
  · exact canonical_exposing h ((canonical_issue h _ _).of_go ‹_›) (fun _ h => canonical_ite (canonical_stallOp
      (canonical_ite h (canonical_modMe (canonical_foldl _ _ (fun _ _ h => canonical_modSlot h _ _ _) (canonical_killParked
      (canonical_killTask h _ _) _ _)) _)) _ _) (canonical_complete (canonical_ite h (canonical_modMe (canonical_foldl _ _
      (fun _ _ h => canonical_modSlot h _ _ _) (canonical_killParked (canonical_killTask h _ _) _ _)) _)) _)) _ _

theorem canonical_execKillApply (h : s.Canonical) (c k : Nat) : CanonicalOutcome (execKillApply c k s) :=
  canonicalOutcome_next.2 (canonical_ite (canonical_killSlot h _ _ _) h)

theorem canonical_execPrio (h : s.Canonical) (a : Nat) : CanonicalOutcome (execPrio a s) := by
  unfold execPrio
  split
  · exact canonicalOutcome_next.2 ((canonical_issue h _ _).of_stop ‹_›)
  extract_lets +onlyGivenNames p
  exact canonicalOutcome_next.2 (canonical_complete (canonical_modMe ((canonical_issue h _ _).of_go ‹_›) _) _)

theorem canonical_execWaitc (h : s.Canonical) (n a : Nat) : CanonicalOutcome (execWaitc n a s) := by
  unfold execWaitc
  split
  · exact canonicalOutcome_next.2 ((canonical_issue h _ _).of_stop ‹_›)
  · exact canonicalOutcome_ite (canonicalOutcome_next.2 (canonical_complete ((canonical_issue h _ _).of_go ‹_›) _))
      (canonicalOutcome_next.2 (canonical_waitFor (canonical_unpop ((canonical_issue h _ _).of_go ‹_›)) _ _ _ _))

theorem canonical_declareWait (h : s.Canonical) (a n mode : Nat) : (declareWait a n mode s).Canonical :=
  canonical_modMe (canonical_complete h _) _

end Sys2Proof.Machine
end

section
/-! SUPPORT. Barrier groups keep memory and its marks in canonical form. -/

namespace Sys2Proof.Machine

open Host (Outcome)

variable {s : State}

theorem canonical_setGroup (h : s.Canonical) (g : Nat) (x : Group) : (State.setGroup s g x).Canonical :=
  canonical_update h

theorem canonical_arriveBytes (h : s.Canonical) (g tenant n : Nat) : CanonicalOption (arriveBytes g tenant n s) :=
  canonicalOption_ite (canonicalOption_some.2 (canonical_setGroup h _ _)) canonicalOption_none

theorem canonical_arriveMe (h : s.Canonical) (g : Nat) : CanonicalOption (arriveMe g s) := by
  unfold arriveMe
  extract_lets x
  intro t ht
  split at ht
  · obtain ⟨x, -, rfl⟩ := Option.map_eq_some_iff.1 ht
    exact canonical_setGroup h _ _
  · simp at ht

theorem canonical_execBarr (h : s.Canonical) (a : Nat) : CanonicalOutcome (execBarr a s) := by
  unfold execBarr
  split
  · exact canonicalOutcome_next.2 ((canonical_issue h _ _).of_stop ‹_›)
  extract_lets +onlyGivenNames r
  refine canonicalOutcome_next.2 (canonical_exposing h ((canonical_issue h _ _).of_go ‹_›) (fun _ h => ?_) _ _)
  split
  · exact canonical_complete ((canonical_arriveMe (canonical_drainMe h) _) _ ‹_›) _
  · exact canonical_serviceMe (canonical_unpop h) _ _ _

theorem canonical_awaitGroup {t : State} (ht : t.Canonical) (g : Nat) (x : BarAwait) : (awaitGroup g x s t).Canonical :=
  canonical_ite (canonical_complete (canonical_modMe ht _) _) (canonical_waitFor (canonical_modMe
    (canonical_unpop ht) _) _ _ _ _)

theorem canonical_execBarw (h : s.Canonical) (a : Nat) : CanonicalOutcome (execBarw a s) := by
  unfold execBarw
  split
  · exact canonicalOutcome_next.2 ((canonical_issue h _ _).of_stop ‹_›)
  extract_lets +onlyGivenNames g
  exact canonicalOutcome_next.2 (canonical_awaitGroup ((canonical_issue h _ _).of_go ‹_›) _ _)

theorem canonical_execBaraw (h : s.Canonical) (a : Nat) : CanonicalOutcome (execBaraw a s) := by
  unfold execBaraw
  split
  · exact canonicalOutcome_next.2 ((canonical_issue h _ _).of_stop ‹_›)
  extract_lets +onlyGivenNames r g
  split
  · exact canonicalOutcome_next.2 (canonical_awaitGroup ((canonical_issue h _ _).of_go ‹_›) _ _)
  refine canonicalOutcome_next.2 (canonical_exposing h ((canonical_issue h _ _).of_go ‹_›) (fun _ h => ?_) _ _)
  split
  · exact canonical_awaitGroup ((canonical_arriveMe (canonical_drainMe h) _) _ ‹_›) _ _
  · exact canonical_serviceMe (canonical_unpop h) _ _ _

theorem canonical_execBarset (h : s.Canonical) (a b : Nat) : CanonicalOutcome (execBarset a b s) := by
  unfold execBarset
  split
  · exact canonicalOutcome_next.2 ((canonical_issue h _ _).of_stop ‹_›)
  extract_lets +onlyGivenNames ga r acc
  split
  · exact canonicalOutcome_next.2 (canonical_serviceMe h _ _ _)
  extract_lets +onlyGivenNames w load
  split
  · exact canonicalOutcome_next.2 (canonical_raise h _ _)
  · exact canonicalOutcome_next.2 (canonical_stallOp ((Res.Canonical.bind (Res.Canonical.bind (canonical_memCheck
      ((canonical_issue h _ _).of_go ‹_›) _ _ _ _ _ _ _) (fun _ _ h => Res.Canonical.bind (canonical_loadAt h _ _ _ _ _)
      (fun _ _ h => (Res.canonical_ok _ _).2 (canonical_trainMe h _ _)))) (fun _ _ h => Res.Canonical.bind
      (Res.Canonical.bind (canonical_memCheck h _ _ _ _ _ _ _) (fun _ _ h => Res.Canonical.bind
      (canonical_loadAt h _ _ _ _ _) (fun _ _ h => (Res.canonical_ok _ _).2 (canonical_trainMe h _ _)))) (fun _ _ h =>
      (Res.canonical_ok _ _).2 h))).of_stall ‹_›) _ _)
  split
  · exact canonicalOutcome_next.2 (canonical_serviceMe h _ _ _)
  · exact canonicalOutcome_next.2 (canonical_complete (canonical_setGroup ((Res.Canonical.bind (Res.Canonical.bind
      (canonical_memCheck ((canonical_issue h _ _).of_go ‹_›) _ _ _ _ _ _ _) (fun _ _ h => Res.Canonical.bind
      (canonical_loadAt h _ _ _ _ _) (fun _ _ h => (Res.canonical_ok _ _).2 (canonical_trainMe h _ _))))
      (fun _ _ h => Res.Canonical.bind (Res.Canonical.bind (canonical_memCheck h _ _ _ _ _ _ _)
      (fun _ _ h => Res.Canonical.bind (canonical_loadAt h _ _ _ _ _) (fun _ _ h => (Res.canonical_ok _ _).2
      (canonical_trainMe h _ _)))) (fun _ _ h => (Res.canonical_ok _ _).2 h))).of_ok ‹_›) _ _) _)

end Sys2Proof.Machine
end

section
/-! SUPPORT. Branches and jumps keep memory and its marks in canonical form. -/

namespace Sys2Proof.Machine

open Host (Outcome)

variable {s : State}

theorem canonical_branchOp (h : s.Canonical) (len a b : Nat) (off : Int) (p : Word → Word → Bool) :
    (branchOp len a b off p s).Canonical := by
  unfold branchOp
  split
  · exact (canonical_issue h _ _).of_stop ‹_›
  · exact canonical_ite (canonical_completeAt ((canonical_issue h _ _).of_go ‹_›) _) (canonical_complete
      ((canonical_issue h _ _).of_go ‹_›) _)

theorem canonical_execJal (h : s.Canonical) (d : Nat) (off : Int) : CanonicalOutcome (execJal d off s) := by
  unfold execJal
  split
  · exact canonicalOutcome_next.2 ((canonical_issue h _ _).of_stop ‹_›)
  · exact canonicalOutcome_next.2 (canonical_completeAt (canonical_writeField ((canonical_issue h _ _).of_go ‹_›) _ _) _)

theorem canonical_jalrOp (h : s.Canonical) (d a : Nat) (imm : Int) : (jalrOp d a imm s).Canonical := by
  unfold jalrOp
  split
  · exact (canonical_issue h _ _).of_stop ‹_›
  extract_lets +onlyGivenNames r target
  exact canonical_ite (canonical_trapMe h _ _) (canonical_ite (canonical_trapMe h _ _) (canonical_completeAt
    (canonical_writeField ((canonical_issue h _ _).of_go ‹_›) _ _) _))

end Sys2Proof.Machine
end

section
/-! SUPPORT. Capability instructions keep memory and its marks in canonical form. -/

namespace Sys2Proof.Machine

open Host (Outcome)

variable {s : State}

theorem canonical_csetbOp {t : State} (h : s.Canonical) (ht : t.Canonical) (d : Nat) (a : Reg) (len : Nat) :
    (csetbOp d a len s t).Canonical := by
  unfold csetbOp
  split
  · exact canonical_complete (canonical_writeField ht _ _) _
  · exact canonical_trapMe h _ _

theorem canonical_capOp (h : s.Canonical) (len d : Nat) (reads : List Nat) (f : Reg → Reg → Reg) :
    (capOp len d reads f s).Canonical := by
  unfold capOp
  split
  · exact (canonical_issue h _ _).of_stop ‹_›
  · exact canonical_complete (canonical_writeField ((canonical_issue h _ _).of_go ‹_›) _ _) _

theorem canonical_execCsetb (h : s.Canonical) (d a b : Nat) : CanonicalOutcome (execCsetb d a b s) := by
  unfold execCsetb
  split
  · exact canonicalOutcome_next.2 ((canonical_issue h _ _).of_stop ‹_›)
  · exact canonicalOutcome_next.2 (canonical_csetbOp h ((canonical_issue h _ _).of_go ‹_›) _ _ _)

theorem canonical_execCsetbI (h : s.Canonical) (d a len : Nat) : CanonicalOutcome (execCsetbI d a len s) := by
  unfold execCsetbI
  split
  · exact canonicalOutcome_next.2 ((canonical_issue h _ _).of_stop ‹_›)
  · exact canonicalOutcome_next.2 (canonical_csetbOp h ((canonical_issue h _ _).of_go ‹_›) _ _ _)

end Sys2Proof.Machine
end

section
/-! SUPPORT. Channels keep memory and its marks in canonical form. -/

namespace Sys2Proof.Machine

open Host (Outcome)

variable {s : State}

theorem canonical_chanSetWord (h : s.Canonical) (x : Chan) (i v : Nat) : (Chan.setWord x i v s).Canonical :=
  canonical_writeAt h _ _ _ _

theorem canonical_chanNote (h : s.Canonical) (x : Chan) (f : ChanInfo → ChanInfo) : (Chan.note x f s).Canonical :=
  canonical_modCore h _ _

theorem canonical_chanCheck (h : s.Canonical) (w : Who) (r : Reg) (n : Nat) : (chanCheck w r n s).Canonical := by
  unfold chanCheck
  extract_lets +onlyGivenNames va
  split
  · exact h
  · exact Res.canonical_ite h (canonical_memCheck h _ _ _ _ _ _ _)

theorem canonical_chanOp {f : Chan → List Reg → State → State} (h : s.Canonical)
    (hf : ∀ x vs t, t.Canonical → (f x vs t).Canonical) (act : Instr) (reads writes : List Nat) (chan : List Reg → Reg)
    (size : List Reg → Nat) (release served : Bool) : (chanOp act reads writes chan size release served f s).Canonical := by
  unfold chanOp
  split
  · exact (canonical_issue h _ _).of_stop ‹_›
  rename_i vs t heq
  have ht : t.Canonical := (canonical_issue h _ _).of_go heq
  extract_lets r acc w va
  have hchk : Res.Canonical (if served then .ok va t else chanCheck w r (size vs) t) :=
    Res.canonical_ite ht (canonical_chanCheck ht _ _ _)
  split
  · exact canonical_stallOp ht _ _
  split
  · exact canonical_raise h _ _
  · exact canonical_stallOp (hchk.of_stall ‹_›) _ _
  refine canonical_exposing h (hchk.of_ok ‹_›) (fun u hu => ?_) _ _
  have hloc := canonical_locate (canonical_drainLine (canonical_ite (p := release = true)
    (canonical_drainMe hu) hu) w.core w.slot va) w va 0 true
  split
  · exact canonical_raise (canonical_unpop (hloc.of_exc ‹_›)) _ _
  · exact canonical_stallOp (hloc.of_stall ‹_›) _ _
  · have hv := hloc.of_ok ‹_›
    exact canonical_ite (canonical_raise (canonical_unpop hv) _ _) <| canonical_ite (canonical_raise
      (canonical_unpop hv) _ _) <|
      canonical_atOwner hv (fun u hu => hf _ _ _ hu) _ _ _ _ _ _

theorem canonical_closeChan (h : s.Canonical) (x : Chan) : (closeChan x s).Canonical := by
  unfold closeChan
  extract_lets +onlyGivenNames s' s2 waits l
  have hs' : s'.Canonical := canonical_chanSetWord h _ _ _
  have hs2 : s2.Canonical := canonical_chanNote hs' _ _
  exact canonical_refreshTombs (canonical_foldl _ _ (fun _ _ h => canonical_trapAt h _ _ _ _ _) hs2)

theorem canonical_chopen (h : s.Canonical) (d a b : Nat) (served : Bool) : (chopen d a b served s).Canonical := by
  unfold chopen
  extract_lets spec
  refine canonical_chanOp h (fun x v t ht => ?_) _ _ _ _ _ _ _
  extract_lets n cap u
  have hu : u.Canonical := by
    unfold u
    split
    · exact canonical_closeChan ht _
    · exact ht
  refine canonical_ite (canonical_trapMe (canonical_unpop ht) _ _) ?_
  split
  · exact canonical_trapMe (canonical_unpop ht) _ _
  · exact canonical_complete (canonical_writeField (canonical_modCore (canonical_writeAt hu _ _ _ _) _ _) _ _) _

theorem canonical_refuseChan {t : State} (ht : t.Canonical) (x : Chan) : (refuseChan x s t).Canonical :=
  canonical_trapMe (canonical_unpop ht) _ _

theorem canonical_chprod (h : s.Canonical) (a : Nat) (served : Bool) : (chprod a served s).Canonical := by
  unfold chprod
  refine canonical_chanOp h (fun _ _ _ h => canonical_ite (canonical_refuseChan h _) ?_) _ _ _ _ _ _ _
  split
  · exact canonical_complete h _
  · extract_lets +onlyGivenNames t
    have ht : t.Canonical := canonical_chanSetWord h _ _ _
    exact canonical_complete (canonical_chanNote (canonical_chanSetWord ht _ _ _) _ _) _
  · exact canonical_refuseChan h _

theorem canonical_ringAt (h : s.Canonical) (x : Chan) (i : Nat) (write : Bool) : (ringAt x i write s).Canonical :=
  Res.Canonical.bind (canonical_locate h _ _ _ _) (fun _ _ h => Res.canonical_ite h h)

theorem canonical_putWait {t : State} (ht : t.Canonical) (x : Chan) : (putWait x s t).Canonical := by
  unfold putWait
  extract_lets +onlyGivenNames t'
  have ht' : t'.Canonical := canonical_modMe (canonical_unpop ht) _
  split
  · exact canonical_ite (canonical_waitFor ht' _ _ _ _) (canonical_waitFor ht' _ _ _ _)
  · exact canonical_waitFor ht' _ _ _ _

theorem canonical_chput (h : s.Canonical) (a b : Nat) (served : Bool) : (chput a b served s).Canonical := by
  unfold chput
  refine canonical_chanOp h (fun _ _ _ h => ?_) _ _ _ _ _ _ _
  split
  · exact canonical_refuseChan h _
  split
  · exact canonical_refuseChan h _
  split
  · exact canonical_putWait h _
  split
  · exact canonical_raise (canonical_unpop ((canonical_ringAt h _ _ _).of_exc ‹_›)) _ _
  · exact canonical_stallOp ((canonical_ringAt h _ _ _).of_stall ‹_›) _ _
  extract_lets +onlyGivenNames t
  have ht : t.Canonical := canonical_writeAt ((canonical_ringAt h _ _ _).of_ok ‹_›) _ _ _ _
  exact canonical_complete (canonical_chanNote (canonical_chanSetWord ht _ _ _) _ _) _

theorem canonical_recordGet (h : s.Canonical) (x : Chan) (party : Nat) (taken : Bool) :
    (recordGet x party taken s).Canonical := by
  unfold recordGet
  extract_lets +onlyGivenNames known s' s2
  have hs' : s'.Canonical := canonical_ite h (canonical_chanSetWord h _ _ _)
  have hs2 : s2.Canonical := canonical_ite (canonical_chanSetWord hs' _ _ _) hs'
  exact canonical_ite hs2 (canonical_chanNote hs2 _ _)

theorem canonical_chget (h : s.Canonical) (d g a : Nat) (served : Bool) : (chget d g a served s).Canonical := by
  refine canonical_chanOp h (fun x vs t ht => ?_) _ _ _ _ _ _ _
  extract_lets party
  have hring := canonical_ringAt ht x x.takes false
  split
  · exact canonical_refuseChan ht _
  split
  · split
    · exact canonical_raise (canonical_unpop (hring.of_exc ‹_›)) _ _
    · exact canonical_stallOp (hring.of_stall ‹_›) _ _
    · have hu := hring.of_ok ‹_›
      exact canonical_ite (canonical_raise (canonical_unpop hu) _ _)
        (canonical_complete (canonical_writeField (canonical_writeField (canonical_recordGet hu _ _ _) _ _) _ _) _)
  · have hu := canonical_recordGet ht x party false
    exact canonical_ite (canonical_complete (canonical_writeField (canonical_writeField hu _ _) _ _) _)
      (canonical_waitFor (canonical_modMe (canonical_unpop hu) _) _ _ _ _)

theorem canonical_cheos (h : s.Canonical) (a : Nat) (served : Bool) : (cheos a served s).Canonical := by
  unfold cheos
  refine canonical_chanOp h (fun _ _ _ h => ?_) _ _ _ _ _ _ _
  split
  · exact canonical_refuseChan h _
  · exact canonical_ite (canonical_refuseChan h _) (canonical_complete (canonical_chanNote
      (canonical_chanSetWord h _ _ _) _ _) _)

theorem canonical_chclose (h : s.Canonical) (a : Nat) (served : Bool) : (chclose a served s).Canonical :=
  canonical_chanOp h (fun _ _ _ h => canonical_ite (canonical_refuseChan h _) (canonical_complete
    (canonical_closeChan h _) _)) _ _ _ _ _ _ _

end Sys2Proof.Machine
end

section
/-! SUPPORT. Tasks at their gates keep memory and its marks in canonical form. -/

namespace Sys2Proof.Machine

open Host (Outcome)

variable {s : State}

theorem canonical_recheckTask (h : s.Canonical) (key : Nat) : (recheckTask key s).Canonical := by
  unfold recheckTask
  split
  · exact h
  · exact canonical_ite h (canonical_ite (canonical_netSend (canonical_update h) _) (canonical_ite h (canonical_update h)))

theorem canonical_recheckGate (h : s.Canonical) (tile : Nat) : (recheckGate tile s).Canonical :=
  canonical_foldl _ _ (fun _ _ h => canonical_recheckTask h _) h

theorem canonical_taskHome (h : s.Canonical) (va : Nat) : (taskHome va s).Canonical := by
  unfold taskHome
  split
  · split
    · exact h
    · exact h
  · exact canonical_homeOf h _ _

theorem canonical_submit (h : s.Canonical) (key : Nat) (ranges : List TRange) (typ user home : Nat) :
    (submit key ranges typ user home s).Canonical :=
  canonical_recheckTask (canonical_update h) _

theorem canonical_execTsub (h : s.Canonical) (d a b n : Nat) : CanonicalOutcome (execTsub d a b n s) := by
  unfold execTsub
  extract_lets fields
  split
  · exact canonicalOutcome_next.2 ((canonical_issue h _ _).of_stop ‹_›)
  rename_i t heq
  have ht : t.Canonical := (canonical_issue h _ _).of_go heq
  extract_lets op caps va ranges
  split
  · exact canonicalOutcome_next.2 (canonical_trapMe h _ _)
  split
  · exact canonicalOutcome_next.2 (canonical_trapMe h _ _)
  have hhome := canonical_taskHome ht va
  split
  · exact canonicalOutcome_next.2 (canonical_raise h _ _)
  · exact canonicalOutcome_next.2 (canonical_stallOp (hhome.of_stall ‹_›) _ _)
  refine canonicalOutcome_next.2 (canonical_exposing h (hhome.of_ok ‹_›) (fun u hu => ?_) _ _)
  extract_lets v tile
  have hv : v.Canonical := canonical_drainMe hu
  split
  · exact canonical_complete (canonical_writeField hv _ _) _
  · exact canonical_complete (canonical_writeField (canonical_submit hv _ _ _ _ _) _ _) _

theorem canonical_execTrel (h : s.Canonical) (n : Nat) : CanonicalOutcome (execTrel n s) := by
  unfold execTrel
  split
  · refine canonicalOutcome_next.2 (canonical_exposing h h (fun _ h => ?_) _ _)
    extract_lets +onlyGivenNames t
    have ht : t.Canonical := canonical_drainMe h
    split
    · exact canonical_complete (canonical_recheckGate (canonical_update ht) _) _
    · exact canonical_complete ht _
  · exact canonicalOutcome_next.2 (canonical_illegal h)

theorem canonical_execTdone (h : s.Canonical) : CanonicalOutcome (execTdone s) := by
  unfold execTdone
  split
  · exact canonicalOutcome_next.2 (canonical_exposing h h (fun _ h => canonical_complete (canonical_recheckGate
      (canonical_update (canonical_modMe (canonical_drainMe h) _)) _) _) _ _)
  · exact canonicalOutcome_next.2 (canonical_illegal h)

theorem canonical_execTretry (h : s.Canonical) (a : Nat) : CanonicalOutcome (execTretry a s) := by
  unfold execTretry
  split
  · exact canonicalOutcome_next.2 (canonical_illegal h)
  split
  · exact canonicalOutcome_next.2 ((canonical_issue h _ _).of_stop ‹_›)
  extract_lets +onlyGivenNames id
  split
  · exact canonicalOutcome_ite (canonicalOutcome_next.2 (canonical_complete (canonical_netSend (canonical_update
      ((canonical_issue h _ _).of_go ‹_›)) _) _)) (canonicalOutcome_next.2 (canonical_complete
      ((canonical_issue h _ _).of_go ‹_›) _))
  · exact canonicalOutcome_next.2 (canonical_complete ((canonical_issue h _ _).of_go ‹_›) _)

end Sys2Proof.Machine
end

section
/-! SUPPORT. Composed cores keep memory and its marks in canonical form. -/

namespace Sys2Proof.Machine

open Host (Outcome)

variable {s : State}

theorem canonical_bind (h : s.Canonical) (g : Comp) : (bind g s).Canonical :=
  canonical_foldl _ _ (fun _ _ h => canonical_modCore h _ _) (canonical_modCore h _ _)

theorem canonical_composeNow (h : s.Canonical) (c k n : Nat) : (composeNow c k n s).Canonical :=
  canonical_modSlot (canonical_bind h _) _ _ _

theorem canonical_execCompose (h : s.Canonical) (n : Nat) : CanonicalOutcome (execCompose n s) := by
  unfold execCompose
  extract_lets +onlyGivenNames c k
  exact canonicalOutcome_ite (canonicalOutcome_next.2 (canonical_trapMe h _ _)) (canonicalOutcome_ite
    (canonicalOutcome_next.2 (canonical_composeNow h _ _ _)) (canonicalOutcome_next.2 (canonical_waitFor (canonical_ite h
    (canonical_bind h _)) _ _ _ _)))

theorem canonical_execComposeComplete (h : s.Canonical) (c k : Nat) : CanonicalOutcome (execComposeComplete c k s) := by
  unfold execComposeComplete
  split
  · exact canonicalOutcome_ite (canonicalOutcome_next.2 (canonical_composeNow h _ _ _)) (canonicalOutcome_next.2 h)
  · exact canonicalOutcome_next.2 h

theorem canonical_execDecompose (h : s.Canonical) : CanonicalOutcome (execDecompose s) :=
  canonicalOutcome_ite (canonicalOutcome_next.2 (canonical_trapMe h _ _)) (canonicalOutcome_next.2 (canonical_modMe
    (canonical_endComposed (canonical_complete h _) _ _) _))

end Sys2Proof.Machine
end

section
/-! SUPPORT. Issue selection and instruction fetch keep memory and its marks in canonical form. -/

namespace Sys2Proof.Machine

open Host (Outcome)

variable {s : State}

theorem canonical_setPointer (h : s.Canonical) (c : Nat) (q : Nat × Nat) : (setPointer c q s).Canonical :=
  canonical_modCore (canonical_modCore h _ _) _ _

theorem canonical_firstIssue (h : s.Canonical) (c k : Nat) : (firstIssue c k s).Canonical :=
  canonical_ite h (canonical_update h)

theorem canonical_notIssued {t : State} (ht : t.Canonical) (c : Nat) (q : Nat × Nat) : (notIssued c q s t).Canonical :=
  canonical_modCore (canonical_modCore (canonical_update ht) _ _) _ _

theorem canonical_forget (h : s.Canonical) (c k : Nat) (p : Pend) : (forget c k p s).Canonical := by
  unfold forget
  extract_lets +onlyGivenNames u
  split
  · exact canonical_modMx h _ _
  · exact canonical_modEng h _ _
  · exact canonical_modSlot h _ _ _

theorem canonical_takePending (h : s.Canonical) (c k : Nat) (p : Pend) : (takePending c k p s).Canonical :=
  canonical_trapAt (canonical_forget h _ _ _) _ _ _ _ _

theorem canonical_deliverCause (h : s.Canonical) (c cause : Nat) : (deliverCause c cause s).Canonical := by
  unfold deliverCause
  split
  · split
    · exact canonical_takePending h _ _ _
    · exact h
  · exact h

theorem canonical_fetchHalf (h : s.Canonical) (w : Who) (va : Nat) : (fetchHalf w va s).Canonical := by
  refine Res.Canonical.bind (canonical_locate h _ _ _ _) fun src t ht => ?_
  extract_lets give
  have hgive (r : Reply) {u : State} (hu : u.Canonical) : (give r u).Canonical :=
    Res.canonical_ite ((Res.canonical_exc _ _).2 hu) ((Res.canonical_ok _ _).2 hu)
  have hask (src : Src) := canonical_askRemote ht w src va 2 false
  split
  · split
    · exact hgive _ (hask _)
    · exact (Res.canonical_stall _).2 (hask _)
  · split
    · exact hgive _ (hask _)
    · exact (Res.canonical_stall _).2 (hask _)
  · exact hgive _ ht

theorem canonical_fetchSlot (h : s.Canonical) (c k : Nat) : (fetchSlot c k s).Canonical := by
  unfold fetchSlot
  extract_lets +onlyGivenNames y w
  exact Res.Canonical.bind (canonical_memCheck h _ _ _ _ _ _ _) (fun _ _ h => Res.Canonical.bind (canonical_fetchHalf h _ _)
    (fun _ _ h => Res.canonical_ite h (Res.Canonical.bind (canonical_memCheck h _ _ _ _ _ _ _)
    (fun _ _ h => Res.Canonical.bind (canonical_fetchHalf h _ _) (fun _ _ h => h)))))

theorem canonical_engineWait (h : s.Canonical) (c reason target : Nat) : (engineWait c reason target s).Canonical :=
  canonical_modEng h _ _

theorem canonical_fetchEngine (h : s.Canonical) (c : Nat) : (fetchEngine c s).Canonical := by
  unfold fetchEngine
  extract_lets +onlyGivenNames e w
  exact Res.canonical_ite h (Res.canonical_ite h (Res.Canonical.bind (canonical_needRights h _ _ _)
    (fun _ _ h => Res.Canonical.bind (canonical_fetchHalf h _ _) (fun _ _ h => Res.Canonical.bind
    (canonical_fetchHalf h _ _) (fun _ _ h => h)))))

end Sys2Proof.Machine
end

section
/-! SUPPORT. Copy engines keep memory and its marks in canonical form. -/

namespace Sys2Proof.Machine

open Host (Outcome)

variable {s : State}

theorem canonical_modEngMe (h : s.Canonical) (f : Engine → Engine) : (State.modEngMe s f).Canonical :=
  canonical_modEng h _ _

theorem canonical_noteCount (h : s.Canonical) (c n : Nat) : (noteCount c n s).Canonical := by
  unfold noteCount
  split
  · exact canonical_ite (canonical_modEng h _ _) h
  · exact h

theorem canonical_engNext (h : s.Canonical) : (engNext s).Canonical :=
  canonical_modEngMe h _

theorem canonical_engWait (h : s.Canonical) (reason target : Nat) : (engWait reason target s).Canonical :=
  canonical_engineWait h _ _ _

theorem canonical_engWaitFor (h : s.Canonical) (reason target n : Nat) : (engWaitFor reason target n s).Canonical :=
  canonical_modEngMe (canonical_engWait h _ _) _

theorem canonical_engineRecord (h : s.Canonical) (c cause va : Nat) (write : Bool) (total done : Nat) (marked : List Nat) :
    CanonicalSecond (engineRecord c cause va write total done marked s) := by
  unfold engineRecord
  extract_lets e w0 r
  have hp : CanonicalSecond (if s.records.any fun q => q.tenant == e.tenant then none else postNow r s) :=
    canonicalSecond_ite canonicalSecond_none (canonical_postNow h _)
  split
  · rename_i t heq
    exact canonicalSecond_some.2 (canonical_pair (hp _ heq))
  · exact canonicalSecond_none

theorem canonical_engineFaulted (h : s.Canonical) (c word : Nat) : (engineFaulted c word s).Canonical :=
  canonical_modEng h _ _

theorem canonical_engineStop (h : s.Canonical) (c cause va : Nat) (write : Bool) (total : Nat) :
    (engineStop c cause va write total s).Canonical := by
  unfold engineStop
  split
  · exact canonical_engineFaulted (canonical_engineRecord h _ _ _ _ _ _ _ _ ‹_›) _ _
  · exact canonical_modEng h _ _

theorem canonical_engineFault (h : s.Canonical) (c cause va : Nat) (write : Bool) :
    (engineFault c cause va write s).Canonical :=
  canonical_engineStop h _ _ _ _ _

theorem canonical_engineRaise (h : s.Canonical) (e : Exc) (write : Bool) : (engineRaise e write s).Canonical := by
  unfold engineRaise
  split
  · exact canonical_ite (canonical_engWait h _ _) (canonical_engineFault h _ _ _ _)
  · exact canonical_engineFault h _ _ _ _

theorem canonical_engineAccess (h : s.Canonical) (w : Who) (a n need : Nat) : (engineAccess w a n need s).Canonical :=
  Res.canonical_ite h (Res.Canonical.bind (canonical_needRegions h _ _ _ _) (fun _ _ h => h))

theorem canonical_engineLoad (h : s.Canonical) (w : Who) (a n : Nat) : (engineLoad w a n s).Canonical :=
  Res.Canonical.bind (canonical_engineAccess h _ _ _ _) (fun _ _ h => canonical_loadAt h _ _ _ _ _)

theorem canonical_engineStore (h : s.Canonical) (w : Who) (a scope : Nat) (data : List Byte) :
    (engineStore w a scope data s).Canonical :=
  Res.Canonical.bind (canonical_engineAccess h _ _ _ _) (fun _ _ h => canonical_storeAt h _ _ _ _ _ _)

theorem canonical_engWrite (h : s.Canonical) (d : Nat) (f : Engine → Word) : (engWrite d f s).Canonical :=
  canonical_modEngMe h _

theorem canonical_execEld (h : s.Canonical) (d a f : Nat) (imm : Int) : CanonicalOutcome (execEld d a f imm s) := by
  unfold execEld
  extract_lets +onlyGivenNames e va n
  split
  · exact canonicalOutcome_next.2 (canonical_engineFault h _ _ _ _)
  split
  · exact canonicalOutcome_next.2 (canonical_engineRaise h _ _)
  · exact canonicalOutcome_next.2 ((canonical_engineLoad h _ _ _).of_stall ‹_›)
  split
  · exact canonicalOutcome_next.2 (canonical_engineFault h _ _ _ _)
  · exact canonicalOutcome_next.2 (canonical_engWrite ((canonical_engineLoad h _ _ _).of_ok ‹_›) _ _)

theorem canonical_execEst (h : s.Canonical) (d a f : Nat) (imm : Int) : CanonicalOutcome (execEst d a f imm s) := by
  unfold execEst
  extract_lets +onlyGivenNames e va n
  split
  · exact canonicalOutcome_next.2 (canonical_engineFault h _ _ _ _)
  split
  · exact canonicalOutcome_next.2 (canonical_engineRaise h _ _)
  · exact canonicalOutcome_next.2 ((canonical_engineStore h _ _ _ _).of_stall ‹_›)
  · exact canonicalOutcome_next.2 (canonical_engNext ((canonical_engineStore h _ _ _ _).of_ok ‹_›))

theorem canonical_execEldQ (h : s.Canonical) (d q : Nat) : CanonicalOutcome (execEldQ d q s) := by
  unfold execEldQ
  split
  · exact canonicalOutcome_next.2 (canonical_engWaitFor h _ _ _)
  extract_lets +onlyGivenNames t
  have ht : t.Canonical := canonical_modCore h _ _
  exact canonicalOutcome_ite (canonicalOutcome_next.2 (canonical_engineFault ht _ _ _ _)) (canonicalOutcome_next.2
    (canonical_engWrite ht _ _))

theorem canonical_execEstQ (h : s.Canonical) (d q : Nat) : CanonicalOutcome (execEstQ d q s) :=
  canonicalOutcome_ite (canonicalOutcome_next.2 (canonical_engWaitFor h _ _ _)) (canonicalOutcome_next.2 (canonical_engNext
    (canonical_modCore h _ _)))

theorem canonical_setSem (h : s.Canonical) (n v : Nat) : (setSem n v s).Canonical :=
  canonical_modCore h _ _

theorem canonical_drainEngine (h : s.Canonical) : (drainEngine s).Canonical :=
  canonical_drainAgent h _ _

theorem canonical_execSemwEngine (h : s.Canonical) (n : Nat) : CanonicalOutcome (execSemwEngine n s) :=
  canonicalOutcome_ite (canonicalOutcome_next.2 (canonical_engWaitFor h _ _ _)) (canonicalOutcome_next.2 (canonical_engNext
    (canonical_setSem h _ _)))

theorem canonical_execSemsEngine (h : s.Canonical) (n : Nat) : CanonicalOutcome (execSemsEngine n s) :=
  canonicalOutcome_ite (canonicalOutcome_next.2 (canonical_engWaitFor h _ _ _)) (canonicalOutcome_ite
    (canonicalOutcome_next.2 (canonical_engWaitFor (canonical_drainEngine h) _ _ _)) (canonicalOutcome_next.2
    (canonical_engNext (canonical_setSem (canonical_drainEngine h) _ _))))

theorem canonical_execEwait (h : s.Canonical) (n a : Nat) : CanonicalOutcome (execEwait n a s) := by
  unfold execEwait
  extract_lets +onlyGivenNames v
  exact canonicalOutcome_ite (canonicalOutcome_next.2 (canonical_engNext h)) (canonicalOutcome_next.2 (canonical_modEngMe
    (canonical_engWait h _ _) _))

theorem canonical_execEfence (h : s.Canonical) (x : Nat) : CanonicalOutcome (execEfence x s) := by
  unfold execEfence
  extract_lets +onlyGivenNames t
  have ht : t.Canonical := canonical_drainScope h _ _ _
  exact canonicalOutcome_ite (canonicalOutcome_next.2 ht) (canonicalOutcome_next.2 (canonical_engNext ht))

theorem canonical_execBarbBind (h : s.Canonical) (a : Nat) : CanonicalOutcome (execBarbBind a s) := by
  unfold execBarbBind
  extract_lets +onlyGivenNames v
  exact canonicalOutcome_ite (canonicalOutcome_next.2 (canonical_engineFault h _ _ _ _)) (canonicalOutcome_ite
    (canonicalOutcome_next.2 (canonical_engineFault h _ _ _ _)) (canonicalOutcome_next.2 (canonical_modEngMe h _)))

theorem canonical_execBarbAdd (h : s.Canonical) (a b : Nat) : CanonicalOutcome (execBarbAdd a b s) := by
  unfold execBarbAdd
  extract_lets +onlyGivenNames v
  split
  · exact canonicalOutcome_next.2 (canonical_engineFault h _ _ _ _)
  split
  · exact canonicalOutcome_next.2 (canonical_engineFault h _ _ _ _)
  extract_lets +onlyGivenNames t
  have ht : t.Canonical := canonical_drainEngine h
  split
  · exact canonicalOutcome_next.2 ht
  split
  · exact canonicalOutcome_next.2 (canonical_engNext (canonical_arriveBytes ht _ _ _ _ ‹_›))
  · exact canonicalOutcome_next.2 (canonical_engineFault h _ _ _ _)

theorem canonical_endStream (h : s.Canonical) : (endStream s).Canonical :=
  canonical_ite (canonical_modEngMe h _) (canonical_modEngMe h _)

theorem canonical_execEdone (h : s.Canonical) (a : Nat) : CanonicalOutcome (execEdone a s) := by
  unfold execEdone
  extract_lets +onlyGivenNames e
  split
  · exact canonicalOutcome_next.2 (canonical_endStream h)
  split
  · exact canonicalOutcome_next.2 (canonical_engineFault h _ _ _ _)
  extract_lets +onlyGivenNames t
  have ht : t.Canonical := canonical_drainEngine h
  split
  · exact canonicalOutcome_next.2 ht
  split
  · exact canonicalOutcome_next.2 (canonical_engineRaise h _ _)
  · exact canonicalOutcome_next.2 ((canonical_engineStore ht _ _ _ _).of_stall ‹_›)
  · exact canonicalOutcome_next.2 (canonical_endStream (canonical_drainEngine ((canonical_engineStore ht _ _ _ _).of_ok ‹_›)))

theorem canonical_progressWrite (h : s.Canonical) (c : Nat) (x : Copy) (status done va : Nat) (marked : List Nat) :
    (progressWrite c x status done va marked s).Canonical := by
  unfold progressWrite
  split
  · extract_lets +onlyGivenNames l
    exact canonical_physWrite h _ _ _
  · exact h

theorem canonical_startCopy (h : s.Canonical) (x : Copy) (checks : List (Option Nat)) (va : Nat) (write : Bool) :
    (startCopy x checks va write s).Canonical := by
  unfold startCopy
  extract_lets +onlyGivenNames c
  split
  · exact canonical_engNext h
  split
  · exact canonical_engineStop h _ _ _ _ _
  extract_lets +onlyGivenNames s'
  have hs' : s'.Canonical := canonical_drainEngine h
  exact canonical_ite hs' (canonical_progressWrite (canonical_modEng hs' _ _) _ _ _ _ _ _)

theorem canonical_listCopy (h : s.Canonical) (kind d a b x : Nat) : (listCopy kind d a b x s).Canonical :=
  canonical_startCopy h _ _ _ _

theorem canonical_copyFault (h : s.Canonical) (x : Copy) (e : Exc) (write : Bool) : (copyFault x e write s).Canonical := by
  unfold copyFault
  split
  · exact canonical_ite (canonical_engWait h _ _) (canonical_modEngMe h _)
  · exact canonical_modEngMe h _

theorem canonical_carryMarks (h : s.Canonical) (w : Who) (a : Nat × Nat) (n : Nat) (v : Loaded) (src : Src) :
    (carryMarks w a n v src s).Canonical := by
  unfold carryMarks
  extract_lets +onlyGivenNames s'
  have hs' : s'.Canonical := canonical_ite (canonical_carryPoison h _ _ _ _) h
  exact canonical_ite hs' (canonical_foldl _ _ (fun _ _ h => canonical_ite (canonical_tagMark h _ _) h) hs')

theorem canonical_bulkLoad (h : s.Canonical) (w : Who) (a n : Nat) : (bulkLoad w a n s).Canonical :=
  Res.Canonical.bind (canonical_engineAccess h _ _ _ _) (fun _ _ h => canonical_loadParts h _ _ _ _ _ _)

theorem canonical_bulkStore (h : s.Canonical) (w : Who) (a : Nat) (data : List Byte) : (bulkStore w a data s).Canonical := by
  unfold bulkStore
  extract_lets n whole t
  refine Res.Canonical.bind (canonical_engineAccess (canonical_drainWhere h _) _ _ _ _) fun _ _ h =>
    Res.Canonical.bind (canonical_locateParts h _ _ _ _) fun _ _ h => ?_
  split
  · exact (Res.canonical_ok _ _).2 (canonical_storeParts h _ _ _ _ _ _ _ _ ‹_›)
  · exact (Res.canonical_stall _).2 h

theorem canonical_cleanGranule (h : s.Canonical) (w : Who) (front : Option (Nat × Bool)) :
    (cleanGranule w front s).Canonical := by
  unfold cleanGranule
  split
  · split
    · exact h
    split
    · exact canonical_ite (canonical_setPoison (canonical_drainAgent ((canonical_locate h _ _ _ _).of_ok ‹_›) _ _) _ _ _ _) h
    · exact h
  · exact h

theorem canonical_copyPiece (h : s.Canonical) (idx : Nat) (x : Copy) : (copyPiece idx x s).Canonical := by
  unfold copyPiece
  extract_lets +onlyGivenNames c w
  split
  · exact canonical_modEngMe h _
  extract_lets +onlyGivenNames a n next
  have hnext (front : Option (Nat × Bool)) {t : State} (ht : t.Canonical) : (next front t).Canonical := canonical_modEngMe ht
    _
  refine canonical_ite (hnext _ h) ?_
  have hl := canonical_bulkLoad h w a.1 n
  split
  · exact canonical_copyFault h _ _ _
  · exact hl.of_stall ‹_›
  extract_lets +onlyGivenNames v front
  have hs := canonical_bulkStore (hl.of_ok ‹_›) w a.2 v.bytes
  split
  · exact canonical_copyFault h _ _ _
  · exact hs.of_stall ‹_›
  have hu := hs.of_ok ‹_›
  refine canonical_ite ?_ (hnext _ (canonical_cleanGranule hu _ _))
  split
  · exact hnext _ (canonical_carryMarks ((canonical_locate (canonical_drainAgent hu _ _) _ _ _ _).of_ok ‹_›) _ _ _ _ _)
  · exact hnext _ hu

theorem canonical_copyStep (h : s.Canonical) (x : Copy) : (copyStep x s).Canonical := by
  unfold copyStep
  extract_lets +onlyGivenNames el
  split
  · exact h
  split
  · exact canonical_copyPiece h _ _
  split
  · exact canonical_copyPiece h _ _
  split
  · exact canonical_copyFault h _ _ _
  · exact (canonical_engineLoad h _ _ _).of_stall ‹_›
  split
  · exact canonical_copyFault h _ _ _
  extract_lets +onlyGivenNames x'
  exact canonical_copyPiece (canonical_modEngMe ((canonical_engineLoad h _ _ _).of_ok ‹_›) _) _ _

theorem canonical_execSectorAccess (h : s.Canonical) (c : Nat) : CanonicalOutcome (execSectorAccess c s) := by
  unfold execSectorAccess
  extract_lets +onlyGivenNames s'
  have hs' : s'.Canonical := canonical_update h
  split
  · exact canonicalOutcome_ite (canonicalOutcome_next.2 hs') (canonicalOutcome_next.2 (canonical_copyStep hs' _))
  · exact canonicalOutcome_next.2 hs'

theorem canonical_execCopyStop (h : s.Canonical) (c : Nat) : CanonicalOutcome (execCopyStop c s) := by
  unfold execCopyStop
  split
  · exact canonicalOutcome_next.2 h
  split
  · exact canonicalOutcome_next.2 h
  extract_lets s0 x
  have h0 : s0.Canonical := canonical_drainAgent h c 16
  split
  · exact canonicalOutcome_next.2 h0
  split
  · exact canonicalOutcome_next.2 h
  have ht := canonical_engineRecord h0 _ _ _ _ _ _ _ _ ‹_›
  extract_lets z t u v
  have hu : u.Canonical := by
    have htt : t.Canonical := canonical_progressWrite ht _ _ _ _ _ _
    show State.Canonical (match (t.eng c).group with | some g => _ | none => _)
    split
    · exact (canonical_arriveBytes htt _ _ _).getD htt
    · exact htt
  exact canonicalOutcome_next.2 (canonical_engineFaulted (canonical_modEng hu _ _) _ _)

theorem canonical_stopCopy (h : s.Canonical) (c : Nat) : (stopCopy c s).Canonical := by
  unfold stopCopy
  split
  · exact h
  split
  · exact h
  extract_lets +onlyGivenNames left
  split
  · exact canonical_progressWrite (canonical_modEng h _ _) _ _ _ _ _ _

theorem canonical_execCopyComplete (h : s.Canonical) (c : Nat) : CanonicalOutcome (execCopyComplete c s) := by
  unfold execCopyComplete
  split
  · exact canonicalOutcome_next.2 h
  extract_lets t u v
  have hu : u.Canonical := canonical_progressWrite (canonical_drainAgent h _ _) _ _ _ _ _ _
  have hv : v.Canonical := by
    show State.Canonical (match (u.eng c).group with | some g => _ | none => _)
    split
    · exact (canonical_arriveBytes hu _ _ _).getD hu
    · exact hu
  split
  · exact canonicalOutcome_next.2 h
  · exact canonicalOutcome_next.2 (canonical_modEng hv _ _)

theorem canonical_execScoutTranslation (h : s.Canonical) (c : Nat) : CanonicalOutcome (execScoutTranslation c s) := by
  unfold execScoutTranslation
  split
  · exact canonicalOutcome_next.2 h
  split
  · exact canonicalOutcome_next.2 h
  split
  · exact canonicalOutcome_next.2 h
  extract_lets +onlyGivenNames w va posted note
  split
  · exact canonicalOutcome_next.2 (canonical_modEng ((Res.canonical_ite ((Res.canonical_ok _ _).2 h) (Res.Canonical.bind
      (canonical_needRights h _ _ _) (fun _ _ h => Res.Canonical.bind (canonical_homeOf h _ _) (fun _ _ h =>
      (Res.canonical_ok _ _).2 h)))).of_ok ‹_›) _ _)
  · exact canonicalOutcome_next.2 (canonical_modEng ((Res.canonical_ite ((Res.canonical_ok _ _).2 h) (Res.Canonical.bind
      (canonical_needRights h _ _ _) (fun _ _ h => Res.Canonical.bind (canonical_homeOf h _ _) (fun _ _ h =>
      (Res.canonical_ok _ _).2 h)))).of_stall ‹_›) _ _)
  extract_lets +onlyGivenNames cause r
  exact canonicalOutcome_next.2 (canonical_ite (canonical_modEng ((Res.canonical_ite ((Res.canonical_ok _ _).2 h)
    (Res.Canonical.bind (canonical_needRights h _ _ _) (fun _ _ h => Res.Canonical.bind (canonical_homeOf h _ _)
    (fun _ _ h => (Res.canonical_ok _ _).2 h)))).of_exc ‹_›) _ _) (canonical_queueRecord (canonical_modEng
    ((Res.canonical_ite ((Res.canonical_ok _ _).2 h) (Res.Canonical.bind (canonical_needRights h _ _ _)
    (fun _ _ h => Res.Canonical.bind (canonical_homeOf h _ _) (fun _ _ h => (Res.canonical_ok _ _).2 h)))).of_exc ‹_›) _ _)
    _))

theorem canonical_kickEngine (h : s.Canonical) (entry mailbox reach : Reg) : (kickEngine entry mailbox reach s).Canonical :=
  canonical_modEngMe h _

theorem canonical_execCekick (h : s.Canonical) (a b g : Nat) : CanonicalOutcome (execCekick a b g s) := by
  unfold execCekick
  split
  · exact canonicalOutcome_next.2 (canonical_illegal h)
  split
  · exact canonicalOutcome_next.2 ((canonical_issue h _ _).of_stop ‹_›)
  extract_lets +onlyGivenNames entry mailbox reach
  split
  · exact canonicalOutcome_next.2 (canonical_trapMe h _ _)
  · exact canonicalOutcome_ite (canonicalOutcome_next.2 (canonical_waitFor (canonical_unpop
      ((canonical_issue h _ _).of_go ‹_›)) _ _ _ _)) (canonicalOutcome_next.2 (canonical_exposing h
      ((canonical_issue h _ _).of_go ‹_›) (fun _ h => canonical_complete (canonical_kickEngine
      (canonical_drainMe h) _ _ _) _) _ _))

theorem canonical_resumeEngine (h : s.Canonical) (c : Nat) : (resumeEngine c s).Canonical := by
  unfold resumeEngine
  extract_lets +onlyGivenNames s'
  have hs' : s'.Canonical := canonical_modEng h _ _
  split
  · exact canonical_progressWrite hs' _ _ _ _ _ _
  · exact hs'

theorem canonical_execCekickR (h : s.Canonical) : CanonicalOutcome (execCekickR s) :=
  canonicalOutcome_ite (canonicalOutcome_next.2 (canonical_illegal h)) (canonicalOutcome_next.2 (canonical_exposing h h
    (fun _ h => canonical_complete (canonical_ite (canonical_resumeEngine (canonical_drainMe h) _)
    (canonical_drainMe h)) _) _ _))

theorem canonical_execSemw (h : s.Canonical) (n : Nat) : CanonicalOutcome (execSemw n s) :=
  canonicalOutcome_ite (canonicalOutcome_next.2 (canonical_waitFor (canonical_modMe h _) _ _ _ _)) (canonicalOutcome_next.2
    (canonical_exposing h h (fun _ h => canonical_complete (canonical_setSem h _ _) _) _ _))

theorem canonical_execSems (h : s.Canonical) (n : Nat) : CanonicalOutcome (execSems n s) :=
  canonicalOutcome_ite (canonicalOutcome_next.2 (canonical_waitFor (canonical_modMe h _) _ _ _ _)) (canonicalOutcome_next.2
    (canonical_exposing h h (fun _ h => canonical_complete (canonical_setSem (canonical_drainMe h) _ _) _) _ _))

end Sys2Proof.Machine
end

section
/-! SUPPORT. The matrix sequencer keeps memory and its marks in canonical form. -/

namespace Sys2Proof.Machine

open Host (Outcome)

variable {s : State}

theorem canonical_mxRun (h : s.Canonical) (c : Nat) : (mxRun c s).Canonical :=
  canonical_modMx h _ _

theorem canonical_pushToken (h : s.Canonical) (c : Nat) : (pushToken c s).Canonical := by
  unfold pushToken
  split
  · exact h
  · exact canonical_ite (canonical_mxRun h _) (canonical_mxRun (canonical_modMx (canonical_modCore h _ _) _ _) _)

theorem canonical_mxWait (h : s.Canonical) (c reason target : Nat) : (mxWait c reason target s).Canonical :=
  canonical_modMx h _ _

theorem canonical_mxComplete (h : s.Canonical) (c : Nat) (x : Started) (status detail : Nat) :
    (mxComplete c x status detail s).Canonical := by
  unfold mxComplete
  extract_lets +onlyGivenNames t
  have ht : t.Canonical := canonical_drainAgent h _ _
  exact canonical_ite (canonical_mxRun (canonical_modMx ht _ _) _) (canonical_pushToken (canonical_modMx ht _ _) _)

theorem canonical_setCur (h : s.Canonical) (c : Nat) (x : Started) : (setCur c x s).Canonical :=
  canonical_modMx h _ _

theorem canonical_geometryStop (h : s.Canonical) (c : Nat) (q : Queued) : (geometryStop c q s).Canonical :=
  canonical_modMx h _ _

theorem canonical_startCmd (h : s.Canonical) (c : Nat) (cmd : Cmd) : CanonicalSecond (startCmd c cmd s) := by
  unfold startCmd
  split
  · exact canonicalSecond_none
  · exact canonicalSecond_ite canonicalSecond_none (canonicalSecond_ite (canonicalSecond_some.2 (canonical_setCur
      (canonical_modMx h _ _) _ _)) (canonicalSecond_ite (canonicalSecond_some.2 (canonical_setCur
      (canonical_modMx h _ _) _ _)) (canonicalSecond_ite (canonicalSecond_some.2 (canonical_setCur (canonical_geometryStop
      (canonical_modMx h _ _) _ _) _ _)) (canonicalSecond_some.2 (canonical_setCur (canonical_modMx
      (canonical_modMx h _ _) _ _) _ _)))))

theorem canonical_startedOverlay (h : s.Canonical) (x : Started) (c : Nat) : (Started.overlay x c s).Canonical := by
  unfold Started.overlay
  extract_lets clean
  refine canonical_foldl _ _ (fun t p ht => ?_) h
  dsimp only
  refine ⟨Memory.wf_putBytes ht.mem _ _, ht.cdata, ht.tags, ht.ctags, ?_, ht.cpoison⟩
  dsimp only
  split
  · exact SMap.canon_set _ ht.poison _ _
  split
  · exact SMap.canon_set _ ht.poison _ _
  · exact ht.poison

theorem canonical_mxStop (h : s.Canonical) (c : Nat) (x : Started) (f : Nat × Nat × Nat × Nat) :
    (mxStop c x f s).Canonical := by
  unfold mxStop
  split
  extract_lets +onlyGivenNames s'
  have hs' : s'.Canonical := canonical_mxComplete h _ _ _ _
  exact canonical_ite hs' (canonical_queueRecord hs' _)

theorem canonical_goCmd {body : Started → State → State} (h : s.Canonical)
    (hbody : ∀ y0 y1, y1.Canonical → (body y0 y1).Canonical) (cmd : Cmd) (t4 : Bool × Bool × Bool)
    (check : Started → State → Option (Nat × Nat)) (x : Started) : (goCmd cmd t4 check body x s).Canonical := by
  unfold goCmd
  extract_lets +onlyGivenNames c
  split
  · exact canonical_mxStop h _ _ _
  split
  · exact canonical_setCur h _ _
  extract_lets +onlyGivenNames go
  exact canonical_ite (canonical_ite (canonical_mxRun h _) (hbody _ _ h)) (canonical_ite (canonical_mxRun
    (canonical_setCur h _ _) _) (hbody _ _ (canonical_setCur h _ _)))

theorem canonical_runCmd {body : Started → State → State} (h : s.Canonical)
    (hbody : ∀ y0 y1, y1.Canonical → (body y0 y1).Canonical) (cmd : Cmd) (t4 : Bool × Bool × Bool)
    (check : Started → State → Option (Nat × Nat)) : (runCmd cmd t4 check body s).Canonical := by
  unfold runCmd
  extract_lets c
  split
  · exact canonical_goCmd h hbody _ _ _ _
  split
  · rename_i x t heq
    exact canonical_goCmd (canonical_startCmd h c cmd (x, t) heq) hbody _ _ _ _
  · exact canonical_pushToken h _

theorem canonical_mxFail (h : s.Canonical) (c : Nat) (x : Started) (named : Bool) : (mxFail c x named s).Canonical :=
  canonical_mxComplete (canonical_ite (canonical_modMx h _ _) h) _ _ _ _

theorem canonical_simpleCmd {effect : Started → State → Nat × Nat × State} (h : s.Canonical)
    (heffect : ∀ y0 y1, y1.Canonical → (effect y0 y1).2.2.Canonical) (cmd : Cmd)
    (check : Started → State → Option (Nat × Nat)) (named : Bool) : (simpleCmd cmd check named effect s).Canonical :=
  canonical_runCmd h (fun x t ht => canonical_ite (canonical_mxFail ht _ _ _) (canonical_mxComplete
    (heffect x t ht) _ _ _ _)) _ _ _

theorem canonical_execMxMode (h : s.Canonical) (cmd : Cmd) : CanonicalOutcome (execMxMode cmd s) :=
  canonicalOutcome_next.2 (canonical_simpleCmd h (fun _ _ ht => canonical_triple (canonical_modMx ht _ _)) _ _ _)

theorem canonical_execMxZero (h : s.Canonical) (cmd : Cmd) : CanonicalOutcome (execMxZero cmd s) :=
  canonicalOutcome_next.2 (canonical_simpleCmd h (fun _ _ ht => canonical_triple (canonical_modMx ht _ _)) _ _ _)

theorem canonical_leaveRing (h : s.Canonical) (c : Nat) : (leaveRing c s).Canonical := by
  unfold leaveRing
  split
  · exact h
  extract_lets +onlyGivenNames s' u
  have hs' : s'.Canonical := canonical_modMx h _ _
  exact canonical_ite (canonical_modMx hs' _ _) hs'

theorem canonical_execMxRing (h : s.Canonical) (cmd : Cmd) : CanonicalOutcome (execMxRing cmd s) :=
  canonicalOutcome_next.2 (canonical_simpleCmd h (fun _ _ ht => canonical_triple (canonical_modMx
    (canonical_leaveRing ht _) _ _)) _ _ _)

theorem canonical_mxAccessFault (h : s.Canonical) (c : Nat) (x : Started) (e : Exc) (requested done : Nat) :
    (mxAccessFault c x e requested done s).Canonical := by
  unfold mxAccessFault
  split
  · exact canonical_ite (canonical_mxWait (canonical_setCur h _ _) _ _ _) (canonical_mxStop h _ _ _)
  · exact canonical_mxStop h _ _ _

/-- What the rows of a matrix command hand on: the state, and the state of a row that stopped. -/
def RowsCanonical (r : Started × Option State × State) : Prop := CanonicalOption r.2.1 ∧ r.2.2.Canonical

theorem canonical_execMxLda (h : s.Canonical) (cmd : Cmd) : CanonicalOutcome (execMxLda cmd s) := by
  unfold execMxLda
  extract_lets n src len ss aoff ds
  refine canonicalOutcome_next.2 (canonical_runCmd h (fun x t ht => ?_) _ _ _)
  extract_lets c w row
  have hrow (r i) (hr : RowsCanonical r) : RowsCanonical (row r i) := by
    obtain ⟨x, stop, t⟩ := r
    obtain ⟨hstop, ht⟩ := hr
    simp only [row]
    split
    · exact ⟨hstop, ht⟩
    split
    · exact ⟨canonicalOption_some.2 (canonical_mxAccessFault ht _ _ _ _ _), ht⟩
    · exact ⟨canonicalOption_some.2 (canonical_setCur ((canonical_bulkLoad ht _ _ _).of_stall ‹_›) _ _), ht⟩
    · refine ⟨canonicalOption_none, ?_⟩
      dsimp only
      refine canonical_modMx (canonical_foldl _ _ (fun u r hu => ?_)
        (canonical_physWrite ((canonical_bulkLoad ht _ _ _).of_ok ‹_›) _ _ _)) _ _
      refine canonical_ite ?_ hu
      exact ⟨hu.mem, hu.cdata, hu.tags, hu.ctags, canon_setMarks hu.poison _ _ _, hu.cpoison⟩
  split
  · exact canonical_mxFail ht _ _ _
  split
  · exact canonical_mxAccessFault ht _ _ _ _ _
  have hrows : RowsCanonical ((List.range n).foldl row (x, none, t)) :=
    List.foldlRecOn _ _ ⟨canonicalOption_none, ht⟩ fun r hr i _ => hrow r i hr
  split
  rename_i heq
  rw [heq] at hrows
  split
  · exact hrows.1 _ rfl
  · exact canonical_mxComplete hrows.2 _ _ _ _

theorem canonical_execMxLdb (h : s.Canonical) (cmd : Cmd) : CanonicalOutcome (execMxLdb cmd s) := by
  unfold execMxLdb
  extract_lets +onlyGivenNames n off f w scaled int block
  exact canonicalOutcome_next.2 (canonical_runCmd h (fun _ _ h => canonical_ite (canonical_mxFail (canonical_ite
    (canonical_modMx h _ _) h) _ _ _) (canonical_mxComplete (canonical_modMx h _ _) _ _ _ _)) _ _ _)

theorem canonical_mulCmdApply (h : s.Canonical) (m : MulCmd) (x : Started) (q0 q1 : Nat) :
    (MulCmd.apply m x q0 q1 s).2.Canonical := by
  unfold MulCmd.apply
  extract_lets +onlyGivenNames c n v bad args s' d
  have hv : v.Canonical := canonical_startedOverlay h _ _
  have hs' : s'.Canonical := canonical_modMx h _ _
  exact hs'

theorem canonical_residueCheck (h : s.Canonical) (m : MulCmd) (x : Started) : (residueCheck m x s).2.Canonical := by
  unfold residueCheck
  split
  · exact h
  extract_lets +onlyGivenNames c p s'
  have hs' : s'.Canonical := canonical_modMx h _ _
  exact canonical_queueRecord hs' _

theorem canonical_mulCmdFinish (h : s.Canonical) (m : MulCmd) (x : Started) : (MulCmd.finish m x s).Canonical := by
  unfold MulCmd.finish
  split
  extract_lets +onlyGivenNames p
  exact canonical_mxComplete (canonical_of_pair (canonical_residueCheck h _ _) ‹_›) _ _ _ _

theorem canonical_execMxMma (h : s.Canonical) (cmd : Cmd) : CanonicalOutcome (execMxMma cmd s) := by
  unfold execMxMma
  extract_lets +onlyGivenNames m hi
  refine canonicalOutcome_next.2 (canonical_runCmd h (fun _ _ h => canonical_ite (canonical_mxFail h _ _ _) ?_) _ _ _)
  split
  · exact canonical_mulCmdFinish (canonical_of_pair (canonical_mulCmdApply h _ _ _ _) ‹_›) _ _

theorem canonical_takeFirst (h : s.Canonical) (c : Nat) (r : Ring) : (takeFirst c r s).Canonical := by
  unfold takeFirst
  extract_lets +onlyGivenNames x
  split
  · exact canonical_ite (canonical_modMx h _ _) h
  · exact h

theorem canonical_rotateTry (h : s.Canonical) (c : Nat) : (rotateTry c s).Canonical := by
  unfold rotateTry
  split
  · exact h
  extract_lets +onlyGivenNames s' x u takes s2 x'
  have hs' : s'.Canonical := canonical_takeFirst h _ _
  have hs2 : s2.Canonical := canonical_ite (canonical_modMx (canonical_modMx hs' _ _) _ _) hs'
  exact canonical_ite (canonical_modMx hs2 _ _) hs2

theorem canonical_ringWait (h : s.Canonical) (c : Nat) : (ringWait c s).Canonical := by
  unfold ringWait
  split
  · exact h
  · exact canonical_ite (canonical_mxWait h _ _ _) (canonical_mxWait h _ _ _)

theorem canonical_rotateStep {rest : Started → State → State} (h : s.Canonical)
    (hrest : ∀ y0 y1, y1.Canonical → (rest y0 y1).Canonical) (c : Nat) (x : Started) : (rotateStep c x rest s).Canonical :=
    by
  unfold rotateStep
  extract_lets +onlyGivenNames n t
  have ht : t.Canonical := canonical_rotateTry (canonical_setCur h _ _) _
  exact canonical_ite (canonical_ringWait ht _) (hrest _ _ (canonical_setCur (canonical_mxRun ht _) _ _))

theorem canonical_rotateOnly (h : s.Canonical) (x : Started) (named countBad : Bool) :
    (rotateOnly x named countBad s).Canonical := by
  unfold rotateOnly
  extract_lets +onlyGivenNames c
  exact canonical_ite (canonical_mxFail h _ _ _) (canonical_rotateStep h (fun _ _ h => canonical_ite
    (canonical_mxFail h _ _ _) h) _ _)

theorem canonical_execMxRot (h : s.Canonical) (cmd : Cmd) : CanonicalOutcome (execMxRot cmd s) :=
  canonicalOutcome_next.2 (canonical_runCmd h (fun _ _ h => canonical_rotateOnly h _ _ _) _ _ _)

theorem canonical_execMxMmar (h : s.Canonical) (cmd : Cmd) : CanonicalOutcome (execMxMmar cmd s) := by
  unfold execMxMmar
  extract_lets +onlyGivenNames m bad
  refine canonicalOutcome_next.2 (canonical_runCmd h (fun _ _ h => canonical_ite (canonical_rotateOnly h _ _ _)
    (canonical_ite (canonical_mulCmdFinish h _ _) (canonical_ite (canonical_rotateOnly (canonical_setCur
    (canonical_modMx h _ _) _ _) _ _ _) ?_))) _ _ _)
  split
  · exact canonical_rotateStep (canonical_of_pair (canonical_ite_snd h (canonical_mulCmdApply h _ _ _ _)) ‹_›)
      (fun _ _ h => canonical_ite (canonical_mulCmdFinish h _ _) h) _ _

theorem canonical_execRotationStep (h : s.Canonical) (c : Nat) : CanonicalOutcome (execRotationStep c s) := by
  unfold execRotationStep
  refine canonicalOutcome_next.2 ?_
  split
  · exact canonical_ite (canonical_ite (canonical_ringWait (canonical_rotateTry h _) _) (canonical_setCur (canonical_mxRun
      (canonical_rotateTry h _) _) _ _)) h
  · exact h

theorem canonical_sendPartial (h : s.Canonical) (c : Nat) (p : Partial) : CanonicalOption (sendPartial c p s) := by
  unfold sendPartial
  split
  · exact canonicalOption_none
  extract_lets +onlyGivenNames u
  exact canonicalOption_ite (canonicalOption_some.2 (canonical_modMx (canonical_modMx h _ _) _ _)) canonicalOption_none

theorem canonical_usePartial (h : s.Canonical) (c : Nat) (r : Ring) : (usePartial c r s).Canonical :=
  canonical_modMx h _ _

theorem canonical_execMxRed (h : s.Canonical) (cmd : Cmd) : CanonicalOutcome (execMxRed cmd s) := by
  unfold execMxRed
  extract_lets +onlyGivenNames bad n
  refine canonicalOutcome_next.2 (canonical_runCmd h (fun _ _ h => ?_) _ _ _)
  extract_lets +onlyGivenNames c
  split
  · exact canonical_mxFail h _ _ _
  split
  · exact canonical_mxFail h _ _ _
  extract_lets +onlyGivenNames failed rel own finish
  split
  · exact canonical_mxWait h _ _ _
  extract_lets +onlyGivenNames q
  split
  · extract_lets +onlyGivenNames t
    have ht : t.Canonical := canonical_usePartial h _ _
    exact canonical_ite (canonical_mxFail (canonical_modMx (canonical_ite ht (canonical_modMx ht _ _)) _ _) _ _ _)
      (canonical_mxComplete (canonical_modMx (canonical_ite ht (canonical_modMx ht _ _)) _ _) _ _ _ _)
  split
  · exact canonical_ite (canonical_mxFail (canonical_modMx (canonical_ite ((canonical_sendPartial h _ _) _ ‹_›)
      (canonical_usePartial ((canonical_sendPartial h _ _) _ ‹_›) _ _)) _ _) _ _ _) (canonical_mxComplete (canonical_modMx
      (canonical_ite ((canonical_sendPartial h _ _) _ ‹_›) (canonical_usePartial
      ((canonical_sendPartial h _ _) _ ‹_›) _ _)) _ _) _ _ _ _)
  · exact canonical_mxWait h _ _ _

theorem canonical_execMxScx (h : s.Canonical) (cmd : Cmd) : CanonicalOutcome (execMxScx cmd s) := by
  unfold execMxScx
  extract_lets +onlyGivenNames sel
  exact canonicalOutcome_next.2 (canonical_runCmd h (fun _ _ h => canonical_ite (canonical_mxFail h _ _ _) (canonical_ite
    (canonical_mxRun h _) (canonical_mxComplete (canonical_modCore h _ _) _ _ _ _))) _ _ _)

theorem canonical_broadcastTry (h : s.Canonical) (k : Nat) : (broadcastTry k s).Canonical := by
  unfold broadcastTry
  split
  · split
    · split
      · extract_lets +onlyGivenNames v
        exact canonical_foldl _ _ (fun _ _ h => canonical_modMx h _ _) h
      · exact h
    · exact h
  · exact h

theorem canonical_mxStore (h : s.Canonical) (w : Who) (a : Nat) (l : List Byte) (poison : Bool) :
    (mxStore w a l poison s).Canonical :=
  Res.Canonical.bind (canonical_bulkStore h _ _ _) (fun _ _ h => Res.canonical_ite (Res.Canonical.bind
    (canonical_locateParts (canonical_drainAgent h _ _) _ _ _ _) (fun _ _ h => canonical_foldl _ _
    (fun _ _ h => canonical_carryPoison h _ _ _ _) h)) h)

theorem canonical_execMxStc (h : s.Canonical) (cmd : Cmd) : CanonicalOutcome (execMxStc cmd s) := by
  unfold execMxStc
  extract_lets n dest stride first ofmt smode sfix sdest len int bad2 total
  refine canonicalOutcome_next.2 (canonical_runCmd h (fun x t ht => ?_) _ _ _)
  extract_lets c w a p t1 x1 t2
  have h1 : t1.Canonical := canonical_ite (canonical_setCur (canonical_modMx ht _ _) _ _) ht
  have h2 : t2.Canonical := canonical_ite (canonical_broadcastTry h1 _) h1
  clear_value t2
  split
  · exact canonical_mxFail ht _ _ _
  split
  · exact canonical_mxWait h2 _ _ _
  extract_lets x2 row
  have hrow (r i) (hr : RowsCanonical r) : RowsCanonical (row r i) := by
    obtain ⟨x, stop, t⟩ := r
    obtain ⟨hstop, ht⟩ := hr
    simp only [row]
    split
    · exact ⟨hstop, ht⟩
    split
    · exact ⟨canonicalOption_some.2 (canonical_mxAccessFault ht _ _ _ _ _), ht⟩
    · exact ⟨canonicalOption_some.2 (canonical_setCur ((canonical_mxStore ht _ _ _ _).of_stall ‹_›) _ _), ht⟩
    · exact ⟨canonicalOption_none, (canonical_mxStore ht _ _ _ _).of_ok ‹_›⟩
  split
  · exact canonical_mxAccessFault h2 _ _ _ _ _
  have hrows : RowsCanonical ((List.range (if sdest = 0 then n else n + 1)).foldl row (x2, none, mxRun c t2)) :=
    List.foldlRecOn _ _ ⟨canonicalOption_none, canonical_mxRun h2 _⟩ fun r hr i _ => hrow r i hr
  split
  rename_i heq
  rw [heq] at hrows
  split
  · exact hrows.1 _ rfl
  · exact canonical_mxComplete (canonical_modMx hrows.2 _ _) _ _ _ _

theorem canonical_startSync (h : s.Canonical) (c : Nat) (x : Started) : (startSync c x s).Canonical := by
  unfold startSync
  split
  · exact h
  extract_lets +onlyGivenNames s'
  have hs' : s'.Canonical := canonical_setCur h _ _
  split
  · exact canonical_ite (canonical_foldl _ _ (fun _ _ h => canonical_modMx h _ _) hs') hs'
  · exact hs'

theorem canonical_execMxSync (h : s.Canonical) (cmd : Cmd) : CanonicalOutcome (execMxSync cmd s) := by
  unfold execMxSync
  extract_lets +onlyGivenNames bad
  refine canonicalOutcome_next.2 (canonical_runCmd h (fun _ _ h => canonical_ite (canonical_mxFail h _ _ _) (canonical_ite
    (canonical_mxComplete (canonical_startSync h _ _) _ _ _ _) ?_)) _ _ _)
  split
  · exact canonical_mxWait (canonical_startSync h _ _) _ _ _
  · exact canonical_startSync h _ _

theorem canonical_execMxFmap (h : s.Canonical) (cmd : Cmd) : CanonicalOutcome (execMxFmap cmd s) := by
  unfold execMxFmap
  extract_lets +onlyGivenNames dest
  refine canonicalOutcome_next.2 (canonical_runCmd h (fun _ _ h => canonical_ite (canonical_mxFail h _ _ _) (canonical_ite
    (canonical_mxComplete h _ _ _ _) ?_)) _ _ _)
  split
  · exact canonical_mxAccessFault h _ _ _ _ _
  split
  · exact canonical_mxAccessFault h _ _ _ _ _
  · exact (canonical_bulkStore h _ _ _).of_stall ‹_›
  · exact canonical_mxComplete ((canonical_bulkStore h _ _ _).of_ok ‹_›) _ _ _ _

theorem canonical_mxIllegal (h : s.Canonical) (cmd : Cmd) : (mxIllegal cmd s).Canonical :=
  canonical_runCmd h (fun _ _ h => canonical_mxFail h _ _ _) _ _ _

theorem canonical_execScanStart (h : s.Canonical) (die : Nat) : CanonicalOutcome (execScanStart die s) := by
  unfold execScanStart
  split
  · exact canonicalOutcome_next.2 h
  split
  · exact canonicalOutcome_next.2 (canonical_update (canonical_modMx h _ _))
  · exact canonicalOutcome_next.2 h

theorem canonical_execScanFail (h : s.Canonical) (c : Nat) (cells : List (Nat × Nat)) :
    CanonicalOutcome (execScanFail c cells s) := by
  unfold execScanFail
  extract_lets +onlyGivenNames x
  exact canonicalOutcome_ite (canonicalOutcome_next.2 h) (canonicalOutcome_next.2 (canonical_foldl _ _
    (fun _ _ h => canonical_ite (canonical_modSlot h _ _ _) h) (canonical_queueRecord (canonical_modMx h _ _) _)))

theorem canonical_execRamp (h : s.Canonical) (c : Nat) : CanonicalOutcome (execRamp c s) := by
  unfold execRamp
  extract_lets +onlyGivenNames tile
  refine canonicalOutcome_next.2 ?_
  split
  · exact canonical_ite (canonical_modMx h _ _) h
  · exact canonical_ite (canonical_modMx h _ _) h

theorem canonical_execMxq (h : s.Canonical) (a b : Nat) : CanonicalOutcome (execMxq a b s) := by
  unfold execMxq
  split
  · exact canonicalOutcome_next.2 (canonical_illegal h)
  split
  · exact canonicalOutcome_next.2 ((canonical_issue h _ _).of_stop ‹_›)
  extract_lets +onlyGivenNames c
  exact canonicalOutcome_ite (canonicalOutcome_next.2 (canonical_waitFor (canonical_unpop
    ((canonical_issue h _ _).of_go ‹_›)) _ _ _ _)) (canonicalOutcome_next.2 (canonical_exposing h
    ((canonical_issue h _ _).of_go ‹_›) (fun _ h => canonical_complete (canonical_modMx (canonical_drainMe h) _ _) _) _ _))

theorem canonical_execMxwait (h : s.Canonical) (a : Nat) : CanonicalOutcome (execMxwait a s) := by
  unfold execMxwait
  split
  · exact canonicalOutcome_next.2 (canonical_illegal h)
  split
  · exact canonicalOutcome_next.2 ((canonical_issue h _ _).of_stop ‹_›)
  extract_lets +onlyGivenNames c n
  exact canonicalOutcome_ite (canonicalOutcome_next.2 (canonical_trapMe h _ _)) (canonicalOutcome_ite
    (canonicalOutcome_next.2 (canonical_complete ((canonical_issue h _ _).of_go ‹_›) _)) (canonicalOutcome_next.2
    (canonical_waitFor (canonical_modMe (canonical_unpop ((canonical_issue h _ _).of_go ‹_›)) _) _ _ _ _)))

theorem canonical_execMxcure (h : s.Canonical) (a : Nat) : CanonicalOutcome (execMxcure a s) := by
  unfold execMxcure
  split
  · exact canonicalOutcome_next.2 (canonical_illegal h)
  split
  · exact canonicalOutcome_next.2 ((canonical_issue h _ _).of_stop ‹_›)
  extract_lets +onlyGivenNames c n
  split
  · exact canonicalOutcome_next.2 (canonical_trapMe h _ _)
  split
  · exact canonicalOutcome_next.2 (canonical_trapMe h _ _)
  · exact canonicalOutcome_ite (canonicalOutcome_next.2 (canonical_complete ((canonical_issue h _ _).of_go ‹_›) _))
      (canonicalOutcome_next.2 (canonical_waitFor (canonical_modMe (canonical_unpop
      ((canonical_issue h _ _).of_go ‹_›)) _) _ _ _ _))

end Sys2Proof.Machine
end

section
/-! SUPPORT. Control and status registers keep memory and its marks in canonical form. -/

namespace Sys2Proof.Machine

open Host (Outcome)

variable {s : State}

theorem canonical_setRoles (h : s.Canonical) (c : Nat) (v : Word) : (setRoles c v s).Canonical := by
  unfold setRoles
  refine canonical_modCore (canonical_foldl _ _ (fun t b ht => ?_) (canonical_foldl _ _
    (fun _ _ h => canonical_leaveBanks h _) h)) _ _
  exact ⟨SMap.canon_filter 0 ht.mem _, ht.cdata, SMap.canon_filter false ht.tags _, ht.ctags, SMap.canon_filter false
    ht.poison _,
    ht.cpoison⟩

theorem canonical_setArray (h : s.Canonical) (c : Nat) (base cap : Option Nat) : (setArray c base cap s).Canonical :=
  canonical_modCore h _ _

theorem canonical_csrWrite (h : s.Canonical) (n v : Nat) : (csrWrite n v s).Canonical := by
  unfold csrWrite
  extract_lets +onlyGivenNames c
  split
  · exact canonical_modMe h _
  split
  · split
    · exact canonical_noteCount (canonical_modCore h _ _) _ _
    split
    · exact canonical_setRoles h _ _
    · exact canonical_setArray h _ _ _
    · exact canonical_setArray (canonical_modCore h _ _) _ _ _
    · exact canonical_modCore h _ _
    · exact canonical_modCore h _ _
    · exact canonical_modCore h _ _
    · exact canonical_modCore h _ _
    · exact canonical_modCore h _ _
    · exact canonical_modCore h _ _
    · exact canonical_modCore h _ _
    · exact canonical_modCore h _ _
    · exact h
  split
  · exact canonical_modLink h _ _
  split
  · exact canonical_update h
  · exact canonical_update h
  · exact canonical_update h
  · exact canonical_update h
  · exact h

theorem canonical_csrPut {t : State} (h : s.Canonical) (ht : t.Canonical) (n v : Nat) (reads : List Nat) :
    (csrPut n v reads s t).Canonical :=
  canonical_ite (canonical_illegal h) (canonical_ite (canonical_exposing h ht (fun _ h => canonical_ite (canonical_complete
    (canonical_csrWrite h _ _) _) (canonical_ite (canonical_complete h _) (canonical_ite (canonical_stallOp
    (canonical_modCore h _ _) _ _) (canonical_complete (canonical_csrWrite h _ _) _)))) _ _) (canonical_ite
    (canonical_complete (canonical_csrWrite ht _ _) _) (canonical_ite (canonical_complete ht _) (canonical_ite
    (canonical_stallOp (canonical_modCore ht _ _) _ _) (canonical_complete (canonical_csrWrite ht _ _) _)))))

theorem canonical_csrOp (h : s.Canonical) (n a : Nat) (f : Nat → Nat → Nat) : (csrOp n a f s).Canonical := by
  unfold csrOp
  split
  · exact canonical_illegal h
  split
  · exact canonical_illegal h
  split
  · exact (canonical_issue h _ _).of_stop ‹_›
  · exact canonical_csrPut h ((canonical_issue h _ _).of_go ‹_›) _ _ _

theorem canonical_execCsrr (h : s.Canonical) (d csr : Nat) : CanonicalOutcome (execCsrr d csr s) := by
  unfold execCsrr
  split
  · exact canonicalOutcome_next.2 (canonical_illegal h)
  split
  · exact canonicalOutcome_next.2 ((canonical_issue h _ _).of_stop ‹_›)
  · exact canonicalOutcome_next.2 (canonical_complete (canonical_writeField ((canonical_issue h _ _).of_go ‹_›) _ _) _)

theorem canonical_execBankroleChange (h : s.Canonical) (c : Nat) : CanonicalOutcome (execBankroleChange c s) := by
  unfold execBankroleChange
  split
  · exact canonicalOutcome_ite (canonicalOutcome_next.2 h) (canonicalOutcome_next.2 (canonical_ite (canonical_modSlot
      (canonical_setRoles h _ _) _ _ _) (canonical_setRoles h _ _)))
  · exact canonicalOutcome_next.2 h

end Sys2Proof.Machine
end

section
/-! SUPPORT. The debug port keeps memory and its marks in canonical form. -/

namespace Sys2Proof.Machine

open Host (Outcome)

variable {s : State}

theorem canonical_haltSlot (h : s.Canonical) (c k : Nat) : (haltSlot c k s).Canonical :=
  canonical_ite h (canonical_ite (canonical_modSlot (canonical_giveBack h _ _) _ _ _) (canonical_modSlot h _ _ _))

theorem canonical_execDebugHalt (h : s.Canonical) (c : Nat) (slots engine seq : Bool) :
    CanonicalOutcome (execDebugHalt c slots engine seq s) := by
  unfold execDebugHalt
  extract_lets +onlyGivenNames t t' t2
  have ht : t.Canonical := canonical_modCore h _ _
  have ht' : t'.Canonical := canonical_ite (canonical_foldl _ _ (fun _ _ h => canonical_haltSlot h _ _) ht) ht
  have ht2 : t2.Canonical := canonical_ite (canonical_modEng ht' _ _) ht'
  exact canonicalOutcome_next.2 (canonical_ite (canonical_modMx ht2 _ _) ht2)

theorem canonical_asDebugger {f : State → State} (h : s.Canonical) (hf : ∀ y0, y0.Canonical → (f y0).Canonical)
    (c k : Nat) : (asDebugger c k f s).Canonical :=
  canonical_update (canonical_modMe (hf _ (canonical_modMe (canonical_update h) _)) _)

theorem canonical_execDebugReadRegister (h : s.Canonical) (c k r : Nat) :
    CanonicalOutcome (execDebugReadRegister c k r s) := by
  unfold execDebugReadRegister
  split
  · exact canonicalOutcome_ite (canonicalOutcome_next.2 (canonical_update h)) (canonicalOutcome_next.2 h)
  · exact canonicalOutcome_next.2 h

theorem canonical_debugWrite (h : s.Canonical) (c k r v : Nat) (tag : Bool) : (debugWrite c k r v tag s).Canonical :=
  canonical_ite (canonical_modSlot h _ _ _) (canonical_ite (canonical_modSlot (canonical_leaveBlocked h _ _) _ _ _)
    (canonical_ite (canonical_modSlot h _ _ _) (canonical_ite (canonical_modSlot h _ _ _) (canonical_ite
    (canonical_asDebugger h (fun _ h => canonical_ite h (canonical_ite (canonical_modCore h _ _)
    (canonical_csrWrite h _ _))) _ _) h))))

theorem canonical_execDebugWriteRegister (h : s.Canonical) (c k r v : Nat) (src : Option Nat) :
    CanonicalOutcome (execDebugWriteRegister c k r v src s) :=
  canonicalOutcome_ite (canonicalOutcome_next.2 (canonical_debugWrite h _ _ _ _ _)) (canonicalOutcome_next.2 h)

theorem canonical_execDebugResume (h : s.Canonical) (c : Nat) : CanonicalOutcome (execDebugResume c s) := by
  unfold execDebugResume
  extract_lets +onlyGivenNames wake t t'
  have ht : t.Canonical := canonical_foldl _ _ (fun _ _ h => canonical_modSlot h _ _ _) h
  have ht' : t'.Canonical := canonical_ite (canonical_modEng ht _ _) ht
  exact canonicalOutcome_next.2 (canonical_ite (canonical_modMx ht' _ _) ht')

end Sys2Proof.Machine
end

section
/-! SUPPORT. Integer instructions keep memory and its marks in canonical form. -/

namespace Sys2Proof.Machine

open Host (Outcome)

variable {s : State}

theorem canonical_execSel (h : s.Canonical) (d a b g : Nat) : CanonicalOutcome (execSel d a b g s) := by
  unfold execSel
  split
  · exact canonicalOutcome_next.2 ((canonical_issue h _ _).of_stop ‹_›)
  extract_lets +onlyGivenNames x y
  exact canonicalOutcome_next.2 (canonical_complete (canonical_writeField ((canonical_issue h _ _).of_go ‹_›) _ _) _)

theorem canonical_execLih (h : s.Canonical) (d imm : Nat) : CanonicalOutcome (execLih d imm s) := by
  unfold execLih
  split
  · exact canonicalOutcome_next.2 ((canonical_issue h _ _).of_stop ‹_›)
  · exact canonicalOutcome_next.2 (canonical_complete (canonical_writeField ((canonical_issue h _ _).of_go ‹_›) _ _) _)

end Sys2Proof.Machine
end

section
/-! SUPPORT. System instructions keep memory and its marks in canonical form. -/

namespace Sys2Proof.Machine

open Host (Outcome)

variable {s : State}

theorem canonical_execSyscall (h : s.Canonical) (i a : Nat) : CanonicalOutcome (execSyscall i a s) := by
  unfold execSyscall
  split
  · exact canonicalOutcome_next.2 ((canonical_issue h _ _).of_stop ‹_›)
  extract_lets +onlyGivenNames token u
  have hu : u.Canonical := canonical_setTpc (canonical_modMe ((canonical_issue h _ _).of_go ‹_›) _) _
  exact canonicalOutcome_next.2 (canonical_serviceTrap hu _ _ _ _ _ _ _ _)

theorem canonical_execBrk (h : s.Canonical) : CanonicalOutcome (execBrk s) :=
  canonicalOutcome_ite (canonicalOutcome_next.2 (canonical_modMe h _)) (canonicalOutcome_next.2 (canonical_trapMe h _ _))

theorem canonical_freeFrame (h : s.Canonical) (ks p : Nat) : (freeFrame ks p s).Canonical :=
  canonical_placeNext (canonical_modCore h _ _) _

theorem canonical_eretService (h : s.Canonical) (p : Nat) : (eretService p s).Canonical := by
  unfold eretService
  extract_lets ks at_ word u t
  have hu : u.Canonical := canonical_modMe h _
  have ht : t.Canonical := by
    unfold t
    split
    · exact hu
    refine canonical_ite (canonical_freeFrame hu _ _) ?_
    split
    · exact canonical_freeFrame (canonical_restoreHeld hu _ _ _) _ _
    · exact canonical_trapAt (canonical_freeFrame (canonical_restoreHeld hu _ _ _) _ _) _ _ _ _ _
    · exact canonical_killSlot (canonical_freeFrame hu _ _) _ _ _
  exact canonical_bumpOnce (canonical_bumpCore ht _) _

theorem canonical_execEret (h : s.Canonical) : CanonicalOutcome (execEret s) := by
  unfold execEret
  extract_lets +onlyGivenNames y
  split
  · exact canonicalOutcome_next.2 (canonical_ite (canonical_eretUser h) (canonical_illegal h))
  split
  · exact canonicalOutcome_next.2 (canonical_eretService h _)
  · exact canonicalOutcome_next.2 (canonical_illegal h)

theorem canonical_execInstructionFetchFault (h : s.Canonical) (cause : Nat) :
    CanonicalOutcome (execInstructionFetchFault cause s) := by
  unfold execInstructionFetchFault
  extract_lets +onlyGivenNames acc
  split
  · exact canonicalOutcome_ite (canonicalOutcome_next.2 (canonical_raise h _ _)) (canonicalOutcome_next.2 h)
  · exact canonicalOutcome_next.2 h

end Sys2Proof.Machine
end

section
/-! SUPPORT. The wait-for graph keeps memory and its marks in canonical form. -/

namespace Sys2Proof.Machine

open Host (Outcome)

variable {s : State}

theorem canonical_restartCount (h : s.Canonical) (p : Nat) : (restartCount p s).Canonical := by
  unfold restartCount
  split
  · exact canonical_modSlot h _ _ _
  · exact canonical_update h

theorem canonical_execProbeRequest (h : s.Canonical) (p : Nat) : CanonicalOutcome (execProbeRequest p s) := by
  unfold execProbeRequest
  split
  · exact canonicalOutcome_next.2 h
  extract_lets +onlyGivenNames x
  exact canonicalOutcome_ite (canonicalOutcome_next.2 h) (canonicalOutcome_ite (canonicalOutcome_next.2
    (canonical_restartCount h _)) (canonicalOutcome_next.2 (canonical_update (canonical_restartCount h _))))

theorem canonical_overBudget (h : s.Canonical) (p : Nat) (x : Explored) : (overBudget p x s).Canonical := by
  unfold overBudget
  extract_lets count set
  have hset (n : Nat) : (set n s).Canonical := by
    unfold set
    split
    · exact canonical_modSlot h _ _ _
    · exact canonical_update h
  refine canonical_ite (hset _) ?_
  split
  · exact canonical_queueRecord (hset _) _
  · exact h

theorem canonical_settleCount (h : s.Canonical) (p : Nat) : (settleCount p s).Canonical := by
  unfold settleCount
  split
  · exact canonical_modSlot h _ _ _
  · exact canonical_update h

theorem canonical_debugReport (h : s.Canonical) (p visits result : Nat) (l : List Nat) :
    (debugReport p visits result l s).Canonical :=
  canonical_ite (canonical_update h) (canonical_update h)

theorem canonical_execProbe (h : s.Canonical) (p : Nat) : CanonicalOutcome (execProbe p s) := by
  unfold execProbe
  split
  · exact canonicalOutcome_next.2 h
  extract_lets +onlyGivenNames t
  have ht : t.Canonical := canonical_update h
  split
  · exact canonicalOutcome_next.2 ht
  split
  split
  · extract_lets +onlyGivenNames nodes y
    exact canonicalOutcome_next.2 (canonical_update (canonical_settleCount ht _))
  split
  · exact canonicalOutcome_next.2 (canonical_ite (canonical_debugReport (canonical_settleCount ht _) _ _ _ _) (canonical_ite
      (canonical_overBudget ht _ _) (canonical_settleCount ht _)))

theorem canonical_abandonProbe (h : s.Canonical) (x : Probe) : (abandonProbe x s).Canonical :=
  canonical_update h

theorem canonical_execConfirm (h : s.Canonical) (p : Nat) : CanonicalOutcome (execConfirm p s) := by
  unfold execConfirm
  split
  · exact canonicalOutcome_next.2 h
  split
  · exact canonicalOutcome_next.2 (canonical_abandonProbe h _)
  split
  · exact canonicalOutcome_next.2 (canonical_update h)
  · exact canonicalOutcome_next.2 (canonical_abandonProbe h _)

theorem canonical_execProbeAbandon (h : s.Canonical) (p : Nat) : CanonicalOutcome (execProbeAbandon p s) := by
  unfold execProbeAbandon
  split
  · exact canonicalOutcome_next.2 (canonical_abandonProbe h _)
  · exact canonicalOutcome_next.2 h

theorem canonical_commitFault (h : s.Canonical) (x : Probe) (gen : Nat) : (commitFault x gen s).Canonical := by
  unfold commitFault
  extract_lets +onlyGivenNames s'
  have hs' : s'.Canonical := canonical_update h
  split
  · extract_lets +onlyGivenNames s2 s3
    have hs2 : s2.Canonical := canonical_leaveBlocked (canonical_leaveLock (canonical_leaveCompose hs' _ _) _ _) _ _
    have hs3 : s3.Canonical := canonical_modSlot hs2 _ _ _
    exact canonical_update hs3
  extract_lets +onlyGivenNames s2
  have hs2 : s2.Canonical := canonical_queueRecord (canonical_update hs') _
  exact canonical_endTask hs2 _ _ _

theorem canonical_postFault (h : s.Canonical) (x : Probe) : (postFault x s).Canonical := by
  have hp : CanonicalSecond (if s.records.any fun q => q.tenant == x.tenant then none else postNow (x.record s.clock) s) :=
    canonicalSecond_ite canonicalSecond_none (canonical_postNow h _)
  unfold postFault
  split
  · exact h
  extract_lets u
  have hu : u.Canonical := canonical_update (hp _ ‹_›)
  split
  · exact canonical_ite hu (canonical_trapAt (canonical_modSlot hu _ _ _) _ _ _ _ _)
  · exact hu

theorem canonical_execFaultDelivery (h : s.Canonical) (p : Nat) : CanonicalOutcome (execFaultDelivery p s) := by
  unfold execFaultDelivery
  split
  · exact canonicalOutcome_next.2 h
  · exact canonicalOutcome_ite (canonicalOutcome_next.2 (canonical_postFault h _)) (canonicalOutcome_ite
      (canonicalOutcome_next.2 (canonical_abandonProbe h _)) (canonicalOutcome_ite (canonicalOutcome_next.2 (canonical_ite
      (canonical_postFault (canonical_commitFault h _ _) _) (canonical_commitFault h _ _))) (canonicalOutcome_next.2
      (canonical_abandonProbe h _))))

end Sys2Proof.Machine
end

section
/-! SUPPORT. Service instructions keep memory and its marks in canonical form. -/

namespace Sys2Proof.Machine

open Host (Outcome)

variable {s : State}

theorem canonical_purge (h : s.Canonical) (lo hi : Nat) : (purge lo hi s).Canonical :=
  canonical_update h

theorem canonical_dropLine (h : s.Canonical) (home va : Nat) : (dropLine home va s).Canonical :=
  canonical_foldl _ _ (fun _ _ h => canonical_dropSector h _ _) h

theorem canonical_cut (h : s.Canonical) (lo hi : Nat) : (cut lo hi s).Canonical :=
  canonical_foldl _ _ (fun _ _ h => canonical_ite (canonical_ite (canonical_dropLine h _ _) (canonical_evictLine h _ _)) h) h

theorem canonical_invalDone (h : s.Canonical) (c k : Nat) : (invalDone c k s).Canonical :=
  canonical_modSlot (canonical_update h) _ _ _

theorem canonical_afterPurge {t : State} (ht : t.Canonical) (v : Inval) (reads : List Nat) :
    (afterPurge v s t reads).Canonical :=
  canonical_ite (canonical_stallOp (canonical_update ht) _ _) (canonical_complete ht _)

theorem canonical_execPinval (h : s.Canonical) (a b : Nat) : CanonicalOutcome (execPinval a b s) := by
  unfold execPinval
  split
  · exact canonicalOutcome_next.2 (canonical_illegal h)
  split
  · exact canonicalOutcome_next.2 (canonical_ite h (canonical_invalDone h _ _))
  split
  · exact canonicalOutcome_next.2 ((canonical_issue h _ _).of_stop ‹_›)
  extract_lets +onlyGivenNames st len
  split
  · exact canonicalOutcome_next.2 (canonical_illegal h)
  extract_lets +onlyGivenNames t
  have ht : t.Canonical := canonical_drainMe ((canonical_issue h _ _).of_go ‹_›)
  split
  · exact canonicalOutcome_next.2 (canonical_stallOp ht _ _)
  split
  extract_lets +onlyGivenNames t' t2
  have ht' : t'.Canonical := canonical_settle ht _
  have ht2 : t2.Canonical := canonical_cut (canonical_purge ht' _ _) _ _
  exact canonicalOutcome_next.2 (canonical_afterPurge ht2 _ _)

theorem canonical_execPinvalComplete (h : s.Canonical) (c k : Nat) : CanonicalOutcome (execPinvalComplete c k s) := by
  unfold execPinvalComplete
  split
  · exact canonicalOutcome_next.2 (canonical_ite h (canonical_invalDone h _ _))
  · exact canonicalOutcome_next.2 h

theorem canonical_purgeRights (h : s.Canonical) (dom region : Option Nat) : (purgeRights dom region s).Canonical :=
  canonical_update h

theorem canonical_execPlbinv (h : s.Canonical) (a b : Nat) : CanonicalOutcome (execPlbinv a b s) := by
  unfold execPlbinv
  split
  · exact canonicalOutcome_next.2 (canonical_illegal h)
  split
  · exact canonicalOutcome_next.2 (canonical_ite h (canonical_invalDone h _ _))
  split
  · exact canonicalOutcome_next.2 ((canonical_issue h _ _).of_stop ‹_›)
  extract_lets +onlyGivenNames x region
  split
  extract_lets +onlyGivenNames t dom t'
  have ht : t.Canonical := canonical_settle ((canonical_issue h _ _).of_go ‹_›) _
  have ht' : t'.Canonical := canonical_purgeRights ht _ _
  exact canonicalOutcome_next.2 (canonical_afterPurge ht' _ _)

theorem canonical_setTenantState (h : s.Canonical) (t v : Nat) : (setTenantState t v s).Canonical :=
  canonical_tableWrite h _ _ _

theorem canonical_drainNet (h : s.Canonical) (t : Nat) (tiles : List Nat) : (drainNet t tiles s).Canonical :=
  canonical_foldl _ _ (fun _ _ h => canonical_netSend h _) (canonical_update h)

theorem canonical_beginStop (h : s.Canonical) (t : Nat) (tiles : List Nat) : (beginStop t tiles s).Canonical := by
  unfold beginStop
  extract_lets +onlyGivenNames s' s2 s3
  have hs' : s'.Canonical := canonical_setTenantState h _ _
  have hs2 : s2.Canonical := canonical_update hs'
  have hs3 : s3.Canonical := canonical_drainNet hs2 _ _
  exact canonical_foldl _ _ (fun _ _ h => canonical_modCore h _ _) hs3

theorem canonical_copyPhys (h : s.Canonical) (a b n : Nat) : (copyPhys a b n s).Canonical :=
  ⟨SMap.canon_foldl_set _ _ _ _ (SMap.canon_filter 0 h.mem _), h.cdata, SMap.canon_foldl_set _ _ _ _
    (SMap.canon_filter _ h.tags _),
    h.ctags, SMap.canon_foldl_set _ _ _ _ (SMap.canon_filter _ h.poison _), h.cpoison⟩

theorem canonical_writeSlotFrame (h : s.Canonical) (party a : Nat) (y : Slot) : (writeSlotFrame party a y s).Canonical :=
  canonical_writeFrame h (fun _ _ _ _ h => canonical_physWrite h _ _ _) _ _

theorem canonical_stopProbes (h : s.Canonical) (c : Nat) (l : List Nat) : (stopProbes c l s).Canonical :=
  canonical_foldl _ _ (fun _ _ h => canonical_abandonProbe h _) h

theorem canonical_saveCore (h : s.Canonical) (t c : Nat) : (saveCore t c s).Canonical := by
  unfold saveCore
  extract_lets +onlyGivenNames mine s' s2 s3 s4 b s5 s6 s7 x y
  have hs' : s'.Canonical := canonical_foldl _ _ (fun _ _ h => canonical_drainAgent h _ _) (canonical_stopProbes h _ _)
  have hs2 : s2.Canonical := canonical_foldl _ _ (fun _ _ h => canonical_ite (canonical_removeWaiter
    (canonical_abandon h _ _) _ _) h) hs'
  have hs3 : s3.Canonical := canonical_foldl _ _ (fun _ _ h => canonical_ite (canonical_modCore h _ _) h) hs2
  have hs4 : s4.Canonical := canonical_ite hs3 (canonical_stopCopy hs3 _)
  have hs5 : s5.Canonical := canonical_ite hs4 (canonical_copyPhys hs4 _ _ _)
  have hs6 : s6.Canonical := canonical_ite hs5 (canonical_physWrite hs5 _ _ _)
  have hs7 : s7.Canonical := canonical_foldl _ _ (fun _ _ h => canonical_ite
    (canonical_writeSlotFrame h _ _ _) h) hs6
  exact canonical_setCore (canonical_update hs7) _ _

theorem canonical_endStop (h : s.Canonical) (p : Stop) : (endStop p s).Canonical := by
  unfold endStop
  extract_lets +onlyGivenNames s'
  have hs' : s'.Canonical := canonical_foldl _ _ (fun _ _ h => canonical_saveCore h _ _) h
  exact canonical_modSlot (canonical_update hs') _ _ _

theorem canonical_execTstop (h : s.Canonical) (a : Nat) : CanonicalOutcome (execTstop a s) := by
  unfold execTstop
  split
  · exact canonicalOutcome_next.2 (canonical_illegal h)
  split
  · exact canonicalOutcome_next.2 (canonical_ite (canonical_endStop h _) h)
  split
  · exact canonicalOutcome_next.2 ((canonical_issue h _ _).of_stop ‹_›)
  extract_lets +onlyGivenNames x tenant tiles t p
  have ht : t.Canonical := canonical_stallOp (canonical_beginStop ((canonical_issue h _ _).of_go ‹_›) _ _) _ _
  exact canonicalOutcome_next.2 (canonical_ite (canonical_endStop ht _) ht)

theorem canonical_execTstopComplete (h : s.Canonical) (c k : Nat) : CanonicalOutcome (execTstopComplete c k s) := by
  unfold execTstopComplete
  split
  · exact canonicalOutcome_next.2 (canonical_ite (canonical_endStop h _) h)
  · exact canonicalOutcome_next.2 h

theorem canonical_restoreSlot (h : s.Canonical) (t c k a : Nat) (y : Slot) : (restoreSlot t c k a y s).Canonical := by
  unfold restoreSlot
  extract_lets +onlyGivenNames bad poisoned z s'
  extract_lets +onlyGivenNames s2
  have hs2 : s2.Canonical := canonical_setSlot h _ _ _
  exact canonical_ite (canonical_queueRecord (canonical_killSlot hs2 _ _ _) _) hs2

theorem canonical_holdAgain (h : s.Canonical) (c k : Nat) : (holdAgain c k s).Canonical :=
  canonical_ite (canonical_placeFrame h _ _) h

theorem canonical_restoreCore (h : s.Canonical) (t c : Nat) (o : Core) : (restoreCore t c o s).Canonical := by
  unfold restoreCore
  extract_lets +onlyGivenNames b s' s2 s3
  have hs' : s'.Canonical := canonical_ite h (canonical_copyPhys h _ _ _)
  have hs2 : s2.Canonical := canonical_modCore (canonical_update hs') _ _
  have hs3 : s3.Canonical := canonical_foldl _ _ (fun _ _ h => canonical_holdAgain
    (canonical_restoreSlot h _ _ _ _ _) _ _) hs2
  exact canonical_ite (canonical_resumeEngine hs3 _) hs3

theorem canonical_replayAbsence (h : s.Canonical) (t : Nat) : (replayAbsence t s).Canonical := by
  unfold replayAbsence
  split
  extract_lets +onlyGivenNames l s'
  have hs' : s'.Canonical := canonical_ite h (canonical_tableWrite h _ _ _)
  exact canonical_foldl _ _ (fun _ _ h => canonical_netSend h _) (canonical_update hs')

theorem canonical_resumeTenant (h : s.Canonical) (t : Nat) (tiles : List Nat) : (resumeTenant t tiles s).Canonical := by
  unfold resumeTenant
  extract_lets +onlyGivenNames l s' s2 s3
  have hs' : s'.Canonical := canonical_foldl _ _ (fun _ _ h => canonical_restoreCore h _ _ _) h
  have hs2 : s2.Canonical := canonical_update hs'
  have hs3 : s3.Canonical := canonical_replayAbsence hs2 _
  exact canonical_ite hs3 (canonical_setTenantState hs3 _ _)

theorem canonical_execTresume (h : s.Canonical) (a : Nat) : CanonicalOutcome (execTresume a s) := by
  unfold execTresume
  split
  · exact canonicalOutcome_next.2 (canonical_illegal h)
  split
  · exact canonicalOutcome_next.2 ((canonical_issue h _ _).of_stop ‹_›)
  extract_lets +onlyGivenNames x tenant tiles
  exact canonicalOutcome_next.2 (canonical_complete (canonical_resumeTenant ((canonical_issue h _ _).of_go ‹_›) _ _) _)

theorem canonical_execMxtest (h : s.Canonical) (a : Nat) : CanonicalOutcome (execMxtest a s) := by
  unfold execMxtest
  split
  · exact canonicalOutcome_next.2 (canonical_illegal h)
  split
  · exact canonicalOutcome_next.2 ((canonical_issue h _ _).of_stop ‹_›)
  extract_lets +onlyGivenNames c
  exact canonicalOutcome_ite (canonicalOutcome_next.2 (canonical_illegal h)) (canonicalOutcome_ite (canonicalOutcome_next.2
    (canonical_stallOp (canonical_modMx ((canonical_issue h _ _).of_go ‹_›) _ _) _ _)) (canonicalOutcome_next.2
    (canonical_complete (canonical_modMx ((canonical_issue h _ _).of_go ‹_›) _ _) _)))

theorem canonical_killEngine (h : s.Canonical) (c : Nat) : (killEngine c s).Canonical :=
  canonical_modEng h _ _

theorem canonical_execPkill (h : s.Canonical) (a : Nat) : CanonicalOutcome (execPkill a s) := by
  unfold execPkill
  split
  · exact canonicalOutcome_next.2 (canonical_illegal h)
  split
  · exact canonicalOutcome_next.2 ((canonical_issue h _ _).of_stop ‹_›)
  extract_lets +onlyGivenNames p
  split
  · split
    · exact canonicalOutcome_ite (canonicalOutcome_next.2 (canonical_complete ((canonical_issue h _ _).of_go ‹_›) _))
        (canonicalOutcome_next.2 (canonical_complete (canonical_killEngine (canonical_orphan
        ((canonical_issue h _ _).of_go ‹_›) _ _) _) _))
    · exact canonicalOutcome_next.2 (canonical_complete ((canonical_issue h _ _).of_go ‹_›) _)
  · exact canonicalOutcome_ite (canonicalOutcome_ite (canonicalOutcome_next.2 (canonical_complete (canonical_modLink
      ((canonical_issue h _ _).of_go ‹_›) _ _) _)) (canonicalOutcome_next.2 (canonical_complete
      ((canonical_issue h _ _).of_go ‹_›) _))) (canonicalOutcome_next.2 (canonical_killOp h _ _))

end Sys2Proof.Machine
end

section
/-! SUPPORT. Messages at their receiver keep memory and its marks in canonical form. -/

namespace Sys2Proof.Machine

open Host (Outcome)

variable {s : State}

theorem canonical_deposit (h : s.Canonical) (c : Nat) (e : Entry) (m : Msg) : CanonicalOption (deposit c e m s) := by
  unfold deposit
  extract_lets +onlyGivenNames n cnt slot
  exact canonicalOption_ite canonicalOption_none (canonicalOption_some.2 (canonical_noteCount (canonical_modCore
    (canonical_physWrite h _ _ _) _ _) _ _))

theorem canonical_unreserve (h : s.Canonical) (c : Nat) (m : Msg) : (unreserve c m s).Canonical := by
  unfold unreserve
  split
  · exact canonical_modSlot h _ _ _
  · exact h

theorem canonical_place (h : s.Canonical) (c k uid : Nat) (f : Slot → Slot) : (place c k uid f s).Canonical :=
  canonical_bumpCore (canonical_update (canonical_setSlot h _ _ _)) _

theorem canonical_startActivation (h : s.Canonical) (c k t : Nat) (e : Entry) (m : Msg) (start : Bool) :
    (startActivation c k t e m start s).Canonical := by
  unfold startActivation
  extract_lets args task v u
  have hu : u.Canonical := canonical_place (canonical_unreserve h _ _) _ _ _ _
  clear_value u task
  split
  · split
    · exact canonical_update hu
    · exact hu
  · exact hu

theorem canonical_byEntry (h : s.Canonical) (c t : Nat) (e : Entry) (m : Msg) (start : Bool) :
    (byEntry c t e m start s).Canonical := by
  unfold byEntry
  split
  · split
    · exact h
    split
    · exact canonical_unreserve (canonical_deposit h _ _ _ _ ‹_›) _ _
    · exact h
  split
  · exact canonical_unreserve h _ _
  split
  · exact h
  · exact Arrive.canonical_ite (canonical_startActivation (canonicalOption_ite (canonical_deposit h _ _ _)
      (canonicalOption_some.2 h) _ ‹_›) _ _ _ _ _ _) (canonicalOption_ite (canonical_deposit h _ _ _)
      (canonicalOption_some.2 h) _ ‹_›)

theorem canonical_arriveProgram (h : s.Canonical) (c : Nat) (m : Msg) : (arriveProgram c m s).Canonical :=
  Arrive.canonical_ite h (Arrive.canonical_ite h (canonical_byEntry h _ _ _ _ _))

theorem canonical_arriveStart (h : s.Canonical) (c : Nat) (m : Msg) : (arriveStart c m s).Canonical := by
  unfold arriveStart
  extract_lets +onlyGivenNames h' t offset foreign
  exact Arrive.canonical_ite h (Arrive.canonical_ite h (Arrive.canonical_ite h (canonical_byEntry
    (canonical_modCore h _ _) _ _ _ _ _)))

theorem canonical_frameFault (h : s.Canonical) (e : Exc) (t party va : Nat) : (frameFault e t party va s).Canonical := by
  unfold frameFault
  split
  · exact canonical_queueRecord h _
  · exact canonical_queueRecord h _
  · exact canonical_queueRecord h _

theorem canonical_enterQueue (h : s.Canonical) (c : Nat) (m : Msg) (f : Frame) : (enterQueue c m f s).Canonical := by
  unfold enterQueue
  extract_lets +onlyGivenNames x
  split
  · extract_lets +onlyGivenNames n s'
    have hs' : s'.Canonical := canonical_physWrite h _ _ _
    exact canonical_bumpCore (canonical_modCore hs' _ _) _
  split
  · exact h
  split
  · exact canonical_bumpCore (canonical_modCore ((canonical_storeAt h _ _ _ _ _ _).of_ok ‹_›) _ _) _
  · exact (canonical_storeAt h _ _ _ _ _ _).of_stall ‹_›
  · exact canonical_frameFault h _ _ _ _

theorem canonical_spawnGone (h : s.Canonical) (m : Msg) : (spawnGone m s).Canonical :=
  canonical_addLive (canonical_update h) _ _

theorem canonical_arriveContext (h : s.Canonical) (c : Nat) (m : Msg) (f : Frame) : (arriveContext c m f s).Canonical := by
  unfold arriveContext
  extract_lets +onlyGivenNames x
  exact Arrive.canonical_ite (Arrive.canonical_ite (canonical_spawnGone (canonical_failMsg h _ _) _) (canonical_netSend
    (canonical_failMsg h _ _) _)) (canonical_enterQueue h _ _ _)

theorem canonical_arriveOwner (h : s.Canonical) (m : Msg) : (arriveOwner m s).Canonical :=
  Arrive.canonical_ite h (Arrive.canonical_ite h (canonical_addFlight h _))

theorem canonical_arrive (h : s.Canonical) (m : Msg) : (arrive m s).Canonical := by
  unfold arrive
  extract_lets +onlyGivenNames n
  split
  · exact h
  split
  · exact canonical_arriveOwner h _
  split
  · exact canonical_arriveStart h _ _
  split
  · exact canonical_arriveContext h _ _ _
  · exact Arrive.canonical_ite (canonical_arriveProgram h _ _) h

theorem canonical_failArrival (h : s.Canonical) (reason : Nat) (m : Msg) : (failArrival reason m s).Canonical := by
  unfold failArrival
  extract_lets +onlyGivenNames s' s2
  have hs' : s'.Canonical := canonical_failMsg (canonical_unreserve h _ _) _ _
  have hs2 : s2.Canonical := canonical_ite (canonical_spawnGone hs' _) hs'
  exact canonical_ite (canonical_endTask hs2 _ _ _) hs2

theorem canonical_reserve (h : s.Canonical) (c : Nat) (r : Resv) : (reserve c r s).2.Canonical :=
  canonical_ite_snd h (canonical_bumpCore (canonical_modCore h _ _) _)

theorem canonical_deliver (h : s.Canonical) (m : Msg) : (deliver m s).Canonical := by
  unfold deliver
  split
  · exact (canonical_arrive h _).of_done ‹_›
  · exact canonical_failArrival ((canonical_arrive h _).of_fail ‹_›) _ _
  split
  · exact canonical_update (canonical_of_pair (canonical_reserve ((canonical_arrive h _).of_refuse ‹_›) _ _) ‹_›)

end Sys2Proof.Machine
end

section
/-! SUPPORT. The hardware scheduler keeps memory and its marks in canonical form. -/

namespace Sys2Proof.Machine

open Host (Outcome)

variable {s : State}

theorem canonical_sendPeer (h : s.Canonical) (d : Nat) (m : Msg) : CanonicalOption (sendPeer d m s) := by
  unfold sendPeer
  split
  · exact canonicalOption_some.2 (canonical_failMsg h _ _)
  extract_lets +onlyGivenNames data
  exact canonical_sendRequest h _ _

theorem canonical_execMessageArrival (h : s.Canonical) (i : Nat) : CanonicalOutcome (execMessageArrival i s) := by
  unfold execMessageArrival
  split
  · exact canonicalOutcome_next.2 h
  split
  · exact canonicalOutcome_next.2 h
  extract_lets +onlyGivenNames t
  have ht : t.Canonical := canonical_update h
  split
  · exact canonicalOutcome_next.2 (CanonicalOption.getD (canonical_sendPeer ht _ _) h)
  · exact canonicalOutcome_next.2 (canonical_deliver ht _)

theorem canonical_execNegativeAcknowledgement (h : s.Canonical) (i : Nat) :
    CanonicalOutcome (execNegativeAcknowledgement i s) := by
  unfold execNegativeAcknowledgement
  split
  · exact canonicalOutcome_next.2 h
  · exact canonicalOutcome_ite (canonicalOutcome_next.2 h) (canonicalOutcome_next.2 (canonical_update h))

theorem canonical_dropGrant (h : s.Canonical) (c : Nat) (r : Resv) : (dropGrant c r s).Canonical := by
  unfold dropGrant
  split
  · exact canonical_modSlot h _ _ _
  · exact h

theorem canonical_respond (h : s.Canonical) (link device tag requester op status : Nat) (poison : Bool)
    (words data : List Nat) : (respond link device tag requester op status poison words data s).Canonical :=
  canonical_modLink h _ _

theorem canonical_answerGrant (h : s.Canonical) (r : Resv) : (answerGrant r s).Canonical :=
  canonical_ite (canonical_respond h _ _ _ _ _ _ _ _ _) (canonical_respond h _ _ _ _ _ _ _ _ _)

theorem canonical_execGrant (h : s.Canonical) (i : Nat) : CanonicalOutcome (execGrant i s) := by
  unfold execGrant
  split
  · exact canonicalOutcome_next.2 h
  extract_lets +onlyGivenNames t
  have ht : t.Canonical := canonical_update h
  split
  · exact canonicalOutcome_next.2 (canonical_answerGrant ht _)
  split
  · exact canonicalOutcome_next.2 (canonical_addFlight (canonical_update ht) _)
  split
  · split
    · exact canonicalOutcome_next.2 (canonical_update ht)
    · exact canonicalOutcome_next.2 (canonical_dropGrant ht _ _)
  · exact canonicalOutcome_ite (canonicalOutcome_next.2 h) (canonicalOutcome_ite (canonicalOutcome_next.2
      (canonical_grantOwner ht _)) (canonicalOutcome_next.2 (canonical_dropGrant ht _ _)))

theorem canonical_execRefusalResend (h : s.Canonical) (c k : Nat) : CanonicalOutcome (execRefusalResend c k s) := by
  unfold execRefusalResend
  split
  · split
    · exact canonicalOutcome_next.2 (canonical_update h)
    · exact canonicalOutcome_next.2 h
  split
  · refine canonicalOutcome_next.2 ?_
    split
    · exact canonical_postOwner (canonical_update h) _ _
    · exact h
  · exact canonicalOutcome_next.2 h

theorem canonical_execRedelivery (h : s.Canonical) (c : Nat) : CanonicalOutcome (execRedelivery c s) := by
  unfold execRedelivery
  split
  · split
    · exact canonicalOutcome_next.2 (canonical_deliver (canonical_modCore h _ _) _)
    · exact canonicalOutcome_next.2 h
  · exact canonicalOutcome_next.2 h

theorem canonical_dropTorn (h : s.Canonical) (t : Nat) : (dropTorn t s).Canonical :=
  canonical_ite (canonical_foldl _ _ (fun _ _ h => canonical_failArrival h _ _) (canonical_update h)) h

theorem canonical_execAbsenceResend (h : s.Canonical) (i : Nat) : CanonicalOutcome (execAbsenceResend i s) := by
  unfold execAbsenceResend
  split
  · exact canonicalOutcome_next.2 (canonical_foldl _ _ (fun _ _ h => canonical_dropTorn h _) h)
  · exact canonicalOutcome_ite (canonicalOutcome_next.2 h) (canonicalOutcome_ite (canonicalOutcome_next.2
      (canonical_update h)) (canonicalOutcome_next.2 (canonical_update (canonical_netSend (canonical_update
      (canonical_update h)) _))))

theorem canonical_settleArray (h : s.Canonical) (c : Nat) : (settleArray c s).Canonical :=
  canonical_modCore h _ _

theorem canonical_startMigrated (h : s.Canonical) (c k : Nat) (m : Msg) (f : Frame) : (startMigrated c k m f s).Canonical :=
  canonical_place h _ _ _ _

theorem canonical_startSpawned (h : s.Canonical) (c k : Nat) (m : Msg) (f : Frame) : (startSpawned c k m f s).Canonical :=
  canonical_ite (canonical_failArrival h _ _) (canonical_place h _ _ _ _)

theorem canonical_arrivalBytes (h : s.Canonical) (c : Nat) (a : Arrival) : CanonicalSecond (arrivalBytes c a s) := by
  unfold arrivalBytes
  split
  · exact canonicalSecond_some.2 h
  split
  · exact canonicalSecond_some.2 ((canonical_loadAt h _ _ _ _ _).of_ok ‹_›)
  · exact canonicalSecond_none

theorem canonical_takeArrival (h : s.Canonical) (c k : Nat) (a : Arrival) : (takeArrival c k a s).Canonical := by
  unfold takeArrival
  split
  · have hu := canonical_settleArray (canonical_modCore (canonical_arrivalBytes h _ _ _ ‹_›) c
      fun x => { x with arrivals := x.arrivals.erase a }) c
    exact canonical_ite (canonical_startSpawned hu _ _ _ _) (canonical_startMigrated hu _ _ _ _)
  · exact h

theorem canonical_frameSrc (h : s.Canonical) (c t : Nat) (l : List Nat) (off : Nat) :
    CanonicalSecond (frameSrc c t l off s) := by
  unfold frameSrc
  split
  · exact canonicalSecond_some.2 ((canonical_locate h _ _ _ _).of_ok ‹_›)
  · exact canonicalSecond_none

theorem canonical_fillFrame (h : s.Canonical) (c t : Nat) (lines l : List Nat) :
    CanonicalOption (fillFrame c t lines l s) := by
  induction l generalizing s with
  | nil => exact canonicalOption_some.2 h
  | cons off l ih =>
    unfold fillFrame
    split
    · exact ih (canonical_frameSrc h _ _ _ _ _ ‹_›)
    · exact canonicalOption_none

theorem canonical_takeParked (h : s.Canonical) (c k : Nat) (p : Parked) : (takeParked c k p s).Canonical := by
  unfold takeParked
  split
  · exact h
  extract_lets +onlyGivenNames rd tg y word tval old s' s2
  have hs' : s'.Canonical := canonical_modCore (canonical_fillFrame h _ _ _ _ _ ‹_›) _ _
  extract_lets +onlyGivenNames s3
  have hs3 : s3.Canonical := canonical_bumpCore (canonical_setSlot hs' _ _ _) _
  split
  · exact hs3
  · exact canonical_trapAt hs3 _ _ _ _ _
  · exact canonical_killSlot hs3 _ _ _

theorem canonical_grantSlot (h : s.Canonical) (c k : Nat) (r : Resv) : (grantSlot c k r s).Canonical := by
  unfold grantSlot
  extract_lets +onlyGivenNames s'
  have hs' : s'.Canonical := canonical_bumpCore (canonical_modCore h _ _) _
  exact canonical_modSlot (canonical_update hs') _ _ _

theorem canonical_takeWaiting (h : s.Canonical) (c k : Nat) (w : Waiting) : (takeWaiting c k w s).Canonical := by
  unfold takeWaiting
  extract_lets +onlyGivenNames s'
  have hs' : s'.Canonical := canonical_ite (canonical_modCore h _ _) h
  split
  · exact canonical_takeArrival hs' _ _ _
  · exact canonical_takeParked hs' _ _ _

theorem canonical_giveSlot (h : s.Canonical) (c : Nat) (urgent : Bool) : CanonicalOption (giveSlot c urgent s) := by
  unfold giveSlot
  extract_lets +onlyGivenNames bit_
  split
  · exact canonicalOption_none
  split
  · exact canonicalOption_none
  · exact canonicalOption_some.2 (canonical_grantSlot (canonical_ite h (canonical_modCore h _ _)) _ _ _)
  · exact canonicalOption_some.2 (canonical_takeWaiting (canonical_ite h (canonical_modCore h _ _)) _ _ _)
  extract_lets +onlyGivenNames turn s'
  have hs' : s'.Canonical := canonical_ite h (canonical_modCore h _ _)
  exact canonicalOption_some.2 (canonical_ite (canonical_takeWaiting hs' _ _ _) (canonical_grantSlot hs' _ _ _))

theorem canonical_returnComposed (h : s.Canonical) (c : Nat) : CanonicalOption (returnComposed c s) := by
  unfold returnComposed
  split
  · exact canonicalOption_none
  split
  · exact canonicalOption_none
  · intro t ht
    obtain ⟨p, -, rfl⟩ := Option.map_eq_some_iff.1 ht
    exact canonical_takeParked h _ _ _

theorem canonical_giveFrame (h : s.Canonical) (c : Nat) : CanonicalOption (giveFrame c s) := by
  unfold giveFrame
  split
  · exact canonicalOption_none
  · exact canonicalOption_ite (canonicalOption_some.2 (canonical_bumpCore (canonical_update
      (canonical_modCore h _ _)) _)) canonicalOption_none

theorem canonical_execSlotDispatch (h : s.Canonical) (c : Nat) : CanonicalOutcome (execSlotDispatch c s) := by
  unfold execSlotDispatch
  split
  · exact canonicalOutcome_next.2 (canonical_returnComposed h _ _ ‹_›)
  split
  · exact canonicalOutcome_next.2 (canonical_giveSlot h _ _ _ ‹_›)
  split
  · exact canonicalOutcome_next.2 (canonicalOption_ite canonicalOption_none (canonical_giveSlot h _ _) _ ‹_›)
  · exact canonicalOutcome_next.2 (CanonicalOption.getD (canonical_giveFrame h _) h)

theorem canonical_execServiceTrapDispatch (h : s.Canonical) (c : Nat) : CanonicalOutcome (execServiceTrapDispatch c s) := by
  unfold execServiceTrapDispatch
  split
  · exact canonicalOutcome_next.2 h
  extract_lets +onlyGivenNames s0 s'
  have hs0 : s0.Canonical := h
  have hs' : s'.Canonical := canonical_placeNext h _
  split
  · exact canonicalOutcome_next.2 hs'
  split
  · exact canonicalOutcome_next.2 (canonical_bumpOnce (canonical_freeFrame hs' _ _) _)
  split
  · exact canonicalOutcome_next.2 hs'
  extract_lets +onlyGivenNames base w s2
  have hs2 : s2.Canonical := canonical_modCore hs' _ _
  exact canonicalOutcome_next.2 (canonical_bumpOnce (canonical_place hs2 _ _ _ _) _)

theorem canonical_execFaultRecordPost (h : s.Canonical) (t : Nat) : CanonicalOutcome (execFaultRecordPost t s) := by
  unfold execFaultRecordPost
  split
  · exact canonicalOutcome_next.2 h
  split
  · exact canonicalOutcome_next.2 (canonical_update (canonical_postNow h _ _ ‹_›))
  · exact canonicalOutcome_next.2 h

end Sys2Proof.Machine
end

section
/-! SUPPORT. Hardware events of the memory system keep memory and its marks in canonical form. -/

namespace Sys2Proof.Machine

open Host (Outcome)

variable {s : State}

theorem canonical_execPlacementCacheFill (h : s.Canonical) (c va : Nat) :
    CanonicalOutcome (execPlacementCacheFill c va s) := by
  unfold execPlacementCacheFill
  split
  · exact canonicalOutcome_next.2 ((canonical_placementOf h _ _).of_ok ‹_›)
  · exact canonicalOutcome_next.2 ((canonical_placementOf h _ _).of_exc ‹_›)
  · exact canonicalOutcome_next.2 ((canonical_placementOf h _ _).of_stall ‹_›)

theorem canonical_execPlbMiss (h : s.Canonical) (c dom va : Nat) : CanonicalOutcome (execPlbMiss c dom va s) := by
  unfold execPlbMiss
  split
  · exact canonicalOutcome_next.2 ((canonical_rightsOf h _ _).of_ok ‹_›)
  · exact canonicalOutcome_next.2 ((canonical_rightsOf h _ _).of_exc ‹_›)
  · exact canonicalOutcome_next.2 ((canonical_rightsOf h _ _).of_stall ‹_›)

theorem canonical_execSectorFill (h : s.Canonical) (c va : Nat) : CanonicalOutcome (execSectorFill c va s) := by
  unfold execSectorFill
  split
  · exact canonicalOutcome_next.2 h
  split
  · split
    · exact canonicalOutcome_next.2 h
    split
    · exact canonicalOutcome_next.2 ((canonical_locate ((canonical_homeOf h _ _).of_ok ‹_›) _ _ _ _).of_ok ‹_›)
    · exact canonicalOutcome_next.2 ((canonical_locate ((canonical_homeOf h _ _).of_ok ‹_›) _ _ _ _).of_exc ‹_›)
    · exact canonicalOutcome_next.2 h
  · exact canonicalOutcome_next.2 ((canonical_homeOf h _ _).of_exc ‹_›)
  · exact canonicalOutcome_next.2 h

theorem canonical_arriveFlight (h : s.Canonical) (i : Nat) (p : Flight → Bool) : (arriveFlight i p s).Canonical := by
  unfold arriveFlight
  split
  · exact h
  · exact canonical_ite h (canonical_landFlight h _)

theorem canonical_serve (h : s.Canonical) (i : Instr) : (serve i s).Canonical := by
  unfold serve
  split
  · exact canonical_lockOp h _ _ _ _ _
  · exact canonical_lockOp h _ _ _ _ _
  · exact canonical_unlockOp h _ _ _
  · exact canonical_unlockOp h _ _ _
  · exact canonical_chopen h _ _ _ _
  · exact canonical_chprod h _ _
  · exact canonical_chput h _ _ _
  · exact canonical_chget h _ _ _ _
  · exact canonical_cheos h _ _
  · exact canonical_chclose h _ _
  · exact h

theorem canonical_runOwner (h : s.Canonical) (f : Flight) : (runOwner f s).Canonical := by
  unfold runOwner
  extract_lets +onlyGivenNames gone
  have hgone : gone.Canonical := canonical_update h
  split
  · exact canonical_landFlight h _
  · extract_lets +onlyGivenNames r
    have hr : r.Canonical := canonical_serve (canonical_update hgone) _
    exact canonical_update hr
  · exact hgone

theorem canonical_execOwnerSlotHandler (h : s.Canonical) (c : Nat) : CanonicalOutcome (execOwnerSlotHandler c s) := by
  unfold execOwnerSlotHandler
  split
  · exact canonicalOutcome_next.2 h
  split
  · exact canonicalOutcome_next.2 h
  · exact canonicalOutcome_ite (canonicalOutcome_next.2 h) (canonicalOutcome_next.2 (canonical_grantOwner (canonical_modCore
      (canonical_runOwner h _) _ _) _))

theorem canonical_execAccessResponse (h : s.Canonical) (c k : Nat) : CanonicalOutcome (execAccessResponse c k s) := by
  unfold execAccessResponse
  split
  · split
    · split
      · exact canonicalOutcome_next.2 (canonical_addReply (canonical_update h) _ _)
      · exact canonicalOutcome_next.2 h
    · exact canonicalOutcome_next.2 h
  · exact canonicalOutcome_next.2 h

theorem canonical_memoryError (h : s.Canonical) (a : Nat) : (memoryError a s).Canonical :=
  canonical_update h

theorem canonical_sliceError (h : s.Canonical) (home va : Nat) : (sliceError home va s).Canonical := by
  unfold sliceError
  exact canonical_ite (canonical_ite (canonical_memoryError (canonical_update h) _)
    (canonical_memoryError (canonical_setCpoison h _ _) _)) (canonical_ite h (canonical_dropSector h _ _))

theorem canonical_bankError (h : s.Canonical) (home va : Nat) : (bankError home va s).Canonical := by
  unfold bankError
  exact canonical_ite (canonical_memoryError (canonical_setCpoison h _ _) _)
    (canonical_ite (canonical_update (canonical_showHurt h _ _)) h)

theorem canonical_wordError (h : s.Canonical) (c q i : Nat) : (wordError c q i s).Canonical :=
  canonical_ite (canonical_modCore h _ _) h

theorem canonical_execScrub (h : s.Canonical) (g : Nat) (bad : Bool) : CanonicalOutcome (execScrub g bad s) := by
  unfold execScrub
  split
  · exact canonicalOutcome_next.2 (canonical_ite (canonical_update h) h)
  split
  · split
    · exact canonicalOutcome_next.2 (canonical_memoryError (canonical_setPoisonBit h _ _) _)
    · exact canonicalOutcome_next.2 h
  split
  · exact canonicalOutcome_next.2 (canonical_ite (canonical_sliceError h _ _) h)
  split
  · exact canonicalOutcome_next.2 (canonical_wordError h _ _ _)
  split
  · exact canonicalOutcome_next.2 (canonical_slotError h _ _)
  · exact canonicalOutcome_next.2 (canonical_ite (canonical_bankError h _ _) h)

theorem canonical_wenlekReport (h : s.Canonical) (l : List Nat) : (wenlekReport l s).Canonical :=
  canonical_update h

theorem canonical_execWenlekWindowAccess (h : s.Canonical) (a n : Nat) (data : Option (List Nat)) :
    CanonicalOutcome (execWenlekWindowAccess a n data s) := by
  generalize hf : execWenlekWindowAccess = f
  delta execWenlekWindowAccess at hf
  subst hf
  beta_reduce
  extract_lets +onlyGivenNames m
  split
  · split
    · exact canonicalOutcome_next.2 (canonical_physWrite h _ _ _)
    · exact canonicalOutcome_next.2 (canonical_wenlekReport h _)
  split
  · exact canonicalOutcome_next.2 (canonical_wenlekReport h _)
  · exact canonicalOutcome_next.2 (canonical_wenlekReport h _)
  · exact canonicalOutcome_next.2 ((canonical_sendRequest h _ _).getD h)

end Sys2Proof.Machine
end

section
/-! SUPPORT. Vector memory access and vector instructions keep memory and its marks in canonical form. -/

namespace Sys2Proof.Machine

open Host (Outcome)

variable {s : State}

theorem canonical_vecOp (h : s.Canonical) (f : Slot → Slot) : (vecOp f s).Canonical :=
  canonical_complete (canonical_modMe h _) _

theorem canonical_laneOp2 (h : s.Canonical) (w d a b k : Nat) (f : Nat → Nat → Nat → Nat) :
    (laneOp2 w d a b k f s).Canonical :=
  canonical_vecOp h _

theorem canonical_checkParts (h : s.Canonical) (w : Who) (r : Reg) (n perms align need : Nat) (l : List Int) :
    (checkParts w r n perms align need l s).2.Canonical := by
  induction l generalizing s with
  | nil => exact h
  | cons ea l ih =>
    have hm := canonical_memCheck h w r ea n perms align need
    unfold checkParts
    split
    · exact ih (hm.of_ok ‹_›)
    · exact ih (hm.of_stall ‹_›)
    · exact ih (hm.of_exc ‹_›)

theorem canonical_obtain (h : s.Canonical) (w : Who) (n va : Nat) : (obtain w n va s).2.Canonical := by
  unfold obtain
  split
  · exact h
  split
  · split
    · exact canonical_of_pair (canonical_loadPart ((canonical_locate h _ _ _ _).of_ok ‹_›) _ _ _ _) ‹_›
    · exact canonical_of_pair (canonical_loadPart ((canonical_locate h _ _ _ _).of_ok ‹_›) _ _ _ _) ‹_›
  · exact (canonical_locate h _ _ _ _).of_stall ‹_›
  · exact (canonical_locate h _ _ _ _).of_exc ‹_›

theorem canonical_obtainAll (h : s.Canonical) (w : Who) (n : Nat) (l : List Int) : (obtainAll w n l s).2.Canonical := by
  induction l generalizing s with
  | nil => exact h
  | cons ea l ih => exact ih (canonical_obtain h w n _)

theorem canonical_loadMany (h : s.Canonical) (w : Who) (n : Nat) (eas : List Int) : (loadMany w n eas s).Canonical := by
  unfold loadMany
  extract_lets +onlyGivenNames r
  have hr : r.2.Canonical := canonical_obtainAll (canonical_foldl _ _ (fun _ _ h => canonical_drainLine h _ _ _) h) _ _ _
  split
  · exact hr
  split
  · exact hr
  extract_lets +onlyGivenNames l
  split
  · exact hr
  · exact hr

theorem canonical_readyAll (h : s.Canonical) (w : Who) (l : List (Nat × Nat)) : (readyAll w l s).Canonical := by
  unfold readyAll
  extract_lets +onlyGivenNames s'
  have hs' : s'.Canonical := canonical_foldl _ _ (fun _ _ h => canonical_drainLine h _ _ _) h
  exact Res.Canonical.bind (canonical_locateParts hs' _ _ _ _) (fun _ _ h => h)

theorem canonical_storeMany (h : s.Canonical) (w : Who) (l : List (Nat × List Byte)) : (storeMany w l s).Canonical := by
  unfold storeMany
  extract_lets ps data
  refine Res.Canonical.bind (canonical_readyAll h _ _) fun r t ht => ?_
  extract_lets y
  split
  · exact (Res.canonical_ok _ _).2 (canonical_modSlot ht _ _ _)
  refine Res.Canonical.bind (canonical_expose ht _ _) fun _ u hu => ?_
  split
  · exact (Res.canonical_ok _ _).2 (canonical_storeParts hu _ _ _ _ _ _ _ _ ‹_›)
  · exact (Res.canonical_stall _).2 h

theorem canonical_raisePart (h : s.Canonical) (n : Nat) (write : Bool) (e : Exc) (ea : Int) :
    (raisePart n write e ea s).Canonical :=
  canonical_raise h _ _

theorem canonical_trainParts (h : s.Canonical) (l : List Int) (n : Nat) : (trainParts l n s).Canonical :=
  canonical_foldl _ _ (fun _ _ h => canonical_trainMe h _ _) h

theorem canonical_vecLoad {t : State} (h : s.Canonical) (ht : t.Canonical) (reads : List Nat) (r : Reg) (n align : Nat)
    (eas : List Int) (f : Slot → List Nat → Slot) : (vecLoad reads r n align eas f s t).Canonical := by
  unfold vecLoad
  extract_lets +onlyGivenNames w
  split
  split
  · exact canonical_raisePart h _ _ _ _
  split
  · exact canonical_complete (canonical_modMe (canonical_trainParts ((canonical_loadMany (canonical_of_pair
      (canonical_checkParts ht _ _ _ _ _ _ _) ‹_›) _ _ _).of_ok ‹_›) _ _) _) _
  · exact canonical_stallOp ((canonical_loadMany (canonical_of_pair (canonical_checkParts ht _ _ _ _ _ _ _) ‹_›) _ _
      _).of_stall ‹_›) _ _
  · exact canonical_raisePart h _ _ _ _

theorem canonical_vecStore {t : State} (h : s.Canonical) (ht : t.Canonical) (reads : List Nat) (r : Reg) (n align : Nat)
    (eas : List Int) (l : List (Int × List Byte)) : (vecStore reads r n align eas l s t).Canonical := by
  unfold vecStore
  extract_lets +onlyGivenNames w
  split
  split
  · exact canonical_raisePart h _ _ _ _
  split
  · exact canonical_complete (canonical_trainParts ((canonical_storeMany (canonical_of_pair
      (canonical_checkParts ht _ _ _ _ _ _ _) ‹_›) _ _).of_ok ‹_›) _ _) _
  · exact canonical_stallOp ((canonical_storeMany (canonical_of_pair (canonical_checkParts ht _ _ _ _ _ _ _) ‹_›) _
      _).of_stall ‹_›) _ _
  · exact canonical_raisePart h _ _ _ _

theorem canonical_execVld (h : s.Canonical) (d a : Nat) (imm : Int) : CanonicalOutcome (execVld d a imm s) := by
  unfold execVld
  split
  · exact canonicalOutcome_next.2 ((canonical_issue h _ _).of_stop ‹_›)
  extract_lets +onlyGivenNames r
  exact canonicalOutcome_next.2 (canonical_vecLoad h ((canonical_issue h _ _).of_go ‹_›) _ _ _ _ _ _)

theorem canonical_execVlds (h : s.Canonical) (d a x k ew : Nat) : CanonicalOutcome (execVlds d a x k ew s) := by
  unfold execVlds
  split
  · exact canonicalOutcome_next.2 ((canonical_issue h _ _).of_stop ‹_›)
  extract_lets +onlyGivenNames r w eas
  exact canonicalOutcome_next.2 (canonical_vecLoad h ((canonical_issue h _ _).of_go ‹_›) _ _ _ _ _ _)

theorem canonical_execVgath (h : s.Canonical) (d a x k ew : Nat) : CanonicalOutcome (execVgath d a x k ew s) := by
  unfold execVgath
  split
  · exact canonicalOutcome_next.2 ((canonical_issue h _ _).of_stop ‹_›)
  extract_lets +onlyGivenNames r w eas
  exact canonicalOutcome_next.2 (canonical_vecLoad h ((canonical_issue h _ _).of_go ‹_›) _ _ _ _ _ _)

theorem canonical_execVst (h : s.Canonical) (b a : Nat) (imm : Int) : CanonicalOutcome (execVst b a imm s) := by
  unfold execVst
  split
  · exact canonicalOutcome_next.2 ((canonical_issue h _ _).of_stop ‹_›)
  extract_lets +onlyGivenNames r l
  exact canonicalOutcome_next.2 (canonical_vecStore h ((canonical_issue h _ _).of_go ‹_›) _ _ _ _ _ _)

theorem canonical_execVsts (h : s.Canonical) (b a x k ew : Nat) : CanonicalOutcome (execVsts b a x k ew s) := by
  unfold execVsts
  split
  · exact canonicalOutcome_next.2 ((canonical_issue h _ _).of_stop ‹_›)
  extract_lets +onlyGivenNames r stride w l
  exact canonicalOutcome_next.2 (canonical_vecStore h ((canonical_issue h _ _).of_go ‹_›) _ _ _ _ _ _)

theorem canonical_execVscat (h : s.Canonical) (b a x k ew : Nat) : CanonicalOutcome (execVscat b a x k ew s) := by
  unfold execVscat
  split
  · exact canonicalOutcome_next.2 ((canonical_issue h _ _).of_stop ‹_›)
  extract_lets +onlyGivenNames r w l
  exact canonicalOutcome_next.2 (canonical_vecStore h ((canonical_issue h _ _).of_go ‹_›) _ _ _ _ _ _)

theorem canonical_askLinks (h : s.Canonical) (w : Who) (n amo : Nat) (l : List (Nat × Int × Nat × Src)) :
    CanonicalOption (askLinks w n amo l s) := by
  induction l generalizing s with
  | nil => exact canonicalOption_some.2 h
  | cons e l ih =>
    unfold askLinks
    extract_lets va
    split
    · rename_i t heq
      refine ih ?_
      split at heq
      · exact canonical_sendRequest h _ _ _ heq
      · split at heq
        · exact canonical_sendRequest h _ _ _ heq
        · exact Option.some.inj heq ▸ canonical_addReply h _ _
      · exact Option.some.inj heq ▸ h
    · exact canonicalOption_none

theorem canonical_holdLines (h : s.Canonical) (w : Who) (l : List Nat) : (holdLines w l s).Canonical :=
  canonical_update (canonical_settle h _)

theorem canonical_releaseLines (h : s.Canonical) (w : Who) : (releaseLines w s).Canonical :=
  canonical_update h

theorem canonical_scatEnd {t : State} (ht : t.Canonical) (n : Nat) (elems : List (Nat × Int × Nat)) (far : List Nat) :
    (scatEnd n elems far s t).Canonical := by
  unfold scatEnd
  extract_lets +onlyGivenNames w l
  split
  · exact canonical_stallMe ht
  extract_lets +onlyGivenNames t'
  have ht' : t'.Canonical := canonical_releaseLines ht _
  split
  · exact canonical_raisePart (canonical_unpop ht') _ _ _ _
  · exact canonical_complete ht' _

theorem canonical_scatAtomic {t : State} (ht : t.Canonical) (a ew : Nat) (float : Bool) (elems : List (Nat × Int × Nat)) :
    (scatAtomic a ew float elems s t).Canonical := by
  unfold scatAtomic
  extract_lets +onlyGivenNames w n
  split
  · exact canonical_raisePart (canonical_unpop ((canonical_readyAll ht _ _).of_exc ‹_›)) _ _ _ _
  · exact canonical_stallOp ((canonical_readyAll ht _ _).of_stall ‹_›) _ _
  extract_lets +onlyGivenNames l far near t'
  have ht' : t'.Canonical := canonical_holdLines ((canonical_readyAll ht _ _).of_ok ‹_›) _ _
  split
  · exact canonical_raisePart (canonical_unpop (canonical_releaseLines ht' _)) _ _ _ _
  extract_lets +onlyGivenNames put u
  have hu : u.Canonical := canonical_foldl _ _ (fun _ _ h => canonical_writeAt h _ _ _ _) ht'
  split
  · exact canonical_complete (canonical_releaseLines hu _) _
  split
  · exact canonical_stallOp (canonical_releaseLines ht' _) _ _
  · exact canonical_stallOp (canonical_addReply (canonical_askLinks hu _ _ _ _ _ ‹_›) _ _) _ _

theorem canonical_scatAdd (h : s.Canonical) (b a x k ew : Nat) (atm float : Bool) :
    (scatAdd b a x k ew atm float s).Canonical := by
  unfold scatAdd
  split
  · exact (canonical_issue h _ _).of_stop ‹_›
  extract_lets +onlyGivenNames r w n elems
  split
  · exact canonical_scatEnd ((canonical_issue h _ _).of_go ‹_›) _ _ _
  extract_lets +onlyGivenNames eas onHosts
  split
  split
  · exact canonical_raisePart h _ _ _ _
  split
  · exact canonical_exposing h (canonical_of_pair (canonical_checkParts ((canonical_issue h _ _).of_go ‹_›) _ _ _ _ _ _ _)
      ‹_›) (fun _ h => canonical_scatAtomic h _ _ _ _) _ _
  extract_lets +onlyGivenNames eas'
  split
  · exact canonical_stallOp ((canonical_loadMany (canonical_of_pair (canonical_checkParts
      ((canonical_issue h _ _).of_go ‹_›) _ _ _ _ _ _ _) ‹_›) _ _ _).of_stall ‹_›) _ _
  · exact canonical_raisePart h _ _ _ _
  extract_lets +onlyGivenNames sums
  split
  · exact canonical_complete (canonical_trainParts ((canonical_storeMany ((canonical_loadMany (canonical_of_pair
      (canonical_checkParts ((canonical_issue h _ _).of_go ‹_›) _ _ _ _ _ _ _) ‹_›) _ _ _).of_ok ‹_›) _ _).of_ok ‹_›) _ _) _
  · exact canonical_stallOp ((canonical_storeMany ((canonical_loadMany (canonical_of_pair (canonical_checkParts
      ((canonical_issue h _ _).of_go ‹_›) _ _ _ _ _ _ _) ‹_›) _ _ _).of_ok ‹_›) _ _).of_stall ‹_›) _ _
  · exact canonical_raisePart h _ _ _ _

theorem canonical_vint (h : s.Canonical) (d a b k ew : Nat) (f : Nat → Nat → Nat → Int) :
    (vint d a b k ew f s).Canonical := by
  unfold vint
  extract_lets +onlyGivenNames w
  exact canonical_laneOp2 h _ _ _ _ _ _

theorem canonical_vflt (h : s.Canonical) (d a b k ew : Nat) (f : Fmt → Nat × Nat → FVal → FVal → FVal → Nat) :
    (vflt d a b k ew f s).Canonical :=
  canonical_vecOp h _

theorem canonical_vcmp (h : s.Canonical) (d a b k ew : Nat) (p : Nat → Nat → Nat → Bool) : (vcmp d a b k ew p s).Canonical :=
  canonical_vecOp h _

theorem canonical_vcmpFp (h : s.Canonical) (d a b k ew : Nat) (p : FVal → FVal → Bool) : (vcmpFp d a b k ew p s).Canonical :=
  canonical_vcmp h _ _ _ _ _ _

theorem canonical_execVbcast (h : s.Canonical) (d a k ew : Nat) : CanonicalOutcome (execVbcast d a k ew s) := by
  unfold execVbcast
  split
  · exact canonicalOutcome_next.2 ((canonical_issue h _ _).of_stop ‹_›)
  · exact canonicalOutcome_next.2 (canonical_vecOp ((canonical_issue h _ _).of_go ‹_›) _)

theorem canonical_execVext (h : s.Canonical) (d a b ew : Nat) : CanonicalOutcome (execVext d a b ew s) := by
  unfold execVext
  split
  · exact canonicalOutcome_next.2 ((canonical_issue h _ _).of_stop ‹_›)
  extract_lets +onlyGivenNames w i
  exact canonicalOutcome_next.2 (canonical_complete (canonical_writeField ((canonical_issue h _ _).of_go ‹_›) _ _) _)

theorem canonical_execVins (h : s.Canonical) (d a b ew : Nat) : CanonicalOutcome (execVins d a b ew s) := by
  unfold execVins
  split
  · exact canonicalOutcome_next.2 ((canonical_issue h _ _).of_stop ‹_›)
  extract_lets +onlyGivenNames i
  exact canonicalOutcome_next.2 (canonical_vecOp ((canonical_issue h _ _).of_go ‹_›) _)

theorem canonical_execVslideUp (h : s.Canonical) (d a b k ew : Nat) : CanonicalOutcome (execVslideUp d a b k ew s) := by
  unfold execVslideUp
  split
  · exact canonicalOutcome_next.2 ((canonical_issue h _ _).of_stop ‹_›)
  extract_lets +onlyGivenNames w n
  exact canonicalOutcome_next.2 (canonical_vecOp ((canonical_issue h _ _).of_go ‹_›) _)

theorem canonical_execVslideDn (h : s.Canonical) (d a b k ew : Nat) : CanonicalOutcome (execVslideDn d a b k ew s) := by
  unfold execVslideDn
  split
  · exact canonicalOutcome_next.2 ((canonical_issue h _ _).of_stop ‹_›)
  extract_lets +onlyGivenNames w n
  exact canonicalOutcome_next.2 (canonical_vecOp ((canonical_issue h _ _).of_go ‹_›) _)

theorem canonical_vredOp (h : s.Canonical) (d a k ew : Nat) (f : Nat → List Nat → Reg) : (vredOp d a k ew f s).Canonical := by
  unfold vredOp
  split
  · exact (canonical_issue h _ _).of_stop ‹_›
  extract_lets +onlyGivenNames w
  exact canonical_complete (canonical_writeField ((canonical_issue h _ _).of_go ‹_›) _ _) _

theorem canonical_vredFp (h : s.Canonical) (d a k ew : Nat) (unit : Fmt → Nat) (p : Fmt → Nat → Nat → FVal → FVal → Nat) :
    (vredFp d a k ew unit p s).Canonical := by
  unfold vredFp
  split
  · exact (canonical_issue h _ _).of_stop ‹_›
  extract_lets +onlyGivenNames w m y l
  exact canonical_complete (canonical_writeField ((canonical_issue h _ _).of_go ‹_›) _ _) _

theorem canonical_withTable {f : Table → State → State} {t : State} (h : s.Canonical) (ht : t.Canonical)
    (hf : ∀ y0 y1, y1.Canonical → (f y0 y1).Canonical) (t4 : Bool) (p b : Nat) : (withTable t4 p b f s t).Canonical := by
  unfold withTable
  split
  · split
    · exact canonical_trapMe h _ _
    · exact hf _ _ ht
  · exact canonical_stallOp (canonical_modMe ht _) _ _

theorem canonical_execVcvttDec (h : s.Canonical) (d a b k : Nat) (t4 : Bool) (o : Nat) :
    CanonicalOutcome (execVcvttDec d a b k t4 o s) := by
  unfold execVcvttDec
  split
  · exact canonicalOutcome_next.2 ((canonical_issue h _ _).of_stop ‹_›)
  extract_lets +onlyGivenNames f cw
  exact canonicalOutcome_next.2 (canonical_withTable h ((canonical_issue h _ _).of_go ‹_›)
    (fun _ _ h => canonical_vecOp h _) _ _ _)

theorem canonical_execVcvttEnc (h : s.Canonical) (d a b k : Nat) (t4 : Bool) (o : Nat) :
    CanonicalOutcome (execVcvttEnc d a b k t4 o s) := by
  unfold execVcvttEnc
  split
  · exact canonicalOutcome_next.2 ((canonical_issue h _ _).of_stop ‹_›)
  extract_lets +onlyGivenNames f cw
  exact canonicalOutcome_next.2 (canonical_withTable h ((canonical_issue h _ _).of_go ‹_›)
    (fun _ _ h => canonical_vecOp h _) _ _ _)

theorem canonical_kop (h : s.Canonical) (d a b : Nat) (f : Word → Word → Word) : (kop d a b f s).Canonical :=
  canonical_vecOp h _

theorem canonical_execKmovToMask (h : s.Canonical) (d a : Nat) : CanonicalOutcome (execKmovToMask d a s) := by
  unfold execKmovToMask
  split
  · exact canonicalOutcome_next.2 ((canonical_issue h _ _).of_stop ‹_›)
  · exact canonicalOutcome_next.2 (canonical_vecOp ((canonical_issue h _ _).of_go ‹_›) _)

theorem canonical_execKmovFromMask (h : s.Canonical) (d a : Nat) : CanonicalOutcome (execKmovFromMask d a s) := by
  unfold execKmovFromMask
  split
  · exact canonicalOutcome_next.2 ((canonical_issue h _ _).of_stop ‹_›)
  · exact canonicalOutcome_next.2 (canonical_complete (canonical_writeField ((canonical_issue h _ _).of_go ‹_›) _ _) _)

theorem canonical_execKpop (h : s.Canonical) (d a : Nat) : CanonicalOutcome (execKpop d a s) := by
  unfold execKpop
  split
  · exact canonicalOutcome_next.2 ((canonical_issue h _ _).of_stop ‹_›)
  · exact canonicalOutcome_next.2 (canonical_complete (canonical_writeField ((canonical_issue h _ _).of_go ‹_›) _ _) _)

end Sys2Proof.Machine
end

section
/-! SUPPORT. The links keep memory and its marks in canonical form. -/

namespace Sys2Proof.Machine

open Host (Outcome)

variable {s : State}

theorem canonical_onUp (h : s.Canonical) (n : Nat) (f : Link → Link) : (onUp n f s).Canonical :=
  canonical_ite (canonical_modLink h _ _) h

theorem canonical_eventWrite (h : s.Canonical) (n a : Nat) (l : List Byte) (rel : Bool) :
    CanonicalOption (eventWrite n a l rel s) :=
  canonical_sendRequest h _ _

theorem canonical_eventPost (h : s.Canonical) (n : Nat) (l : List Nat) : CanonicalOption (eventPost n l s) := by
  unfold eventPost
  extract_lets +onlyGivenNames x
  split
  · exact canonicalOption_none
  split
  · exact canonicalOption_some.2 h
  split
  · exact canonicalOption_some.2 (canonical_modLink h _ _)
  extract_lets +onlyGivenNames w1
  split
  · exact canonicalOption_none
  · exact CanonicalOption.map (canonical_eventWrite (canonical_eventWrite h _ _ _ _ _ ‹_›) _ _ _ _)
      (fun _ h => canonical_modLink h _ _)

theorem canonical_flushEvents (h : s.Canonical) (n : Nat) (l : List (List Nat)) : (flushEvents n l s).Canonical := by
  induction l generalizing s with
  | nil => exact canonical_modLink h _ _
  | cons e l ih =>
    unfold flushEvents
    split
    · exact ih (canonical_eventPost h _ _ _ ‹_›)
    · exact canonical_modLink h _ _

theorem canonical_refill (h : s.Canonical) (n : Nat) : (refill n s).Canonical :=
  canonical_foldl _ _ (fun _ _ h => canonical_flushEvents h _ _) h

theorem canonical_linkEventAt (h : s.Canonical) (time n kind dir new old replayed laser : Nat) :
    (linkEventAt time n kind dir new old replayed laser s).Canonical :=
  canonical_flushEvents (canonical_modLink (canonical_update h) _ _) _ _

theorem canonical_linkEvent (h : s.Canonical) (n kind dir new old replayed laser : Nat) :
    (linkEvent n kind dir new old replayed laser s).Canonical :=
  canonical_linkEventAt h _ _ _ _ _ _ _ _

theorem canonical_mapRecord (h : s.Canonical) (n : Nat) (x : Link) : (mapRecord n x s).Canonical := by
  unfold mapRecord
  split
  · exact canonical_linkEventAt h _ _ _ _ _ _ _ _
  · exact h

theorem canonical_execDataFlit (h : s.Canonical) (n : Nat) (good : Bool) (seq ack : Nat) :
    CanonicalOutcome (execDataFlit n good seq ack s) := by
  unfold execDataFlit
  extract_lets +onlyGivenNames t
  have ht : t.Canonical := canonical_onUp h _ _
  exact canonicalOutcome_next.2 (canonical_ite (canonical_mapRecord ht _ _) ht)

theorem canonical_linkDown (h : s.Canonical) (n dir new old laser : Nat) : (linkDown n dir new old laser s).Canonical :=
  canonical_linkEvent (canonical_modLink h _ _) _ _ _ _ _ _ _

theorem canonical_txRecord (h : s.Canonical) (time n m old replayed : Nat) : (txRecord time n m old replayed s).Canonical :=
  canonical_linkEventAt h _ _ _ _ _ _ _ _

theorem canonical_execLaneMap (h : s.Canonical) (n map ack : Nat) : CanonicalOutcome (execLaneMap n map ack s) := by
  unfold execLaneMap
  extract_lets +onlyGivenNames x m
  exact canonicalOutcome_ite (canonicalOutcome_next.2 (canonical_onUp h _ _)) (canonicalOutcome_ite (canonicalOutcome_next.2
    (canonical_linkDown (canonical_modLink (canonical_mapRecord h _ _) _ _) _ _ _ _ _)) (canonicalOutcome_next.2
    (canonical_txRecord (canonical_modLink h _ _) _ _ _ _ _)))

theorem canonical_restripe (h : s.Canonical) (n m : Nat) : (restripe n m s).Canonical :=
  canonical_mapRecord (canonical_modLink h _ _) _ _

theorem canonical_execLossOfLight (h : s.Canonical) (n lanes : Nat) : CanonicalOutcome (execLossOfLight n lanes s) := by
  unfold execLossOfLight
  extract_lets +onlyGivenNames x m
  exact canonicalOutcome_ite (canonicalOutcome_next.2 h) (canonicalOutcome_ite (canonicalOutcome_next.2 (canonical_linkDown
    (canonical_modLink (canonical_mapRecord h _ _) _ _) _ _ _ _ _)) (canonicalOutcome_next.2 (canonical_restripe h _ _)))

theorem canonical_execLaneMapResend (h : s.Canonical) (n : Nat) : CanonicalOutcome (execLaneMapResend n s) := by
  unfold execLaneMapResend
  extract_lets +onlyGivenNames x
  split
  · exact canonicalOutcome_next.2 h
  · exact canonicalOutcome_ite (canonicalOutcome_next.2 h) (canonicalOutcome_ite (canonicalOutcome_next.2
      (canonical_linkDown (canonical_mapRecord h _ _) _ _ _ _ _)) (canonicalOutcome_next.2 (canonical_modLink h _ _)))

theorem canonical_trainLink (h : s.Canonical) (n rx tx : Nat) : (trainLink n rx tx s).Canonical := by
  unfold trainLink
  extract_lets +onlyGivenNames x r t
  exact canonical_ite h (canonical_refill (canonical_ite (canonical_linkEvent (canonical_modLink h _ _) _ _ _ _ _ _ _)
    (canonical_txRecord (canonical_linkEvent (canonical_modLink h _ _) _ _ _ _ _ _ _) _ _ _ _ _)) _)

theorem canonical_lostWrite (h : s.Canonical) (n reason status : Nat) (r : Request) :
    (lostWrite n reason status r s).Canonical :=
  canonical_ite h (canonical_queueRecord h _)

theorem canonical_giveReply (h : s.Canonical) (r : Request) (l : List Byte) (poison : Bool) :
    (giveReply r l poison s).Canonical :=
  canonical_ite h (canonical_ite (canonical_update h) (canonical_addReply h _ _))

theorem canonical_loseRequest (h : s.Canonical) (n : Nat) (r : Request) : (loseRequest n r s).Canonical := by
  unfold loseRequest
  extract_lets +onlyGivenNames s'
  have hs' : s'.Canonical := canonical_modLink h _ _
  split
  · exact canonical_giveReply hs' _ _ _
  · exact canonical_giveReply hs' _ _ _
  · exact canonical_lostWrite hs' _ _ _ _
  split
  · exact canonical_failMsg (canonical_update hs') _ _
  · exact hs'

theorem canonical_execDownLinkTimeout (h : s.Canonical) (n : Nat) : CanonicalOutcome (execDownLinkTimeout n s) := by
  unfold execDownLinkTimeout
  extract_lets +onlyGivenNames x
  exact canonicalOutcome_ite (canonicalOutcome_next.2 h) (canonicalOutcome_next.2 (canonical_foldl _ _
    (fun _ _ h => canonical_loseRequest h _ _) h))

theorem canonical_reply (h : s.Canonical) (p : Packet) (op status : Nat) (poison : Bool) (words : List Nat)
    (data : List Byte) : (reply p op status poison words data s).Canonical :=
  canonical_respond (canonical_modLink h _ _) _ _ _ _ _ _ _ _ _

theorem canonical_delay (h : s.Canonical) (p : Packet) : (delay p s).Canonical :=
  canonical_modLink h _ _

theorem canonical_takePacket (h : s.Canonical) (p : Packet) : CanonicalOption (takePacket p s) := by
  unfold takePacket
  extract_lets +onlyGivenNames x
  exact canonicalOption_ite (canonicalOption_some.2 h) (canonicalOption_ite (canonicalOption_some.2
    (canonical_modLink h _ _)) canonicalOption_none)

theorem canonical_requestIn {f : Who → Bool → State → State} (h : s.Canonical)
    (hf : ∀ y0 y1 y2, y2.Canonical → (f y0 y1 y2).Canonical) (p : Packet) (op rop : Nat) : CanonicalOutcome
    (requestIn p op rop f s) := by
  unfold requestIn
  extract_lets +onlyGivenNames x go
  split
  · exact canonicalOutcome_next.2 (canonical_reply h _ _ _ _ _ _)
  split
  · exact canonicalOutcome_next.2 h
  split
  · exact canonicalOutcome_next.2 (canonical_linkEvent h _ _ _ _ _ _ _)
  split
  · exact canonicalOutcome_ite (canonicalOutcome_next.2 (canonical_reply h _ _ _ _ _ _)) (canonicalOutcome_ite
      (canonicalOutcome_next.2 (canonical_delay h _)) (canonicalOutcome_next.2 (hf _ _ _ h)))
  split
  · exact canonicalOutcome_next.2 (canonical_reply h _ _ _ _ _ _)
  · exact canonicalOutcome_ite (canonicalOutcome_next.2 (canonical_reply h _ _ _ _ _ _)) (canonicalOutcome_ite
      (canonicalOutcome_next.2 (canonical_delay h _)) (canonicalOutcome_next.2 (hf _ _ _ h)))

theorem canonical_request {f : Who → Bool → State → State} (h : s.Canonical)
    (hf : ∀ y0 y1 y2, y2.Canonical → (f y0 y1 y2).Canonical) (p : Packet) (op rop : Nat) : CanonicalOutcome
    (request p op rop f s) := by
  unfold request
  split
  · exact canonical_requestIn (canonical_takePacket h _ _ ‹_›) (fun _ _ _ h => hf _ _ _ h) _ _ _
  · exact canonicalOutcome_next.2 h

theorem canonical_requestParts (h : s.Canonical) (p : Packet) (w : Who) (need : Nat) (write : Bool) (n : Nat) :
    (requestParts p w need write n s).Canonical := by
  unfold requestParts
  extract_lets +onlyGivenNames check
  exact Res.canonical_ite h (Res.Canonical.bind (Res.canonical_ite h (canonical_needRegions h _ _ _ _))
    (fun _ _ h => canonical_locateParts h _ _ _ _))

theorem canonical_refuseAccess (h : s.Canonical) (p : Packet) (w : Who) (rop : Nat) (write : Bool) (e : Exc) :
    (refuseAccess p w rop write e s).Canonical := by
  unfold refuseAccess
  extract_lets +onlyGivenNames post
  split
  · exact canonical_ite (canonical_delay h _) (canonical_reply (canonical_queueRecord h _) _ _ _ _ _ _)
  · exact canonical_ite (canonical_reply h _ _ _ _ _ _) (canonical_reply (canonical_queueRecord h _) _ _ _ _ _ _)
  · exact canonical_reply h _ _ _ _ _ _
  · exact canonical_reply h _ _ _ _ _ _

theorem canonical_readAway (h : s.Canonical) (w : Who) (acq : Bool) (l : List (Nat × Nat × Src)) :
    (readAway w acq l s).2.Canonical := by
  induction l generalizing s with
  | nil => exact h
  | cons q l ih =>
    have hq : State.Canonical (if isLink q.2.2 then loadPart w 0 acq q s else (some (takeAt s q.2.2 q.1 q.2.1), s)).2 := by
      split
      · exact canonical_loadPart h _ _ _ _
      · exact h
    have hl := ih hq
    unfold readAway
    dsimp only
    split <;> exact hl

theorem canonical_writeAway (h : s.Canonical) (w : Who) (rel poison : Bool) (l : List (Nat × Nat × Src))
    (data : List Byte) : CanonicalOption (writeAway w rel poison l data s) := by
  induction l generalizing s data with
  | nil => exact canonicalOption_some.2 h
  | cons q l ih =>
    unfold writeAway
    split
    · rename_i t heq
      have ht : t.Canonical := by
        split at heq
        · exact canonical_storePart h _ _ _ _ _ _ _ _ heq
        · exact Option.some.inj heq ▸ canonical_writeAt h _ _ _ _
      exact ih (canonical_ite (canonical_carryPoison ht _ _ _ _) ht) _
    · exact canonicalOption_none

theorem canonical_awayRead {t : State} (h : t.Canonical) (p : Packet) (w : Who) (l : List (Nat × Nat × Src)) :
    (awayRead p w l t).Canonical := by
  unfold awayRead
  split
  · extract_lets +onlyGivenNames bad
    exact canonical_reply (canonical_setReplies (canonical_of_pair (canonical_readAway h _ _ _) ‹_›) _ _) _ _ _ _ _ _
  · exact canonical_delay (canonical_of_pair (canonical_readAway h _ _ _) ‹_›) _

theorem canonical_readParts {t : State} (h : t.Canonical) (p : Packet) (w : Who) (l : List (Nat × Nat × Src)) :
    (readParts p w l t).Canonical :=
  canonical_ite (canonical_awayRead h _ _ _) (canonical_reply h _ _ _ _ _ _)

theorem canonical_awayWrite {t : State} (h : s.Canonical) (ht : t.Canonical) (p : Packet) (w : Who)
    (l : List (Nat × Nat × Src)) : (awayWrite p w l s t).Canonical := by
  unfold awayWrite
  split
  · exact canonical_ite (canonical_delay h _) (canonical_reply (canonical_setReplies h _ _) _ _ _ _ _ _)
  split
  · exact canonical_delay (canonical_addReply (canonical_writeAway ht _ _ _ _ _ _ ‹_›) _ _) _
  · exact canonical_delay h _

theorem canonical_writeParts {t : State} (h : s.Canonical) (ht : t.Canonical) (p : Packet) (w : Who)
    (l : List (Nat × Nat × Src)) : (writeParts p w l s t).Canonical := by
  unfold writeParts
  extract_lets put
  have hput (a : List Byte × State) (q : Nat × Nat × Src) (ha : a.2.Canonical) : (put a q).2.Canonical :=
    canonical_ite (canonical_poisonMark (canonical_writeAt ha _ _ _ _) _ _ _) (canonical_writeAt ha _ _ _ _)
  have hl : (l.foldl put ((packetBytes p), t)).2.Canonical :=
    List.foldlRecOn (motive := fun a : List Byte × State => a.2.Canonical) l put ht fun a ha q _ => hput a q ha
  exact canonical_ite (canonical_awayWrite h ht _ _ _) (canonical_reply hl _ _ _ _ _ _)

theorem canonical_execLinkRead (h : s.Canonical) (p : Packet) : CanonicalOutcome (execLinkRead p s) := by
  refine canonical_request h (fun w phys t ht => ?_) _ _ _
  have hp := canonical_requestParts ht p w 1 false p.length
  split
  · split
    · exact canonical_reply ht _ _ _ _ _ _
    split
    · exact canonical_reply ht _ _ _ _ _ _
    · exact canonical_readParts ht _ _ _
  split
  · exact canonical_refuseAccess ht _ _ _ _ _
  · exact canonical_delay ht _
  · exact canonical_readParts (hp.of_ok ‹_›) _ _ _

theorem canonical_execPostedWrite (h : s.Canonical) (p : Packet) : CanonicalOutcome (execPostedWrite p s) := by
  refine canonical_request h (fun w phys t ht => ?_) _ _ _
  have hp := canonical_requestParts ht p w 2 true p.length
  split
  · split
    · exact canonical_reply ht _ _ _ _ _ _
    split
    · exact canonical_reply ht _ _ _ _ _ _
    · exact canonical_writeParts ht ht _ _ _
  split
  · exact canonical_refuseAccess ht _ _ _ _ _
  · exact canonical_delay ht _
  · exact canonical_writeParts ht (hp.of_ok ‹_›) _ _ _

theorem canonical_linkFadd (h : s.Canonical) (p : Packet) (src : Src) (va n : Nat) : (linkFadd p src va n s).2.Canonical := by
  unfold linkFadd
  split
  extract_lets +onlyGivenNames f old
  exact canonical_ite_snd h (canonical_writeAt h _ _ _ _)

theorem canonical_replyOld (h : s.Canonical) (p : Packet) (r : Reply) : (replyOld p r s).Canonical :=
  canonical_reply h _ _ _ _ _ _

theorem canonical_linkLock (h : s.Canonical) (p : Packet) (w : Who) (src : Src) (va : Nat) :
    (linkLock p w src va s).Canonical := by
  unfold linkLock
  split
  · exact canonical_replyOld h _ _
  split
  · exact canonical_replyOld (canonical_lockRelease h _ _ _ _) _ _
  extract_lets +onlyGivenNames place
  split
  · exact canonical_ite (canonical_replyOld (canonical_setLock h _ _) _ _) (canonical_delay h _)
  split
  · exact canonical_replyOld (canonical_of_pair (canonical_lockRequest h _ _ _ _) ‹_›) _ _
  · exact canonical_delay (canonical_of_pair (canonical_lockRequest h _ _ _ _) ‹_›) _

theorem canonical_linkAtomicAt (h : s.Canonical) (p : Packet) (w : Who) (src : Src) (va n : Nat) :
    (linkAtomicAt p w src va n s).Canonical := by
  unfold linkAtomicAt
  split
  split
  · exact canonical_linkLock h _ _ _ _
  split
  · exact canonical_replyOld (canonical_of_pair (canonical_ite_snd (canonical_linkFadd h _ _ _ _)
      (canonical_amoAt h _ _ _ _ _ _)) ‹_›) _ _

theorem canonical_execLinkAtomic (h : s.Canonical) (p : Packet) : CanonicalOutcome (execLinkAtomic p s) := by
  refine canonical_request h (fun w phys t ht => ?_) _ _ _
  have hp := canonical_requestParts ht p w 3 (p.atomicOp != 13 && p.atomicOp != 14) p.length
  have hreply (st : Nat) {u : State} (hu : u.Canonical) := canonical_reply hu p 0x83 st false [] []
  split
  split
  · exact hreply 1 ht
  split
  · split
    · exact hreply 4 ht
    split
    · exact canonical_replyOld (canonical_amoAt ht _ _ _ _ _ _) _ _
    · grind [canonical_replyOld, canonical_setReplies, canonical_delay, canonical_sendRequest, CanonicalOption.getD]
    · exact canonical_replyOld ht _ _
    · exact hreply 1 ht
  split
  · exact canonical_refuseAccess ht _ _ _ _ _
  · exact canonical_delay ht _
  have hu := hp.of_ok ‹_›
  split
  · split
    · exact canonical_linkAtomicAt hu _ _ _ _ _
    split
    · exact hreply 1 ht
    split
    · exact canonical_replyOld (canonical_setReplies ((canonical_atomicAt hu _ _ _ _ _ _ _ _).of_ok ‹_›) _ _) _ _
    · exact canonical_delay ((canonical_atomicAt hu _ _ _ _ _ _ _ _).of_stall ‹_›) _
    · exact canonical_refuseAccess ht _ _ _ _ _
  · exact hreply 1 ht

theorem canonical_execLinkMessage (h : s.Canonical) (p : Packet) : CanonicalOutcome (execLinkMessage p s) := by
  refine canonical_request h (fun w _ t ht => ?_) _ _ _
  split
  · exact canonical_reply ht _ _ _ _ _ _
  extract_lets peer m
  have ha : Arrive.Canonical (if refusedBefore m t then .refuse (if typeClass m = 1 then .urgent else .general) t else arrive
    m t) :=
    Arrive.canonical_ite ((Arrive.canonical_refuse _ _).2 ht) (canonical_arrive ht _)
  split
  · exact canonical_reply (ha.of_done ‹_›) _ _ _ _ _ _
  · have hu := ha.of_fail ‹_›
    exact canonical_reply (canonical_ite (canonical_unreserve hu _ _) (canonical_failArrival hu _ _)) _ _ _ _ _ _
  · have hr := canonical_reserve (ha.of_refuse ‹_›)
    exact canonical_ite (canonical_reply (hr _ _) _ _ _ _ _ _) (canonical_delay (hr _ _) _)

theorem canonical_answered (h : s.Canonical) (p : Packet) (ops : List Nat) : CanonicalSecond (answered p ops s) := by
  unfold answered
  split
  · exact canonicalSecond_ite (canonicalSecond_some.2 (canonical_pair (canonical_modLink
      (canonical_takePacket h _ _ ‹_›) _ _))) canonicalSecond_none
  · exact canonicalSecond_none

theorem canonical_execReadResponse (h : s.Canonical) (p : Packet) : CanonicalOutcome (execReadResponse p s) := by
  unfold execReadResponse
  split
  · exact canonicalOutcome_next.2 h
  · exact canonicalOutcome_next.2 (canonical_refill (canonical_giveReply (canonical_answered h _ _ _ ‹_›) _ _ _) _)

theorem canonical_execWriteAcknowledgement (h : s.Canonical) (p : Packet) :
    CanonicalOutcome (execWriteAcknowledgement p s) := by
  unfold execWriteAcknowledgement
  split
  · exact canonicalOutcome_next.2 h
  rename_i t heq
  have ht : t.Canonical := canonical_answered h _ _ _ heq
  exact canonicalOutcome_next.2 (canonical_refill (canonical_ite (canonical_lostWrite
    (canonical_modLink ht _ _) _ _ _ _) ht) _)

theorem canonical_execAtomicResponse (h : s.Canonical) (p : Packet) : CanonicalOutcome (execAtomicResponse p s) := by
  unfold execAtomicResponse
  split
  · exact canonicalOutcome_next.2 h
  · exact canonicalOutcome_next.2 (canonical_refill (canonical_giveReply (canonical_answered h _ _ _ ‹_›) _ _ _) _)

theorem canonical_execMessageAnswer (h : s.Canonical) (p : Packet) : CanonicalOutcome (execMessageAnswer p s) := by
  unfold execMessageAnswer
  split
  · exact canonicalOutcome_next.2 h
  rename_i t heq
  have ht : t.Canonical := canonical_answered h _ _ _ heq
  split
  · exact canonicalOutcome_next.2 ht
  extract_lets free
  have hfree : (free t).Canonical := canonical_update ht
  split
  · exact canonicalOutcome_next.2 (canonical_ite (canonical_modLink ht _ _) (canonical_update (canonical_modLink ht _ _)))
  split
  · exact canonicalOutcome_next.2 (canonical_modLink hfree _ _)
  split
  · exact canonicalOutcome_next.2 hfree
  · exact canonicalOutcome_next.2 (canonical_failMsg hfree _ _)

theorem canonical_execLinkCall (h : s.Canonical) (p : Packet) : CanonicalOutcome (execLinkCall p s) :=
  canonicalOutcome_ite (canonicalOutcome_next.2 h) (canonicalOutcome_next.2 (CanonicalOption.getD
    (canonical_sendRequest h _ _) h))

theorem canonical_execCallResponse (h : s.Canonical) (p : Packet) : CanonicalOutcome (execCallResponse p s) := by
  unfold execCallResponse
  split
  · exact canonicalOutcome_next.2 h
  · exact canonicalOutcome_next.2 (canonical_modLink (canonical_answered h _ _ _ ‹_›) _ _)

end Sys2Proof.Machine
end

section
/-! SUPPORT. Bring-up, attestation, power and thermal limits keep memory and its marks in canonical form. -/

namespace Sys2Proof.Machine

open Host (Outcome)

variable {s : State}

theorem canonical_modWenlek (h : s.Canonical) (f : Wenlek → Wenlek) : (State.modWenlek s f).Canonical :=
  canonical_update h

theorem canonical_execFirmwareVerify (h : s.Canonical) (img : Image) : CanonicalOutcome (execFirmwareVerify img s) :=
  canonicalOutcome_ite (canonicalOutcome_next.2 h) (canonicalOutcome_ite (canonicalOutcome_next.2 (canonical_modWenlek h _))
    (canonicalOutcome_next.2 (canonical_modWenlek h _)))

theorem canonical_execConfigurationVerify (h : s.Canonical) (img : Image) :
    CanonicalOutcome (execConfigurationVerify img s) :=
  canonicalOutcome_ite (canonicalOutcome_next.2 h) (canonicalOutcome_ite (canonicalOutcome_next.2 (canonical_modWenlek
    (canonical_update (canonical_foldl _ _ (fun _ _ h => canonical_modLink h _ _) h)) _)) (canonicalOutcome_next.2
    (canonical_modWenlek h _)))

theorem canonical_execDiePowerUp (h : s.Canonical) (die : Nat) (good : Bool) :
    CanonicalOutcome (execDiePowerUp die good s) := by
  unfold execDiePowerUp
  extract_lets +onlyGivenNames done
  exact canonicalOutcome_ite (canonicalOutcome_next.2 h) (canonicalOutcome_next.2 (canonical_modWenlek (canonical_ite
    (canonical_update h) h) _))

theorem canonical_execBootSelfTest (h : s.Canonical) : CanonicalOutcome (execBootSelfTest s) :=
  canonicalOutcome_ite (canonicalOutcome_next.2 h) (canonicalOutcome_next.2 (canonical_modWenlek (canonical_foldl _ _
    (fun _ _ h => canonical_modMx h _ _) h) _))

theorem canonical_writeEntry (h : s.Canonical) (e : EntryBlock) (c : Nat) : (writeEntry e s c).Canonical := by
  unfold writeEntry
  extract_lets +onlyGivenNames at_ s' s2 s3
  have hs' : s'.Canonical := canonical_physWrite h _ _ _
  have hs2 : s2.Canonical := canonical_physWrite hs' _ _ _
  have hs3 : s3.Canonical := canonical_foldl _ _ (fun _ _ h => canonical_physWrite h _ _ _) hs2
  exact canonical_physWrite (canonical_physWrite hs3 _ _ _) _ _ _

theorem canonical_execServiceEntrySetup (h : s.Canonical) : CanonicalOutcome (execServiceEntrySetup s) := by
  unfold execServiceEntrySetup
  split
  · exact canonicalOutcome_next.2 h
  split
  · extract_lets +onlyGivenNames s' s2
    have hs' : s'.Canonical := canonical_foldl _ _ (fun _ _ h => canonical_writeEntry h _ _) h
    have hs2 : s2.Canonical := canonical_foldl _ _ (fun _ _ h => canonical_csrWrite h _ _) hs'
    exact canonicalOutcome_next.2 (canonical_modWenlek hs2 _)
  · exact canonicalOutcome_next.2 (canonical_modWenlek h _)

theorem canonical_startService (h : s.Canonical) (c : Nat) : (startService s c).Canonical :=
  canonical_place h _ _ _ _

theorem canonical_execBringupLinkTraining (h : s.Canonical) (up : List (Nat × Nat × Nat)) :
    CanonicalOutcome (execBringupLinkTraining up s) := by
  unfold execBringupLinkTraining
  split
  · exact canonicalOutcome_next.2 h
  extract_lets train t
  have htrain (s n) (h : s.Canonical) : (train s n).Canonical := by
    refine canonical_ite h ?_
    extract_lets t
    have ht : t.Canonical := by
      show State.Canonical (match up.find? _ with | some p => _ | none => _)
      split
      · exact canonical_trainLink h _ _ _
      · exact h
    exact canonical_ite ht (canonical_modLink ht _ _)
  exact canonicalOutcome_next.2 (canonical_modWenlek (canonical_foldl _ _ (fun _ _ h => canonical_startService h _)
    (canonical_foldl _ _ htrain h)) _)

theorem canonical_beginShutdown (h : s.Canonical) : (beginShutdown s).Canonical := by
  unfold beginShutdown
  extract_lets +onlyGivenNames own stop
  exact canonical_foldl _ _ (fun _ _ h => canonical_ite h (canonical_update (canonical_beginStop (canonical_update h) _ _)))
    (canonical_modWenlek h _)

theorem canonical_endShutdownStop (h : s.Canonical) (p : Stop) : (endShutdownStop s p).Canonical :=
  canonical_update (canonical_foldl _ _ (fun _ _ h => canonical_saveCore h _ _) h)

theorem canonical_powerDown (h : s.Canonical) : (powerDown s).Canonical := by
  unfold powerDown
  extract_lets +onlyGivenNames s'
  have hs' : s'.Canonical := canonical_foldl _ _ (fun _ _ h => canonical_evictLine h _ _) h
  exact canonical_modWenlek (canonical_update hs') _

theorem canonical_execThermalShutdown (h : s.Canonical) : CanonicalOutcome (execThermalShutdown s) := by
  unfold execThermalShutdown
  extract_lets +onlyGivenNames t
  have ht : t.Canonical := canonical_ite h (canonical_beginShutdown h)
  exact canonicalOutcome_ite (canonicalOutcome_next.2 (canonical_powerDown (canonical_foldl _ _
    (fun _ _ h => canonical_endShutdownStop h _) ht))) (canonicalOutcome_next.2 ht)

end Sys2Proof.Machine
end

section
/-! SUPPORT. Every instruction and event (O60). -/

namespace Sys2Proof.Machine

open Host (Outcome)

variable {s : State}

theorem canonical_exec (h : s.Canonical) (i : Instr) : CanonicalOutcome (exec i s) := by
  cases i with
  | add | sub | mul | mulh | mulhu | div | divu | rem | remu | and | or | xor | andn | sll | srl | sra | rol | ror | slt
  | sltu | min | max | minu | maxu | cAdd | cSub | cAnd | cOr | cXor =>
    exact canonicalOutcome_next.2 (canonical_intOp2 h _ _ _ _ _)
  | clz | ctz | popc | addi | slli | srli | srai | andi | ori | xori | slti | sltui | cAddi | cLi | cSlli | cSrli =>
    exact canonicalOutcome_next.2 (canonical_intOp1 h _ _ _ _)
  | sel => exact canonical_execSel h _ _ _ _
  | lih => exact canonical_execLih h _ _
  | csetb => exact canonical_execCsetb h _ _ _
  | cinc | candp | csub | ctest | cgetb | cgetl | cgetp | cgett | cclr | cmov | cincI | candpI | cpcrel | cMov | cCinc =>
    exact canonicalOutcome_next.2 (canonical_capOp h _ _ _ _)
  | csetbI => exact canonical_execCsetbI h _ _ _
  | lb | lbu | lh | lhu | lw | lwu | ld | lcap | lbX | lbuX | lhX | lhuX | lwX | lwuX | ldX | lq | lcapX | cLd | cLw =>
    exact canonicalOutcome_next.2 (canonical_loadOp h _ _ _ _ _ _ _ _ _ _)
  | sb | sh | sw | sd | sq | scap | sbX | shX | swX | sdX | sqX | scapX | cSd | cSw =>
    exact canonicalOutcome_next.2 (canonical_storeOp h _ _ _ _ _ _ _ _ _ _)
  | home => exact canonical_execHome h _ _
  | migr | migrF => exact canonicalOutcome_next.2 (canonical_migrOp h _ _)
  | amoadd | amoand | amoor | amoxor | amomin | amomax | amominu | amomaxu | amoswap | cas | casq =>
    exact canonicalOutcome_next.2 (canonical_atomicOp h _ _ _ _ _ _ _ _)
  | rwlr | rwlw => exact canonicalOutcome_next.2 (canonical_lockOp h _ _ _ _ _)
  | rwur | rwuw => exact canonicalOutcome_next.2 (canonical_unlockOp h _ _ _)
  | fence => exact canonical_execFence h _ _
  | beq | bne | blt | bge | bltu | bgeu | cBeqz | cBnez => exact canonicalOutcome_next.2 (canonical_branchOp h _ _ _ _ _)
  | jal => exact canonical_execJal h _ _
  | jalr | cJr => exact canonicalOutcome_next.2 (canonical_jalrOp h _ _ _)
  | vld => exact canonical_execVld h _ _ _
  | vlds => exact canonical_execVlds h _ _ _ _ _
  | vgath => exact canonical_execVgath h _ _ _ _ _
  | vst => exact canonical_execVst h _ _ _
  | vsts => exact canonical_execVsts h _ _ _ _ _
  | vscat => exact canonical_execVscat h _ _ _ _ _
  | vscataAdd | vscataFadd => exact canonicalOutcome_next.2 (canonical_scatAdd h _ _ _ _ _ _ _)
  | vadd | vsub | vmul | vmulh | vmulhu | vmin | vmax | vminu | vmaxu | vabs | vneg | vand | vor | vxor | vsll | vsrl
  | vsra => exact canonicalOutcome_next.2 (canonical_vint h _ _ _ _ _ _)
  | vaddFp | vsubFp | vmulFp | vfma | vfms | vdiv | vsqrt | vminFp | vmaxFp | vabsFp | vnegFp =>
    exact canonicalOutcome_next.2 (canonical_vflt h _ _ _ _ _ _)
  | vcmpEq | vcmpNe | vcmpLt | vcmpLe | vcmpLtu | vcmpLeu => exact canonicalOutcome_next.2 (canonical_vcmp h _ _ _ _ _ _)
  | vcmpFeq | vcmpFne | vcmpFlt | vcmpFle | vcmpFuno => exact canonicalOutcome_next.2 (canonical_vcmpFp h _ _ _ _ _ _)
  | vsel | vperm | vcompr | vexpnd | vcvt | vconf | visect => exact canonicalOutcome_next.2 (canonical_vecOp h _)
  | vbcast => exact canonical_execVbcast h _ _ _ _
  | vext => exact canonical_execVext h _ _ _ _
  | vins => exact canonical_execVins h _ _ _ _
  | vslideUp => exact canonical_execVslideUp h _ _ _ _ _
  | vslideDn => exact canonical_execVslideDn h _ _ _ _ _
  | vredAdd | vredMin | vredMax | vredMinu | vredMaxu | vredAnd | vredOr | vredXor =>
    exact canonicalOutcome_next.2 (canonical_vredOp h _ _ _ _ _)
  | vredFadd | vredFmin | vredFmax => exact canonicalOutcome_next.2 (canonical_vredFp h _ _ _ _ _ _)
  | vcvttDec => exact canonical_execVcvttDec h _ _ _ _ _ _
  | vcvttEnc => exact canonical_execVcvttEnc h _ _ _ _ _ _
  | kopAnd | kopOr | kopXor | kopAndn | kopNot => exact canonicalOutcome_next.2 (canonical_kop h _ _ _ _)
  | kmovToMask => exact canonical_execKmovToMask h _ _
  | kmovFromMask => exact canonical_execKmovFromMask h _ _
  | kpop => exact canonical_execKpop h _ _
  | send => exact canonical_execSend h _ _ _ _ _
  | sendv => exact canonical_execSendv h _ _ _ _ _
  | sendb => exact canonical_execSendb h _ _ _ _ _
  | mlen | msrc => exact canonicalOutcome_next.2 (canonical_fromMessage h _ _)
  | spawn | spawnW => exact canonicalOutcome_next.2 (canonical_spawnOp h _ _ _ _)
  | kill => exact canonicalOutcome_next.2 (canonical_killOp h _ _)
  | prio => exact canonical_execPrio h _
  | waitc => exact canonical_execWaitc h _ _
  | barr => exact canonical_execBarr h _
  | barw => exact canonical_execBarw h _
  | baraw => exact canonical_execBaraw h _
  | barset => exact canonical_execBarset h _ _
  | wdeclOne | wdeclAll | wdeclAny => exact canonicalOutcome_next.2 (canonical_declareWait h _ _ _)
  | chopen => exact canonicalOutcome_next.2 (canonical_chopen h _ _ _ _)
  | chprod => exact canonicalOutcome_next.2 (canonical_chprod h _ _)
  | chput => exact canonicalOutcome_next.2 (canonical_chput h _ _ _)
  | chget => exact canonicalOutcome_next.2 (canonical_chget h _ _ _ _)
  | cheos => exact canonicalOutcome_next.2 (canonical_cheos h _ _)
  | chclose => exact canonicalOutcome_next.2 (canonical_chclose h _ _)
  | tsub => exact canonical_execTsub h _ _ _ _
  | trel => exact canonical_execTrel h _
  | tretry => exact canonical_execTretry h _
  | mxq => exact canonical_execMxq h _ _
  | mxwait => exact canonical_execMxwait h _
  | mxcure => exact canonical_execMxcure h _
  | cekick => exact canonical_execCekick h _ _ _
  | semw => exact canonical_execSemw h _
  | sems => exact canonical_execSems h _
  | compose => exact canonical_execCompose h _
  | csrr => exact canonical_execCsrr h _ _
  | csrw | csrset | csrclr => exact canonicalOutcome_next.2 (canonical_csrOp h _ _ _)
  | trap => exact canonicalOutcome_next.2 (canonical_serviceTrap (canonical_setTpc h _) _ _ _ _ _ _ _ _)
  | syscall => exact canonical_execSyscall h _ _
  | pinval => exact canonical_execPinval h _ _
  | plbinv => exact canonical_execPlbinv h _ _
  | tstop => exact canonical_execTstop h _
  | tresume => exact canonical_execTresume h _
  | mxtest => exact canonical_execMxtest h _
  | pkill => exact canonical_execPkill h _
  | fenceI => exact canonicalOutcome_next.2 (canonical_complete (canonical_drainScope h _ _ _) _)
  | mdone | cMdone => exact canonicalOutcome_next.2 (canonical_mdone h)
  | exit => exact canonical_execExit h
  | yield | cYield => exact canonicalOutcome_next.2 (canonical_complete (canonical_pointAt h _ _) _)
  | killApply => exact canonical_execKillApply h _ _
  | wclr => exact canonicalOutcome_next.2 (canonical_modMe (canonical_complete h _) _)
  | tdone => exact canonical_execTdone h
  | cekickR => exact canonical_execCekickR h
  | composeComplete => exact canonical_execComposeComplete h _ _
  | decompose => exact canonical_execDecompose h
  | nop | cNop => exact canonicalOutcome_next.2 (canonical_complete h _)
  | brk => exact canonical_execBrk h
  | eret => exact canonical_execEret h
  | pinvalComplete => exact canonical_execPinvalComplete h _ _
  | tstopComplete => exact canonical_execTstopComplete h _ _
  | cJ => exact canonicalOutcome_next.2 (canonical_completeAt h _)
  | eli | eadd | eaddi | esub | eand | eshl | eshr => exact canonicalOutcome_next.2 (canonical_engWrite h _ _)
  | eb | ej | scout | barbUnbind => exact canonicalOutcome_next.2 (canonical_modEngMe h _)
  | eld => exact canonical_execEld h _ _ _ _
  | eldQ => exact canonical_execEldQ h _ _
  | est => exact canonical_execEst h _ _ _ _
  | estQ => exact canonical_execEstQ h _ _
  | blk => exact canonicalOutcome_next.2 (canonical_startCopy h _ _ _ _)
  | gath | scat => exact canonicalOutcome_next.2 (canonical_listCopy h _ _ _ _ _)
  | ewait => exact canonical_execEwait h _ _
  | efence => exact canonical_execEfence h _
  | semwEngine => exact canonical_execSemwEngine h _
  | semsEngine => exact canonical_execSemsEngine h _
  | barbBind => exact canonical_execBarbBind h _
  | barbAdd => exact canonical_execBarbAdd h _ _
  | edone => exact canonical_execEdone h _
  | copyComplete => exact canonical_execCopyComplete h _
  | copyStop => exact canonical_execCopyStop h _
  | scoutTranslation => exact canonical_execScoutTranslation h _
  | engineInterrupt | geometryTrap => exact canonicalOutcome_next.2 (canonical_deliverCause h _ _)
  | mxNop => exact canonicalOutcome_next.2 (canonical_simpleCmd h (fun _ _ h => h) _ _ _)
  | mxRing => exact canonical_execMxRing h _
  | mxMode => exact canonical_execMxMode h _
  | mxZero => exact canonical_execMxZero h _
  | mxLda => exact canonical_execMxLda h _
  | mxLdb => exact canonical_execMxLdb h _
  | mxMma => exact canonical_execMxMma h _
  | mxRot => exact canonical_execMxRot h _
  | mxMmar => exact canonical_execMxMmar h _
  | mxRed => exact canonical_execMxRed h _
  | mxScx => exact canonical_execMxScx h _
  | mxStc => exact canonical_execMxStc h _
  | mxSync => exact canonical_execMxSync h _
  | mxFmap => exact canonical_execMxFmap h _
  | tokenPush => exact canonicalOutcome_next.2 (canonical_pushToken h _)
  | rotationStep => exact canonical_execRotationStep h _
  | scaleBroadcast => exact canonicalOutcome_next.2 (canonical_broadcastTry h _)
  | scanStart die => exact canonical_execScanStart h die
  | scanPass => exact canonicalOutcome_ite (canonicalOutcome_next.2 (canonical_modMx h _ _)) (canonicalOutcome_next.2 h)
  | scanFail => exact canonical_execScanFail h _ _
  | ramp => exact canonical_execRamp h _
  | walk => exact canonicalOutcome_next.2 (canonical_cacheWalk h _ _ _)
  | placementCacheFill => exact canonical_execPlacementCacheFill h _ _
  | plbMiss => exact canonical_execPlbMiss h _ _ _
  | remoteWordAccess | byStoreAck | bankWindowAccess => exact canonicalOutcome_next.2 (canonical_arriveFlight h _ _)
  | sectorAccess => exact canonical_execSectorAccess h _
  | sectorFill => exact canonical_execSectorFill h _ _
  | missWayRelease => exact canonicalOutcome_next.2 (canonical_ite (canonical_releaseWay (canonical_update h) _ _) h)
  | scrub => exact canonical_execScrub h _ _
  | ownerSlotHandler => exact canonical_execOwnerSlotHandler h _
  | bankroleWrite | arrbaseWrite | arrcapWrite | cntWrite | statusWrite | vtabWrite | faultqWrite | wdidleWrite
  | ptwinWrite => exact canonicalOutcome_next.2 (canonical_csrPut h h _ _ _)
  | bankroleChange => exact canonical_execBankroleChange h _
  | messageArrival => exact canonical_execMessageArrival h _
  | slotDispatch => exact canonical_execSlotDispatch h _
  | negativeAcknowledgement => exact canonical_execNegativeAcknowledgement h _
  | grant => exact canonical_execGrant h _
  | refusalResend => exact canonical_execRefusalResend h _ _
  | probeRequest => exact canonical_execProbeRequest h _
  | probe => exact canonical_execProbe h _
  | confirm => exact canonical_execConfirm h _
  | probeAbandon => exact canonical_execProbeAbandon h _
  | faultDelivery => exact canonical_execFaultDelivery h _
  | serviceTrapDispatch => exact canonical_execServiceTrapDispatch h _
  | parkFrameWait => exact canonicalOutcome_next.2 (canonical_tryPark h _ _)
  | faultRecordPost => exact canonical_execFaultRecordPost h _
  | redelivery => exact canonical_execRedelivery h _
  | absenceResend => exact canonical_execAbsenceResend h _
  | debugHalt => exact canonical_execDebugHalt h _ _ _ _
  | debugReadRegister => exact canonical_execDebugReadRegister h _ _ _
  | debugWriteRegister => exact canonical_execDebugWriteRegister h _ _ _ _ _
  | debugReadQueue => exact canonicalOutcome_ite (canonicalOutcome_next.2 h) (canonicalOutcome_next.2 (canonical_update h))
  | debugReplaceQueue =>
    exact canonicalOutcome_ite (canonicalOutcome_next.2 h) (canonicalOutcome_next.2 (canonical_modCore h _ _))
  | debugStep => exact canonicalOutcome_ite (canonicalOutcome_next.2 (canonical_modSlot h _ _ _)) (canonicalOutcome_next.2 h)
  | debugResume => exact canonical_execDebugResume h _
  | idleFlit | replayRequest | replayRequestTimeout => exact canonicalOutcome_next.2 (canonical_onUp h _ _)
  | dataFlit => exact canonical_execDataFlit h _ _ _ _
  | laneMap => exact canonical_execLaneMap h _ _ _
  | lossOfLight => exact canonical_execLossOfLight h _ _
  | laneMapResend => exact canonical_execLaneMapResend h _
  | linkTraining => exact canonicalOutcome_next.2 (canonical_trainLink h _ _ _)
  | laneRegain => exact canonicalOutcome_ite (canonicalOutcome_next.2 h) (canonicalOutcome_next.2 (canonical_restripe h _ _))
  | downLinkTimeout => exact canonical_execDownLinkTimeout h _
  | linkRead => exact canonical_execLinkRead h _
  | postedWrite => exact canonical_execPostedWrite h _
  | linkAtomic => exact canonical_execLinkAtomic h _
  | linkMessage => exact canonical_execLinkMessage h _
  | linkCall => exact canonical_execLinkCall h _
  | readResponse => exact canonical_execReadResponse h _
  | writeAcknowledgement => exact canonical_execWriteAcknowledgement h _
  | atomicResponse => exact canonical_execAtomicResponse h _
  | messageAnswer => exact canonical_execMessageAnswer h _
  | callResponse => exact canonical_execCallResponse h _
  | powerOn => exact canonicalOutcome_next.2 (canonical_update reset_canonical)
  | firmwareVerify => exact canonical_execFirmwareVerify h _
  | configurationVerify => exact canonical_execConfigurationVerify h _
  | diePowerUp => exact canonical_execDiePowerUp h _ _
  | bootSelfTest => exact canonical_execBootSelfTest h
  | serviceEntrySetup => exact canonical_execServiceEntrySetup h
  | bringupLinkTraining => exact canonical_execBringupLinkTraining h _
  | attestationRequest | powerLimitExceeded | powerBelowLimit => exact canonicalOutcome_next.2 (canonical_modWenlek h _)
  | thermalShutdown => exact canonical_execThermalShutdown h
  | illegalInstruction => exact canonicalOutcome_next.2 (canonical_trapMe h _ _)
  | instructionFetchFault => exact canonical_execInstructionFetchFault h _
  | engineIllegalInstruction | engineFetchFault => exact canonicalOutcome_next.2 (canonical_engineFault h _ _ _ _)
  | accessResponse => exact canonical_execAccessResponse h _ _
  | wenlekWindowAccess => exact canonical_execWenlekWindowAccess h _ _ _

end Sys2Proof.Machine
end

section
/-! SUPPORT. One step keeps memory and its marks in canonical form. -/

namespace Sys2Proof.Machine

open Host (Outcome)

variable {s : State}

theorem canonical_prep (h : s.Canonical) : (State.prep s).Canonical :=
  canonical_update h

theorem canonical_execFetched (h : s.Canonical) (p : Nat × Nat) : CanonicalOutcome (execFetched p s) := by
  unfold execFetched
  split
  · exact canonical_exec (canonical_update h) _
  · exact canonical_exec (canonical_update h) _

theorem canonical_issueSlot (h : s.Canonical) : CanonicalOutcome (issueSlot s).2 := by
  unfold issueSlot
  extract_lets c k
  have hf := canonical_fetchSlot h c k
  split
  · exact canonical_execKillApply h c k
  split
  · exact canonicalOutcome_next.2 (canonical_takePending h _ _ _)
  split
  · exact canonicalOutcome_next.2 (hf.of_stall ‹_›)
  · exact canonical_execInstructionFetchFault (hf.of_exc ‹_›) _
  rename_i p t heq
  have he := canonical_execFetched (canonical_firstIssue (hf.of_ok heq) c k) p
  split
  · exact canonicalOutcome_next.2 (canonicalOutcome_next.1 (‹_ = _› ▸ he))
  · exact he

theorem canonical_issueFrom (h : s.Canonical) (c : Nat) (handler : Bool) (l : List (Nat × Nat)) :
    CanonicalOutcome (issueFrom c handler l s) := by
  induction l generalizing s with
  | nil =>
    unfold issueFrom
    split
    · exact canonical_execOwnerSlotHandler (canonical_modCore (canonical_update h) _ _) _
    · exact canonicalOutcome_next.2 h
  | cons q l ih =>
    have hi : CanonicalOutcome (issueSlot (setPointer c q { s with curCore := q.1, curSlot := q.2 })).2 :=
      canonical_issueSlot (canonical_setPointer (canonical_update h) c q)
    unfold issueFrom
    split
    · rename_i issued t heq
      rw [heq] at hi
      have ht : t.Canonical := canonicalOutcome_next.1 hi
      extract_lets u
      have hu : u.Canonical := canonical_ite ht (canonical_notIssued ht _ _)
      split
      · exact canonicalOutcome_next.2 hu
      · exact ih hu
    · rename_i heq
      rw [heq] at hi
      exact hi

theorem canonical_issueCore (h : s.Canonical) (c : Nat) (stalled : List Nat) : CanonicalOutcome (issueCore c stalled s) :=
  canonicalOutcome_ite (canonical_exec h _) (canonical_issueFrom h _ _ _)

theorem canonical_issueEngine (h : s.Canonical) (c : Nat) : CanonicalOutcome (issueEngine c s) := by
  unfold issueEngine
  extract_lets +onlyGivenNames e
  split
  · exact canonicalOutcome_next.2 h
  split
  · exact canonicalOutcome_next.2 (canonical_engineStop h _ _ _ _ _)
  split
  · exact canonicalOutcome_next.2 ((canonical_fetchEngine h _).of_stall ‹_›)
  · exact canonicalOutcome_ite (canonicalOutcome_next.2 (canonical_engineWait
      ((canonical_fetchEngine h _).of_exc ‹_›) _ _ _)) (canonical_exec ((canonical_fetchEngine h _).of_exc ‹_›) _)
  · exact canonical_exec ((canonical_fetchEngine h _).of_exc ‹_›) _
  split
  · exact canonical_exec ((canonical_fetchEngine h _).of_ok ‹_›) _
  · exact canonical_exec ((canonical_fetchEngine h _).of_ok ‹_›) _

theorem canonical_issueSequencer (h : s.Canonical) (c : Nat) : CanonicalOutcome (issueSequencer c s) := by
  unfold issueSequencer
  split
  · exact canonicalOutcome_next.2 h
  split
  · exact canonical_exec h _
  · exact canonicalOutcome_next.2 (canonical_mxIllegal h _)

theorem canonical_step (h : s.Canonical) : CanonicalOutcome (step s) := by
  unfold step
  split
  · exact canonicalOutcome_fault _
  split
  · exact canonical_issueCore (canonical_update (canonical_prep h)) _ _
  · exact canonical_issueEngine (canonical_update (canonical_prep h)) _
  · exact canonical_issueSequencer (canonical_update (canonical_prep h)) _
  · exact canonical_exec (canonical_prep h) _

end Sys2Proof.Machine

open Sys2Proof Sys2Proof.Machine in
/-- Settles O60: a step executes one instruction or event, and each keeps memory, the cached copies and their marks in
  canonical form,
function by function of the model. -/
theorem stepKeepsCanonical : Obligations.StepKeepsCanonical := by
  unfold Obligations.StepKeepsCanonical
  exact ⟨fun _ t hs hrun => canonical_step hs t hrun, fun i _ t hs hrun => canonical_exec hs i t hrun⟩
end

section
/-! SUPPORT. What the operations of caches, frames and tables leave alone. -/

namespace Sys2Proof.Machine

open Host (Outcome)

variable {s t : State}

/-! What the operations of caches and frames leave alone. -/

/-- A state without what caches and frames hold: memory, the cached copies, their marks and the lines. -/
def apart (s : State) : State :=
  { s with mem := [], tags := [], poison := [], lines := [], cdata := [], ctags := [], cpoison := [] }

theorem apart_foldl {β : Type} (l : List β) (f : State → β → State) (hf : ∀ s b, apart (f s b) = apart s) (s : State) :
    apart (l.foldl f s) = apart s := by
  induction l generalizing s with
  | nil => rfl
  | cons b l ih => exact (ih _).trans (hf s b)

theorem apart_ite {p : Prop} [Decidable p] {a b : State} (ha : apart a = apart s) (hb : apart b = apart s) :
    apart (if p then a else b) = apart s := by
  split <;> assumption

theorem apart_showHurt (k : Nat) (p : Nat → Bool) (s : State) : apart (showHurt k p s) = apart s :=
  apart_ite rfl rfl

theorem apart_dropSector (home va : Nat) (s : State) : apart (dropSector home va s) = apart s := by
  simp only [apart, dropSector, clearSector]

theorem apart_flushSector (home va : Nat) (s : State) : apart (flushSector home va s) = apart s := by
  simp only [apart, flushSector]

theorem apart_evictSector (home va : Nat) (s : State) : apart (evictSector home va s) = apart s := by
  unfold evictSector
  extract_lets u x sec v
  have hv : apart v = apart u := apart_ite (apart_flushSector _ _ u) rfl
  exact (apart_dropSector _ _ v).trans (hv.trans (apart_showHurt _ _ s))

theorem apart_evictLine (home va : Nat) (s : State) : apart (evictLine home va s) = apart s :=
  apart_foldl _ _ (fun s _ => apart_evictSector _ _ s) s

theorem apart_releaseWay (tile set : Nat) (s : State) : apart (releaseWay tile set s) = apart s := by
  unfold releaseWay
  refine apart_ite rfl ?_
  split
  · exact apart_evictLine _ _ s
  · rfl

theorem apart_bankWay (home va : Nat) (s : State) : apart (bankWay home va s).2 = apart s := by
  unfold bankWay
  extract_lets l
  split
  · rfl
  split
  · exact apart_showHurt _ _ s
  · rfl

theorem apart_fillFrom (home va pa hint : Nat) (s : State) : apart (fillFrom home va pa hint s) = apart s := by
  unfold fillFrom
  extract_lets sec absent u useBank way v x x'
  have hu : apart u = apart s := apart_ite (apart_releaseWay _ _ s) rfl
  have hv : apart v = apart u := by
    unfold v way
    split
    · exact apart_bankWay _ _ u
    · rfl
  exact hv.trans hu

theorem apart_ready (src : Src) (va hint : Nat) (s : State) : apart (src.ready va hint s) = apart s := by
  cases src with
  | cached h fill => exact apart_ite rfl (apart_fillFrom _ _ _ _ s)
  | _ => rfl

theorem apart_writeAt (src : Src) (va : Nat) (l : List Byte) (tagged : Bool) (s : State) :
    apart (writeAt src va l tagged s) = apart s := by
  cases src with
  | cached h fill => exact (rfl : apart _ = apart ((Src.cached h fill).ready va 0 s)).trans (apart_ready _ _ _ s)
  | _ => rfl

theorem apart_writeOver (src : Src) (va hint : Nat) (l : List Byte) (tagged : Bool) (s : State) :
    apart (writeOver src va hint l tagged s) = apart s :=
  apart_foldl _ _ (fun s _ => apart_writeAt _ _ _ _ s) s

theorem apart_setPoison (src : Src) (va n : Nat) (m : Bool) (s : State) : apart (setPoison src va n m s) = apart s := by
  unfold setPoison
  split <;> rfl

theorem settleBy_of_nil (va : Nat) (h : s.flights = []) : settleBy va s = s := by
  simp [settleBy, h]

theorem apart_tableFill (pa : Nat) (h : s.flights = []) : apart (tableFill pa s) = apart s := by
  unfold tableFill
  split
  · refine apart_ite rfl ?_
    have hf (home va : Nat) : apart (fillFrom home va pa 0 (settleBy va s)) = apart s := by
      rw [settleBy_of_nil _ h]
      exact apart_fillFrom _ _ _ _ s
    exact hf _ _
  · rfl

theorem flights_of_apart (e : apart t = apart s) : t.flights = s.flights :=
  show (apart t).flights = (apart s).flights from congrArg State.flights e

theorem apart_walkFill (die va : Nat) (h : s.flights = []) : apart (walkFill die va s) = apart s := by
  have hread (p : Prop) [Decidable p] (pa : Nat) {u : State} (hu : apart u = apart s) :
      apart (if p then u else tableFill pa u) = apart s :=
    apart_ite hu ((apart_tableFill pa ((flights_of_apart hu).trans h)).trans hu)
  unfold walkFill
  extract_lets read next a0 t
  have ht : apart t = apart s := hread _ _ rfl
  split
  · exact ht
  extract_lets a1 u
  have hu : apart u = apart s := hread _ _ ht
  split
  · exact hu
  · exact hread _ _ hu

/-! What accesses of any agent leave of the cores: all but the contexts parked at a home and the sequence of its records. -/

/-- A core without its parked contexts and the sequence number of its last record. -/
def Core.view (x : Core) : Core := { x with parked := [], fqSeq := 0 }

/-- No core changes but in the contexts parked there and the sequence number of its last record. -/
def KeepsCores (s t : State) : Prop := ∀ c, (t.core c).view = (s.core c).view

theorem KeepsCores.refl (s : State) : KeepsCores s s := fun _ => rfl

theorem KeepsCores.trans {u : State} (h : KeepsCores s t) (h' : KeepsCores t u) : KeepsCores s u :=
  fun c => (h' c).trans (h c)

theorem KeepsCores.of_cores (h : t.cores = s.cores) : KeepsCores s t := fun c => by
  unfold State.core
  rw [h]

theorem KeepsCores.of_apart (h : apart t = apart s) : KeepsCores s t :=
  .of_cores (show (apart t).cores = (apart s).cores from congrArg State.cores h)

theorem KeepsCores.slot (h : KeepsCores s t) (c k : Nat) : t.slot c k = s.slot c k :=
  show (t.core c).view.slot k = (s.core c).view.slot k from congrArg (fun x => Core.slot x k) (h c)

theorem KeepsCores.pcache (h : KeepsCores s t) (c : Nat) : (t.core c).pcache = (s.core c).pcache :=
  show (t.core c).view.pcache = (s.core c).view.pcache from congrArg Core.pcache (h c)

theorem KeepsCores.plb (h : KeepsCores s t) (c : Nat) : (t.core c).plb = (s.core c).plb :=
  show (t.core c).view.plb = (s.core c).view.plb from congrArg Core.plb (h c)

theorem KeepsCores.setCore {c : Nat} {x : Core} (h : x.view = (s.core c).view) : KeepsCores s (s.setCore c x) := fun d => by
  by_cases hd : d = c
  · subst hd
    rw [State.core_setCore_self, h]
  · rw [State.core_setCore_ne _ _ _ _ hd]

theorem KeepsCores.ite {p : Prop} [Decidable p] {a b : State} (ha : KeepsCores s a) (hb : KeepsCores s b) :
    KeepsCores s (if p then a else b) := by
  split <;> assumption

theorem KeepsCores.foldl {β : Type} (l : List β) (f : State → β → State) (hf : ∀ s b, KeepsCores s (f s b)) (s : State) :
    KeepsCores s (l.foldl f s) := by
  induction l generalizing s with
  | nil => exact .refl s
  | cons b l ih => exact (hf s b).trans (ih _)

theorem keepsCores_amoAt (src : Src) (va n amo b e : Nat) (s : State) : KeepsCores s (amoAt src va n amo b e s).2 := by
  have hw (l : List Byte) : KeepsCores s (writeAt src va l false s) := .of_apart (apart_writeAt _ _ _ _ s)
  unfold amoAt
  extract_lets old
  split
  · exact .refl s
  split
  · dsimp only
    split
    · exact (hw _).trans (.ite (.refl _) (.setCore rfl))
    · exact hw _
  · exact .refl s

theorem keepsCores_performFlight (f : Flight) (s : State) : KeepsCores s (performFlight f s).2 := by
  unfold performFlight
  split
  · exact .refl s
  split
  · exact .of_apart (apart_writeOver _ _ _ _ _ s)
  · exact keepsCores_amoAt _ _ _ _ _ _ s
  · exact .refl s
  · exact .refl s

theorem keepsCores_finishFlight (f : Flight) (s : State) : KeepsCores s (finishFlight f s) := by
  unfold finishFlight
  split
  · extract_lets u
    have hu : KeepsCores s u :=
      (KeepsCores.of_cores rfl : KeepsCores s { s with flights := s.flights.erase f }).trans (keepsCores_performFlight f _)
    exact .ite (hu.trans (.of_apart (apart_setPoison _ _ _ _ u))) hu
  · exact (keepsCores_performFlight f s).trans (.of_cores rfl)

theorem keepsCores_settleBy (va : Nat) (s : State) : KeepsCores s (settleBy va s) :=
  .foldl _ _ (fun s f => .ite (keepsCores_finishFlight f s) (.refl s)) s

theorem keepsCores_tableFill (pa : Nat) (s : State) : KeepsCores s (tableFill pa s) := by
  unfold tableFill
  split
  · extract_lets va u
    exact .ite (.of_cores rfl) ((keepsCores_settleBy va s).trans
      ((KeepsCores.of_apart (apart_fillFrom _ _ _ _ _) : KeepsCores _ u).trans (.of_cores rfl)))
  · exact .refl s

theorem keepsCores_walkFill (die va : Nat) (s : State) : KeepsCores s (walkFill die va s) := by
  have hread (p : Prop) [Decidable p] (pa : Nat) {u : State} (hu : KeepsCores s u) :
      KeepsCores s (if p then u else tableFill pa u) := .ite hu (hu.trans (keepsCores_tableFill pa u))
  unfold walkFill
  extract_lets read next a0 t
  have ht : KeepsCores s t := hread _ _ (.refl s)
  split
  · exact ht
  extract_lets a1 u
  have hu : KeepsCores s u := hread _ _ ht
  split
  · exact hu
  · exact hread _ _ hu

theorem keepsCores_cacheWalk (die va : Nat) (l : List (Nat × Nat × Nat)) (s : State) : KeepsCores s (cacheWalk die va l s) :=
  (keepsCores_walkFill die va s).trans (.of_cores rfl)

theorem keepsCores_rightsFill (dom va : Nat) (s : State) : KeepsCores s (rightsFill dom va s) := by
  have hfill (pa : Nat) {u : State} (hu : KeepsCores s u) : KeepsCores s (tableFill pa u) :=
    hu.trans (keepsCores_tableFill pa u)
  have hroot := hfill (s.drbase * 65536 + 8 * dom) (.refl s)
  exact .ite hroot (.ite (hfill _ hroot) (hfill _ (hfill _ hroot)))

/-- A write of a core that keeps its slots keeps every slot. -/
theorem slot_modCore_of_slots (d c k : Nat) (f : Core → Core) (s : State) (hf : ∀ x, (f x).slots = x.slots) :
    (s.modCore d f).slot c k = s.slot c k := by
  unfold State.slot
  by_cases hd : c = d
  · subst hd
    rw [State.core_modCore_self, Core.slot, hf]
    rfl
  · rw [State.core_modCore_ne _ _ _ _ hd]

/-! A record on its way to a ring. -/

theorem keepsCores_tableBytes (pa : Nat) (l : List Byte) (s : State) : KeepsCores s (tableBytes pa l s) :=
  (keepsCores_tableFill pa s).trans (.of_apart (apart_writeAt _ _ _ _ _))

theorem keepsCores_tableWrite (pa n v : Nat) (s : State) : KeepsCores s (tableWrite pa n v s) :=
  keepsCores_tableBytes _ _ s

theorem keepsCores_tableWords (pa : Nat) (ws : List Nat) (s : State) : KeepsCores s (tableWords pa ws s) :=
  .foldl _ _ (fun s _ => keepsCores_tableBytes _ _ s) s

theorem keepsCores_absenceWrite (m : Msg) (s : State) : KeepsCores s (absenceWrite m s) := by
  unfold absenceWrite
  split
  extract_lets prod e ws u v
  exact (keepsCores_tableWords e ws s).trans ((keepsCores_tableWrite _ _ _ u).trans (.of_cores rfl))

theorem keepsCores_netSend (m : Msg) (s : State) : KeepsCores s (netSend m s) := by
  unfold netSend
  refine .ite (.of_cores rfl) (.ite ?_ (.of_cores rfl))
  split
  exact .ite (keepsCores_absenceWrite m s) (.of_cores rfl)

theorem keepsCores_fqSeq (c n : Nat) (s : State) : KeepsCores s (s.setCore c { s.core c with fqSeq := n }) := .setCore rfl

theorem keepsCores_postNow (r : Rec) {q : Nat} (h : postNow r s = some (q, t)) : KeepsCores s t := by
  unfold postNow at h
  split at h
  · obtain ⟨-, rfl⟩ := Prod.mk.inj (Option.some.inj h)
    exact .of_cores rfl
  split at h
  · cases h
  extract_lets b w0 prod size k q' first parts ring seq count word0 kept copy pay w3 told posted at h
  have hcount : KeepsCores s count :=
    (KeepsCores.foldl _ _ (fun s _ => keepsCores_tableWords _ _ s) s).trans
      ((keepsCores_tableWrite _ _ _ ring).trans (keepsCores_tableWrite _ _ _ seq))
  clear_value count
  have hcopy : KeepsCores s copy := .ite (hcount.trans (.of_cores rfl)) hcount
  clear_value copy
  have htold : KeepsCores s told := .ite (hcopy.trans (keepsCores_netSend _ copy)) hcopy
  clear_value told
  have hposted : KeepsCores s posted := by
    unfold posted
    split
    · rename_i c _
      have hseq := htold.trans (keepsCores_fqSeq c (seqAfter first (k - 1)) told)
      exact .ite (hseq.trans (keepsCores_netSend _ _)) hseq
    · exact htold
  obtain ⟨-, rfl⟩ := Prod.mk.inj (Option.some.inj h)
  exact hposted

theorem keepsCores_queueRecord (r : Rec) (s : State) : KeepsCores s (queueRecord r s) := by
  unfold queueRecord queueSeq
  split
  · rename_i p h
    split at h
    · cases h
    · exact keepsCores_postNow r h
  · exact .of_cores rfl

end Sys2Proof.Machine
end

section
/-! SUPPORT. WALK, PLACEMENT_CACHE_FILL and PLB_MISS (R22, R34, R37, R41). -/

namespace Sys2Proof.Machine

open Host (Outcome)

variable {s t : State}

/-! WALK (R34, R37). -/

/-- A walk that ends in a leaf has used that leaf last. -/
theorem walk_leaf {die va view e level a : Nat} (h : (walk s die va view).1 = .leaf e level a) :
    ∃ l, (walk s die va view).2 = l ++ [(walkKey level va, e, a)] := by
  unfold walk at h ⊢
  dsimp only at h ⊢
  split at h
  · cases h
  split at h
  · cases h
  rw [if_neg ‹_›]
  split at h
  · cases h
  split at h
  · obtain ⟨rfl, rfl, rfl⟩ := Walk.leaf.inj h
    rw [if_pos ‹_›]
    exact ⟨[_], rfl⟩
  rw [if_neg ‹_›]
  split at h
  · cases h
  rw [if_neg ‹_›]
  split at h
  · cases h
  split at h
  · cases h
  rw [if_neg ‹_›]
  split at h
  · cases h
  rw [if_neg ‹_›]
  obtain ⟨rfl, rfl, rfl⟩ := Walk.leaf.inj h
  exact ⟨[_, _], rfl⟩

theorem find_walkInsert_self (m : List (Nat × Nat)) (p : Nat × Nat) : SMap.find (walkInsert m p) p.1 = some p.2 := by
  simp [walkInsert, SMap.find]

theorem cacheWalk_keeps_last (die va : Nat) (l : List (Nat × Nat × Nat)) (p : Nat × Nat × Nat) (s : State) :
    SMap.find (SMap.get [] (cacheWalk die va (l ++ [p]) s).walkCache die) p.1 = some p.2.1 := by
  simp only [cacheWalk, SMap.get_put_self, List.foldl_append, List.foldl_cons, List.foldl_nil]
  exact find_walkInsert_self _ (p.1, p.2.1)

theorem cacheWalk_other_die (die d va : Nat) (l : List (Nat × Nat × Nat)) (s : State) (h : d ≠ die) :
    SMap.get [] (cacheWalk die va l s).walkCache d = SMap.get [] s.walkCache d :=
  SMap.get_put_ne _ _ _ _ _ h

theorem cacheWalk_cores (die va : Nat) (l : List (Nat × Nat × Nat)) (h : s.flights = []) :
    (cacheWalk die va l s).cores = s.cores :=
  show (apart (walkFill die va s)).cores = (apart s).cores from congrArg State.cores (apart_walkFill die va h)

/-- WALK keeps what it reads in the die's walk cache. -/
theorem walk_keeps_entries (die va : Nat) (s : State) (h : s.flights = []) :
    ∃ t, exec (.walk die va) s = .next t ∧ t.cores = s.cores ∧
      (∀ d, d ≠ die → SMap.get [] t.walkCache d = SMap.get [] s.walkCache d) ∧
      ∀ e level a, (walk s die va 256).1 = .leaf e level a →
        SMap.find (SMap.get [] t.walkCache die) (walkKey level va) = some e := by
  refine ⟨_, rfl, cacheWalk_cores _ _ _ h, fun d hd => cacheWalk_other_die _ _ _ _ s hd, fun e level a hleaf => ?_⟩
  obtain ⟨l, hl⟩ := walk_leaf hleaf
  rw [hl]
  exact cacheWalk_keeps_last die va l (walkKey level va, e, a) s

/-! PLACEMENT_CACHE_FILL (R22). -/

section
variable {w : Who} {va : Nat}

/-- No placement-cache entry of the core names the page for the agent's view. -/
def PlacementMiss (w : Who) (va : Nat) (s : State) : Prop :=
  (s.core w.core).pcache.find? (fun e => e.1 == va / 65536 && e.2.1 == w.view) = none

theorem placementOf_fault {f : Nat} (hmiss : PlacementMiss w va s) (h : (walk s (coreDie w.core) va w.view).1 = .fault f) :
    placementOf w va s = .exc (.park f va) (cacheWalk (coreDie w.core) va (walk s (coreDie w.core) va w.view).2 s) := by
  simp only [placementOf, show _ = none from hmiss, h]

theorem placementOf_poison {n : Nat} (hmiss : PlacementMiss w va s) (h : (walk s (coreDie w.core) va w.view).1 = .poison n) :
    placementOf w va s = .exc (.svc 0x08 va n) (cacheWalk (coreDie w.core) va (walk s (coreDie w.core) va w.view).2 s) := by
  simp only [placementOf, show _ = none from hmiss, h]

theorem placementOf_leaf {e level a : Nat} {p : PSet} (hmiss : PlacementMiss w va s)
    (h : (walk s (coreDie w.core) va w.view).1 = .leaf e level a) (hp : placementSet s w.view (pteSet e) = some p) :
    placementOf w va s = .ok p ((cacheWalk (coreDie w.core) va (walk s (coreDie w.core) va w.view).2 s).modCore w.core fun x =>
      { x with pcache := ((va / 65536, w.view, p) :: x.pcache).take 128 }) := by
  simp only [placementOf, show _ = none from hmiss, h, hp]

end

theorem placementMiss_whoCore {c va : Nat}
    (h : ∀ e ∈ (s.core c).pcache, ¬ (e.1 = va / 65536 ∧ e.2.1 = (s.core c).vtabTenant)) : PlacementMiss (whoCore s c) va s :=
  List.find?_eq_none.2 fun e he hm => h e he (by simpa [whoCore, whoFrame] using hm)

theorem exec_placementCacheFill_exc {c va : Nat} {x : Exc} (h : placementOf (whoCore s c) va s = .exc x t) :
    exec (.placementCacheFill c va) s = .next t := by
  show execPlacementCacheFill c va s = _
  rw [execPlacementCacheFill, h]

theorem exec_placementCacheFill_ok {c va : Nat} {p : PSet} (h : placementOf (whoCore s c) va s = .ok p t) :
    exec (.placementCacheFill c va) s = .next t := by
  show execPlacementCacheFill c va s = _
  rw [execPlacementCacheFill, h]

theorem placementCacheFill_fills (c va : Nat) (s : State) :
    let tenant := (s.core c).vtabTenant
    let r := (walk s (coreDie c) va tenant).1
    let v := cacheWalk (coreDie c) va (walk s (coreDie c) va tenant).2 s
    (∀ e ∈ (s.core c).pcache, ¬ (e.1 = va / 65536 ∧ e.2.1 = tenant)) →
    (∀ f, r = .fault f → exec (.placementCacheFill c va) s = .next v ∧ (v.core c).pcache = (s.core c).pcache) ∧
    (∀ n, r = .poison n → exec (.placementCacheFill c va) s = .next v ∧ (v.core c).pcache = (s.core c).pcache) ∧
    ∀ e level a p, r = .leaf e level a → placementSet s tenant (pteSet e) = some p →
      ∃ t, exec (.placementCacheFill c va) s = .next t ∧
        (t.core c).pcache = ((va / 65536, tenant, p) :: (s.core c).pcache).take 128 ∧ ∀ d k, t.slot d k = s.slot d k := by
  intro tenant r v hmiss
  have hm := placementMiss_whoCore hmiss
  have hv : KeepsCores s v := keepsCores_cacheWalk _ _ _ s
  refine ⟨fun f h => ⟨exec_placementCacheFill_exc (placementOf_fault hm h), hv.pcache c⟩,
    fun n h => ⟨exec_placementCacheFill_exc (placementOf_poison hm h), hv.pcache c⟩, fun e level a p h hp =>
    ⟨_, exec_placementCacheFill_ok (placementOf_leaf hm h hp), ?_, fun d k => ?_⟩⟩
  · rw [show (whoCore s c).core = c from rfl, State.core_modCore_self]
    exact congrArg (fun l => (_ :: l).take 128) (hv.pcache c)
  · refine (slot_modCore_of_slots _ _ _ _ v ?_).trans (hv.slot d k)
    exact fun _ => rfl

/-! PLB_MISS (R41). -/

theorem exec_plbMiss {c dom va : Nat} (h : ∀ e ∈ (s.core c).plb, ¬ (e.1 = dom ∧ e.2.1 = va / 2 ^ 29 % 2 ^ 23)) :
    exec (.plbMiss c dom va) s = .next (match rightsByte s dom va with
      | none => rightsFill dom va s
      | some b => (rightsFill dom va s).modCore c fun x => plbUse x dom (va / 2 ^ 29 % 2 ^ 23) b) := by
  have hmiss : (s.core c).plb.find? (fun e => e.1 == dom && e.2.1 == va / 2 ^ 29 % 2 ^ 23) = none :=
    List.find?_eq_none.2 fun e he hm => h e he (by simpa using hm)
  show execPlbMiss c dom va s = _
  simp only [execPlbMiss, rightsOf, whoCore, whoFrame, hmiss]
  cases rightsByte s dom va <;> rfl

theorem plbMiss_fills (c dom va : Nat) (s : State)
    (h : ∀ e ∈ (s.core c).plb, ¬ (e.1 = dom ∧ e.2.1 = va / 2 ^ 29 % 2 ^ 23)) :
    (rightsByte s dom va = none → exec (.plbMiss c dom va) s = .next (rightsFill dom va s) ∧
      ((rightsFill dom va s).core c).plb = (s.core c).plb) ∧
    ∀ b, rightsByte s dom va = some b → ∃ t, exec (.plbMiss c dom va) s = .next t ∧
      (t.core c).plb.head? = some (dom, va / 2 ^ 29 % 2 ^ 23, b) ∧ (t.core c).plb.length ≤ 64 ∧
      ∀ d k, t.slot d k = s.slot d k := by
  have hkeeps := keepsCores_rightsFill dom va s
  refine ⟨fun hnone => ⟨by rw [exec_plbMiss h, hnone], hkeeps.plb c⟩,
    fun b hb => ⟨_, by rw [exec_plbMiss h, hb], ?_, ?_, fun d k => ?_⟩⟩
  · rw [State.core_modCore_self]
    rfl
  · rw [State.core_modCore_self]
    exact List.length_take_le _ _
  · refine (slot_modCore_of_slots _ _ _ _ (rightsFill dom va s) ?_).trans (hkeeps.slot d k)
    exact fun _ => rfl

end Sys2Proof.Machine
end

section
/-! SUPPORT. SECTOR_FILL and the fill of a sector from its frame (R54). -/

namespace Sys2Proof.Machine

open Host (Outcome)

variable {s t : State}

/-! SECTOR_FILL (R54). -/

theorem apart_modCore (c : Nat) (f : Core → Core) (s : State) :
    apart (s.modCore c f) = { apart s with cores := (s.modCore c f).cores } := rfl

theorem apart_cacheWalk (die va : Nat) (l : List (Nat × Nat × Nat)) (h : s.flights = []) :
    apart (cacheWalk die va l s) = { apart s with walkCache := (cacheWalk die va l s).walkCache } :=
  (rfl : _ = { apart (walkFill die va s) with walkCache := (cacheWalk die va l s).walkCache }).trans
    (by rw [apart_walkFill die va h])

/-- The home of an address is the same when it is asked for again, and finding it changes caches, walk cache and cores alone. -/
theorem homeOf_ok {w : Who} {va home : Nat} (hf : s.flights = []) (h : homeOf w va s = .ok home t) :
    homeOf w va t = .ok home t ∧ ∃ walks cores, apart t = { apart s with walkCache := walks, cores := cores } := by
  unfold homeOf at h
  cases hp : placementOf w va s with
  | stall u => rw [hp] at h; cases h
  | exc x u => rw [hp] at h; cases h
  | ok p u =>
    rw [hp] at h
    obtain ⟨rfl, rfl⟩ := Res.ok.inj h
    have hagain : placementOf w va u = .ok p u ∧
        ∃ walks cores, apart u = { apart s with walkCache := walks, cores := cores } := by
      unfold placementOf at hp
      dsimp only at hp
      split at hp
      · rename_i e he
        obtain ⟨rfl, rfl⟩ := Res.ok.inj hp
        exact ⟨by simp only [placementOf, he], s.walkCache, s.cores, rfl⟩
      split at hp
      · cases hp
      · cases hp
      split at hp
      · cases hp
      · obtain ⟨rfl, rfl⟩ := Res.ok.inj hp
        exact ⟨by simp [placementOf], _, _, (apart_modCore _ _ _).trans (by rw [apart_cacheWalk _ _ _ hf])⟩
    exact ⟨by rw [homeOf, hagain.1]; rfl, hagain.2⟩

/-- An access to a sector of an unlisted line whose page lies in a tier fills it from its frame (R54). -/
theorem locate_of_unlisted {w : Who} {va home e level a : Nat} {l : List (Nat × Nat × Nat)} (hheld : lineHeld s w va = false)
    (hwindow : inWindow va = false) (hinval : held s va = false) (hhome : homeOf w va s = .ok home s) (hf : s.flights = [])
    (hlate : s.late = false) (hline : (s.line home va).valid = [])
    (hown : va / 2 ^ 42 ≠ s.ptwinBase ∨ (s.line home va).walked = false)
    (hwalk : walk s (coreDie home) va w.view = (.leaf e level a, l)) (hmigr : pteMigrating e = false) (hloc : pteLoc e < 2)
    (hdisc : pteDiscard e = false) (hstill : ((cacheWalk (coreDie home) va l s).line home va).valid = []) :
    locate w va 0 false s = .ok (.cached home (leafAddr e level va))
      (fillFrom home va (leafAddr e level va) 0 (cacheWalk (coreDie home) va l s)) := by
  have hmapping : ownMapping w home va s = none := if_neg fun ⟨hb, hw⟩ => hown.elim (· hb) (by simp [hw])
  have hcached : cachedAt s home va = false := by simp [cachedAt, hline]
  have hlate' : (cacheWalk (coreDie home) va l s).late = false :=
    (show (apart (cacheWalk (coreDie home) va l s)).late = s.late by rw [apart_cacheWalk _ _ _ hf]; rfl).trans hlate
  have h2 : pteLoc e ≠ 2 := by omega
  have h3 : pteLoc e ≠ 3 := by omega
  simp [locate, hheld, hwindow, hinval, hhome, Res.bind, settleBy_of_nil va hf, hmapping, hcached, hline, hwalk, hmigr, h2, h3,
    hdisc, hstill, missAt, hlate']

theorem sectorFill_fills (c va e level a : Nat) (s u : State) (l : List (Nat × Nat × Nat)) (hwindow : inWindow va = false)
    (hinval : held s va = false) (hheld : lineHeld s (whoCore s c) va = false) (hf : s.flights = []) (hlate : s.late = false)
    (hhome : homeOf (whoCore s c) va s = .ok c u) (hline : (u.line c va).valid = [])
    (hown : va / 2 ^ 42 ≠ s.ptwinBase ∨ (u.line c va).walked = false)
    (hwalk : walk u (coreDie c) va (s.core c).vtabTenant = (.leaf e level a, l)) (hmigr : pteMigrating e = false)
    (hloc : pteLoc e < 2) (hdisc : pteDiscard e = false) (hstill : ((cacheWalk (coreDie c) va l u).line c va).valid = []) :
    exec (.sectorFill c va) s = .next (fillFrom c va (leafAddr e level va) 0 (cacheWalk (coreDie c) va l u)) := by
  obtain ⟨hagain, walks, cores, hu⟩ := homeOf_ok hf hhome
  have hholds : u.lineHolds = s.lineHolds := show (apart u).lineHolds = _ by rw [hu]; rfl
  have hinvals : u.invals = s.invals := show (apart u).invals = _ by rw [hu]; rfl
  have hflights : u.flights = [] := (show (apart u).flights = s.flights by rw [hu]; rfl).trans hf
  have hulate : u.late = false := (show (apart u).late = s.late by rw [hu]; rfl).trans hlate
  have hbase : u.ptwinBase = s.ptwinBase := show (apart u).ptwinBase = _ by rw [hu]; rfl
  have hlocate := locate_of_unlisted (by rw [lineHeld, hholds]; exact hheld) hwindow (by rw [held, hinvals]; exact hinval)
    hagain hflights hulate hline (hbase ▸ hown) hwalk hmigr hloc hdisc hstill
  show execSectorFill c va s = _
  simp [execSectorFill, hwindow, hhome, hlocate]

/-- The lines that a set has no room problem with stay: a set with a free way releases none. -/
theorem releaseWay_of_room {tile set : Nat} (h : fullSet s tile set = false) : releaseWay tile set s = s := by
  simp [releaseWay, h]

/-- What `showHurt` writes: poison marks of cached copies, and which granules of the line are still hidden. -/
theorem showHurt_eq (k : Nat) (p : Nat → Bool) (s : State) : ∃ marks hurt, showHurt k p s = s ∨
    showHurt k p s = { s with
      cpoison := marks
      lines := SMap.put s.lines k { SMap.get Line.none s.lines k with hurt := hurt } } := by
  unfold showHurt
  dsimp only
  split
  · exact ⟨[], [], .inl rfl⟩
  · exact ⟨_, _, .inr rfl⟩

theorem showHurt_data (k : Nat) (p : Nat → Bool) (s : State) :
    (showHurt k p s).mem = s.mem ∧ (showHurt k p s).cdata = s.cdata := by
  obtain ⟨marks, hurt, h | h⟩ := showHurt_eq k p s <;> rw [h] <;> exact ⟨rfl, rfl⟩

theorem bankWay_data (home va : Nat) (s : State) :
    (bankWay home va s).2.mem = s.mem ∧ (bankWay home va s).2.cdata = s.cdata := by
  unfold bankWay
  extract_lets l
  split
  · exact ⟨rfl, rfl⟩
  split
  · exact showHurt_data _ _ s
  · exact ⟨rfl, rfl⟩

theorem fillSector_cdata (home va pa : Nat) (s : State) : (fillSector home va pa s).cdata =
    putBytes s.cdata (cacheKey home (va / 256 * 256)) (bytesAt s.mem (pa / 256 * 256) 256) := by
  simp only [fillSector]

/-- A fill of an unlisted line into a set with room: some way of the banks, the sector's bytes from its frame, and the line. -/
theorem fillFrom_unlisted {c va pa : Nat} (hline : (s.line c va).valid = [])
    (hroom : fullSet s (globalTile c) (sliceSet va) = false) (hpa : pa % 1024 = va % 1024) :
    ∃ u : State, u.mem = s.mem ∧ u.cdata = s.cdata ∧ ∃ x : Line, sectorOf va ∈ x.valid ∧ fillFrom c va pa 0 s =
      { fillSector c va pa u with lines := SMap.put (fillSector c va pa u).lines (lineKey c va) x } := by
  unfold fillFrom
  extract_lets sec absent u useBank way v x x' filled
  have habsent : absent = true := by simp [absent, hline]
  have hu : u = s := by simp [u, habsent, releaseWay_of_room hroom]
  have hframe : x'.frame + va % 1024 = pa := by
    simp only [x', habsent, if_true]
    omega
  have hfilled : filled = fillSector c va pa v := congrArg (fillSector c va · v) hframe
  have hv : v.mem = u.mem ∧ v.cdata = u.cdata := by
    unfold v way
    split
    · exact bankWay_data _ _ u
    · exact ⟨rfl, rfl⟩
  rw [hu] at hv
  exact ⟨v, hv.1, hv.2, x', List.mem_cons_self, by rw [hfilled]⟩

theorem fillFrom_copies_frame (c va pa : Nat) (s : State) (hs : s.Canonical) (hline : (s.line c va).valid = [])
    (hroom : fullSet s (globalTile c) (sliceSet va) = false) (hpa : pa % 1024 = va % 1024) :
    let t := fillFrom c va pa 0 s
    cachedAt t c va = true ∧ t.mem = s.mem ∧
      bytesAt t.cdata (cacheKey c (va / 256 * 256)) 256 = bytesAt s.mem (pa / 256 * 256) 256 := by
  intro t
  obtain ⟨u, hmem, hdata, x, hx, ht⟩ := fillFrom_unlisted hline hroom hpa
  have hcopied := bytesAt_putBytes hs.cdata (cacheKey c (va / 256 * 256)) (bytesAt s.mem (pa / 256 * 256) 256)
  rw [length_bytesAt] at hcopied
  refine ⟨?_, ?_, ?_⟩ <;> unfold t <;> rw [ht]
  · simpa [cachedAt, State.line, SMap.get_put_self] using hx
  · exact hmem
  · rw [fillSector_cdata, hmem, hdata]
    exact hcopied

end Sys2Proof.Machine
end

section
/-! SUPPORT. MISS_WAY_RELEASE (R50). -/

namespace Sys2Proof.Machine

open Host (Outcome)

/-! Sparse maps: which keys are listed. -/

section
variable {α : Type}

theorem SMap.find_put_ne (m : SMap α) (x y : Nat) (a : α) (h : y ≠ x) : SMap.find (SMap.put m x a) y = SMap.find m y := by
  induction m with
  | nil => simp [SMap.put, SMap.find, h]
  | cons q m ih =>
    obtain ⟨k, v⟩ := q
    simp only [SMap.put]
    split
    · simp [SMap.find, h]
    split
    · rename_i hx
      subst hx
      simp [SMap.find, h]
    · simp [SMap.find, ih]

theorem SMap.find_del_ne (m : SMap α) (x y : Nat) (h : y ≠ x) : SMap.find (SMap.del m x) y = SMap.find m y := by
  induction m with
  | nil => rfl
  | cons q m ih =>
    obtain ⟨k, v⟩ := q
    simp only [SMap.del]
    split
    · rename_i hx
      subst hx
      simp [SMap.find, h]
    · simp [SMap.find, ih]

theorem SMap.find_absent (m : SMap α) (x : Nat) (h : ∀ p ∈ m, p.1 ≠ x) : SMap.find m x = none := by
  induction m with
  | nil => rfl
  | cons q m ih =>
    obtain ⟨k, v⟩ := q
    have hk : x ≠ k := (h (k, v) List.mem_cons_self).symm
    simp only [SMap.find, hk, if_false]
    exact ih fun p hp => h p (List.mem_cons_of_mem _ hp)

theorem SMap.find_del_self {m : SMap α} (h : SMap.Sorted m) (x : Nat) : SMap.find (SMap.del m x) x = none := by
  induction m with
  | nil => rfl
  | cons q m ih =>
    obtain ⟨k, v⟩ := q
    have hm := List.pairwise_cons.1 h
    simp only [SMap.del]
    split
    · rename_i hx
      subst hx
      exact SMap.find_absent m x fun p hp e => absurd (hm.1 p hp) (by simp [e])
    · rename_i hx
      simp only [SMap.find, hx, if_false]
      exact ih hm.2

theorem SMap.get_of_mem (d : α) {m : SMap α} (h : SMap.Sorted m) {x : Nat} {a : α} (hp : (x, a) ∈ m) : SMap.get d m x = a := by
  induction m with
  | nil => cases hp
  | cons q m ih =>
    obtain ⟨k, v⟩ := q
    have hm := List.pairwise_cons.1 h
    rcases List.mem_cons.1 hp with heq | hp
    · obtain ⟨rfl, rfl⟩ := Prod.mk.inj heq
      simp [SMap.get]
    · have hk : x ≠ k := fun e => absurd (hm.1 _ hp) (by simp [e])
      simp only [SMap.get, hk, if_false]
      exact ih hm.2 hp

end

variable {s t : State}

/-! MISS_WAY_RELEASE (R50): the sectors of a line leave one by one. -/

/-- The address of sector `n` of the line with key `k`, at the home `k / 2 ^ 42`. -/
def sectorVa (k n : Nat) : Nat := k % 2 ^ 42 * 1024 + 256 * n

theorem lineKey_sectorVa {k n : Nat} (h : n < 4) : lineKey (k / 2 ^ 42) (sectorVa k n) = k := by
  unfold lineKey sectorVa
  omega

theorem sectorOf_sectorVa {k n : Nat} (h : n < 4) : sectorOf (sectorVa k n) = n := by
  unfold sectorOf sectorVa
  omega

theorem sectorVa_block (k n : Nat) : sectorVa k n / 256 * 256 = sectorVa k n := by
  unfold sectorVa
  omega

theorem sectorVa_mod {k n : Nat} (h : n < 4) : sectorVa k n % 1024 = 256 * n := by
  unfold sectorVa
  omega

theorem line_sectorVa {k n : Nat} (h : n < 4) (s : State) :
    s.line (k / 2 ^ 42) (sectorVa k n) = SMap.get Line.none s.lines k := by
  rw [State.line, lineKey_sectorVa h]

/-- A line without one of its sectors. -/
def Line.without (x : Line) (n : Nat) (hurt : List Nat) : Line :=
  { x with
    valid := x.valid.erase n, dirty := x.dirty.erase n
    bankValid := x.bankValid.erase n, bankDirty := x.bankDirty.erase n, hurt := hurt }

theorem dropSector_mem (home va : Nat) (s : State) : (dropSector home va s).mem = s.mem := by
  simp only [dropSector, clearSector]

theorem dropSector_cdata (home va : Nat) (s : State) : (dropSector home va s).cdata =
    putBytes s.cdata (cacheKey home (va / 256 * 256)) (List.replicate 256 0) := by
  simp only [dropSector, clearSector]

theorem dropSector_lines (home va : Nat) (s : State) : ∃ hurt, (dropSector home va s).lines =
    if ((s.line home va).valid.erase (sectorOf va)).isEmpty then SMap.del s.lines (lineKey home va)
    else SMap.put s.lines (lineKey home va) ((s.line home va).without (sectorOf va) hurt) :=
  ⟨(s.line home va).hurt.filter fun g => g / 4 != sectorOf va, by simp only [dropSector, clearSector, Line.without]⟩

theorem showHurt_lines (k : Nat) (p : Nat → Bool) (s : State) :
    (SMap.Sorted s.lines → SMap.Sorted (showHurt k p s).lines) ∧
    (∀ j, j ≠ k → SMap.find (showHurt k p s).lines j = SMap.find s.lines j) ∧
    ∃ hurt, SMap.get Line.none (showHurt k p s).lines k = { SMap.get Line.none s.lines k with hurt := hurt } := by
  obtain ⟨marks, hurt, h | h⟩ := showHurt_eq k p s <;> rw [h]
  · exact ⟨id, fun _ _ => rfl, _, rfl⟩
  · exact ⟨fun hs => SMap.sorted_put hs _ _, fun j hj => SMap.find_put_ne _ _ _ _ hj, hurt, SMap.get_put_self _ _ _ _⟩

theorem flushSector_lines (home va : Nat) (s : State) : (flushSector home va s).lines = s.lines := by
  simp only [flushSector]

theorem flushSector_cdata (home va : Nat) (s : State) : (flushSector home va s).cdata = s.cdata := by
  simp only [flushSector]

theorem flushSector_mem (home va : Nat) (s : State) : (flushSector home va s).mem =
    putBytes s.mem (frameAddr s home (va / 256 * 256)) (bytesAt s.cdata (cacheKey home (va / 256 * 256)) 256) := by
  simp only [flushSector]

/-- The sector `n` of a line with some copy dirty. -/
def Line.soiled (x : Line) (n : Nat) : Prop := n ∈ x.dirty ∨ n ∈ x.bankDirty

theorem evictSector_cdata (k n : Nat) (s : State) : (evictSector (k / 2 ^ 42) (sectorVa k n) s).cdata =
    putBytes s.cdata (cacheKey (k / 2 ^ 42) (sectorVa k n)) (List.replicate 256 0) := by
  unfold evictSector
  extract_lets u x sec v
  have hu : u.cdata = s.cdata := (showHurt_data _ _ s).2
  have hv : v.cdata = u.cdata := by
    unfold v
    split
    · exact flushSector_cdata _ _ u
    · rfl
  rw [dropSector_cdata, sectorVa_block, hv, hu]

theorem evictSector_mem {k n : Nat} (hn : n < 4) (s : State) :
    ((SMap.get Line.none s.lines k).soiled n → (evictSector (k / 2 ^ 42) (sectorVa k n) s).mem =
      putBytes s.mem ((SMap.get Line.none s.lines k).frame + 256 * n)
        (bytesAt s.cdata (cacheKey (k / 2 ^ 42) (sectorVa k n)) 256)) ∧
    (¬ (SMap.get Line.none s.lines k).soiled n → (evictSector (k / 2 ^ 42) (sectorVa k n) s).mem = s.mem) := by
  unfold evictSector
  extract_lets u x sec v
  obtain ⟨-, -, hurt, hline⟩ := showHurt_lines (lineKey (k / 2 ^ 42) (sectorVa k n)) (· == sectorOf (sectorVa k n)) s
  rw [lineKey_sectorVa hn] at hline
  have hx : x = { SMap.get Line.none s.lines k with hurt := hurt } := (line_sectorVa hn u).trans (by
    unfold u
    rw [lineKey_sectorVa hn]
    exact hline)
  have hsec : sec = n := sectorOf_sectorVa hn
  have hframe : frameAddr u (k / 2 ^ 42) (sectorVa k n) = (SMap.get Line.none s.lines k).frame + 256 * n := by
    rw [frameAddr, sectorVa_mod hn]
    have h := congrArg (fun y : Line => y.frame + 256 * n) hx
    exact h
  have hmem : u.mem = s.mem := (showHurt_data _ _ s).1
  have hdata : u.cdata = s.cdata := (showHurt_data _ _ s).2
  rw [dropSector_mem]
  constructor
  · intro hsoiled
    have hc : (x.dirty.contains sec || x.bankDirty.contains sec) = true := by
      simpa [hx, hsec, Line.soiled] using hsoiled
    rw [show v = flushSector _ _ u from if_pos hc, flushSector_mem, sectorVa_block, hframe, hmem, hdata]
  · intro hclean
    have hc : ¬ (x.dirty.contains sec || x.bankDirty.contains sec) = true := by
      simpa [hx, hsec, Line.soiled] using hclean
    rw [show v = u from if_neg hc, hmem]

theorem evictSector_lines {k n : Nat} (hn : n < 4) (s : State) (hs : SMap.Sorted s.lines) :
    ∃ m hurt, SMap.Sorted m ∧ (∀ j, j ≠ k → SMap.find m j = SMap.find s.lines j) ∧
      (evictSector (k / 2 ^ 42) (sectorVa k n) s).lines =
        if ((SMap.get Line.none s.lines k).valid.erase n).isEmpty then SMap.del m k
        else SMap.put m k ((SMap.get Line.none s.lines k).without n hurt) := by
  unfold evictSector
  extract_lets u x sec v
  obtain ⟨hsorted, hfind, hurt, hline⟩ := showHurt_lines (lineKey (k / 2 ^ 42) (sectorVa k n)) (· == sectorOf (sectorVa k n)) s
  rw [lineKey_sectorVa hn] at hline hfind
  have hv : v.lines = u.lines := by
    unfold v
    split
    · exact flushSector_lines _ _ u
    · rfl
  obtain ⟨hurt', hdrop⟩ := dropSector_lines (k / 2 ^ 42) (sectorVa k n) v
  have hvline : v.line (k / 2 ^ 42) (sectorVa k n) = { SMap.get Line.none s.lines k with hurt := hurt } := by
    rw [line_sectorVa hn, hv]
    unfold u
    rw [lineKey_sectorVa hn]
    exact hline
  rw [hvline, sectorOf_sectorVa hn, lineKey_sectorVa hn, hv] at hdrop
  refine ⟨u.lines, hurt', hsorted hs, ?_, hdrop⟩
  unfold u
  rw [lineKey_sectorVa hn]
  exact hfind

/-- The bytes of two sectors of a line lie apart. -/
theorem sectors_apart {m n : Nat} (h : m ≠ n) (a : Nat) :
    a + 256 * m + 256 ≤ a + 256 * n ∨ a + 256 * n + 256 ≤ a + 256 * m := by
  omega

theorem cacheKey_sectorVa (k n : Nat) :
    cacheKey (k / 2 ^ 42) (sectorVa k n) = k / 2 ^ 42 * 2 ^ 52 + k % 2 ^ 42 * 1024 + 256 * n := by
  unfold cacheKey sectorVa
  omega

theorem evictSector_mem_self {k n : Nat} (hn : n < 4) (s : State) (hs : s.Canonical)
    (h : (SMap.get Line.none s.lines k).soiled n) :
    bytesAt (evictSector (k / 2 ^ 42) (sectorVa k n) s).mem ((SMap.get Line.none s.lines k).frame + 256 * n) 256 =
      bytesAt s.cdata (cacheKey (k / 2 ^ 42) (sectorVa k n)) 256 := by
  have hwritten := bytesAt_putBytes hs.mem ((SMap.get Line.none s.lines k).frame + 256 * n)
    (bytesAt s.cdata (cacheKey (k / 2 ^ 42) (sectorVa k n)) 256)
  rw [length_bytesAt] at hwritten
  rw [(evictSector_mem hn s).1 h]
  exact hwritten

theorem evictSector_mem_other {k m n : Nat} (hn : n < 4) (hm : m ≠ n) (s : State) :
    bytesAt (evictSector (k / 2 ^ 42) (sectorVa k n) s).mem ((SMap.get Line.none s.lines k).frame + 256 * m) 256 =
      bytesAt s.mem ((SMap.get Line.none s.lines k).frame + 256 * m) 256 := by
  by_cases h : (SMap.get Line.none s.lines k).soiled n
  · rw [(evictSector_mem hn s).1 h]
    exact bytesAt_putBytes_out _ _ _ _ _ (by rw [length_bytesAt]; exact sectors_apart hm _)
  · rw [(evictSector_mem hn s).2 h]

theorem evictSector_cdata_other {k m n : Nat} (hm : m ≠ n) (s : State) :
    bytesAt (evictSector (k / 2 ^ 42) (sectorVa k n) s).cdata (cacheKey (k / 2 ^ 42) (sectorVa k m)) 256 =
      bytesAt s.cdata (cacheKey (k / 2 ^ 42) (sectorVa k m)) 256 := by
  rw [evictSector_cdata, cacheKey_sectorVa, cacheKey_sectorVa]
  exact bytesAt_putBytes_out _ _ _ _ _ (by rw [List.length_replicate]; exact sectors_apart hm _)

/-- The listed sectors of a line leave in turn. -/
def evictSectors (k : Nat) (l : List Nat) (s : State) : State :=
  l.foldl (fun s n => evictSector (k / 2 ^ 42) (sectorVa k n) s) s

theorem evictSectors_cons (k n : Nat) (l : List Nat) (s : State) :
    evictSectors k (n :: l) s = evictSectors k l (evictSector (k / 2 ^ 42) (sectorVa k n) s) := rfl

/-- Each soiled sector is written to its frame, the line leaves with the last sector, other lines stay. -/
theorem evictSectors_all (k : Nat) (l : List Nat) (s : State) (hs : s.Canonical) (hsorted : SMap.Sorted s.lines)
    (hvalid : (SMap.get Line.none s.lines k).valid = l) (hl : l.Nodup) (h4 : ∀ n ∈ l, n < 4) :
    (l ≠ [] → SMap.find (evictSectors k l s).lines k = none) ∧
    (∀ j, j ≠ k → SMap.find (evictSectors k l s).lines j = SMap.find s.lines j) ∧
    (∀ n ∈ l, (SMap.get Line.none s.lines k).soiled n →
      bytesAt (evictSectors k l s).mem ((SMap.get Line.none s.lines k).frame + 256 * n) 256 =
        bytesAt s.cdata (cacheKey (k / 2 ^ 42) (sectorVa k n)) 256) ∧
    ∀ m, m ∉ l → bytesAt (evictSectors k l s).mem ((SMap.get Line.none s.lines k).frame + 256 * m) 256 =
      bytesAt s.mem ((SMap.get Line.none s.lines k).frame + 256 * m) 256 := by
  induction l generalizing s with
  | nil => exact ⟨fun h => absurd rfl h, fun _ _ => rfl, fun n hn => absurd hn List.not_mem_nil, fun _ _ => rfl⟩
  | cons n l ih =>
    have hn : n < 4 := h4 n List.mem_cons_self
    obtain ⟨hnl, hl⟩ := List.nodup_cons.1 hl
    obtain ⟨lines, hurt, hm, hfind, hlines⟩ := evictSector_lines hn s hsorted
    have hother (m : Nat) (hm : m ≠ n) := evictSector_mem_other (k := k) hn hm s
    have hself := evictSector_mem_self (k := k) hn s hs
    have hdata (m : Nat) (hm : m ≠ n) := evictSector_cdata_other (k := k) hm s
    have hcanon := canonical_evictSector hs (k / 2 ^ 42) (sectorVa k n)
    rw [hvalid, List.erase_cons_head] at hlines
    rw [evictSectors_cons]
    generalize evictSector (k / 2 ^ 42) (sectorVa k n) s = u at *
    generalize SMap.get Line.none s.lines k = x at *
    cases l with
    | nil =>
      simp only [List.isEmpty_nil, if_true] at hlines
      refine ⟨fun _ => ?_, fun j hj => ?_, fun m hm hd => ?_, fun m hm => hother m (List.ne_of_not_mem_cons hm)⟩
      · show SMap.find u.lines k = none
        rw [hlines, SMap.find_del_self hm k]
      · show SMap.find u.lines j = _
        rw [hlines, SMap.find_del_ne _ _ _ hj, hfind j hj]
      · obtain rfl := List.mem_singleton.1 hm
        exact hself hd
    | cons n' l =>
      rw [if_neg (by simp)] at hlines
      have hx : SMap.get Line.none u.lines k = x.without n hurt := by rw [hlines, SMap.get_put_self]
      have hvalid' : (x.without n hurt).valid = n' :: l := (congrArg (List.erase · n) hvalid).trans (List.erase_cons_head _ _)
      obtain ⟨hgone, hstay, hdone, hkept⟩ := ih u hcanon (hlines ▸ SMap.sorted_put hm _ _) (hx ▸ hvalid') hl
        (fun m hm => h4 m (List.mem_cons_of_mem _ hm))
      rw [hx] at hdone hkept
      refine ⟨fun _ => hgone (by simp), fun j hj => ?_, fun m hm hd => ?_, fun m hm => ?_⟩
      · rw [hstay j hj, hlines, SMap.find_put_ne _ _ _ _ hj, hfind j hj]
      · by_cases hmn : m = n
        · subst hmn
          exact (hkept m hnl).trans (hself hd)
        · have hd' : (x.without n hurt).soiled m := hd.imp (List.mem_erase_of_ne hmn).2 (List.mem_erase_of_ne hmn).2
          exact (hdone m ((List.mem_cons.1 hm).resolve_left hmn) hd').trans (hdata m hmn)
      · exact (hkept m (List.not_mem_of_not_mem_cons hm)).trans (hother m (List.ne_of_not_mem_cons hm))

theorem mem_of_oldest {f : Line → Int} {l : List (Nat × Line)} {p : Nat × Line} (h : oldest f l = some p) : p ∈ l := by
  induction l generalizing p with
  | nil => cases h
  | cons q l ih =>
    simp only [oldest] at h
    split at h
    · rename_i r hr
      split at h
      · exact List.mem_cons_of_mem _ (Option.some.inj h ▸ ih hr)
      · exact Option.some.inj h ▸ List.mem_cons_self
    · exact Option.some.inj h ▸ List.mem_cons_self

theorem missWait_releaseWay (tile set : Nat) (s : State) : (releaseWay tile set s).missWait = s.missWait :=
  show (apart (releaseWay tile set s)).missWait = (apart s).missWait from congrArg State.missWait (apart_releaseWay tile set s)

theorem evictLine_eq {k : Nat} {x : Line} (hx : SMap.get Line.none s.lines k = x) :
    evictLine (k / 2 ^ 42) (k % 2 ^ 42 * 1024) s = evictSectors k x.valid s := by
  have hkey : lineKey (k / 2 ^ 42) (k % 2 ^ 42 * 1024) = k := by
    unfold lineKey
    omega
  have hline : s.line (k / 2 ^ 42) (k % 2 ^ 42 * 1024) = x := by rw [State.line, hkey, hx]
  have hb : k % 2 ^ 42 * 1024 / 1024 * 1024 = k % 2 ^ 42 * 1024 := by omega
  simp only [evictLine, hline, hb, evictSectors, sectorVa]

theorem missWayRelease_releases (tile set k : Nat) (x : Line) (s : State) (hs : s.Canonical) (hwait : (tile, set) ∈ s.missWait)
    (hfull : 24 ≤ (setLines s tile set).length) (hsorted : s.lines.Pairwise (fun p q => p.1 < q.1))
    (hold : oldest Line.stamp (setLines s tile set) = some (k, x)) (hne : x.valid ≠ []) (hnodup : x.valid.Nodup)
    (h4 : ∀ n ∈ x.valid, n < 4) :
    ∃ t, exec (.missWayRelease tile set) s = .next t ∧ t.missWait = s.missWait.erase (tile, set) ∧ SMap.find t.lines k = none ∧
      (∀ j, j ≠ k → SMap.find t.lines j = SMap.find s.lines j) ∧
      ∀ n ∈ x.valid, (n ∈ x.dirty ∨ n ∈ x.bankDirty) →
        bytesAt t.mem ((x.frame + (k % 2 ^ 42 * 1024 + 256 * n) / 256 * 256 % 1024)) 256 =
          bytesAt s.cdata (cacheKey (k / 2 ^ 42) (k % 2 ^ 42 * 1024 + 256 * n)) 256 := by
  let u : State := { s with missWait := s.missWait.erase (tile, set) }
  have hx : SMap.get Line.none u.lines k = x := SMap.get_of_mem _ hsorted (List.mem_filter.1 (mem_of_oldest hold)).1
  have hrelease : releaseWay tile set u = evictLine (k / 2 ^ 42) (k % 2 ^ 42 * 1024) u := by
    have hroom : fullSet u tile set = true := decide_eq_true hfull
    have hold' : oldest Line.stamp (setLines u tile set) = some (k, x) := hold
    simp [releaseWay, hroom, hold']
  have hexec : exec (.missWayRelease tile set) s = .next (releaseWay tile set u) := by
    show execMissWayRelease tile set s = _
    rw [execMissWayRelease, if_pos (List.contains_iff_mem.2 hwait)]
  have hall := evictSectors_all k x.valid u (hs.of_eq rfl rfl rfl rfl rfl rfl) hsorted (congrArg Line.valid hx) hnodup h4
  rw [← evictLine_eq hx, ← hrelease, hx] at hall
  obtain ⟨hgone, hstay, hdone, -⟩ := hall
  refine ⟨_, hexec, missWait_releaseWay tile set u, hgone hne, hstay, fun n hn hd => ?_⟩
  have haddr : (k % 2 ^ 42 * 1024 + 256 * n) / 256 * 256 % 1024 = 256 * n := by
    have := h4 n hn
    omega
  rw [haddr]
  exact hdone n hn hd

end Sys2Proof.Machine
end

section
/-! SUPPORT. Accesses that arrive, the owner slot, and values that return (R53, R58, R92, R187, R192, R255). -/

namespace Sys2Proof.Machine

open Host (Outcome)

variable {s t : State}

/-! Accesses that arrive (R53, R58, R92, R187). -/

theorem performFlight_load {f : Flight} (hr : f.reply = none) (h : f.op = 0) (s : State) :
    performFlight f s = ({ f with reply := some (takeAt s f.src f.va f.size) }, s) := by
  simp [performFlight, hr, h]

theorem performFlight_store {f : Flight} (hr : f.reply = none) (h : f.op = 1) (s : State) :
    performFlight f s = (f, writeOver f.src f.va f.hint f.bytes f.tagged s) := by
  simp [performFlight, hr, h]

theorem performFlight_atomic {f : Flight} (hr : f.reply = none) (h : f.op = 2) (s : State) :
    performFlight f s = ({ f with reply := some (amoAt f.src f.va f.size f.amo f.operand f.expected s).1 },
      (amoAt f.src f.va f.size f.amo f.operand f.expected s).2) := by
  simp [performFlight, hr, h]

theorem landFlight_arrived {f : Flight} (hr : f.reply = none) (s : State) : Arrived s (landFlight f s) f := by
  constructor
  · intro h
    simp only [landFlight, finishFlight, h, if_true, performFlight_store hr h]
  · intro h
    simp only [landFlight, finishFlight, h, performFlight_load hr h, zero_ne_one, if_false]

section
variable {i : Nat} {f : Flight}

theorem arriveFlight_lands {p : Flight → Bool} (hi : s.flights[i]? = some f) (hr : f.reply = none)
    (hbehind : behindFlight s i f = false) (hop : f.op < 2) (hline : lineTaken s f = false) (hp : p f = true) :
    arriveFlight i p s = landFlight f s := by
  have hop' : ¬ 2 ≤ f.op := by omega
  simp [arriveFlight, hi, hr, hbehind, hop', hline, hp]

theorem arrivals_land (i : Nat) (f : Flight) (s : State) (hi : s.flights[i]? = some f) (hr : f.reply = none)
    (hbehind : behindFlight s i f = false) (hop : f.op < 2) (hline : lineTaken s f = false) :
    (∀ h a, f.src = .cached h a → ∃ t, exec (.remoteWordAccess i) s = .next t ∧ Arrived s t f) ∧
    (∀ d off, f.src = .bank d off → ∃ t, exec (.bankWindowAccess i) s = .next t ∧ Arrived s t f) ∧
    (∀ h pa, f.src = .frame h pa → ∃ t, exec (.byStoreAck i) s = .next t ∧ Arrived s t f) := by
  have hland {p : Flight → Bool} (hp : p f = true) : Arrived s (arriveFlight i p s) f := by
    rw [arriveFlight_lands hi hr hbehind hop hline hp]
    exact landFlight_arrived hr s
  exact ⟨fun h a hsrc => ⟨_, rfl, hland (by rw [hsrc])⟩, fun d off hsrc => ⟨_, rfl, hland (by rw [hsrc])⟩,
    fun h pa hsrc => ⟨_, rfl, hland (by rw [hsrc])⟩⟩

end

/-! The owner slot (R192, R269). -/

theorem amoAt_poisoned {src : Src} {va n amo b e : Nat} (h : poisonAt s src va n = true) :
    amoAt src va n amo b e s = (⟨va, readAt s src va n, [], true, va⟩, s) := by
  simp [amoAt, h]

theorem amoAt_refused {src : Src} {va n amo b e : Nat} (h : poisonAt s src va n = false)
    (hnew : amoNew amo n (leNat (readAt s src va n)) b e = none) :
    amoAt src va n amo b e s = (⟨va, readAt s src va n, [], false, va⟩, s) := by
  simp [amoAt, h, hnew]

/-- An atomic that writes stores its value; besides memory it can release a parked context. -/
theorem amoAt_writes {src : Src} {va n amo b e x : Nat} (h : poisonAt s src va n = false)
    (hnew : amoNew amo n (leNat (readAt s src va n)) b e = some x) :
    (amoAt src va n amo b e s).1 = ⟨va, readAt s src va n, [], false, va⟩ ∧
    (amoAt src va n amo b e s).2.mem = (writeAt src va (leBytes n x) false s).mem ∧
    (amoAt src va n amo b e s).2.cdata = (writeAt src va (leBytes n x) false s).cdata := by
  simp only [amoAt, h, hnew, Bool.false_eq_true, if_false, true_and]
  split
  · split
    · exact ⟨rfl, rfl⟩
    · exact ⟨rfl, rfl⟩
  · exact ⟨rfl, rfl⟩

theorem amoAt_reply (src : Src) (va n amo b e : Nat) (s : State) :
    (amoAt src va n amo b e s).1 = ⟨va, readAt s src va n, [], poisonAt s src va n, va⟩ := by
  cases h : poisonAt s src va n with
  | true => rw [amoAt_poisoned h]
  | false =>
    cases hnew : amoNew amo n (leNat (readAt s src va n)) b e with
    | none => rw [amoAt_refused h hnew]
    | some x => exact (amoAt_writes h hnew).1

theorem amoAt_unwritten {src : Src} {va n amo b e : Nat}
    (h : poisonAt s src va n = true ∨ amoNew amo n (leNat (readAt s src va n)) b e = none) :
    (amoAt src va n amo b e s).2 = s := by
  cases hp : poisonAt s src va n with
  | true => rw [amoAt_poisoned hp]
  | false => rw [amoAt_refused hp (h.resolve_left (by simp [hp]))]

/-- An atomic of the owner queue is performed where it is, and keeps its reply. -/
theorem landFlight_atomic {f : Flight} (hr : f.reply = none) (h : f.op = 2) (s : State) :
    landFlight f s = { (amoAt f.src f.va f.size f.amo f.operand f.expected (f.arrives s)).2 with
      flights := (f.arrives s).flights.map fun g =>
        if g = f then { f with reply := some (amoAt f.src f.va f.size f.amo f.operand f.expected (f.arrives s)).1 }
        else g } := by
  simp [landFlight, finishFlight, h, performFlight_atomic hr h]

/-- A grant of an owner slot writes reservations and grants alone. -/
theorem grantOwner_ended (c d : Nat) (s : State) : ((grantOwner c s).core d).ended = (s.core d).ended := by
  unfold grantOwner
  split
  · rfl
  · rename_i r _
    show ((s.modCore c fun x => { x with resv := x.resv.erase r }).core d).ended = _
    by_cases hd : d = c
    · rw [hd, State.core_modCore_self]
    · rw [State.core_modCore_ne _ _ _ _ hd]

theorem grantOwner_rest (c : Nat) (s : State) : (grantOwner c s).flights = s.flights ∧ (grantOwner c s).mem = s.mem ∧
    (grantOwner c s).cdata = s.cdata := by
  unfold grantOwner
  split
  · exact ⟨rfl, rfl, rfl⟩
  · exact ⟨rfl, rfl, rfl⟩

theorem exec_ownerSlotHandler {c : Nat} {f : Flight} {l : List Flight} (hq : ownerQueue s c = f :: l) (hop : f.op = 2)
    (hturn : (s.core c).ended = false ∨ ableSlots s c [] = []) (hline : lineTaken s f = false) :
    exec (.ownerSlotHandler c) s = .next (grantOwner c ((landFlight f s).modCore c fun x => { x with ended := true })) := by
  have hfirst : ((s.core c).ended && !(ableSlots s c []).isEmpty) = false := by
    rcases hturn with h | h <;> simp [h]
  have hrun : runOwner f s = landFlight f s := by simp [runOwner, hop]
  show execOwnerSlotHandler c s = _
  simp [execOwnerSlotHandler, hfirst, hq, hline, hrun]

theorem ownerSlotHandler_runs (c : Nat) (f : Flight) (l : List Flight) (s : State) (hq : ownerQueue s c = f :: l)
    (hop : f.op = 2) (hturn : (s.core c).ended = false ∨ ableSlots s c [] = []) (hline : lineTaken s f = false) :
    let v := f.arrives s
    let old := readAt v f.src f.va f.size
    let bad := poisonAt v f.src f.va f.size
    ∃ t, exec (.ownerSlotHandler c) s = .next t ∧ (t.core c).ended = true ∧
      t.flights = (v.flights.map fun g => if g = f then { f with reply := some ⟨f.va, old, [], bad, f.va⟩ } else g) ∧
      (∀ x, bad = false → amoNew f.amo f.size (leNat old) f.operand f.expected = some x →
        t.mem = (writeAt f.src f.va (leBytes f.size x) false v).mem ∧
        t.cdata = (writeAt f.src f.va (leBytes f.size x) false v).cdata) ∧
      (bad = true ∨ amoNew f.amo f.size (leNat old) f.operand f.expected = none → t.mem = v.mem ∧ t.cdata = v.cdata) := by
  intro v old bad
  have hmem : f ∈ ownerQueue s c := hq ▸ List.mem_cons_self
  have hr : f.reply = none := by
    have := (List.mem_filter.1 hmem).2
    simp only [Bool.and_eq_true, Option.isNone_iff_eq_none] at this
    exact this.1.1.2
  obtain ⟨hflights, hgm, hgd⟩ := grantOwner_rest c ((landFlight f s).modCore c fun x => { x with ended := true })
  have hland := landFlight_atomic hr hop s
  rw [amoAt_reply] at hland
  refine ⟨_, exec_ownerSlotHandler hq hop hturn hline, ?_, ?_, fun x hgood hnew => ?_, fun hkept => ?_⟩
  · rw [grantOwner_ended, State.core_modCore_self]
  · rw [hflights, State.modCore_flights, hland]
  · obtain ⟨-, hm, hd⟩ := amoAt_writes hgood hnew
    rw [hgm, hgd, State.modCore_mem, State.modCore_cdata, hland]
    exact ⟨hm, hd⟩
  · rw [hgm, hgd, State.modCore_mem, State.modCore_cdata, hland, amoAt_unwritten hkept]
    exact ⟨rfl, rfl⟩

/-! ACCESS_RESPONSE (R255). -/

theorem setReplies_memory (w : Who) (l : List Reply) (s : State) : (setReplies w l s).flights = s.flights ∧
    (setReplies w l s).mem = s.mem ∧ (setReplies w l s).cdata = s.cdata := by
  unfold setReplies
  split
  · exact ⟨rfl, rfl, rfl⟩
  split
  · exact ⟨rfl, rfl, rfl⟩
  split
  · exact ⟨rfl, rfl, rfl⟩
  · exact ⟨rfl, rfl, rfl⟩

theorem repliesOf_setReplies (w : Who) (l : List Reply) (s : State) : repliesOf w (setReplies w l s) = l := by
  unfold repliesOf setReplies
  split
  · simp [State.eng, State.modEng]
  split
  · simp [State.mx, State.modMx]
  split
  · have hothers : (s.hostReplies.filter fun p => p.1 != w.party).filter (fun p => p.1 == w.party) = [] :=
      List.filter_eq_nil_iff.2 fun p hp => by simpa using (List.mem_filter.1 hp).2
    have hown : (l.map fun r => (w.party, r)).filter (fun p => p.1 == w.party) = l.map fun r => (w.party, r) :=
      List.filter_eq_self.2 fun p hp => by
        obtain ⟨r, -, rfl⟩ := List.mem_map.1 hp
        simp
    simp only [List.filter_append, hothers, hown, List.nil_append, List.map_map, Function.comp_def, List.map_id']
  · simp

theorem accessResponse_returns (c k i : Nat) (f : Flight) (r : Reply) (s : State)
    (hfind : s.flights.findIdx? (fun f => f.core == c && f.slot == k && f.reply.isSome) = some i) (hi : s.flights[i]? = some f)
    (hr : f.reply = some r) :
    ∃ t, exec (.accessResponse c k) s = .next t ∧ t.flights = s.flights.eraseIdx i ∧ t.mem = s.mem ∧ t.cdata = s.cdata ∧
      repliesOf ⟨c, k, 0, 0, 0, 0, 0⟩ t = repliesOf ⟨c, k, 0, 0, 0, 0, 0⟩ s ++ [r] := by
  have hexec : exec (.accessResponse c k) s =
      .next (addReply ⟨c, k, 0, 0, 0, 0, 0⟩ r { s with flights := s.flights.eraseIdx i }) := by
    show execAccessResponse c k s = _
    simp only [execAccessResponse, hfind, hi, hr]
  obtain ⟨hflights, hmem, hdata⟩ := setReplies_memory ⟨c, k, 0, 0, 0, 0, 0⟩
    (repliesOf ⟨c, k, 0, 0, 0, 0, 0⟩ { s with flights := s.flights.eraseIdx i } ++ [r])
    { s with flights := s.flights.eraseIdx i }
  exact ⟨_, hexec, hflights, hmem, hdata, repliesOf_setReplies _ _ _⟩

end Sys2Proof.Machine
end

section
/-! SUPPORT. SCRUB (R29, R30, R60). -/

namespace Sys2Proof.Machine

open Host (Outcome)

variable {s t : State}

/-! SCRUB (R29, R30, R60): which numbers name what. -/

/-- A read that finds no error it cannot correct. -/
theorem scrub_corrects (g : Nat) (s : State) : (2 ^ 46 ≤ g → exec (.scrub g false) s = .next s) ∧
    (g < 2 ^ 46 → ∃ t, exec (.scrub g false) s = .next t ∧ t = { s with wenlek := t.wenlek } ∧
      t.wenlek.corrected = s.wenlek.corrected + 1) := by
  have hgood : exec (.scrub g false) s =
      .next (if g < 2 ^ 46 then { s with wenlek := { s.wenlek with corrected := s.wenlek.corrected + 1 } } else s) := by
    show execScrub g false s = _
    simp only [execScrub, Bool.not_false, if_true]
  constructor
  · intro h
    rw [hgood, if_neg (by omega)]
  · intro h
    rw [hgood, if_pos h]
    exact ⟨_, rfl, rfl, rfl⟩

theorem exec_scrub_memory {g : Nat} (h : g < 2 ^ 46) (htier : inTier s (g * 64) = true) : exec (.scrub g true) s =
    .next (memoryError (g * 64) { s with poison := SMap.set false s.poison g true }) := by
  show execScrub g true s = _
  simp only [execScrub, Bool.not_true, Bool.false_eq_true, if_false, h, htier, if_true]

theorem exec_scrub_slice {g : Nat} (hlo : 2 ^ 46 ≤ g) (hhi : g < 2 ^ 60)
    (hcached : cachedAt s ((g - 2 ^ 46) / 2 ^ 46) ((g - 2 ^ 46) % 2 ^ 46 * 64) = true) : exec (.scrub g true) s =
    .next (sliceError ((g - 2 ^ 46) / 2 ^ 46) ((g - 2 ^ 46) % 2 ^ 46 * 64) s) := by
  have h1 : ¬ g < 2 ^ 46 := by omega
  show execScrub g true s = _
  simp only [execScrub, Bool.not_true, Bool.false_eq_true, if_false, h1, hhi, hcached, if_true]

theorem exec_scrub_bank {g : Nat} (hlo : 2 ^ 61 ≤ g)
    (hcached : cachedAt s ((g - 2 ^ 61) / 2 ^ 46) ((g - 2 ^ 61) % 2 ^ 46 * 64) = true) : exec (.scrub g true) s =
    .next (bankError ((g - 2 ^ 61) / 2 ^ 46) ((g - 2 ^ 61) % 2 ^ 46 * 64) s) := by
  have h1 : ¬ g < 2 ^ 46 := by omega
  have h2 : ¬ g < 2 ^ 60 := by omega
  have h3 : ¬ g < 2 ^ 61 := by omega
  show execScrub g true s = _
  simp only [execScrub, Bool.not_true, Bool.false_eq_true, if_false, h1, h2, h3, and_false, hcached, if_true]

theorem exec_scrub_word {c q i : Nat} (hc : c < 2 ^ 50) (hq : q < 12) (hi : i < 32) (s : State) :
    exec (.scrub (2 ^ 60 + 2 ^ 32 + 512 * c + 32 * q + i) true) s = .next (wordError c q i s) := by
  have h1 : ¬ 2 ^ 60 + 2 ^ 32 + 512 * c + 32 * q + i < 2 ^ 46 := by omega
  have h2 : ¬ 2 ^ 60 + 2 ^ 32 + 512 * c + 32 * q + i < 2 ^ 60 := by omega
  have h3 : 2 ^ 60 + 2 ^ 32 ≤ 2 ^ 60 + 2 ^ 32 + 512 * c + 32 * q + i ∧
      2 ^ 60 + 2 ^ 32 + 512 * c + 32 * q + i < 2 ^ 61 := by omega
  have hn : 2 ^ 60 + 2 ^ 32 + 512 * c + 32 * q + i - 2 ^ 60 - 2 ^ 32 = 512 * c + 32 * q + i := by omega
  have hcore : (512 * c + 32 * q + i) / 512 = c := by omega
  have hqueue : (512 * c + 32 * q + i) / 32 % 16 = q := by omega
  have hword : (512 * c + 32 * q + i) % 32 = i := by omega
  show execScrub (2 ^ 60 + 2 ^ 32 + 512 * c + 32 * q + i) true s = _
  generalize 2 ^ 60 + 2 ^ 32 + 512 * c + 32 * q + i = g at h1 h2 h3 hn ⊢
  simp only [execScrub, Bool.not_true, Bool.false_eq_true, if_false, h1, h2, h3, and_self, if_true, hn, hcore, hqueue, hword]

theorem exec_scrub_slot {c k : Nat} (hc : c < 2 ^ 29) (hk : k < 8) (s : State) :
    exec (.scrub (2 ^ 60 + 8 * c + k) true) s = .next (slotError c k s) := by
  have h1 : ¬ 2 ^ 60 + 8 * c + k < 2 ^ 46 := by omega
  have h2 : ¬ 2 ^ 60 + 8 * c + k < 2 ^ 60 := by omega
  have h3 : ¬ 2 ^ 60 + 2 ^ 32 ≤ 2 ^ 60 + 8 * c + k := by omega
  have h4 : 2 ^ 60 + 8 * c + k < 2 ^ 61 := by omega
  have hcore : (2 ^ 60 + 8 * c + k - 2 ^ 60) / 8 = c := by omega
  have hslot : (2 ^ 60 + 8 * c + k - 2 ^ 60) % 8 = k := by omega
  show execScrub (2 ^ 60 + 8 * c + k) true s = _
  generalize 2 ^ 60 + 8 * c + k = g at h1 h2 h3 h4 hcore hslot ⊢
  simp only [execScrub, Bool.not_true, Bool.false_eq_true, if_false, h1, h2, h3, h4, false_and, if_true, hcore, hslot]

/-! SCRUB: what a bad granule leaves. -/

theorem SMap.get_set_true (m : SMap Bool) (x : Nat) : SMap.get false (SMap.set false m x true) x = true :=
  SMap.get_put_self _ _ _ _

theorem scrub_poisons_memory (g : Nat) (s : State) (h : g < 2 ^ 46) (htier : inTier s (g * 64) = true) :
    ∃ t, exec (.scrub g true) s = .next t ∧ SMap.get false t.poison g = true ∧ t.mem = s.mem ∧
      t.wenlek.telemetry = s.wenlek.telemetry ++ [[0, g * 64]] :=
  ⟨_, exec_scrub_memory h htier, SMap.get_set_true _ _, rfl, rfl⟩

section
variable {home va : Nat}

theorem sliceError_hidden (hd : sectorOf va ∈ (s.line home va).dirty) (hb : sectorOf va ∈ (s.line home va).bankValid) :
    sliceError home va s = memoryError va { s with
      lines := SMap.put s.lines (lineKey home va)
        { s.line home va with hurt := va % 1024 / 64 :: (s.line home va).hurt } } := by
  simp [sliceError, hd, hb]

theorem sliceError_shown (hd : sectorOf va ∈ (s.line home va).dirty) (hb : sectorOf va ∉ (s.line home va).bankValid) :
    sliceError home va s = memoryError va { s with cpoison := SMap.set false s.cpoison (cacheKey home va / 64) true } := by
  simp [sliceError, hd, hb]

theorem sliceError_bankDirty (hd : sectorOf va ∉ (s.line home va).dirty) (hb : sectorOf va ∈ (s.line home va).bankDirty) :
    sliceError home va s = s := by
  simp [sliceError, hd, hb]

theorem sliceError_clean (hd : sectorOf va ∉ (s.line home va).dirty) (hb : sectorOf va ∉ (s.line home va).bankDirty) :
    sliceError home va s = dropSector home va s := by
  simp [sliceError, hd, hb]

theorem dropSector_line (hsorted : SMap.Sorted s.lines) :
    ((dropSector home va s).line home va).valid = (s.line home va).valid.erase (sectorOf va) := by
  obtain ⟨hurt, hlines⟩ := dropSector_lines home va s
  rw [State.line, hlines]
  split
  · rename_i hempty
    rw [SMap.get_del_self _ hsorted, List.isEmpty_iff.1 hempty]
    rfl
  · rw [SMap.get_put_self]
    rfl

theorem sliceError_mem (home va : Nat) (s : State) : (sliceError home va s).mem = s.mem := by
  by_cases hd : sectorOf va ∈ (s.line home va).dirty
  · by_cases hb : sectorOf va ∈ (s.line home va).bankValid
    · rw [sliceError_hidden hd hb]
      rfl
    · rw [sliceError_shown hd hb]
      rfl
  · by_cases hb : sectorOf va ∈ (s.line home va).bankDirty
    · rw [sliceError_bankDirty hd hb]
    · rw [sliceError_clean hd hb, dropSector_mem]

theorem sliceError_dirty (hd : sectorOf va ∈ (s.line home va).dirty) : (sliceError home va s).cdata = s.cdata ∧
    (sliceError home va s).wenlek.telemetry = s.wenlek.telemetry ++ [[0, va]] := by
  by_cases hb : sectorOf va ∈ (s.line home va).bankValid
  · rw [sliceError_hidden hd hb]
    exact ⟨rfl, rfl⟩
  · rw [sliceError_shown hd hb]
    exact ⟨rfl, rfl⟩

theorem bankError_dirty (hd : sectorOf va ∈ (s.line home va).bankDirty) :
    bankError home va s = memoryError va { s with cpoison := SMap.set false s.cpoison (cacheKey home va / 64) true } := by
  simp [bankError, hd]

theorem bankError_clean (hd : sectorOf va ∉ (s.line home va).bankDirty) (hv : sectorOf va ∈ (s.line home va).bankValid) :
    bankError home va s = { showHurt (lineKey home va) (· == sectorOf va) s with
      lines := SMap.put (showHurt (lineKey home va) (· == sectorOf va) s).lines (lineKey home va)
        { (showHurt (lineKey home va) (· == sectorOf va) s).line home va with
          bankValid := (s.line home va).bankValid.erase (sectorOf va) } } := by
  simp [bankError, hd, hv]

theorem bankError_none (hd : sectorOf va ∉ (s.line home va).bankDirty) (hv : sectorOf va ∉ (s.line home va).bankValid) :
    bankError home va s = s := by
  simp [bankError, hd, hv]

theorem bankError_data (home va : Nat) (s : State) :
    (bankError home va s).mem = s.mem ∧ (bankError home va s).cdata = s.cdata := by
  by_cases hd : sectorOf va ∈ (s.line home va).bankDirty
  · rw [bankError_dirty hd]
    exact ⟨rfl, rfl⟩
  · by_cases hv : sectorOf va ∈ (s.line home va).bankValid
    · rw [bankError_clean hd hv]
      exact showHurt_data _ _ s
    · rw [bankError_none hd hv]
      exact ⟨rfl, rfl⟩

theorem bankError_clean_line (hd : sectorOf va ∉ (s.line home va).bankDirty) (hv : sectorOf va ∈ (s.line home va).bankValid) :
    ((bankError home va s).line home va).valid = (s.line home va).valid ∧
    ((bankError home va s).line home va).bankValid = (s.line home va).bankValid.erase (sectorOf va) := by
  obtain ⟨-, -, hurt, hline⟩ := showHurt_lines (lineKey home va) (· == sectorOf va) s
  rw [bankError_clean hd hv, State.line, SMap.get_put_self]
  have hvalid := congrArg Line.valid hline
  exact ⟨hvalid, rfl⟩

end

theorem scrub_slice (g : Nat) (s : State) (hsorted : s.lines.Pairwise (fun p q => p.1 < q.1)) (hlo : 2 ^ 46 ≤ g)
    (hhi : g < 2 ^ 60) :
    let home := (g - 2 ^ 46) / 2 ^ 46
    let va := (g - 2 ^ 46) % 2 ^ 46 * 64
    cachedAt s home va = true → ∃ t, exec (.scrub g true) s = .next t ∧ t.mem = s.mem ∧
      (sectorOf va ∈ (s.line home va).dirty → t.cdata = s.cdata ∧ t.wenlek.telemetry = s.wenlek.telemetry ++ [[0, va]] ∧
        (sectorOf va ∉ (s.line home va).bankValid → SMap.get false t.cpoison (cacheKey home va / 64) = true)) ∧
      (sectorOf va ∉ (s.line home va).dirty → sectorOf va ∈ (s.line home va).bankDirty → t = s) ∧
      (sectorOf va ∉ (s.line home va).dirty → sectorOf va ∉ (s.line home va).bankDirty →
        (t.line home va).valid = (s.line home va).valid.erase (sectorOf va)) := by
  intro home va hcached
  refine ⟨_, exec_scrub_slice hlo hhi hcached, sliceError_mem _ _ s, fun hd => ?_, fun hd hb => sliceError_bankDirty hd hb,
    fun hd hb => ?_⟩
  · obtain ⟨hdata, hrecord⟩ := sliceError_dirty hd
    refine ⟨hdata, hrecord, fun hb => ?_⟩
    rw [sliceError_shown hd hb]
    exact SMap.get_set_true _ _
  · rw [sliceError_clean hd hb]
    exact dropSector_line hsorted

theorem scrub_bank (g : Nat) (s : State) (hlo : 2 ^ 61 ≤ g) :
    let home := (g - 2 ^ 61) / 2 ^ 46
    let va := (g - 2 ^ 61) % 2 ^ 46 * 64
    cachedAt s home va = true → ∃ t, exec (.scrub g true) s = .next t ∧ t.mem = s.mem ∧ t.cdata = s.cdata ∧
      (sectorOf va ∈ (s.line home va).bankDirty → SMap.get false t.cpoison (cacheKey home va / 64) = true ∧
        t.wenlek.telemetry = s.wenlek.telemetry ++ [[0, va]]) ∧
      (sectorOf va ∉ (s.line home va).bankDirty → sectorOf va ∈ (s.line home va).bankValid →
        (t.line home va).valid = (s.line home va).valid ∧
        (t.line home va).bankValid = (s.line home va).bankValid.erase (sectorOf va)) := by
  intro home va hcached
  obtain ⟨hmem, hdata⟩ := bankError_data home va s
  refine ⟨_, exec_scrub_bank hlo hcached, hmem, hdata, fun hd => ?_, fun hd hv => bankError_clean_line hd hv⟩
  rw [bankError_dirty hd]
  exact ⟨SMap.get_set_true _ _, rfl⟩

theorem wordError_marks {c q i : Nat} (hi : i < (if q < 8 then (s.core c).queue q else (s.core c).port (q - 8)).length) :
    wordError c q i s = { s with cores := (wordError c q i s).cores } ∧ (16 + q, i) ∈ ((wordError c q i s).core c).qerr := by
  by_cases hknown : (16 + q, i) ∈ (s.core c).qerr
  · have hsame : wordError c q i s = s := by simp [wordError, hknown]
    rw [hsame]
    exact ⟨rfl, hknown⟩
  · have hmarked : wordError c q i s = s.modCore c fun x => { x with qerr := x.qerr ++ [(16 + q, i)] } :=
      if_pos ⟨hi, by simpa using hknown⟩
    rw [hmarked, State.core_modCore_self]
    exact ⟨rfl, List.mem_append_right _ (List.mem_singleton_self _)⟩

theorem scrub_word (c q i : Nat) (s : State) (hc : c < 2 ^ 50) (hq : q < 12) (hi : i < 32)
    (hlen : i < (if q < 8 then (s.core c).queue q else (s.core c).port (q - 8)).length) :
    ∃ t, exec (.scrub (2 ^ 60 + 2 ^ 32 + 512 * c + 32 * q + i) true) s = .next t ∧ t = { s with cores := t.cores } ∧
      (16 + q, i) ∈ (t.core c).qerr :=
  ⟨_, exec_scrub_word hc hq hi s, wordError_marks hlen⟩

/-! The slot of a context that ends is empty, whatever its task's record does. -/

theorem keepsCores_containRecord (tenant party outcome count : Nat) (m : Option Msg) (va : Nat) (s : State) :
    KeepsCores s (containRecord tenant party outcome count m va s) := keepsCores_queueRecord _ s

theorem keepsCores_taskRecord (id cause : Nat) (stopped : Bool) (s : State) : KeepsCores s (taskRecord id cause stopped s) := by
  unfold taskRecord
  split
  · exact .refl s
  · exact keepsCores_queueRecord _ s

theorem keepsCores_endTask (id cause : Nat) (stopped : Bool) (s : State) : KeepsCores s (endTask id cause stopped s) := by
  unfold endTask
  split
  · exact .refl s
  · exact (KeepsCores.of_cores rfl).trans (keepsCores_taskRecord id cause stopped _)

theorem orphan_cores (c k : Nat) (s : State) : (orphan c k s).cores = s.cores := by
  unfold orphan
  dsimp only
  split <;> rfl

theorem slot_of_cores {u : State} (h : t.cores = u.cores) (c k : Nat) : t.slot c k = u.slot c k := by
  unfold State.slot State.core
  rw [h]

/-- A context that ends leaves its slot empty, with a tombstone. -/
theorem killSlot_slot {c k cause : Nat} (h : (s.slot c k).holds = .thread) :
    ∃ y clock, (killSlot c k cause s).slot c k = Slot.free y clock .dead := by
  unfold killSlot
  extract_lets y u v freed frames gone held
  rw [if_neg (by simp [y, h])]
  have hframes : frames.slot c k = freed.slot c k := slot_modCore_of_slots _ _ _ _ freed fun _ => rfl
  have hheld : held.slot c k = frames.slot c k :=
    (slot_of_cores rfl c k : held.slot c k = gone.slot c k).trans (slot_of_cores (orphan_cores c k frames) c k)
  have hfreed : freed.slot c k = Slot.free _ v.clock .dead := State.slot_modSlot_self _ _ _ _
  have hslot : held.slot c k = Slot.free _ v.clock .dead := (hheld.trans hframes).trans hfreed
  split
  · exact ⟨_, _, ((keepsCores_endTask _ _ _ held).slot c k).trans hslot⟩
  · exact ⟨_, _, hslot⟩

theorem killSlot_empties {c k cause : Nat} (h : (s.slot c k).holds = .thread) :
    ((killSlot c k cause s).slot c k).holds = .empty ∧ ((killSlot c k cause s).slot c k).tomb = .dead := by
  obtain ⟨y, clock, hslot⟩ := killSlot_slot (cause := cause) h
  rw [hslot]
  exact ⟨rfl, rfl⟩

theorem scrub_thread (c k : Nat) (s : State) (hc : c < 2 ^ 29) (hk : k < 8) (h : (s.slot c k).holds = .thread) :
    ∃ t, exec (.scrub (2 ^ 60 + 8 * c + k) true) s = .next t ∧ (t.slot c k).holds = .empty ∧ (t.slot c k).tomb = .dead := by
  have herror : slotError c k s = killSlot c k 0x09 (containRecord (s.slot c k).tenant (s.partyAt c k) 3 0 none 0 s) := by
    simp only [slotError, h, if_true]
  have hstill := (keepsCores_containRecord (s.slot c k).tenant (s.partyAt c k) 3 0 none 0 s).slot c k
  refine ⟨_, exec_scrub_slot hc hk s, ?_⟩
  rw [herror]
  exact killSlot_empties (by rw [hstill, h])

end Sys2Proof.Machine
end

section
/-! SUPPORT. WENLEK_WINDOW_ACCESS (R15, R16, R59). -/

namespace Sys2Proof.Machine

open Host (Outcome)

variable {s t : State}

/-! WENLEK_WINDOW_ACCESS (R15, R16, R59). -/

/-- How many bytes an access of the controller names. -/
def windowLength (n : Nat) (data : Option (List Nat)) : Nat := match data with | some l => l.length | none => n

/-- The controller's request to a link. -/
def windowRequest (a n b : Nat) (data : Option (List Nat)) : Request :=
  mkRequest whoWenlek (if data.isSome then 2 else 1) b a (windowLength n data) ((data.getD []).map fun b => BitVec.ofNat 8 b)
    0 0 0 false false true

/-- What an access of the controller does, by where its address leads. -/
def windowResult (a n : Nat) (data : Option (List Nat)) (s : State) : Option Nat → Option (Option Nat × Nat) → State
  | some p, _ => match data with
    | some l => physWrite p (l.map fun b => BitVec.ofNat 8 b) false s
    | none => wenlekReport (0 :: a :: (physBytes s p (windowLength n data)).map BitVec.toNat) s
  | none, none => wenlekReport [1, a] s
  | none, some (none, _) => wenlekReport [2, a] s
  | none, some (some link, b) => (sendRequest link (windowRequest a n b data) s).getD s

theorem exec_wenlekWindowAccess (a n : Nat) (data : Option (List Nat)) (s : State) : exec (.wenlekWindowAccess a n data) s =
    .next (windowResult a n data s (physPlace s a (windowLength n data)) (physAway s a (windowLength n data))) := by
  show execWenlekWindowAccess a n data s = _
  generalize hf : execWenlekWindowAccess = f
  delta execWenlekWindowAccess at hf
  subst hf
  beta_reduce
  extract_lets +onlyGivenNames m
  have hm : windowLength n data = m := rfl
  rw [hm]
  generalize physPlace s a m = place
  generalize physAway s a m = away
  cases place with
  | some p => cases data <;> rfl
  | none =>
    match away with
    | none => rfl
    | some (none, _) => rfl
    | some (some link, b) => rfl

theorem windowAccess_answers (a n : Nat) (data : Option (List Nat)) (s : State) :
    let m := match data with | some l => l.length | none => n
    let bytes := (data.getD []).map fun b => BitVec.ofNat 8 b
    (physPlace s a m = none →
      (physAway s a m = none → ∃ t, exec (.wenlekWindowAccess a n data) s = .next t ∧ t = { s with wenlek := t.wenlek } ∧
        t.wenlek.reports = s.wenlek.reports ++ [[1, a]]) ∧
      (∀ d, physAway s a m = some (none, d) → ∃ t, exec (.wenlekWindowAccess a n data) s = .next t ∧
        t = { s with wenlek := t.wenlek } ∧ t.wenlek.reports = s.wenlek.reports ++ [[2, a]]) ∧
      ∀ link b u, physAway s a m = some (some link, b) →
        sendRequest link (mkRequest whoWenlek (if data.isSome then 2 else 1) b a m bytes 0 0 0 false false true) s = some u →
        exec (.wenlekWindowAccess a n data) s = .next u) ∧
    ∀ p, physPlace s a m = some p →
      (data = none → ∃ t, exec (.wenlekWindowAccess a n data) s = .next t ∧ t = { s with wenlek := t.wenlek } ∧
        t.wenlek.reports = s.wenlek.reports ++ [0 :: a :: (bytesAt s.mem p n).map BitVec.toNat]) ∧
      ∀ l, data = some l → ∃ t, exec (.wenlekWindowAccess a n data) s = .next t ∧
        t.mem = putBytes s.mem p (l.map fun b => BitVec.ofNat 8 b) := by
  intro m bytes
  have hexec := exec_wenlekWindowAccess a n data s
  have hm : windowLength n data = m := rfl
  rw [hm] at hexec
  refine ⟨fun hplace => ⟨fun haway => ?_, fun d haway => ?_, fun link b u haway hsent => ?_⟩,
    fun p hplace => ⟨fun hdata => ?_, fun l hdata => ?_⟩⟩
  · rw [hplace, haway] at hexec
    exact ⟨_, hexec, rfl, rfl⟩
  · rw [hplace, haway] at hexec
    exact ⟨_, hexec, rfl, rfl⟩
  · rw [hplace, haway] at hexec
    have hsent' : sendRequest link (windowRequest a n b data) s = some u := by
      rw [windowRequest, hm]
      exact hsent
    rw [hexec, windowResult, hsent', Option.getD_some]
  · subst hdata
    rw [hplace] at hexec
    exact ⟨_, hexec, rfl, rfl⟩
  · subst hdata
    rw [hplace] at hexec
    exact ⟨_, hexec, rfl⟩

end Sys2Proof.Machine

open Sys2Proof Sys2Proof.Machine in
/-- Settles O45, event by event. -/
theorem memoryEvents : Obligations.MemoryEvents := by
  unfold Obligations.MemoryEvents
  exact ⟨walk_keeps_entries, placementCacheFill_fills, plbMiss_fills, sectorFill_fills, fillFrom_copies_frame,
    missWayRelease_releases, arrivals_land, ownerSlotHandler_runs, accessResponse_returns, scrub_corrects,
    fun g s _ => scrub_poisons_memory g s, fun g s _ => scrub_slice g s, scrub_bank, scrub_word, scrub_thread,
    windowAccess_answers⟩
end

section
/-! SUPPORT. What the accessors read in the machine at reset. -/

namespace Sys2Proof.Machine

theorem reset_core (c : Nat) : State.reset.core c = Core.reset := SMap.get_nil _ c

theorem reset_link (n : Nat) : State.reset.link n = Link.reset := SMap.get_nil _ n

theorem reset_slot (c k : Nat) : State.reset.slot c k = Slot.empty := by
  rw [State.slot, reset_core]
  exact SMap.get_nil _ k

theorem reset_eng (c : Nat) : State.reset.eng c = Engine.reset := by rw [State.eng, reset_core, Core.reset]

theorem reset_mx (c : Nat) : State.reset.mx c = Mx.reset := by rw [State.mx, reset_core, Core.reset]

theorem not_isKeystone_of_small {c : Nat} (h : c < numSmall) : isKeystone c = false :=
  decide_eq_false (Nat.not_le.2 h)

/-- R89: the role that the reset value of BANKROLE gives a bank of a small core. -/
theorem reset_bankRole {c : Nat} (h : c < numSmall) (b : Nat) :
    bankRole State.reset c b = bits 0xAAAA000000005555 (2 * b) 2 := by
  rw [bankRole, not_isKeystone_of_small h, reset_core]
  rfl

/-- R51: at reset the ways of a small core's local cache are its banks 0 to 7. -/
theorem reset_cacheBanks {c : Nat} (h : c < numSmall) : cacheBanks State.reset c = List.range 8 := by
  simp only [cacheBanks, reset_bankRole h]
  decide

end Sys2Proof.Machine

open Sys2Proof Sys2Proof.Machine in
/-- Settles O59: memory and every map of the reset state list nothing, so each read answers the value that an unlisted key has. -/
theorem resetState : Obligations.ResetState := by
  unfold Obligations.ResetState
  refine ⟨fun c k => ?slots, fun c n => ?queues, fun c => ?registers, rfl, rfl, rfl, fun n => ?links, rfl, SMap.get_nil 0,
    reset_canonical⟩
  case slots => rw [reset_slot, Slot.empty]
  case queues =>
    rw [reset_core]
    exact ⟨SMap.get_nil _ n, SMap.get_nil _ n, SMap.get_nil _ n, SMap.get_nil _ n⟩
  case registers =>
    rw [reset_core, reset_eng, reset_mx]
    exact ⟨rfl, fun hsmall => by rw [reset_cacheBanks hsmall, List.length_range], rfl, rfl, rfl, rfl, rfl, rfl⟩
  case links => rw [reset_link, Link.reset]
end

section
/-! SUPPORT. What accesses, exposures and records leave of the machine: all but the contexts parked at a home, the rights and
placement caches, the values that have come back, a slot's commit buffer and held messages. -/

namespace Sys2Proof.Machine

open Host (Outcome)

variable {s t u : State}

/-! The core and slot that run, and the barrier groups: no access changes them. -/

/-- The running core and slot, and the barrier groups. -/
def aside (s : State) : Nat × Nat × SMap Group := (s.curCore, s.curSlot, s.groups)

theorem aside_of_apart (h : apart t = apart s) : aside t = aside s :=
  show aside (apart t) = aside (apart s) from congrArg aside h

theorem aside_ite {p : Prop} [Decidable p] {a b : State} (ha : aside a = aside s) (hb : aside b = aside s) :
    aside (if p then a else b) = aside s := by split <;> assumption

theorem aside_foldl {β : Type} (l : List β) (f : State → β → State) (hf : ∀ s b, aside (f s b) = aside s) (s : State) :
    aside (l.foldl f s) = aside s := by
  induction l generalizing s with
  | nil => rfl
  | cons b l ih => exact (ih _).trans (hf s b)

theorem aside_amoAt (src : Src) (va n amo b e : Nat) (s : State) : aside (amoAt src va n amo b e s).2 = aside s := by
  have hw (l : List Byte) : aside (writeAt src va l false s) = aside s := aside_of_apart (apart_writeAt _ _ _ _ s)
  unfold amoAt
  extract_lets old
  split
  · rfl
  cases amoNew amo n (leNat old) b e with
  | none => rfl
  | some v =>
    cases src with
    | cached h fill => exact aside_ite (hw (leBytes n v)) (hw (leBytes n v))
    | _ => exact hw (leBytes n v)

theorem aside_performFlight (f : Flight) (s : State) : aside (performFlight f s).2 = aside s := by
  unfold performFlight
  split
  · rfl
  split
  · exact aside_of_apart (apart_writeOver _ _ _ _ _ s)
  · exact aside_amoAt _ _ _ _ _ _ s
  · rfl
  · rfl

theorem aside_finishFlight (f : Flight) (s : State) : aside (finishFlight f s) = aside s := by
  unfold finishFlight
  split
  · extract_lets u
    have hu : aside u = aside s := (aside_performFlight f _ : aside u = aside { s with flights := s.flights.erase f })
    exact aside_ite ((aside_of_apart (apart_setPoison _ _ _ _ u)).trans hu) hu
  · exact aside_performFlight f s

theorem aside_settleBy (va : Nat) (s : State) : aside (settleBy va s) = aside s :=
  aside_foldl _ _ (fun s f => aside_ite (aside_finishFlight f s) rfl) s

theorem aside_tableFill (pa : Nat) (s : State) : aside (tableFill pa s) = aside s := by
  unfold tableFill
  split
  · extract_lets va u
    have hu : aside u = aside s := (aside_of_apart (apart_fillFrom _ _ _ _ _)).trans (aside_settleBy va s)
    exact aside_ite rfl hu
  · rfl

theorem aside_walkFill (die va : Nat) (s : State) : aside (walkFill die va s) = aside s := by
  have hread (p : Prop) [Decidable p] (pa : Nat) {u : State} (hu : aside u = aside s) :
      aside (if p then u else tableFill pa u) = aside s := aside_ite hu ((aside_tableFill pa u).trans hu)
  unfold walkFill
  extract_lets read next a0 t
  have ht : aside t = aside s := hread _ _ rfl
  split
  · exact ht
  extract_lets a1 u
  have hu : aside u = aside s := hread _ _ ht
  split
  · exact hu
  · exact hread _ _ hu

theorem aside_rightsFill (dom va : Nat) (s : State) : aside (rightsFill dom va s) = aside s := by
  have hfill (pa : Nat) {u : State} (hu : aside u = aside s) : aside (tableFill pa u) = aside s :=
    (aside_tableFill pa u).trans hu
  have hroot := hfill (s.drbase * 65536 + 8 * dom) rfl
  exact aside_ite hroot (aside_ite (hfill _ hroot) (hfill _ (hfill _ hroot)))

theorem aside_tableBytes (pa : Nat) (l : List Byte) (s : State) : aside (tableBytes pa l s) = aside s :=
  (aside_of_apart (apart_writeAt _ _ _ _ _)).trans (aside_tableFill pa s)

theorem aside_tableWrite (pa n v : Nat) (s : State) : aside (tableWrite pa n v s) = aside s := aside_tableBytes _ _ s

theorem aside_tableWords (pa : Nat) (ws : List Nat) (s : State) : aside (tableWords pa ws s) = aside s :=
  aside_foldl _ _ (fun s _ => aside_tableBytes _ _ s) s

theorem aside_absenceWrite (m : Msg) (s : State) : aside (absenceWrite m s) = aside s := by
  unfold absenceWrite
  split
  extract_lets prod e ws u v
  have hv : aside v = aside s := (aside_tableWrite _ _ _ u).trans (aside_tableWords e ws s)
  exact hv

theorem aside_netSend (m : Msg) (s : State) : aside (netSend m s) = aside s := by
  unfold netSend
  refine aside_ite rfl (aside_ite ?_ rfl)
  split
  exact aside_ite (aside_absenceWrite m s) rfl

theorem aside_postNow (r : Rec) {q : Nat} (h : postNow r s = some (q, t)) : aside t = aside s := by
  unfold postNow at h
  split at h
  · obtain ⟨-, rfl⟩ := Prod.mk.inj (Option.some.inj h)
    rfl
  split at h
  · cases h
  extract_lets b w0 prod size k q' first parts ring seq count word0 kept copy pay w3 told posted at h
  have hcount : aside count = aside s :=
    (aside_tableWrite _ _ _ seq).trans ((aside_tableWrite _ _ _ ring).trans (aside_foldl _ _ (fun s _ => aside_tableWords _ _ s) s))
  clear_value count
  have hcopy : aside copy = aside s := aside_ite hcount hcount
  clear_value copy
  have htold : aside told = aside s := aside_ite ((aside_netSend _ copy).trans hcopy) hcopy
  clear_value told
  have hposted : aside posted = aside s := by
    unfold posted
    split
    · exact aside_ite ((aside_netSend _ _).trans htold) htold
    · exact htold
  obtain ⟨-, rfl⟩ := Prod.mk.inj (Option.some.inj h)
  exact hposted

theorem aside_queueRecord (r : Rec) (s : State) : aside (queueRecord r s) = aside s := by
  unfold queueRecord queueSeq
  split
  · rename_i p h
    split at h
    · cases h
    · exact aside_postNow r h
  · rfl

/-! The rest of the machine, as far as accesses leave it alone. -/

/-- An engine without the values that have come back to it. -/
def Engine.still (e : Engine) : Engine := { e with replies := [] }

/-- A slot without its commit buffer, held messages, exposure and the values that have come back to it. -/
def Slot.still (y : Slot) : Slot := { y with commit := [], heldMsgs := [], exposed := false, replies := [] }

/-- A core without its slots, the contexts parked there, the sequence of its last record, its rights and placement caches, and the
values that have come back to its units. -/
def Core.still (x : Core) : Core :=
  { x with
    slots := [], parked := [], fqSeq := 0, plb := [], pcache := [], mx := { x.mx with replies := [] }, engine := x.engine.still }

/-- From `s` to `t` no core and no slot changes but in what accesses change, and neither the running slot nor a group does. -/
structure Steady (s t : State) : Prop where
  core : ∀ c, (t.core c).still = (s.core c).still
  slot : ∀ c k, (t.slot c k).still = (s.slot c k).still
  aside : Machine.aside t = Machine.aside s

theorem Steady.refl (s : State) : Steady s s := ⟨fun _ => rfl, fun _ _ => rfl, rfl⟩

theorem Steady.trans (h : Steady s t) (h' : Steady t u) : Steady s u :=
  ⟨fun c => (h'.core c).trans (h.core c), fun c k => (h'.slot c k).trans (h.slot c k), h'.aside.trans h.aside⟩

theorem Steady.of_keepsCores (h : KeepsCores s t) (ha : Machine.aside t = Machine.aside s) : Steady s t :=
  ⟨fun c => show (t.core c).view.still = (s.core c).view.still from congrArg Core.still (h c),
    fun c k => congrArg Slot.still (h.slot c k), ha⟩

theorem Steady.of_apart (h : apart t = apart s) : Steady s t := .of_keepsCores (.of_apart h) (aside_of_apart h)

/-- A write to other fields than the cores, the running slot and the groups. -/
theorem Steady.of_cores (h : t.cores = s.cores) (ha : Machine.aside t = Machine.aside s) : Steady s t :=
  .of_keepsCores (.of_cores h) ha

theorem Steady.ite {p : Prop} [Decidable p] {a b : State} (ha : Steady s a) (hb : Steady s b) :
    Steady s (if p then a else b) := by split <;> assumption

theorem Steady.foldl {β : Type} (l : List β) (f : State → β → State) (hf : ∀ s b, Steady s (f s b)) (s : State) :
    Steady s (l.foldl f s) := by
  induction l generalizing s with
  | nil => exact .refl s
  | cons b l ih => exact (hf s b).trans (ih _)

/-- A write of a core that keeps its slots and what is still in it. -/
theorem Steady.modCore (c : Nat) (f : Core → Core) (s : State) (hf : ∀ x, (f x).still = x.still := by intro; rfl)
    (hs : ∀ x, (f x).slots = x.slots := by intro; rfl) : Steady s (s.modCore c f) := by
  refine ⟨fun d => ?_, fun d k => congrArg Slot.still (slot_modCore_of_slots c d k f s hs), rfl⟩
  by_cases hd : d = c
  · subst hd
    rw [State.core_modCore_self, hf]
  · rw [State.core_modCore_ne _ _ _ _ hd]

/-- A write of a slot that keeps what is still in it. -/
theorem Steady.modSlot (c k : Nat) (f : Slot → Slot) (s : State) (hf : ∀ y, (f y).still = y.still := by intro; rfl) :
    Steady s (s.modSlot c k f) := by
  refine ⟨fun d => ?_, fun d j => ?_, rfl⟩
  · by_cases hd : d = c
    · subst hd
      show (((s.setSlot d k (f (s.slot d k))).core d)).still = _
      rw [State.core_setSlot_self]
      rfl
    · exact congrArg Core.still (State.core_setSlot_ne s c k d (f (s.slot c k)) hd)
  · by_cases hdj : d = c ∧ j = k
    · obtain ⟨rfl, rfl⟩ := hdj
      rw [State.slot_modSlot_self, hf]
    · exact congrArg Slot.still (State.slot_setSlot_ne s c k d j _ (by tauto))

/-! What is read of a steady state. -/

theorem Steady.curCore (h : Steady s t) : t.curCore = s.curCore := congrArg Prod.fst h.aside

theorem Steady.curSlot (h : Steady s t) : t.curSlot = s.curSlot := congrArg (fun p => p.2.1) h.aside

theorem Steady.groups (h : Steady s t) : t.groups = s.groups := congrArg (fun p => p.2.2) h.aside

/-- A field of a core that does not see what accesses change. -/
theorem Steady.coreField {α : Type} (h : Steady s t) (f : Core → α) (hf : ∀ x, f x.still = f x) (c : Nat) :
    f (t.core c) = f (s.core c) := by rw [← hf, h.core, hf]

/-- A field of a slot that does not see what accesses change. -/
theorem Steady.slotField {α : Type} (h : Steady s t) (f : Slot → α) (hf : ∀ y, f y.still = f y) (c k : Nat) :
    f (t.slot c k) = f (s.slot c k) := by rw [← hf, h.slot, hf]

/-- A field of an engine that does not see the values that have come back to it. -/
theorem Steady.engField {α : Type} (h : Steady s t) (f : Engine → α) (hf : ∀ e, f e.still = f e) (c : Nat) :
    f (t.eng c) = f (s.eng c) := h.coreField (fun x => f x.engine) (fun x => hf x.engine) c

/-! Lines, tables, rights and placement. -/

theorem steady_touchLine (home va : Nat) (s : State) : Steady s (touchLine home va s) := .of_cores rfl rfl

theorem steady_settleBy (va : Nat) (s : State) : Steady s (settleBy va s) :=
  .of_keepsCores (keepsCores_settleBy va s) (aside_settleBy va s)

theorem steady_cacheWalk (die va : Nat) (l : List (Nat × Nat × Nat)) (s : State) : Steady s (cacheWalk die va l s) :=
  .of_keepsCores (keepsCores_cacheWalk die va l s) (aside_walkFill die va s)

theorem steady_netSend (m : Msg) (s : State) : Steady s (netSend m s) :=
  .of_keepsCores (keepsCores_netSend m s) (aside_netSend m s)

theorem steady_queueRecord (r : Rec) (s : State) : Steady s (queueRecord r s) :=
  .of_keepsCores (keepsCores_queueRecord r s) (aside_queueRecord r s)

theorem steady_materialise (e level addr va : Nat) (s : State) : Steady s (materialise e level addr va s) :=
  (Steady.of_keepsCores (keepsCores_tableWrite addr 8 (e - 4) s) (aside_tableWrite addr 8 (e - 4) s)).trans (.of_cores rfl rfl)

/-- A result, whatever it says, carries a steady state. -/
def Res.Steady {α : Type} (s : State) (r : Res α) : Prop := Machine.Steady s r.state

theorem Res.Steady.bind {α β : Type} {r : Res α} {f : α → State → Res β} (hr : r.Steady s)
    (hf : ∀ a t, Machine.Steady s t → (f a t).Steady s) : (r.bind f).Steady s := by
  cases r with
  | ok a t => exact hf a t hr
  | stall t => exact hr
  | exc e t => exact hr

theorem Res.Steady.ite {α : Type} {p : Prop} [Decidable p] {a b : Res α} (ha : a.Steady s) (hb : b.Steady s) :
    Res.Steady s (if p then a else b) := by split <;> assumption

theorem Res.Steady.trans {α : Type} {r : Res α} (h : Machine.Steady s t) (hr : r.Steady t) : r.Steady s :=
  Machine.Steady.trans h hr

theorem Res.Steady.ok {α : Type} {a : α} (h : Machine.Steady s t) : (Res.ok a t).Steady s := h

theorem Res.Steady.stall {α : Type} (h : Machine.Steady s t) : (Res.stall t : Res α).Steady s := h

theorem Res.Steady.of_ok {α : Type} {r : Res α} {a : α} (hr : r.Steady s) (e : r = .ok a t) : Machine.Steady s t := by
  subst e; exact hr

theorem Res.Steady.of_exc {α : Type} {r : Res α} {x : Exc} (hr : r.Steady s) (e : r = .exc x t) : Machine.Steady s t := by
  subst e; exact hr

theorem steady_rightsOf (w : Who) (va : Nat) (s : State) : (rightsOf w va s).Steady s := by
  have hfill : Steady s (rightsFill w.dom va s) := .of_keepsCores (keepsCores_rightsFill _ _ s) (aside_rightsFill _ _ s)
  have huse (b : Nat) (u : State) :
      Steady u (u.modCore w.core fun x => plbUse x w.dom (va / 2 ^ 29 % 2 ^ 23) b) :=
    .modCore _ _ u
  unfold rightsOf
  extract_lets region
  split
  · exact huse _ s
  split
  · exact hfill
  · exact hfill.trans (huse _ _)

theorem steady_needRights (w : Who) (va need : Nat) (s : State) : (needRights w va need s).Steady s :=
  (steady_rightsOf w va s).bind fun _ _ h => .ite h h

theorem steady_needRegions (w : Who) (va n need : Nat) (s : State) : (needRegions w va n need s).Steady s := by
  have h1 := steady_needRights w va need s
  have h2 {t : State} (ht : Steady s t) := Res.Steady.trans ht (steady_needRights w ((va + n - 1) % 2 ^ 52) need t)
  unfold needRegions
  split
  · exact h1
  split
  · exact h2 (h1.of_ok ‹_›)
  · have ht := h1.of_exc ‹_›
    split
    · exact (h2 ht).of_exc ‹_›
    · exact ht
  · exact h1

theorem steady_placementOf (w : Who) (va : Nat) (s : State) : (placementOf w va s).Steady s := by
  unfold placementOf
  extract_lets page
  split
  · exact Steady.refl s
  split
  have hwalk := steady_cacheWalk (coreDie w.core) va (walk s (coreDie w.core) va w.view).2 s
  rename_i r l heq
  rw [heq] at hwalk
  split
  · exact hwalk
  · exact hwalk
  · split
    · exact hwalk
    · exact Res.Steady.ok (hwalk.trans (.modCore _ _ _))

theorem steady_homeOf (w : Who) (va : Nat) (s : State) : (homeOf w va s).Steady s :=
  (steady_placementOf w va s).bind fun _ _ h => h

/-! Where accesses are performed. -/

theorem steady_missAt (home va pa hint : Nat) (s : State) : (missAt home va pa hint s).Steady s :=
  .ite (Steady.of_cores rfl rfl) (Steady.of_apart (apart_fillFrom _ _ _ _ s))

theorem steady_locate (w : Who) (va hint : Nat) (write : Bool) (s : State) : (locate w va hint write s).Steady s := by
  have hs : Steady s s := .refl s
  unfold locate
  refine .ite hs (.ite ?_ (.ite hs ((steady_homeOf w va s).bind fun home t ht => ?_)))
  · split <;> exact hs
  extract_lets u
  have hu : Steady s u := ht.trans (steady_settleBy va t)
  clear_value u
  have hmiss {v : State} (hv : Steady s v) (pa hint : Nat) : (missAt home va pa hint v).Steady s :=
    .trans hv (steady_missAt home va pa hint v)
  split
  · exact hu
  refine .ite (hu.trans (steady_touchLine _ _ u)) (.ite (.ite hu (hmiss hu _ _)) ?_)
  split
  extract_lets v
  have hv : Steady s v := hu.trans (steady_cacheWalk _ _ _ u)
  clear_value v
  split
  · exact hv
  · exact hv
  · have hm (e level addr) : Steady s (if pteDiscard e then materialise e level addr va v else v) :=
      .ite (hv.trans (steady_materialise _ _ _ _ v)) hv
    exact .ite hv <| .ite hv <| .ite hv <| .ite hv <| .ite (hv.trans (.of_cores rfl rfl)) <| .ite hv <| .ite hv <|
      .ite (hm _ _ _) (hmiss (hm _ _ _) _ _)

theorem steady_locateSpan (w : Who) (va n hint : Nat) (write : Bool) (s : State) :
    (locateSpan w va n hint write s).Steady s :=
  .ite (steady_locate w va hint write s) ((steady_locate w va hint write s).bind fun _ _ h =>
    (Res.Steady.trans h (steady_locate _ _ _ _ _)).bind fun _ _ h => h)

theorem steady_locateParts (w : Who) (hint : Nat) (write : Bool) (l : List (Nat × Nat)) (s : State) :
    (locateParts w hint write l s).Steady s := by
  induction l generalizing s with
  | nil => exact Steady.refl s
  | cons p l ih =>
    exact (steady_locateSpan w p.1 p.2 hint write s).bind fun _ _ h => (Res.Steady.trans h (ih _)).bind fun _ _ h => h

/-! Loads. -/

theorem steady_setReplies (w : Who) (l : List Reply) (s : State) : Steady s (setReplies w l s) :=
  .ite (.modCore _ _ s) (.ite (.modCore _ _ s)
    (.ite (.of_cores rfl rfl) (.modSlot _ _ _ s)))

theorem steady_sendRequest {n : Nat} {r : Request} (h : sendRequest n r s = some t) : Steady s t := by
  unfold sendRequest at h
  extract_lets x at h
  split at h
  · extract_lets q at h
    split at h
    · obtain rfl := Option.some.inj h
      exact .of_cores rfl rfl
    · cases h
  · cases h

theorem steady_sendRequest_getD (n : Nat) (r : Request) (s : State) : Steady s ((sendRequest n r s).getD s) := by
  cases h : sendRequest n r s with
  | none => exact .refl s
  | some t => exact steady_sendRequest h

theorem steady_askRemote (w : Who) (src : Src) (va n : Nat) (acq : Bool) (s : State) :
    Steady s (askRemote w src va n acq s) := by
  unfold askRemote
  split
  · exact .refl s
  split
  · exact steady_sendRequest_getD _ _ s
  · split
    · exact steady_sendRequest_getD _ _ s
    · exact steady_setReplies _ _ s
  · exact .refl s

theorem steady_addFlight (f : Flight) (s : State) : Steady s (addFlight f s) := .of_cores rfl rfl

theorem steady_ite_snd {α : Type} {p : Prop} [Decidable p] {a b : α × State} (ha : Steady s a.2) (hb : Steady s b.2) :
    Steady s (if p then a else b).2 := by split <;> assumption

theorem steady_loadPart (w : Who) (hint : Nat) (acq : Bool) (p : Nat × Nat × Src) (s : State) :
    Steady s (loadPart w hint acq p s).2 := by
  unfold loadPart
  split
  split
  · exact .refl s
  split
  · extract_lets u
    have hu : Steady s u := steady_askRemote _ _ _ _ _ s
    exact hu
  · extract_lets u
    have hu : Steady s u := steady_askRemote _ _ _ _ _ s
    exact hu
  · exact steady_ite_snd (.refl s) (steady_ite_snd (steady_addFlight _ s) (.refl s))

theorem steady_loadParts (w : Who) (hint : Nat) (acq strict pend : Bool) (l : List (Nat × Nat)) (s : State) :
    (loadParts w hint acq strict pend l s).Steady s := by
  induction l generalizing s pend with
  | nil =>
    unfold loadParts
    split <;> exact Steady.refl s
  | cons p l ih =>
    have hgo (r : Option Reply × State) (hr : Steady s r.2) : Res.Steady s (match r with
        | (none, s) => loadParts w hint acq strict true l s
        | (some r, s) =>
          if strict && r.poison then if pend || awaits w s then .stall s else .exc (.poison r.bad) s
          else (loadParts w hint acq strict pend l s).bind fun rs s => .ok (r :: rs) s) := by
      split
      · exact Res.Steady.trans hr (ih _ _)
      · exact .ite (.ite hr hr) ((Res.Steady.trans hr (ih _ _)).bind fun _ _ h => h)
    have hloc := steady_locateSpan w p.1 p.2 hint false s
    unfold loadParts
    dsimp only
    split
    · exact hgo (some _, s) (.refl s)
    split <;> rename_i heq <;> rw [heq] at hloc
    · exact hgo _ (Steady.trans hloc (steady_loadPart _ _ _ _ _))
    · exact hloc
    · exact .ite hloc hloc

/-! Posted accesses that arrive. -/

theorem steady_arriveSector (home va fill hint : Nat) (s : State) : Steady s (arriveSector home va fill hint s) :=
  .ite (.ite (steady_touchLine _ _ s) (.refl s)) (.ite (.refl s)
    ((steady_settleBy va s).trans (.of_apart (apart_fillFrom _ _ _ _ _))))

theorem steady_landFlight (f : Flight) (s : State) : Steady s (landFlight f s) := by
  have harrives : Steady s (f.arrives s) := by
    unfold Flight.arrives
    split
    · exact .foldl _ _ (fun s _ => steady_arriveSector _ _ _ _ s) s
    · exact .refl s
  exact harrives.trans (.of_keepsCores (keepsCores_finishFlight f _) (aside_finishFlight f _))

theorem steady_landAll (p : Flight → Bool) (l : List Flight) (s : State) : Steady s (landAll p l s) := by
  induction l generalizing s with
  | nil => exact .refl s
  | cons f l ih => exact (Steady.ite (steady_landFlight f s) (.refl s)).trans (ih _)

theorem steady_drainWhere (p : Flight → Bool) (s : State) : Steady s (drainWhere p s) := steady_landAll _ _ s

theorem steady_drainAgent (c k : Nat) (s : State) : Steady s (drainAgent c k s) := steady_drainWhere _ s

theorem steady_drainEngine (s : State) : Steady s (drainEngine s) := steady_drainAgent _ _ s

theorem steady_drainMe (s : State) : Steady s (drainMe s) := steady_drainAgent _ _ s

theorem steady_drainScope (c k scope : Nat) (s : State) : Steady s (drainScope c k scope s) := steady_drainWhere _ s

theorem steady_drainLine (c k va : Nat) (s : State) : Steady s (drainLine c k va s) := steady_drainWhere _ s

/-! Stores. -/

theorem steady_storePart {w : Who} {hint : Nat} {rel tagged whole : Bool} {data : List Byte} {p : Nat × Nat × Src}
    (h : storePart w hint rel tagged whole data p s = some t) : Steady s t := by
  unfold storePart at h
  split at h
  split at h
  · exact steady_sendRequest h
  · split at h
    · exact steady_sendRequest h
    · obtain rfl := Option.some.inj h
      exact .of_cores rfl rfl
  · split at h
    · obtain rfl := Option.some.inj h
      exact steady_addFlight _ s
    · extract_lets u at h
      have hu : Steady s u := .of_apart (apart_writeOver _ _ _ _ _ s)
      obtain rfl := Option.some.inj h
      exact .ite (hu.trans (.of_apart (apart_setPoison _ _ _ _ u))) hu

theorem steady_storeParts {w : Who} {hint : Nat} {rel tagged : Bool} {whole : Nat → Bool} {l : List (Nat × Nat × Src)}
    {data : List Byte} (h : storeParts w hint rel tagged whole l data s = some t) : Steady s t := by
  induction l generalizing s data with
  | nil =>
    obtain rfl := Option.some.inj h
    exact .refl s
  | cons p l ih =>
    unfold storeParts at h
    split at h
    · exact (steady_storePart ‹_›).trans (ih h)
    · cases h

theorem steady_carryPoison (w : Who) (src : Src) (va n : Nat) (s : State) : Steady s (carryPoison w src va n s) := by
  unfold carryPoison
  split
  · exact .of_cores rfl rfl
  · split
    · exact .of_cores rfl rfl
    · exact .refl s
  · exact .of_apart (apart_setPoison _ _ _ _ s)

theorem steady_storeAt (w : Who) (va hint scope : Nat) (data : List Byte) (tagged : Bool) (s : State) :
    (storeAt w va hint scope data tagged s).Steady s := by
  unfold storeAt
  extract_lets u
  have hlines : Steady s (drainLine w.core w.slot (va + data.length - 1) (drainLine w.core w.slot va s)) :=
    (steady_drainLine _ _ _ s).trans (steady_drainLine _ _ _ _)
  have hu : Steady s u := .ite hlines (hlines.trans (steady_drainScope _ _ _ _))
  refine .ite hu ((Res.Steady.trans hu (steady_locateParts _ _ _ _ u)).bind fun _ _ ht => ?_)
  split
  · exact Steady.trans ht (steady_storeParts ‹_›)
  · exact ht

/-! An activation that is exposed (R382). -/

theorem steady_readyCommit (w : Who) (l : List Buffered) (s : State) : (readyCommit w l s).Steady s := by
  induction l generalizing s with
  | nil => exact Steady.refl s
  | cons b l ih => exact (steady_locate _ _ _ _ s).bind fun _ _ h => (Res.Steady.trans h (ih _)).bind fun _ _ h => h

theorem steady_performCommit (w : Who) (l : List (Src × Buffered)) (s : State) : (performCommit w l s).Steady s := by
  induction l generalizing s with
  | nil =>
    unfold performCommit
    exact .ok (.modSlot w.core w.slot _ s)
  | cons p l ih =>
    unfold performCommit
    split
    · exact Res.Steady.trans (steady_storePart ‹_›) (ih _)
    · exact .stall (.modSlot w.core w.slot _ s)

theorem steady_drainCommit (c k : Nat) (s : State) : (drainCommit c k s).Steady s :=
  .ite (Steady.refl s) ((steady_readyCommit _ _ s).bind fun _ _ h => Res.Steady.trans h (steady_performCommit _ _ _))

theorem steady_releaseHeld (c k : Nat) (s : State) : (releaseHeld c k s).Steady s := by
  unfold releaseHeld
  extract_lets l u
  have hu : Steady s u := steady_drainAgent c k s
  exact .ite hu (hu.trans ((Steady.modSlot c k _ u).trans (.foldl _ _ (fun s m => steady_netSend m s) _)))

theorem steady_exposeMe (s : State) : (exposeMe s).Steady s :=
  .ite ((steady_drainCommit _ _ s).bind fun _ _ h => (Res.Steady.trans h (steady_releaseHeld _ _ _)).bind fun _ _ h =>
    .ok (h.trans (.modSlot _ _ _ _))) (Steady.refl s)

/-! Accesses of copy engines and sequencers. -/

theorem steady_engineAccess (w : Who) (a n need : Nat) (s : State) : (engineAccess w a n need s).Steady s :=
  .ite (Steady.refl s) ((steady_needRegions w a n need s).bind fun _ _ h => h)

theorem steady_engineStore (w : Who) (a scope : Nat) (data : List Byte) (s : State) :
    (engineStore w a scope data s).Steady s :=
  (steady_engineAccess w a data.length 2 s).bind fun _ _ h => Res.Steady.trans h (steady_storeAt _ _ _ _ _ _ _)

theorem steady_bulkLoad (w : Who) (a n : Nat) (s : State) : (bulkLoad w a n s).Steady s :=
  (steady_engineAccess w a n 1 s).bind fun _ _ h => Res.Steady.trans h (steady_loadParts _ _ _ _ _ _ _)

theorem steady_bulkStore (w : Who) (a : Nat) (data : List Byte) (s : State) : (bulkStore w a data s).Steady s := by
  unfold bulkStore
  extract_lets n whole u
  refine (Res.Steady.trans (steady_drainWhere _ s : Steady s u) (steady_engineAccess w a n 2 u)).bind fun _ _ h =>
    (Res.Steady.trans h (steady_locateParts _ _ _ _ _)).bind fun _ _ ht => ?_
  split
  · exact Steady.trans ht (steady_storeParts ‹_›)
  · exact ht

end Sys2Proof.Machine
end

section
/-! SUPPORT. What each update of a copy engine leaves, and the engine's scalar instructions (R62, R68 to R73, R79). -/

namespace Sys2Proof.Machine

open Host (Outcome)

variable {s t : State}

/-! Registers of an engine, and the engines of a state. -/

@[simp] theorem Engine.reg_setReg_self (e : Engine) (n : Nat) (v : Word) : (e.setReg n v).reg n = v := SMap.get_put_self _ _ _ _

theorem Engine.reg_setReg_ne (e : Engine) {n m : Nat} (v : Word) (h : m ≠ n) : (e.setReg n v).reg m = e.reg m :=
  SMap.get_put_ne _ _ _ _ _ h

/-- An instruction that completes ends the engine's wait. -/
theorem Engine.next_wait_mode (e : Engine) : e.next.wait.mode = 0 := by
  unfold Engine.next
  dsimp only
  split
  · assumption
  · rfl

@[simp] theorem State.eng_modEng_self (s : State) (c : Nat) (f : Engine → Engine) : (s.modEng c f).eng c = f (s.eng c) := by
  simp [State.eng, State.modEng]

theorem State.eng_modCore_self (s : State) (c : Nat) (f : Core → Core) : (s.modCore c f).eng c = (f (s.core c)).engine := by
  simp [State.eng]

@[simp] theorem State.engMe_modEngMe (s : State) (f : Engine → Engine) : (s.modEngMe f).engMe = f s.engMe :=
  s.eng_modEng_self s.curCore f

theorem State.modEngMe_const (s : State) (f : Engine → Engine) : s.modEngMe f = s.modEngMe fun _ => f s.engMe := rfl

/-- An engine's update leaves everything else of its core. -/
theorem State.core_modEngMe (s : State) (f : Engine → Engine) :
    (s.modEngMe f).core s.curCore = { s.core s.curCore with engine := f s.engMe } := by
  simp [State.modEngMe, State.modEng, State.engMe, State.eng]

@[simp] theorem semOf_modEngMe (s : State) (f : Engine → Engine) (n : Nat) : semOf (s.modEngMe f) n = semOf s n := by
  show SMap.get 0 ((s.modEngMe f).core s.curCore).sem n = _
  rw [State.core_modEngMe]
  rfl

@[simp] theorem semOf_setSem (s : State) (n v : Nat) : semOf (setSem n v s) n = v := by
  show SMap.get 0 ((setSem n v s).core s.curCore).sem n = v
  rw [setSem, State.core_modCore_self]
  exact SMap.get_put_self _ _ _ _

@[simp] theorem engMe_setSem (s : State) (n v : Nat) : (setSem n v s).engMe = s.engMe := s.eng_modCore_self s.curCore _

/-! An instruction that completes. -/

theorem engineDone_modEngMe (f : Engine → Engine) (ds : List Nat) (s : State) (hf : ∀ e, (f e).epc = e.next.epc)
    (hstate : ∀ e, (f e).state = .running) (hwait : ∀ e, (f e).wait = e.next.wait) (hreg : ∀ e n, n ∉ ds → (f e).reg n = e.reg n)
    (hreach : ∀ e, (f e).reach = e.reach) (hfetch : ∀ e, (f e).fetchCap = e.fetchCap) (hgroup : ∀ e, (f e).group = e.group)
    (hcopy : ∀ e, (f e).copy = e.copy) : EngineDone s (s.modEngMe f) ds := by
  unfold EngineDone
  rw [State.engMe_modEngMe]
  exact ⟨⟨_, State.modEngMe_const s f⟩, hf _, hstate _, by rw [hwait, Engine.next_wait_mode], hreg _, hreach _,
    hfetch _, hgroup _, hcopy _⟩

theorem engineDone_engWrite (d : Nat) (f : Engine → Word) (s : State) : EngineDone s (engWrite d f s) [d] :=
  engineDone_modEngMe _ _ s (fun _ => rfl) (fun _ => rfl) (fun _ => rfl)
    (fun e n hn => Engine.reg_setReg_ne e.next _ (by simpa using hn)) (fun _ => rfl) (fun _ => rfl) (fun _ => rfl) (fun _ => rfl)

theorem reg_engWrite (d : Nat) (f : Engine → Word) (s : State) : (engWrite d f s).engMe.reg d = f s.engMe := by
  rw [engWrite, State.engMe_modEngMe, Engine.reg_setReg_self]

theorem engineDone_engNext (s : State) : EngineDone s (engNext s) [] :=
  engineDone_modEngMe _ _ s (fun _ => rfl) (fun _ => rfl) (fun _ => rfl) (fun _ _ _ => rfl) (fun _ => rfl) (fun _ => rfl)
    (fun _ => rfl) (fun _ => rfl)

/-! An instruction that waits. -/

/-- The engine of the running core waits with a record, its instruction the same. -/
def EngineWaits (s t : State) (reason target : Nat) : Prop :=
  t.engMe.state = .blocked ∧ t.engMe.wait.mode = 1 ∧ t.engMe.wait.reason = reason ∧ t.engMe.wait.targets = [target] ∧
  t.engMe.epc = s.engMe.epc ∧ ∀ n, semOf t n = semOf s n

theorem WaitRec.same_iff (r : WaitRec) (mode reason : Nat) (l : List Nat) :
    r.same mode reason l = true ↔ r.mode = mode ∧ r.reason = reason ∧ r.targets = l := by
  simp [WaitRec.same, and_assoc]

/-- A wait is entered once: a record of the same wait stays. -/
theorem waitRec_entered (r : WaitRec) (reason target : Nat) :
    let x := if r.same 1 reason [target] then r else WaitRec.mk' r.gen 1 reason false [target]
    x.mode = 1 ∧ x.reason = reason ∧ x.targets = [target] := by
  extract_lets x
  by_cases hsame : r.same 1 reason [target] = true
  · rw [show x = r from if_pos hsame]
    exact (r.same_iff _ _ _).1 hsame
  · rw [show x = WaitRec.mk' r.gen 1 reason false [target] from if_neg hsame]
    exact ⟨rfl, rfl, rfl⟩

theorem engWait_waits (reason target : Nat) (f : Engine → Engine) (s : State) (hstate : ∀ e, (f e).state = e.state)
    (hwait : ∀ e, (f e).wait = e.wait) (hepc : ∀ e, (f e).epc = e.epc) :
    EngineWaits s ((engWait reason target s).modEngMe f) reason target := by
  have heng : ((engWait reason target s).modEngMe f).engMe = f (engWait reason target s).engMe := State.engMe_modEngMe _ f
  have hbase : (engWait reason target s).engMe = _ := State.eng_modEng_self s s.curCore _
  unfold EngineWaits
  rw [heng, hstate, hwait, hepc, hbase]
  obtain ⟨hmode, hreason, htarget⟩ := waitRec_entered s.engMe.wait reason target
  exact ⟨rfl, hmode, hreason, htarget, rfl,
    fun n => (semOf_modEngMe (engWait reason target s) f n).trans (semOf_modEngMe s _ n)⟩

theorem engWaitFor_waits (reason target n : Nat) (s : State) : EngineWaits s (engWaitFor reason target n s) reason target :=
  engWait_waits reason target _ s (fun _ => rfl) (fun _ => rfl) (fun _ => rfl)

/-! Scalar results (R68 to R70). -/

theorem exec_engineResults {p : (Nat → Nat → Nat → Instr) × ((Nat → Word) → Nat → Nat → Word)} (hp : p ∈ engineResults)
    (d a b : Nat) (s : State) : exec (p.1 d a b) s = .next (engWrite d (fun e => p.2 e.reg a b) s) := by
  simp only [engineResults, List.mem_cons, List.not_mem_nil, or_false] at hp
  rcases hp with rfl | rfl | rfl | rfl | rfl <;> rfl

/-- ELI gives halfword `hw` of the register and clears or keeps the other bits. -/
theorem getLsbD_eliWord (old : Word) {imm hw : Nat} (k : Bool) (himm : imm < 2 ^ 16) {i : Nat} (hi : i < 64) :
    (eliWord old imm hw k).getLsbD i =
      if 16 * hw ≤ i ∧ i < 16 * hw + 16 then imm.testBit (i - 16 * hw) else (k && old.getLsbD i) := by
  have hnew : (BitVec.ofNat 64 (imm * 2 ^ (16 * hw))).getLsbD i = (decide (16 * hw ≤ i) && imm.testBit (i - 16 * hw)) := by
    rw [BitVec.getLsbD_ofNat, Nat.testBit_mul_two_pow, decide_eq_true hi, Bool.true_and]
  have hmask : (BitVec.ofNat 64 (0xFFFF * 2 ^ (16 * hw))).getLsbD i = decide (16 * hw ≤ i ∧ i < 16 * hw + 16) := by
    rw [BitVec.getLsbD_ofNat, Nat.testBit_mul_two_pow, show (0xFFFF : Nat) = 2 ^ 16 - 1 from rfl, Nat.testBit_two_pow_sub_one,
      decide_eq_true hi, Bool.true_and, ← Bool.decide_and]
    exact decide_eq_decide.2 (by omega)
  have hover : 16 * hw + 16 ≤ i → imm.testBit (i - 16 * hw) = false := fun h =>
    Nat.testBit_lt_two_pow (lt_of_lt_of_le himm (Nat.pow_le_pow_right (by decide) (by omega)))
  have hword : (eliWord old imm hw k).getLsbD i = ((k && (old.getLsbD i && !decide (16 * hw ≤ i ∧ i < 16 * hw + 16))) ||
      (decide (16 * hw ≤ i) && imm.testBit (i - 16 * hw))) := by
    rw [← hmask, ← hnew]
    cases k <;> simp [eliWord, hi]
  rw [hword]
  by_cases hin : 16 * hw ≤ i ∧ i < 16 * hw + 16
  · simp [hin]
  · have hout : (decide (16 * hw ≤ i) && imm.testBit (i - 16 * hw)) = false := by
      by_cases hle : 16 * hw ≤ i
      · rw [hover (by omega), Bool.and_false]
      · simp [hle]
    rw [if_neg hin, hout, decide_eq_false hin]
    simp

theorem eli_writes (d imm hw : Nat) (k : Bool) (s : State) (himm : imm < 2 ^ 16) (_ : hw < 4) :
    ∃ t, exec (.eli d imm hw k) s = .next t ∧ EngineDone s t [d] ∧ ∀ i, i < 64 → (t.engMe.reg d).getLsbD i =
      if 16 * hw ≤ i ∧ i < 16 * hw + 16 then imm.testBit (i - 16 * hw) else (k && (s.engMe.reg d).getLsbD i) :=
  ⟨_, rfl, engineDone_engWrite d _ s, fun i hi => by rw [reg_engWrite, getLsbD_eliWord _ _ himm hi]⟩

/-- EPC moves by a number of words, modulo 2^52. -/
theorem Engine.jump_epc (e : Engine) (off : Int) : ((e.jump off).epc : Int) = ((e.epc : Int) + 4 * off) % 2 ^ 52 := by
  have h : ((e.jump off).epc : Int) = ((((e.epc : Int) + off * 4) % 2 ^ 52).toNat : Int) := rfl
  rw [h, Int.toNat_of_nonneg (Int.emod_nonneg _ (by norm_num)), mul_comm]

theorem Engine.next_epc (e : Engine) : (e.next.epc : Int) = ((e.epc : Int) + 4) % 2 ^ 52 := by
  have h : e.next.epc = (e.epc + 4) % 2 ^ 52 := rfl
  omega

theorem ebTaken_eq {cond : Nat} (h : cond < 3) (a b : Word) :
    ebTaken cond a b = if cond = 0 then a == 0 else if cond = 1 then a != 0 else a.slt b := by
  match cond, h with
  | 0, _ => rfl
  | 1, _ => rfl
  | 2, _ => rfl

theorem eb_moves (cond a b : Nat) (off : Int) (s : State) (h : cond < 3) :
    ∃ t, exec (.eb cond a b off) s = .next t ∧ (∃ e, t = s.modEngMe fun _ => e) ∧ (∀ n, t.engMe.reg n = s.engMe.reg n) ∧
      (t.engMe.epc : Int) = ((s.engMe.epc : Int) + (if (if cond = 0 then s.engMe.reg a == 0
        else if cond = 1 then s.engMe.reg a != 0 else (s.engMe.reg a).slt (s.engMe.reg b)) then 4 * off else 4)) % 2 ^ 52 := by
  refine ⟨_, rfl, ⟨_, State.modEngMe_const s _⟩, ?_⟩
  rw [State.engMe_modEngMe, ← ebTaken_eq h]
  by_cases htaken : ebTaken cond (s.engMe.reg a) (s.engMe.reg b) = true
  · rw [if_pos htaken, if_pos htaken]
    exact ⟨fun _ => rfl, Engine.jump_epc _ _⟩
  · rw [if_neg htaken, if_neg htaken]
    exact ⟨fun _ => rfl, Engine.next_epc _⟩

theorem ej_moves (off : Int) (s : State) :
    ∃ t, exec (.ej off) s = .next t ∧ (∃ e, t = s.modEngMe fun _ => e) ∧ (∀ n, t.engMe.reg n = s.engMe.reg n) ∧
      (t.engMe.epc : Int) = ((s.engMe.epc : Int) + 4 * off) % 2 ^ 52 := by
  refine ⟨_, rfl, ⟨_, State.modEngMe_const s _⟩, ?_⟩
  rw [State.engMe_modEngMe]
  exact ⟨fun _ => rfl, Engine.jump_epc _ _⟩

/-! Queues (R71). -/

theorem isQueue_of_lt {q : Nat} (h : q < 8) : isQueue (16 + q) = true := by
  simp [isQueue]
  omega

theorem Core.queue_popWord {q : Nat} (h : q < 8) (x : Core) : (x.popWord (16 + q)).queue q = (x.queue q).tail := by
  unfold Core.popWord
  rw [if_pos (isQueue_of_lt h), Nat.add_sub_cancel_left]
  exact SMap.get_put_self _ _ _ _

theorem Core.engine_popWord (x : Core) (f : Nat) : (x.popWord f).engine = x.engine := by
  unfold Core.popWord
  dsimp only
  split <;> rfl

theorem Core.queue_setQueue (x : Core) (q : Nat) (l : List Word) : (x.setQueue q l).queue q = l := SMap.get_put_self _ _ _ _

theorem eldQ_pops {d q : Nat} {v : Word} {l : List Word} (hq : q < 8) (hword : (s.core s.curCore).queue q = v :: l)
    (hgood : (s.core s.curCore).badWord (16 + q) 1 = false) :
    ∃ t, exec (.eldQ d q) s = .next t ∧ t.engMe.reg d = v ∧ (t.core s.curCore).queue q = l ∧
      t.engMe.epc = (s.engMe.epc + 4) % 2 ^ 52 ∧ t.mem = s.mem := by
  let u := s.modCore s.curCore fun x => x.popWord (16 + q)
  have hrun : exec (.eldQ d q) s = .next (engWrite d (fun _ => v) u) := by
    show execEldQ d q s = _
    unfold execEldQ
    rw [hword]
    simp [hgood, u]
  have heng : u.engMe = s.engMe := (s.eng_modCore_self s.curCore _).trans (Core.engine_popWord _ _)
  refine ⟨_, hrun, reg_engWrite d _ u, ?_, ?_, rfl⟩
  · have hcore : (engWrite d (fun _ => v) u).core s.curCore = _ := State.core_modEngMe u _
    rw [hcore]
    show (u.core s.curCore).queue q = l
    rw [State.core_modCore_self, Core.queue_popWord hq, hword, List.tail_cons]
  · obtain ⟨-, hepc, -⟩ := engineDone_engWrite d (fun _ => v) u
    rw [hepc, heng]

theorem eldQ_waits {d q : Nat} (h : (s.core s.curCore).queue q = []) :
    ∃ t, exec (.eldQ d q) s = .next t ∧ EngineWaits s t 0x01 (anyParty s.curCore) := by
  refine ⟨_, ?_, engWaitFor_waits 0x01 (anyParty s.curCore) q s⟩
  show execEldQ d q s = _
  unfold execEldQ
  rw [h]

theorem estQ_pushes {d q : Nat} (h : (s.core s.curCore).load q < 8) :
    ∃ t, exec (.estQ d q) s = .next t ∧ t.engMe.epc = (s.engMe.epc + 4) % 2 ^ 52 ∧
      (t.core s.curCore).queue q = (s.core s.curCore).queue q ++ [s.engMe.reg d] ∧ t.mem = s.mem := by
  let u := s.modCore s.curCore fun x => x.setQueue q (x.queue q ++ [s.engMe.reg d])
  have heng : u.engMe = s.engMe := s.eng_modCore_self s.curCore _
  refine ⟨engNext u, if_neg (Nat.not_le.2 h), ?_, ?_, rfl⟩
  · obtain ⟨-, hepc, -⟩ := engineDone_engNext u
    rw [hepc, heng]
  · have hcore : (engNext u).core s.curCore = _ := State.core_modEngMe u _
    rw [hcore]
    show (u.core s.curCore).queue q = _
    rw [State.core_modCore_self, Core.queue_setQueue]

theorem estQ_waits {d q : Nat} (h : 8 ≤ (s.core s.curCore).load q) :
    ∃ t, exec (.estQ d q) s = .next t ∧ EngineWaits s t 0x02 (anyParty s.curCore) :=
  ⟨_, if_pos h, engWaitFor_waits _ _ _ _⟩

/-! Semaphores and counters (R72, R73). -/

theorem Steady.engMe_field {α : Type} (h : Steady s t) (f : Engine → α) (hf : ∀ e, f e.still = f e) : f t.engMe = f s.engMe := by
  rw [State.engMe, h.curCore]
  exact h.engField f hf _

theorem Steady.engMe_epc (h : Steady s t) : t.engMe.epc = s.engMe.epc := h.engMe_field Engine.epc fun _ => rfl

theorem Steady.semOf (h : Steady s t) (n : Nat) : Machine.semOf t n = Machine.semOf s n := by
  unfold Machine.semOf
  rw [h.curCore, h.coreField (fun x => SMap.get 0 x.sem n) (fun _ => rfl)]

theorem engNext_setSem (n v : Nat) (s : State) :
    semOf (engNext (setSem n v s)) n = v ∧ (engNext (setSem n v s)).engMe.epc = (s.engMe.epc + 4) % 2 ^ 52 := by
  obtain ⟨-, hepc, -⟩ := engineDone_engNext (setSem n v s)
  exact ⟨by rw [engNext, semOf_modEngMe, semOf_setSem], by rw [hepc, engMe_setSem]⟩

theorem semwEngine_results (n : Nat) (s : State) :
    (semOf s n ≠ 0 → ∃ t, exec (.semwEngine n) s = .next t ∧ semOf t n = semOf s n - 1 ∧
      t.engMe.epc = (s.engMe.epc + 4) % 2 ^ 52) ∧
    (semOf s n = 0 → ∃ t, exec (.semwEngine n) s = .next t ∧ EngineWaits s t 0x0B (anyParty s.curCore)) :=
  ⟨fun h => ⟨_, if_neg h, engNext_setSem _ _ s⟩, fun h => ⟨_, if_pos h, engWaitFor_waits _ _ _ s⟩⟩

/-- SEMS completes once every earlier write of the engine is performed and acknowledged. -/
theorem semsEngine_counts {n : Nat} (h : semOf s n < 65535)
    (hacked : hostWritesOf (drainEngine s) (engineParty s.curCore) = false) :
    ∃ t, exec (.semsEngine n) s = .next t ∧ semOf t n = semOf s n + 1 ∧ t.engMe.epc = (s.engMe.epc + 4) % 2 ^ 52 := by
  have hdrain := steady_drainEngine s
  have hwrites : engineWrites (drainEngine s) (drainEngine s).curCore = false := by rw [engineWrites, hdrain.curCore, hacked]
  obtain ⟨hsem, hepc⟩ := engNext_setSem n (semOf s n + 1) (drainEngine s)
  exact ⟨_, (if_neg (Nat.not_le.2 h)).trans (if_neg (by simp [hwrites])), hsem, by rw [hepc, hdrain.engMe_epc]⟩

/-- A waiting record seen from the state before an access. -/
theorem EngineWaits.of_steady {u : State} {reason target : Nat} (h : Steady s t) (hw : EngineWaits t u reason target) :
    EngineWaits s u reason target := by
  obtain ⟨hstate, hmode, hreason, htarget, hepc, hsem⟩ := hw
  exact ⟨hstate, hmode, hreason, htarget, hepc.trans h.engMe_epc, fun n => (hsem n).trans (h.semOf n)⟩

theorem semsEngine_waits {n : Nat}
    (h : 65535 ≤ semOf s n ∨ hostWritesOf (drainEngine s) (engineParty s.curCore) = true) :
    ∃ t, exec (.semsEngine n) s = .next t ∧ EngineWaits s t 0x0B (anyParty s.curCore) := by
  have hdrain := steady_drainEngine s
  by_cases hfull : 65535 ≤ semOf s n
  · exact ⟨_, if_pos hfull, engWaitFor_waits _ _ _ s⟩
  have hwrites : engineWrites (drainEngine s) (drainEngine s).curCore = true := by
    rw [engineWrites, hdrain.curCore, h.resolve_left hfull]
  exact ⟨_, (if_neg hfull).trans (if_pos hwrites),
    .of_steady hdrain (engWaitFor_waits 0x0B (anyParty s.curCore) (24 + n) _)⟩

theorem ewait_results (n a : Nat) (s : State) :
    ((s.engMe.reg a).toNat ≤ SMap.get 0 (s.core s.curCore).cnt n → ∃ t, exec (.ewait n a) s = .next t ∧ EngineDone s t []) ∧
    (SMap.get 0 (s.core s.curCore).cnt n < (s.engMe.reg a).toNat →
      ∃ t, exec (.ewait n a) s = .next t ∧ EngineWaits s t 0x05 (serviceParty s.curCore)) :=
  ⟨fun h => ⟨_, if_pos h, engineDone_engNext s⟩, fun h => ⟨_, if_neg (Nat.not_le.2 h),
    engWait_waits 0x05 (serviceParty s.curCore) _ s (fun _ => rfl) (fun _ => rfl) (fun _ => rfl)⟩⟩

theorem scout_sets (n : Nat) (s : State) :
    ∃ t, exec (.scout n) s = .next t ∧ EngineDone s t [] ∧ t.engMe.scout = n :=
  ⟨_, rfl, engineDone_modEngMe _ _ s (fun _ => rfl) (fun _ => rfl) (fun _ => rfl) (fun _ _ _ => rfl) (fun _ => rfl) (fun _ => rfl)
    (fun _ => rfl) (fun _ => rfl), by rw [State.engMe_modEngMe]⟩

end Sys2Proof.Machine

open Sys2Proof Sys2Proof.Machine in
/-- Settles O36, instruction by instruction. -/
theorem engineScalars : Obligations.EngineScalars := by
  unfold Obligations.EngineScalars
  refine ⟨fun p hp d a b s => ⟨_, exec_engineResults hp d a b s, engineDone_engWrite d _ s, reg_engWrite d _ s⟩,
    fun d a imm s => ⟨_, rfl, engineDone_engWrite d _ s, reg_engWrite d _ s⟩, eli_writes, eb_moves, ej_moves,
    fun d q s hq => ?queues, fun n s => ?semaphores, fun n a s => ?counters, scout_sets⟩
  case queues =>
    refine ⟨fun v l hword hgood => eldQ_pops hq hword hgood, fun hempty => ?_, estQ_pushes, fun hfull => ?_⟩
    · obtain ⟨t, hrun, hstate, hmode, hreason, htarget, hepc, -⟩ := eldQ_waits (d := d) hempty
      exact ⟨t, hrun, hstate, hmode, hreason, htarget, hepc⟩
    · obtain ⟨t, hrun, hstate, hmode, hreason, htarget, hepc, -⟩ := estQ_waits (d := d) hfull
      exact ⟨t, hrun, hstate, hmode, hreason, htarget, hepc⟩
  case semaphores =>
    obtain ⟨hcount, hwait⟩ := semwEngine_results n s
    refine ⟨hcount, fun hzero => ?_, semsEngine_counts, fun hpending => ?_, fun hfull => ?_⟩
    · obtain ⟨t, hrun, -, -, hreason, -, hepc, hsem⟩ := hwait hzero
      exact ⟨t, hrun, hreason, hepc, (hsem n).trans hzero⟩
    · obtain ⟨t, hrun, hstate, hmode, hreason, htarget, hepc, hsem⟩ := semsEngine_waits (n := n) (.inr hpending)
      exact ⟨t, hrun, hstate, hmode, hreason, htarget, hepc, hsem n⟩
    · obtain ⟨t, hrun, -, -, hreason, -, hepc, hsem⟩ := semsEngine_waits (.inl hfull)
      exact ⟨t, hrun, hreason, hepc, hsem n⟩
  case counters =>
    obtain ⟨hreached, hwait⟩ := ewait_results n a s
    refine ⟨hreached, fun hbelow => ?_⟩
    obtain ⟨t, hrun, -, -, hreason, htarget, hepc, -⟩ := hwait hbelow
    exact ⟨t, hrun, hreason, htarget, hepc⟩
end

section
/-! SUPPORT. Loads, stores, fences, groups and the end of a stream, and the core's side of a copy engine (R63 to R65, R71, R74, R80
to R82, R86, R318). -/

namespace Sys2Proof.Machine

open Host (Outcome)

variable {s t u v : State}

/-! The reach of an engine (R65, R81). -/

theorem Reg.testBit_perms (r : Reg) {i : Nat} (h : i < 8) : r.perms.testBit i = r.nat.testBit (120 + i) := by
  rw [Reg.perms, bits, Nat.testBit_mod_two_pow, decide_eq_true h, Bool.true_and, Nat.testBit_div_two_pow, Nat.add_comm]

/-- A capability gives a permission where its bit is set. -/
theorem Reg.perms_and (r : Reg) {i : Nat} (h : i < 8) : r.perms &&& 2 ^ i = (r.nat.testBit (120 + i)).toNat * 2 ^ i := by
  rw [Nat.and_two_pow, r.testBit_perms h]

theorem Reg.perms_read (r : Reg) (h : r.nat.testBit 120 = true) : r.perms &&& 1 = 1 := by
  simpa [h] using r.perms_and (i := 0) (by decide)

theorem Reg.perms_write (r : Reg) : r.perms &&& 2 = if r.nat.testBit 121 then 2 else 0 := by
  have h := r.perms_and (i := 1) (by decide)
  cases hbit : r.nat.testBit 121 <;> simpa [hbit] using h

theorem reachCheck_none {r : Reg} {a n need : Nat} (htag : r.tag = true) (ha : a < 2 ^ 52) (hbase : r.base ≤ a)
    (htop : a + n ≤ r.top) (hneed : r.perms &&& need = need) : reachCheck r a n need = none := by
  have hin : (!r.tag || decide (2 ^ 52 ≤ a) || decide (a < r.base) || decide (r.top < a + n)) = false := by
    simpa [htag, hbase, htop] using ha
  unfold reachCheck
  rw [hin, hneed]
  simp

theorem reachCheck_permission {r : Reg} {a n need : Nat} (htag : r.tag = true) (ha : a < 2 ^ 52) (hbase : r.base ≤ a)
    (htop : a + n ≤ r.top) (hneed : r.perms &&& need ≠ need) : reachCheck r a n need = some 0x05 := by
  have hin : (!r.tag || decide (2 ^ 52 ≤ a) || decide (a < r.base) || decide (r.top < a + n)) = false := by
    simpa [htag, hbase, htop] using ha
  unfold reachCheck
  rw [hin, if_neg (by decide), if_pos hneed]

theorem reachCheck_bounds {r : Reg} {a n : Nat} (need : Nat)
    (h : r.tag = false ∨ 2 ^ 52 ≤ a ∨ a < r.base ∨ r.top < a + n) : reachCheck r a n need = some 0x04 := by
  have hout : (!r.tag || decide (2 ^ 52 ≤ a) || decide (a < r.base) || decide (r.top < a + n)) = true := by
    simpa [or_assoc] using h
  unfold reachCheck
  rw [if_pos hout]

/-! ELD and EST (R71, R81). -/

theorem eldCheck_none {a n need : Nat} (hreach : reachCheck s.engMe.reach a n need = none)
    (hwindow : badWindow (whoEngine s s.curCore) a n s = false) (halign : a % n = 0) : eldCheck s a n need = none := by
  simp [eldCheck, hreach, hwindow, halign]

theorem eldCheck_bounds {a n need : Nat} (hreach : reachCheck s.engMe.reach a n need = some 0x04) :
    eldCheck s a n need = some 0x04 := by
  simp [eldCheck, hreach]

theorem eldCheck_permission {a n need : Nat} (hreach : reachCheck s.engMe.reach a n need = some 0x05)
    (hwindow : badWindow (whoEngine s s.curCore) a n s = false) : eldCheck s a n need = some 0x05 := by
  simp [eldCheck, hreach, hwindow]

/-- An access that goes through names no bank it may not. -/
theorem engineAccess_window {w : Who} {a n need : Nat} {b : Nat} (h : engineAccess w a n need s = .ok b t) :
    badWindow w a n s = false := by
  unfold engineAccess at h
  split at h
  · cases h
  · rename_i hgood
    exact Bool.eq_false_iff.2 hgood

theorem Res.bind_ok {α β : Type} {r : Res α} {f : α → State → Res β} {b : β} (h : r.bind f = .ok b t) :
    ∃ a u, r = .ok a u ∧ f a u = .ok b t := by
  cases r with
  | ok a u => exact ⟨a, u, rfl, h⟩
  | stall u => cases h
  | exc e u => cases h

theorem engineLoad_window {w : Who} {a n : Nat} {x : Loaded} (h : engineLoad w a n s = .ok x t) :
    badWindow w a n s = false := by
  obtain ⟨_, _, haccess, -⟩ := Res.bind_ok h
  exact engineAccess_window haccess

theorem engineStore_window {w : Who} {a scope : Nat} {data : List Byte} (h : engineStore w a scope data s = .ok () t) :
    badWindow w a data.length s = false := by
  obtain ⟨_, _, haccess, -⟩ := Res.bind_ok h
  exact engineAccess_window haccess

theorem exec_eld_ok {d a f : Nat} {imm : Int} {x : Loaded} (hcheck : eldCheck s (engAddr s.engMe a imm) (2 ^ f) 1 = none)
    (hload : engineLoad (whoEngine s s.curCore) (engAddr s.engMe a imm) (2 ^ f) s = .ok x t) (hclean : x.poison = none) :
    exec (.eld d a f imm) s = .next (t.modEngMe fun e => e.next.setReg d (BitVec.ofNat 64 (leNat x.bytes))) := by
  show execEld d a f imm s = _
  simp only [execEld, hcheck, hload, hclean]
  rfl

theorem exec_eld_stops {d a f cause : Nat} {imm : Int} (hcheck : eldCheck s (engAddr s.engMe a imm) (2 ^ f) 1 = some cause) :
    exec (.eld d a f imm) s = .next (engineFault s.curCore cause (engAddr s.engMe a imm) false s) := by
  show execEld d a f imm s = _
  simp only [execEld, hcheck]

theorem exec_est_ok {d a f : Nat} {imm : Int} (hcheck : eldCheck s (engAddr s.engMe a imm) (2 ^ f) 2 = none)
    (hstore : engineStore (whoEngine s s.curCore) (engAddr s.engMe a imm) 0 (leBytes (2 ^ f) (s.engMe.reg d).toNat) s = .ok () t) :
    exec (.est d a f imm) s = .next (engNext t) := by
  show execEst d a f imm s = _
  simp only [execEst, hcheck, hstore]

theorem exec_est_stops {d a f cause : Nat} {imm : Int} (hcheck : eldCheck s (engAddr s.engMe a imm) (2 ^ f) 2 = some cause) :
    exec (.est d a f imm) s = .next (engineFault s.curCore cause (engAddr s.engMe a imm) true s) := by
  show execEst d a f imm s = _
  simp only [execEst, hcheck]

/-- An instruction stops its engine at once where its record is posted. -/
theorem engineStop_posted {c cause va total word : Nat} {write : Bool}
    (h : engineRecord c cause va write total 0 [] s = some (word, t)) :
    engineStop c cause va write total s = engineFaulted c word t := by
  simp [engineStop, h]

/-! EFENCE and EDONE (R64, R74). -/

theorem exec_efence {x : Nat} (h : x ≠ 4 ∨ hostWritesOf (drainScope s.curCore 16 (x + 1) s) (engineParty s.curCore) = false) :
    exec (.efence x) s = .next (engNext (drainScope s.curCore 16 (x + 1) s)) := by
  refine if_neg ?_
  rintro ⟨rfl, hwrites⟩
  rw [engineWrites, (steady_drainScope _ _ _ s).curCore] at hwrites
  simp [hwrites] at h

/-- The stream ends, or goes on waiting for the acknowledgement of its mailbox store. -/
theorem endStream_eq (s : State) {c : Nat} (hc : s.curCore = c) : endStream s =
    if hostWritesOf s (engineParty c) = true then s.modEngMe fun e => { e with replies := [⟨e.mailbox, [], [], false, 0⟩] }
    else s.modEngMe fun e => { e.next with group := none, state := .idle } := by
  subst hc
  rfl

theorem exec_edone {a : Nat} (hfresh : mailboxWritten s = false) (hcheck : eldCheck s s.engMe.mailbox 8 2 = none)
    (hacked : hostWritesOf (drainEngine s) (engineParty s.curCore) = false)
    (hstore : engineStore (whoEngine (drainEngine s) (drainEngine s).curCore) s.engMe.mailbox 5
      (leBytes 8 (s.engMe.reg a).toNat) (drainEngine s) = .ok () t) :
    exec (.edone a) s = .next (endStream (drainEngine t)) := by
  have hwrites : engineWrites (drainEngine s) (drainEngine s).curCore = false := by
    rw [engineWrites, (steady_drainEngine s).curCore, hacked]
  show execEdone a s = _
  simp only [execEdone, hfresh, hcheck, hwrites, hstore]
  simp

theorem exec_edone_written {a : Nat} (h : mailboxWritten s = true) : exec (.edone a) s = .next (endStream s) :=
  if_pos h

/-! Barrier groups (R80). -/

theorem exec_barbBind {a : Nat} (hrange : (s.engMe.reg a).toNat < 1024) (hbound : boundGroup s (s.engMe.reg a).toNat = true) :
    exec (.barbBind a) s = .next (s.modEngMe fun e => { e.next with group := some (s.engMe.reg a).toNat }) :=
  (if_neg (Nat.not_le.2 hrange)).trans (if_neg (by simp [hbound]))

theorem exec_barbAdd {a b : Nat} (hrange : (s.engMe.reg a).toNat < 1024) (hbound : boundGroup s (s.engMe.reg a).toNat = true)
    (hacked : hostWritesOf (drainEngine s) (engineParty s.curCore) = false)
    (harrive : arriveBytes (s.engMe.reg a).toNat s.engMe.tenant ((s.engMe.reg b).toNat % 2 ^ 32) (drainEngine s) = some t) :
    exec (.barbAdd a b) s = .next (engNext t) := by
  have hwrites : engineWrites (drainEngine s) (drainEngine s).curCore = false := by
    rw [engineWrites, (steady_drainEngine s).curCore, hacked]
  refine (if_neg (Nat.not_le.2 hrange)).trans ((if_neg (by simp [hbound])).trans ((if_neg (by simp [hwrites])).trans ?_))
  rw [harrive]

/-! The context that runs, as an access and the operands of an instruction leave it. -/

/-- The running core and slot with the program counter, domain, tenant and composition of the context. -/
def context (s : State) : Nat × Nat × Reg × Nat × Nat × Bool × Option Comp :=
  (s.curCore, s.curSlot, s.me.pcc, s.me.domain, s.me.tenant, s.me.composed, (s.core s.curCore).comp)

theorem context_modCore (c : Nat) (f : Core → Core) (s : State) (hslots : ∀ x, (f x).slots = x.slots := by intro; rfl)
    (hcomp : ∀ x, (f x).comp = x.comp := by intro; rfl) : context (s.modCore c f) = context s := by
  have hme : (s.modCore c f).me = s.me := slot_modCore_of_slots c s.curCore s.curSlot f s hslots
  have hc : ((s.modCore c f).core s.curCore).comp = (s.core s.curCore).comp := by
    by_cases h : s.curCore = c
    · rw [h, State.core_modCore_self, hcomp]
    · rw [State.core_modCore_ne _ _ _ _ h]
  unfold context
  rw [hme]
  exact congrArg (fun x => (s.curCore, s.curSlot, s.me.pcc, s.me.domain, s.me.tenant, s.me.composed, x)) hc

theorem context_modSlot (c k : Nat) (f : Slot → Slot) (s : State)
    (hf : ∀ y, ((f y).pcc, (f y).domain, (f y).tenant, (f y).composed) = (y.pcc, y.domain, y.tenant, y.composed) := by
      intro; rfl) : context (s.modSlot c k f) = context s := by
  have hcomp : ((s.modSlot c k f).core s.curCore).comp = (s.core s.curCore).comp := by
    by_cases h : s.curCore = c
    · subst h
      show ((s.setSlot s.curCore k (f (s.slot s.curCore k))).core s.curCore).comp = _
      rw [State.core_setSlot_self]
      rfl
    · exact congrArg Core.comp (State.core_setSlot_ne s c k s.curCore (f (s.slot c k)) h)
  have hme : ((s.modSlot c k f).me.pcc, (s.modSlot c k f).me.domain, (s.modSlot c k f).me.tenant, (s.modSlot c k f).me.composed)
      = (s.me.pcc, s.me.domain, s.me.tenant, s.me.composed) := by
    by_cases h : s.curCore = c ∧ s.curSlot = k
    · obtain ⟨rfl, rfl⟩ := h
      rw [show (s.modSlot s.curCore s.curSlot f).me = f s.me from State.slot_modSlot_self s _ _ f, hf]
    · have hslot : (s.modSlot c k f).me = s.me := State.slot_setSlot_ne s c k s.curCore s.curSlot _ (by tauto)
      rw [hslot]
  obtain ⟨hpcc, hrest⟩ := Prod.mk.inj hme
  obtain ⟨hdomain, hrest⟩ := Prod.mk.inj hrest
  obtain ⟨htenant, hcomposed⟩ := Prod.mk.inj hrest
  unfold context
  rw [hpcc, hdomain, htenant, hcomposed]
  exact congrArg (fun x => (s.curCore, s.curSlot, s.me.pcc, s.me.domain, s.me.tenant, s.me.composed, x)) hcomp

theorem Steady.context (h : Steady s t) : Machine.context t = Machine.context s := by
  have hme {α : Type} (f : Slot → α) (hf : ∀ y, f y.still = f y) : f t.me = f s.me := by
    rw [State.me, h.curCore, h.curSlot]
    exact h.slotField f hf _ _
  unfold Machine.context
  rw [h.curCore, h.curSlot, hme Slot.pcc fun _ => rfl, hme Slot.domain fun _ => rfl, hme Slot.tenant fun _ => rfl,
    hme Slot.composed fun _ => rfl, h.coreField Core.comp fun _ => rfl]

theorem context_foldr_unread (c : Nat) (l : List (Nat × Word)) (s : State) :
    context (l.foldr (fun p s => s.modCore c fun y => y.unread p.1 p.2) s) = context s := by
  have hunread (x : Core) (f : Nat) (w : Word) : (x.unread f w).slots = x.slots ∧ (x.unread f w).comp = x.comp := by
    unfold Core.unread
    dsimp only
    split <;> exact ⟨rfl, rfl⟩
  induction l with
  | nil => rfl
  | cons p l ih =>
    exact (context_modCore c _ _ (fun x => (hunread x _ _).1) (fun x => (hunread x _ _).2)).trans ih

theorem context_giveBack (c k : Nat) (s : State) : context (giveBack c k s) = context s := by
  unfold giveBack
  split
  · rfl
  · exact (context_modSlot c k _ _).trans (context_foldr_unread c _ s)

theorem context_leaveBlocked (c k : Nat) (s : State) : context (leaveBlocked c k s) = context s := by
  unfold leaveBlocked
  split
  · rfl
  · exact context_modCore c _ s

theorem context_exposeMe (h : exposeMe s = .ok () t) : context t = context s := ((steady_exposeMe s).of_ok h).context

theorem context_readied (reads writes : List Nat) (s : State) : context (readied reads writes s) = context s := by
  have hback := context_giveBack s.curCore s.curSlot s
  unfold readied
  extract_lets u
  split
  · split
    · exact (context_leaveBlocked _ _ _).trans ((context_exposeMe ‹_›).trans hback)
    · exact hback
  · exact hback

theorem context_readField (f : Nat) (s : State) : context (readField f s).2 = context s := by
  have hpop (f : Nat) : context (s.modCore s.curCore fun x => x.popWord f) = context s := by
    have hkeep (x : Core) : (x.popWord f).slots = x.slots ∧ (x.popWord f).comp = x.comp := by
      unfold Core.popWord
      dsimp only
      split <;> exact ⟨rfl, rfl⟩
    exact context_modCore _ _ s (fun x => (hkeep x).1) (fun x => (hkeep x).2)
  unfold readField
  extract_lets c
  split
  · rfl
  split
  · exact hpop f
  split
  · exact hpop f
  split
  · split
    · exact context_modSlot s.curCore s.curSlot (fun y => { y with miPos := y.miPos + 1 }) s
    · rfl
  · rfl

theorem context_readFields (l : List Nat) (s : State) : context (readFields l s).2 = context s := by
  induction l generalizing s with
  | nil => rfl
  | cons f l ih => exact (ih _).trans (context_readField f s)

/-- Taking its sources leaves a context what and where it is. -/
theorem context_taken (reads writes : List Nat) (s : State) : context (taken reads writes s).2 = context s := by
  unfold taken
  split
  · rfl
  · exact (context_readFields reads _).trans (context_readied reads writes s)

/-- The party that a context is. -/
theorem partyAt_of_context (h : context t = context s) : t.partyAt t.curCore t.curSlot = s.partyAt s.curCore s.curSlot := by
  simp only [context, Prod.mk.injEq] at h
  obtain ⟨hcore, hslot, -, -, -, hcomposed, hcomp⟩ := h
  unfold State.partyAt
  rw [hcomp, show (t.slot t.curCore t.curSlot).composed = (s.slot s.curCore s.curSlot).composed from hcomposed, hcore, hslot]

/-! An instruction of a slot that completes. -/

theorem Reg.nat_withCursor (r : Reg) (a : Nat) : (r.withCursor a).nat = r.nat / 2 ^ 52 * 2 ^ 52 + a % 2 ^ 52 := by
  have hlt : r.nat < 2 ^ 128 := r.raw.isLt
  have hmod := BitVec.toNat_ofNat (r.nat / 2 ^ 52 * 2 ^ 52 + a % 2 ^ 52) 128
  rw [Reg.nat, Reg.withCursor, hmod]
  exact Nat.mod_eq_of_lt (by omega)

theorem Reg.tag_setRaw (r : Reg) (x : BitVec 128) : ({ r with raw := x } : Reg).tag = r.tag := rfl

theorem Reg.tag_withCursor (r : Reg) (a : Nat) : (r.withCursor a).tag = r.tag := r.tag_setRaw _

theorem Reg.withCursor_moved (r : Reg) (a : Nat) : Moved r (r.withCursor a) a := by
  have hlow : (r.withCursor a).nat % 2 ^ 52 = a % 2 ^ 52 := by
    rw [Reg.nat_withCursor, Nat.mul_add_mod_self_right, Nat.mod_mod]
  have hhigh : (r.withCursor a).nat / 2 ^ 52 = r.nat / 2 ^ 52 := by
    rw [Reg.nat_withCursor]
    omega
  refine ⟨?_, hhigh, r.tag_withCursor a⟩
  exact_mod_cast hlow

theorem Slot.complete_pcc (y : Slot) (clock n : Nat) : (y.complete clock n).pcc = y.pcc.withCursor (y.pc + n) := by
  have hleave : (y.leaveWait clock).pcc = y.pcc := by
    unfold Slot.leaveWait
    split <;> rfl
  have hstep (g : Nat) (z : Slot) : (Slot.endStep g z).pcc = z.pcc := by
    unfold Slot.endStep
    split <;> rfl
  unfold Slot.complete Slot.pc
  rw [hstep, ← hleave]
  rfl

theorem complete_moved (n : Nat) (s : State) : Moved s.me.pcc (complete n s).me.pcc (s.me.pc + n : Nat) := by
  have hme : (complete n s).me = s.me.complete s.clock n := State.me_modMe s _
  rw [hme, Slot.complete_pcc]
  exact Reg.withCursor_moved _ _

/-- The current instruction of a context completes: the program counter advances from where the context was. -/
theorem complete_moved_of_context (n : Nat) (h : context t = context s) :
    Moved s.me.pcc (complete n t).me.pcc ((s.me.pc : Int) + n) := by
  have hpcc : t.me.pcc = s.me.pcc := congrArg (fun x => x.2.2.1) h
  have hmoved := complete_moved n t
  rw [show t.me.pc = s.me.pc from congrArg Reg.cursor hpcc, hpcc] at hmoved
  exact_mod_cast hmoved

theorem State.core_modMe (f : Slot → Slot) (s : State) :
    (s.modMe f).core s.curCore = (s.core s.curCore).setSlot s.curSlot (f s.me) :=
  State.core_setSlot_self s s.curCore s.curSlot (f s.me)

theorem engMe_modMe (f : Slot → Slot) (s : State) : (s.modMe f).engMe = s.engMe := by
  show ((s.modMe f).core s.curCore).engine = _
  rw [State.core_modMe]
  rfl

@[simp] theorem engMe_complete (n : Nat) (s : State) : (complete n s).engMe = s.engMe := engMe_modMe _ s

theorem semOf_modMe (f : Slot → Slot) (s : State) (n : Nat) : semOf (s.modMe f) n = semOf s n := by
  show SMap.get 0 ((s.modMe f).core s.curCore).sem n = _
  rw [State.core_modMe]
  rfl

@[simp] theorem semOf_complete (k : Nat) (s : State) (n : Nat) : semOf (complete k s) n = semOf s n := semOf_modMe _ s n

theorem context_modEngMe (f : Engine → Engine) (s : State) : context (s.modEngMe f) = context s := context_modCore _ _ s

theorem context_setSem (n x : Nat) (s : State) : context (setSem n x s) = context s := context_modCore _ _ s

/-! CEKICK (R63, R318). -/

/-- A kicked engine runs the entry's stream on behalf of the context that kicked it. -/
def Kicked (s t : State) (entry box reach : Reg) : Prop :=
  t.engMe.epc = entry.cursor ∧ t.engMe.fetchCap = entry ∧ t.engMe.reach = reach ∧ t.engMe.mailbox = box.cursor ∧
  t.engMe.state = .running ∧ t.engMe.domain = s.me.domain ∧ t.engMe.tenant = s.me.tenant ∧
  t.engMe.kicker = s.partyAt s.curCore s.curSlot ∧ t.engMe.copy = none ∧ t.engMe.group = none ∧ t.engMe.scout = 0 ∧
  ∀ n, t.engMe.reg n = if n = 1 then BitVec.ofNat 64 reach.cursor else 0

theorem kickEngine_kicked (entry box reach : Reg) (h : context t = context s) :
    Kicked s (complete 4 (kickEngine entry box reach t)) entry box reach := by
  have hparty := partyAt_of_context h
  simp only [context, Prod.mk.injEq] at h
  obtain ⟨-, -, -, hdomain, htenant, -, -⟩ := h
  have heng : (complete 4 (kickEngine entry box reach t)).engMe = _ :=
    (engMe_complete 4 _).trans (State.engMe_modEngMe t _)
  unfold Kicked
  rw [heng]
  exact ⟨rfl, rfl, rfl, rfl, rfl, hdomain, htenant, hparty, rfl, rfl, rfl, fun n => rfl⟩

theorem exec_cekick {a b g : Nat} (hsmall : isKeystone s.curCore = false) (hready : Ready [a, b, g] [] s)
    (hcheck : kickCheck (source [a, b, g] [] s 0) (source [a, b, g] [] s 1) (source [a, b, g] [] s 2) = none) :
    exec (.cekick a b g) s = if (taken [a, b, g] [] s).2.engMe.busy
      then .next (waitFor 1 0x0B false [engineParty (taken [a, b, g] [] s).2.curCore] (unpop s (taken [a, b, g] [] s).2))
      else .next (exposing [a, b, g] [] s (taken [a, b, g] [] s).2 fun u => complete 4
        (kickEngine (source [a, b, g] [] s 0) (source [a, b, g] [] s 1) (source [a, b, g] [] s 2) (drainMe u))) := by
  show execCekick a b g s = _
  unfold source at hcheck ⊢
  unfold execCekick
  rw [hsmall, issue_ready hready]
  simp only [hcheck]
  rfl

theorem exposing_ok {reads writes : List Nat} {f : State → State} (h : exposeMe t = .ok () u) :
    exposing reads writes s t f = f u := by
  simp [exposing, h]

theorem cekick_starts {a b g : Nat} (hsmall : isKeystone s.curCore = false) (hready : Ready [a, b, g] [] s)
    (hcheck : kickCheck (source [a, b, g] [] s 0) (source [a, b, g] [] s 1) (source [a, b, g] [] s 2) = none)
    (hidle : (taken [a, b, g] [] s).2.engMe.busy = false) (hexpose : exposeMe (taken [a, b, g] [] s).2 = .ok () v) :
    ∃ t, exec (.cekick a b g) s = .next t ∧ Moved s.me.pcc t.me.pcc (s.me.pc + 4) ∧
      Kicked s t (source [a, b, g] [] s 0) (source [a, b, g] [] s 1) (source [a, b, g] [] s 2) := by
  have hcontext : context (drainMe v) = context s :=
    (steady_drainMe v).context.trans ((context_exposeMe hexpose).trans (context_taken _ _ s))
  refine ⟨_, (exec_cekick hsmall hready hcheck).trans ((if_neg (by simp [hidle])).trans
    (congrArg Outcome.next (exposing_ok hexpose))), ?_, kickEngine_kicked _ _ _ hcontext⟩
  exact complete_moved_of_context 4 ((context_modEngMe _ _).trans hcontext)

theorem cekick_waits {a b g : Nat} (hsmall : isKeystone s.curCore = false) (hready : Ready [a, b, g] [] s)
    (hcheck : kickCheck (source [a, b, g] [] s 0) (source [a, b, g] [] s 1) (source [a, b, g] [] s 2) = none)
    (hbusy : (taken [a, b, g] [] s).2.engMe.busy = true) :
    exec (.cekick a b g) s = .next (waitFor 1 0x0B false [engineParty (taken [a, b, g] [] s).2.curCore]
      (unpop s (taken [a, b, g] [] s).2)) :=
  (exec_cekick hsmall hready hcheck).trans (if_pos hbusy)

/-! CEKICK.r (R86). -/

theorem steady_progressWrite (c : Nat) (x : Copy) (status done va : Nat) (marked : List Nat) (s : State) :
    Steady s (progressWrite c x status done va marked s) := by
  unfold progressWrite
  split
  · exact .of_cores rfl rfl
  · exact .refl s

/-- A resumed engine runs at its instruction. -/
theorem resumeEngine_eng (s : State) : (resumeEngine s.curCore s).engMe.epc = s.engMe.epc ∧
    (resumeEngine s.curCore s).engMe.state = .running ∧ (∀ n, (resumeEngine s.curCore s).engMe.reg n = s.engMe.reg n) ∧
    context (resumeEngine s.curCore s) = context s := by
  unfold resumeEngine
  extract_lets u
  have hu : u.engMe = _ := State.engMe_modEngMe s _
  have hcontext : context u = context s := context_modEngMe _ s
  have hsteady {w : State} (h : Steady u w) : w.engMe.epc = s.engMe.epc ∧ w.engMe.state = .running ∧
      (∀ n, w.engMe.reg n = s.engMe.reg n) ∧ context w = context s := by
    exact ⟨h.engMe_epc.trans (by rw [hu]), (h.engMe_field Engine.state fun _ => rfl).trans (by rw [hu]),
      fun n => (h.engMe_field (Engine.reg · n) fun _ => rfl).trans (by rw [hu]; rfl), h.context.trans hcontext⟩
  split
  · exact hsteady (steady_progressWrite _ _ _ _ _ _ u)
  · exact hsteady (.refl u)

theorem cekickR_resumes (hsmall : isKeystone s.curCore = false) (hexpose : exposeMe s = .ok () v) :
    ∃ t, exec .cekickR s = .next t ∧ Moved s.me.pcc t.me.pcc (s.me.pc + 4) ∧ t.engMe.epc = s.engMe.epc ∧
      (s.engMe.state = .faulted → t.engMe.state = .running) ∧ (s.engMe.state ≠ .faulted → t.engMe.state = s.engMe.state) ∧
      ∀ n, t.engMe.reg n = s.engMe.reg n := by
  have hu : Steady s (drainMe v) := ((steady_exposeMe s).of_ok hexpose).trans (steady_drainMe v)
  have hstate : (drainMe v).engMe.state = s.engMe.state := hu.engMe_field Engine.state fun _ => rfl
  obtain ⟨hepc, hrunning, hreg, hcontext⟩ := resumeEngine_eng (drainMe v)
  have hregs (n : Nat) : (drainMe v).engMe.reg n = s.engMe.reg n := hu.engMe_field (Engine.reg · n) fun _ => rfl
  refine ⟨_, (if_neg (by simp [hsmall])).trans (congrArg Outcome.next (exposing_ok hexpose)), ?_⟩
  dsimp only
  rw [engMe_complete]
  by_cases hfault : s.engMe.state = .faulted
  · rw [if_pos (hstate.trans hfault)]
    exact ⟨complete_moved_of_context 4 (hcontext.trans hu.context), hepc.trans hu.engMe_epc, fun _ => hrunning,
      fun h => absurd hfault h, fun n => (hreg n).trans (hregs n)⟩
  · rw [if_neg (hstate ▸ hfault)]
    exact ⟨complete_moved_of_context 4 hu.context, hu.engMe_epc, fun h => absurd h hfault, fun _ => hstate, hregs⟩

/-! SEMW and SEMS of a slot (R318). -/

theorem setSem_completes {n x : Nat} (h : context t = context s) :
    semOf (complete 4 (setSem n x t)) n = x ∧ Moved s.me.pcc (complete 4 (setSem n x t)).me.pcc (s.me.pc + 4) :=
  ⟨by rw [semOf_complete, semOf_setSem], complete_moved_of_context 4 ((context_setSem n x t).trans h)⟩

theorem Slot.enterWait_wait (y : Slot) (clock mode reason target : Nat) :
    (y.enterWait clock mode reason false [target]).wait.mode = mode ∧
    (y.enterWait clock mode reason false [target]).wait.reason = reason ∧
    (y.enterWait clock mode reason false [target]).wait.targets = [target] ∧
    (y.enterWait clock mode reason false [target]).pcc = y.pcc := by
  unfold Slot.enterWait
  by_cases hsame : y.wait.same mode reason [target] = true
  · rw [if_pos hsame]
    obtain ⟨hmode, hreason, htarget⟩ := (y.wait.same_iff mode reason [target]).1 hsame
    exact ⟨hmode, hreason, htarget, rfl⟩
  · rw [if_neg hsame]
    exact ⟨rfl, rfl, rfl, rfl⟩

/-- A slot waits at its semaphore instruction, the semaphore as it was. -/
theorem semaphore_waits (target arg n : Nat) (s : State) :
    let t := waitFor 1 0x0B false [target] (s.modMe fun y => { y with waitArg := some arg })
    t.me.wait.mode = 1 ∧ t.me.wait.reason = 0x0B ∧ t.me.wait.targets = [target] ∧ t.me.pcc = s.me.pcc ∧ semOf t n = semOf s n := by
  extract_lets t
  have hme : t.me = ({ s.me with waitArg := some arg } : Slot).enterWait s.clock 1 0x0B false [target] := by
    show (State.modMe _ _).me = _
    rw [State.me_modMe, State.me_modMe]
    rfl
  obtain ⟨hmode, hreason, htarget, hpcc⟩ := Slot.enterWait_wait { s.me with waitArg := some arg } s.clock 1 0x0B target
  rw [hme]
  exact ⟨hmode, hreason, htarget, hpcc, (semOf_modMe _ _ n).trans (semOf_modMe _ s n)⟩

theorem semw_counts {n : Nat} (h : semOf s n ≠ 0) (hexpose : exposeMe s = .ok () v) :
    ∃ t, exec (.semw n) s = .next t ∧ semOf t n = semOf s n - 1 ∧ Moved s.me.pcc t.me.pcc (s.me.pc + 4) := by
  have hv := (steady_exposeMe s).of_ok hexpose
  refine ⟨_, (if_neg h).trans (congrArg Outcome.next (exposing_ok hexpose)), ?_⟩
  rw [← hv.semOf n]
  exact setSem_completes hv.context

theorem sems_counts {n : Nat} (h : semOf s n < 65535) (hexpose : exposeMe s = .ok () v) :
    ∃ t, exec (.sems n) s = .next t ∧ semOf t n = semOf s n + 1 ∧ Moved s.me.pcc t.me.pcc (s.me.pc + 4) := by
  have hv := (steady_exposeMe s).of_ok hexpose
  refine ⟨_, (if_neg (Nat.not_le.2 h)).trans (congrArg Outcome.next (exposing_ok hexpose)), ?_⟩
  rw [← hv.semOf n]
  exact setSem_completes ((steady_drainMe v).context.trans hv.context)

theorem semw_sems_wait (n : Nat) (s : State) :
    (semOf s n = 0 → ∃ t, exec (.semw n) s = .next t ∧ t.me.wait.mode = 1 ∧ t.me.wait.reason = 0x0B ∧
      t.me.wait.targets = [engineParty s.curCore] ∧ t.me.pcc = s.me.pcc) ∧
    (65535 ≤ semOf s n → ∃ t, exec (.sems n) s = .next t ∧ t.me.wait.reason = 0x0B ∧ t.me.pcc = s.me.pcc ∧
      semOf t n = semOf s n) := by
  refine ⟨fun h => ?_, fun h => ?_⟩
  · obtain ⟨hmode, hreason, htarget, hpcc, -⟩ := semaphore_waits (engineParty s.curCore) n n s
    exact ⟨_, if_pos h, hmode, hreason, htarget, hpcc⟩
  · obtain ⟨-, hreason, -, hpcc, hsem⟩ := semaphore_waits (engineParty s.curCore) (n + 8) n s
    exact ⟨_, if_pos h, hreason, hpcc, hsem⟩

end Sys2Proof.Machine

open Sys2Proof Sys2Proof.Machine in
/-- Settles O37, instruction by instruction. -/
theorem engineAccesses : Obligations.EngineAccesses := by
  unfold Obligations.EngineAccesses
  refine ⟨fun d a f imm s t hf => ?accesses, fun x s => exec_efence, fun a s t hfresh hcheck => ?done,
    fun a s hwritten hacked => ?written, fun a b s => ?groups, fun a b g s hsmall hready => ?kick,
    fun s v hsmall hexpose => cekickR_resumes hsmall hexpose, fun s hkeystone => if_pos hkeystone,
    fun n s => ⟨fun h v hv => semw_counts h hv, (semw_sems_wait n s).1, fun h v hv => sems_counts h hv, (semw_sems_wait n s).2⟩⟩
  case accesses =>
    intro va r inside
    refine ⟨fun hin hread x hload hclean => ?_, fun hin hwrite hstore => ?_, fun w hout hrecord => ?_,
      fun w hin hforbidden hwindow hrecord => ?_⟩
    · obtain ⟨htag, hva, hbase, htop, halign⟩ := hin
      exact exec_eld_ok (eldCheck_none (reachCheck_none htag hva hbase htop (r.perms_read hread)) (engineLoad_window hload) halign)
        hload hclean
    · obtain ⟨htag, hva, hbase, htop, halign⟩ := hin
      have hwindow := engineStore_window hstore
      rw [length_leBytes] at hwindow
      exact exec_est_ok (eldCheck_none (reachCheck_none htag hva hbase htop (by rw [r.perms_write, if_pos hwrite])) hwindow halign)
        hstore
    · exact (exec_eld_stops (eldCheck_bounds (reachCheck_bounds 1 hout))).trans
        (congrArg Host.Outcome.next (engineStop_posted hrecord))
    · obtain ⟨htag, hva, hbase, htop, halign⟩ := hin
      have hneed : r.perms &&& 2 ≠ 2 := by rw [r.perms_write, hforbidden]; decide
      exact (exec_est_stops (eldCheck_permission (reachCheck_permission htag hva hbase htop hneed) hwindow)).trans
        (congrArg Host.Outcome.next (engineStop_posted hrecord))
  case done =>
    intro u hacked hstore v
    have hcur : v.curCore = s.curCore := ((steady_drainEngine s).trans (((steady_engineStore _ _ _ _ u).of_ok hstore).trans
      (steady_drainEngine t))).curCore
    exact (exec_edone hfresh hcheck hacked hstore).trans (congrArg Host.Outcome.next (endStream_eq v hcur))
  case written =>
    exact (exec_edone_written hwritten).trans (congrArg Host.Outcome.next ((endStream_eq s rfl).trans (if_neg (by simp [hacked]))))
  case groups =>
    intro g
    refine ⟨fun hrange hbound => ⟨_, exec_barbBind hrange hbound, ?_⟩, ⟨_, rfl, ?_⟩,
      fun hrange hbound hacked t harrive => exec_barbAdd hrange hbound hacked harrive⟩
    · rw [State.engMe_modEngMe]
      exact ⟨rfl, rfl⟩
    · rw [State.engMe_modEngMe]
      exact ⟨rfl, rfl⟩
  case kick =>
    intro u entry box reach hcheck
    exact ⟨fun hidle v hexpose => cekick_starts hsmall hready hcheck hidle hexpose, cekick_waits hsmall hready hcheck⟩
end

section
/-! SUPPORT. The words of compact and engine instructions (R66, R67, R230, R231): the fields of each word, read back from it. -/

namespace Sys2Proof.Machine

/-! Signed fields (R213). -/

theorem toField_lt (n : Nat) (x : Int) : toField n x < 2 ^ n := by
  have hpos : (0 : Int) < 2 ^ n := by positivity
  have hlt := Int.emod_lt_of_pos x hpos
  have hnonneg := Int.emod_nonneg x hpos.ne'
  zify [toField]
  omega

/-- A number that fits a field is the one the field stands for. -/
theorem sext_toField (n : Nat) {x : Int} (hlow : -2 ^ n ≤ x) (hhigh : x < 2 ^ n) : sext (n + 1) (toField (n + 1) x) = x := by
  have hcast : ((2 ^ n : Nat) : Int) = 2 ^ n := by push_cast; rfl
  unfold sext toField
  rw [Nat.add_sub_cancel, pow_succ]
  rcases lt_or_ge x 0 with hneg | hpos
  · have hmod : x % (2 ^ n * 2) = x + 2 ^ n * 2 := by
      rw [← Int.add_emod_right]
      exact Int.emod_eq_of_lt (by omega) (by omega)
    rw [hmod, if_neg (by omega)]
    omega
  · rw [Int.emod_eq_of_lt hpos (by omega), if_pos (by omega)]
    omega

/-- A field is that of the number it stands for. -/
theorem toField_sext (n : Nat) {v : Nat} (h : v < 2 ^ (n + 1)) : toField (n + 1) (sext (n + 1) v) = v := by
  have hcast : ((2 ^ n : Nat) : Int) = 2 ^ n := by push_cast; rfl
  unfold sext toField
  rw [Nat.add_sub_cancel]
  rw [pow_succ] at h ⊢
  split
  · rw [Int.emod_eq_of_lt (by omega) (by omega)]
    omega
  · rw [← Int.add_emod_right, Int.emod_eq_of_lt (by omega) (by omega)]
    omega

/-! What a decoded word is. -/

theorem only_eq_some {p : Bool} {i j : Instr} : only p i = some j ↔ p = true ∧ i = j := by
  unfold only
  split <;> simp [*]

theorem decodeCompact_eq_some {h : Nat} {i : Instr} : decodeCompact h = some i ↔ rawCompact h = some i ∧ i.wf = true :=
  Option.filter_eq_some_iff

theorem decodeEngine_eq_some {w : Nat} {i : Instr} : decodeEngine w = some i ↔ rawEngine w = some i ∧ i.wf = true :=
  Option.filter_eq_some_iff

/-! Compact halfwords (R230, R231). -/

theorem encC_fields {op off a d : Nat} (hop : op < 32) (hd : d < 8) (ha : a < 8) (hoff : off < 16) :
    encC op off a d < 65536 ∧ encC op off a d % 2 = 0 ∧ encC op off a d / 2 % 32 = op ∧ encC op off a d / 64 % 8 = d ∧
      encC op off a d / 512 % 8 = a ∧ encC op off a d / 4096 = off := by
  unfold encC
  omega

theorem encCI_fields {op imm d : Nat} (hop : op < 32) (hd : d < 8) (himm : imm < 128) :
    encCI op imm d < 65536 ∧ encCI op imm d % 2 = 0 ∧ encCI op imm d / 2 % 32 = op ∧ encCI op imm d / 64 % 8 = d ∧
      encCI op imm d / 512 = imm := by
  unfold encCI
  omega

theorem encCJ_fields {op off : Nat} (hop : op < 32) (hoff : off < 1024) :
    encCJ op off < 65536 ∧ encCJ op off % 2 = 0 ∧ encCJ op off / 2 % 32 = op ∧ encCJ op off / 64 = off := by
  unfold encCJ
  omega

/-- A compact instruction has an even halfword that is read as it. -/
def CompactWord (i : Instr) : Prop :=
  encode i < 2 ^ 16 ∧ encode i % 2 = 0 ∧ rawCompact (encode i) = some i

theorem compactWord {i : Instr} (hwf : i.wf = true) (hcompact : i.isCompact = true) : CompactWord i := by
  unfold CompactWord
  cases i with
  | cNop | cYield | cMdone =>
    simp [encode, rawCompact, only, encC_fields]
  | cAdd d a | cSub d a | cAnd d a | cOr d a | cXor d a | cMov d a =>
    obtain ⟨hd, ha⟩ : d < 8 ∧ a < 8 := by simpa [Instr.wf, lowOk] using hwf
    simp [encode, rawCompact, only, encC_fields, hd, ha]
  | cJr a =>
    have ha : a < 8 := by simpa [Instr.wf, lowOk] using hwf
    simp [encode, rawCompact, only, encC_fields, ha]
  | cLd d a off | cSd d a off | cLw d a off | cSw d a off =>
    obtain ⟨⟨hd, ha⟩, hoff⟩ : (d < 8 ∧ a < 8) ∧ off < 16 := by simpa [Instr.wf, lowOk] using hwf
    simp [encode, rawCompact, encC_fields, hd, ha, hoff]
  | cSlli d amt | cSrli d amt =>
    obtain ⟨hd, hamt⟩ : d < 8 ∧ amt < 64 := by simpa [Instr.wf, lowOk] using hwf
    simp [encode, rawCompact, encCI_fields, hd, show amt < 128 by omega]
  | cAddi d imm | cLi d imm | cCinc d imm | cBeqz d imm | cBnez d imm =>
    obtain ⟨hd, hlow, hhigh⟩ : d < 8 ∧ -64 ≤ imm ∧ imm < 64 := by simpa [Instr.wf, lowOk, imm7Ok] using hwf
    have himm : toField 7 imm < 128 := toField_lt 7 imm
    simp [encode, rawCompact, encCI_fields, hd, himm, sext_toField 6 hlow hhigh]
  | cJ off =>
    obtain ⟨hlow, hhigh⟩ : -512 ≤ off ∧ off < 512 := by simpa [Instr.wf, imm10Ok] using hwf
    have hoff : toField 10 off < 1024 := toField_lt 10 off
    simp [encode, rawCompact, encCJ_fields, hoff, sext_toField 9 hlow hhigh]
  | _ => cases hcompact

theorem encC_split {h : Nat} (heven : h % 2 = 0) :
    encC (h / 2 % 32) (h / 4096) (h / 512 % 8) (h / 64 % 8) = h := by
  unfold encC
  omega

theorem encCI_split {h : Nat} (heven : h % 2 = 0) : encCI (h / 2 % 32) (h / 512) (h / 64 % 8) = h := by
  unfold encCI
  omega

theorem encCJ_split {h : Nat} (heven : h % 2 = 0) : encCJ (h / 2 % 32) (h / 64) = h := by
  unfold encCJ
  omega

/-- A halfword that is read as an instruction is that instruction's. -/
theorem encode_of_rawCompact {h : Nat} {i : Instr} (hlt : h < 65536) (heven : h % 2 = 0) (hraw : rawCompact h = some i) :
    encode i = h := by
  have hC := encC_split heven
  have hCI := encCI_split heven
  have himm : toField 7 (sext 7 (h / 512)) = h / 512 := toField_sext 6 (by omega)
  unfold rawCompact at hraw
  dsimp only at hraw
  split at hraw
  case h_1 hop | h_21 hop | h_22 hop =>
    obtain ⟨hzero, rfl⟩ := only_eq_some.1 hraw
    simp only [Bool.and_eq_true, beq_iff_eq] at hzero
    simpa [encode, hop, hzero] using hC
  case h_2 hop | h_3 hop | h_4 hop | h_5 hop | h_6 hop | h_7 hop =>
    obtain ⟨hzero, rfl⟩ := only_eq_some.1 hraw
    rw [hop, eq_of_beq hzero] at hC
    exact hC
  case h_8 hop | h_9 hop | h_12 hop | h_17 hop | h_18 hop =>
    obtain rfl := Option.some.inj hraw
    rw [hop] at hCI
    rw [encode, himm, hCI]
  case h_10 hop | h_11 hop =>
    obtain rfl := Option.some.inj hraw
    rw [hop] at hCI
    exact hCI
  case h_13 hop | h_14 hop | h_15 hop | h_16 hop =>
    obtain rfl := Option.some.inj hraw
    rw [hop] at hC
    exact hC
  case h_19 hop =>
    obtain rfl := Option.some.inj hraw
    have hoff : toField 10 (sext 10 (h / 64)) = h / 64 := toField_sext 9 (by omega)
    rw [encode, hoff, ← hop, encCJ_split heven]
  case h_20 hop =>
    obtain ⟨hzero, rfl⟩ := only_eq_some.1 hraw
    simp only [Bool.and_eq_true, beq_iff_eq] at hzero
    simpa [encode, hop, hzero] using hC
  case h_23 => cases hraw

/-! Engine words (R66, R67). -/

theorem encER_eq (op x b a d : Nat) : encER op x b a d = encEI op x b a d := rfl

theorem encEI_fields {op imm f a d : Nat} (hop : op < 64) (hd : d < 16) (ha : a < 16) (hf : f < 16) (himm : imm < 16384) :
    encEI op imm f a d < 4294967296 ∧ encEI op imm f a d % 64 = op ∧ encEI op imm f a d / 64 % 16 = d ∧
      encEI op imm f a d / 1024 % 16 = a ∧ encEI op imm f a d / 16384 % 16 = f ∧ encEI op imm f a d / 262144 = imm := by
  unfold encEI
  omega

theorem eliWord_fields {w d hw imm k : Nat} (h : w = 0x01 + 64 * d + 1024 * hw + 4096 * imm + 2 ^ 28 * k) (hd : d < 16)
    (hhw : hw < 4) (himm : imm < 65536) (hk : k < 2) :
    w < 4294967296 ∧ w % 64 = 1 ∧ w / 64 % 16 = d ∧ w / 1024 % 4 = hw ∧ w / 4096 % 65536 = imm ∧ w / 2 ^ 28 % 2 = k ∧
      w / 2 ^ 29 = 0 := by
  omega

theorem ejWord_fields {w off : Nat} (h : w = 0x09 + 64 * off) (hoff : off < 67108864) :
    w < 4294967296 ∧ w % 64 = 9 ∧ w / 64 = off := by
  omega

/-- An instruction of an engine has a word below 2^32 that is read as it. -/
def EngineWord (i : Instr) : Prop := encode i < 2 ^ 32 ∧ rawEngine (encode i) = some i

theorem engineWord_of_wf {i : Instr} (hwf : i.wf = true) (hengine : engineWord i = true) : EngineWord i := by
  unfold EngineWord
  cases i with
  | eli d imm hw k =>
    obtain ⟨⟨hd, himm⟩, hhw⟩ : (d < 16 ∧ imm < 65536) ∧ hw < 4 := by simpa [Instr.wf, engOk] using hwf
    generalize hword : encode (.eli d imm hw k) = w
    obtain ⟨hlt, hop, hd', hhw', himm', hk, htop⟩ := eliWord_fields hword.symm hd hhw himm k.toNat_lt
    refine ⟨hlt, ?_⟩
    simp only [rawEngine, hop, hd', hhw', himm', hk, htop]
    cases k <;> rfl
  | eadd d a b | esub d a b | eand d a b =>
    obtain ⟨⟨hd, ha⟩, hb⟩ : (d < 16 ∧ a < 16) ∧ b < 16 := by simpa [Instr.wf, engOk] using hwf
    simp [encode, encER_eq, rawEngine, only, encEI_fields, hd, ha, hb]
  | eaddi d a imm =>
    obtain ⟨⟨hd, ha⟩, hlow, hhigh⟩ : (d < 16 ∧ a < 16) ∧ -8192 ≤ imm ∧ imm < 8192 := by
      simpa [Instr.wf, engOk, imm14Ok] using hwf
    have himm : toField 14 imm < 16384 := toField_lt 14 imm
    simp [encode, rawEngine, only, encEI_fields, hd, ha, himm, sext_toField 13 hlow hhigh]
  | eshl d a amt | eshr d a amt =>
    obtain ⟨⟨hd, ha⟩, hamt⟩ : (d < 16 ∧ a < 16) ∧ amt < 64 := by simpa [Instr.wf, engOk] using hwf
    simp [encode, rawEngine, only, encEI_fields, hd, ha, show amt < 16384 by omega]
  | eb cond a b off =>
    obtain ⟨⟨⟨⟨hcond, ha⟩, hb⟩, -⟩, hlow, hhigh⟩ :
        (((cond < 3 ∧ a < 16) ∧ b < 16) ∧ (cond = 2 ∨ b = 0)) ∧ -8192 ≤ off ∧ off < 8192 := by
      simpa [Instr.wf, engOk, imm14Ok] using hwf
    have hoff : toField 14 off < 16384 := toField_lt 14 off
    simp [encode, rawEngine, encEI_fields, show cond < 16 by omega, ha, hb, hoff, sext_toField 13 hlow hhigh]
  | ej off =>
    obtain ⟨hlow, hhigh⟩ : -33554432 ≤ off ∧ off < 33554432 := by simpa [Instr.wf, imm26Ok] using hwf
    generalize hword : encode (.ej off) = w
    obtain ⟨hlt, hop, hoff⟩ := ejWord_fields hword.symm (toField_lt 26 off)
    refine ⟨hlt, ?_⟩
    simp only [rawEngine, hop, hoff, sext_toField 25 hlow hhigh]
  | eld d a f imm | est d a f imm =>
    obtain ⟨⟨⟨hd, ha⟩, hf⟩, hlow, hhigh⟩ : ((d < 16 ∧ a < 16) ∧ f < 4) ∧ -8192 ≤ imm ∧ imm < 8192 := by
      simpa [Instr.wf, engOk, imm14Ok] using hwf
    have himm : toField 14 imm < 16384 := toField_lt 14 imm
    simp [encode, rawEngine, encEI_fields, hd, ha, hf, show f < 16 by omega, himm, sext_toField 13 hlow hhigh]
  | eldQ d q =>
    obtain ⟨hd, hq⟩ : d < 16 ∧ q < 2 := by simpa [Instr.wf, engOk] using hwf
    simp [encode, rawEngine, only, encEI_fields, hd, show q < 16384 by omega]
  | estQ d q =>
    obtain ⟨hd, -, hq⟩ : d < 16 ∧ 2 ≤ q ∧ q < 4 := by simpa [Instr.wf, engOk] using hwf
    simp [encode, rawEngine, only, encEI_fields, hd, show q < 16384 by omega]
  | blk d a b x | gath d a b x | scat d a b x =>
    obtain ⟨⟨⟨⟨hd, ha⟩, hb⟩, -⟩, hx⟩ : (((d < 16 ∧ a < 16) ∧ b < 16) ∧ b % 2 = 0) ∧ x < 16 := by
      simpa [Instr.wf, engOk] using hwf
    simp [encode, encER_eq, rawEngine, only, encEI_fields, hd, ha, hb, Nat.mod_eq_of_lt hx, Nat.div_eq_of_lt hx,
      show x < 16384 by omega]
  | scout n =>
    have hn : n ≤ 64 := by simpa [Instr.wf] using hwf
    simp [encode, rawEngine, only, encEI_fields, show n < 16384 by omega]
  | ewait n a =>
    obtain ⟨hn, ha⟩ : n < 16 ∧ a < 16 := by simpa [Instr.wf, engOk] using hwf
    simp [encode, rawEngine, only, encEI_fields, ha, show n < 16384 by omega]
  | efence x =>
    have hx : x ≤ 4 := by simpa [Instr.wf] using hwf
    have hlt : x < 16 := by omega
    simp [encode, encER_eq, rawEngine, only, encEI_fields, show x < 16384 by omega, Nat.mod_eq_of_lt hlt, Nat.div_eq_of_lt hlt]
  | semwEngine n | semsEngine n =>
    have hn : n < 8 := by simpa [Instr.wf] using hwf
    simp [encode, rawEngine, only, encEI_fields, show n < 16384 by omega]
  | barbBind a | edone a =>
    have ha : a < 16 := by simpa [Instr.wf, engOk] using hwf
    simp [encode, encER_eq, rawEngine, only, encEI_fields, ha]
  | barbUnbind => simp [encode, encER_eq, rawEngine, only, encEI_fields]
  | barbAdd a b =>
    obtain ⟨ha, hb⟩ : a < 16 ∧ b < 16 := by simpa [Instr.wf, engOk] using hwf
    simp [encode, encER_eq, rawEngine, encEI_fields, ha, hb]
  | _ => cases hengine

theorem encEI_split (w : Nat) : encEI (w % 64) (w / 262144) (w / 16384 % 16) (w / 1024 % 16) (w / 64 % 16) = w := by
  unfold encEI
  omega

/-- A word that is read as an instruction of an engine is that instruction's. -/
theorem encode_of_rawEngine {w : Nat} {i : Instr} (hlt : w < 4294967296) (hraw : rawEngine w = some i) : encode i = w := by
  have hsplit := encEI_split w
  have himm : toField 14 (sext 14 (w / 262144)) = w / 262144 := toField_sext 13 (by omega)
  unfold rawEngine at hraw
  dsimp only at hraw
  split at hraw
  case h_1 hop =>
    obtain ⟨hzero, rfl⟩ := only_eq_some.1 hraw
    have hbit : (w / 2 ^ 28 % 2 == 1).toNat = w / 2 ^ 28 % 2 := by
      rcases Nat.mod_two_eq_zero_or_one (w / 2 ^ 28) with h | h <;> rw [h] <;> rfl
    have htop : w / 2 ^ 29 = 0 := eq_of_beq hzero
    rw [encode, hbit]
    omega
  case h_2 hop | h_4 hop | h_5 hop =>
    obtain ⟨hzero, rfl⟩ := only_eq_some.1 hraw
    simp only [Bool.and_eq_true, beq_iff_eq] at hzero
    rw [hop, show w / 262144 = 0 by omega] at hsplit
    exact hsplit
  case h_3 hop =>
    obtain ⟨hzero, rfl⟩ := only_eq_some.1 hraw
    rw [hop, eq_of_beq hzero] at hsplit
    rw [encode, himm, hsplit]
  case h_6 hop | h_7 hop =>
    obtain ⟨hzero, rfl⟩ := only_eq_some.1 hraw
    rw [hop, eq_of_beq hzero] at hsplit
    exact hsplit
  case h_8 hop =>
    obtain rfl := Option.some.inj hraw
    rw [encode, himm, ← hop, hsplit]
  case h_9 hop =>
    obtain rfl := Option.some.inj hraw
    have hoff : toField 26 (sext 26 (w / 64)) = w / 64 := toField_sext 25 (by omega)
    rw [encode, hoff]
    omega
  case h_10 hop | h_11 hop =>
    split at hraw
    · obtain rfl := Option.some.inj hraw
      rw [encode, himm, ← hop, hsplit]
    · obtain ⟨hfields, rfl⟩ := only_eq_some.1 hraw
      simp only [Bool.and_eq_true, beq_iff_eq] at hfields
      simpa [encode, hop, hfields] using hsplit
  case h_12 hop | h_13 hop | h_14 hop =>
    obtain ⟨hzero, rfl⟩ := only_eq_some.1 hraw
    rw [hop, show w / 262144 = w / 262144 % 16 by have := eq_of_beq hzero; omega] at hsplit
    exact hsplit
  case h_15 hop | h_16 hop | h_18 hop | h_19 hop | h_21 hop =>
    obtain ⟨hzero, rfl⟩ := only_eq_some.1 hraw
    simp only [Bool.and_eq_true, beq_iff_eq] at hzero
    simpa [encode, encER_eq, hop, hzero] using hsplit
  case h_17 hop =>
    obtain ⟨hzero, rfl⟩ := only_eq_some.1 hraw
    simp only [Bool.and_eq_true, beq_iff_eq] at hzero
    obtain ⟨⟨⟨hhigh, hb⟩, ha⟩, hd⟩ := hzero
    rw [hop, hb, ha, hd, show w / 262144 = w / 262144 % 16 by omega] at hsplit
    exact hsplit
  case h_20 hop =>
    split at hraw
    next hzero =>
      simp only [Bool.and_eq_true, beq_iff_eq] at hzero
      obtain ⟨hhigh, hd⟩ := hzero
      have hx : w / 262144 = w / 262144 % 16 := by omega
      rw [hop, hd, hx] at hsplit
      split at hraw
      next hbind =>
        obtain ⟨hb, rfl⟩ := only_eq_some.1 hraw
        rw [hbind, eq_of_beq hb] at hsplit
        exact hsplit
      next hunbind =>
        obtain ⟨hfields, rfl⟩ := only_eq_some.1 hraw
        simp only [Bool.and_eq_true, beq_iff_eq] at hfields
        rw [hunbind, hfields.1, hfields.2] at hsplit
        exact hsplit
      next hadd =>
        obtain rfl := Option.some.inj hraw
        rw [hadd] at hsplit
        exact hsplit
      next => cases hraw
    next => cases hraw
  case h_22 => cases hraw

end Sys2Proof.Machine

open Sys2Proof Sys2Proof.Machine in
/-- Settles O56: the fields of each word, and each word from its fields. -/
theorem shortWordsRoundTrip : Obligations.ShortWordsRoundTrip := by
  unfold Obligations.ShortWordsRoundTrip
  refine ⟨fun i hwf hcompact => ?_, fun i hwf hengine => ?_, fun h i hlt heven hdecode => ?_, fun w i hlt hdecode => ?_⟩
  · obtain ⟨hlt, heven, hraw⟩ := compactWord hwf hcompact
    exact ⟨hlt, heven, decodeCompact_eq_some.2 ⟨hraw, hwf⟩⟩
  · obtain ⟨hlt, hraw⟩ := engineWord_of_wf hwf hengine
    exact ⟨hlt, decodeEngine_eq_some.2 ⟨hraw, hwf⟩⟩
  · obtain ⟨hraw, hwf⟩ := decodeCompact_eq_some.1 hdecode
    exact ⟨hwf, encode_of_rawCompact hlt heven hraw⟩
  · obtain ⟨hraw, hwf⟩ := decodeEngine_eq_some.1 hdecode
    exact ⟨hwf, encode_of_rawEngine hlt hraw⟩
end

section
/-! SUPPORT. Copies that start (R75 to R77, R85). -/

namespace Sys2Proof.Machine

open Host (Outcome)

variable {s t u : State}

/-! Operands of a copy (R76, R77). -/

/-- The upper half of a word. -/
theorem bits_high (v : Word) : bits v.toNat 32 32 = v.toNat / 2 ^ 32 := Nat.mod_eq_of_lt (by have := v.isLt; omega)

theorem bits_low (v : Word) : bits v.toNat 0 32 = v.toNat % 2 ^ 32 := by rw [bits, pow_zero, Nat.div_one]

/-- A stride is the signed half of its word. -/
theorem sext_bits (v lo : Nat) : sext 32 (bits v lo 32) = (BitVec.ofNat 32 (v / 2 ^ lo)).toInt := by
  rw [BitVec.toInt_eq_toNat_cond, BitVec.toNat_ofNat, sext, bits]
  split <;> split <;> omega

theorem extent_le (base n len : Nat) (stride : Int) : (extent base n len stride).1 ≤ (extent base n len stride).2 := by
  dsimp only [extent]
  omega

theorem extentCheck_none {r : Reg} {x : Int × Int} {need : Nat} (htag : r.tag = true) (hle : x.1 ≤ x.2) (hnonneg : 0 ≤ x.1)
    (hlt : x.1 < 2 ^ 52) (hbase : (r.base : Int) ≤ x.1) (htop : x.2 ≤ (r.top : Int)) (hneed : r.perms &&& need = need) :
    extentCheck r x need = none := by
  unfold extentCheck
  rw [if_neg (by omega)]
  exact reachCheck_none htag (by omega) (by omega) (by omega) hneed

/-! The start, as every copy does it (R75, R85). -/

theorem startCopy_empty {x : Copy} {checks : List (Option Nat)} {va : Nat} {write : Bool} (htotal : x.total = 0)
    (hlegal : some 0x08 ∉ checks) : startCopy x checks va write s = engNext s :=
  if_pos ⟨htotal, by simpa using hlegal⟩

theorem firstCause_none {l : List (Option Nat)} (h : ∀ k ∈ l, k = none) : firstCause l = none := by
  have hmiss (c : Nat) : some c ∉ l := fun hc => by cases h _ hc
  simp [firstCause, hmiss]

/-- The state in which a copy that meets no cause is in progress. -/
def begunCopy (x : Copy) (s : State) : State :=
  progressWrite s.curCore x 1 0 0 [] ((drainEngine s).modEng s.curCore fun e => { e with copy := some x, scouted := [] })

theorem startCopy_begun {x : Copy} {checks : List (Option Nat)} {va : Nat} {write : Bool} (htotal : 0 < x.total)
    (hclean : ∀ k ∈ checks, k = none) (hacked : hostWritesOf (drainEngine s) (engineParty s.curCore) = false) :
    startCopy x checks va write s = begunCopy x s := by
  unfold startCopy
  dsimp only
  rw [if_neg (by omega), firstCause_none hclean]
  exact if_neg (by simp [engineWrites, hacked])

theorem begunCopy_engine (x : Copy) (s : State) :
    (begunCopy x s).engMe.copy = some x ∧ (begunCopy x s).engMe.epc = s.engMe.epc := by
  have hcur : (drainEngine s).curCore = s.curCore := (steady_drainEngine s).curCore
  have hwrite := steady_progressWrite s.curCore x 1 0 0 []
    ((drainEngine s).modEng s.curCore fun e => { e with copy := some x, scouted := [] })
  have heng : ((drainEngine s).modEng s.curCore fun e => { e with copy := some x, scouted := [] }).engMe =
      { (drainEngine s).engMe with copy := some x, scouted := [] } := by
    rw [← hcur]
    exact State.engMe_modEngMe (drainEngine s) _
  constructor
  · exact (hwrite.engMe_field Engine.copy fun _ => rfl).trans (congrArg Engine.copy heng)
  · exact (hwrite.engMe_epc.trans (congrArg Engine.epc heng)).trans (steady_drainEngine s).engMe_epc

/-- The engine has no part in where a progress record may stand. -/
theorem progressAt_modEng (f : Engine → Engine) (c d a : Nat) (s : State) :
    progressAt (s.modEng c f) d a = progressAt s d a := by
  have hrole (b : Nat) : bankRole (s.modEng c f) d b = bankRole s d b := by
    unfold bankRole State.modEng
    by_cases h : d = c
    · rw [h, State.core_modCore_self]
    · rw [State.core_modCore_ne _ _ _ _ h]
  unfold progressAt
  rw [hrole]

theorem begunCopy_record {x : Copy} (hword : x.lastWord = 0) (htotal : x.total < 2 ^ 32) (hrecord : RecordOk s x.progress) :
    Begun s (begunCopy x s) x.progress x.total x.pc := by
  have hcount : countWord x.total 0 = x.total := by
    rw [countWord, Nat.mod_eq_of_lt htotal]
    rfl
  unfold Begun begunCopy progressWrite
  by_cases hzero : x.progress = 0
  · rw [if_pos hzero, if_pos hzero]
    rfl
  · obtain ⟨off, hoff, hdrained⟩ := hrecord.resolve_left hzero
    rw [if_neg hzero, if_neg hzero, progressAt_modEng, hdrained]
    refine ⟨off, hoff, ?_⟩
    dsimp only
    rw [hword, hcount]
    rfl

theorem progressCheck_none {a : Nat} (h : RecordOk s a) : progressCheck s a = none := by
  refine if_pos (h.imp_right ?_)
  rintro ⟨off, hoff, -⟩
  exact Option.isSome_iff_exists.2 ⟨off, hoff⟩

/-! BLK (R76). -/

section blk

variable {d a b x : Nat}

theorem blk_empty (h : (s.engMe.reg b).toNat / 2 ^ 32 * ((s.engMe.reg b).toNat % 2 ^ 32) = 0) :
    exec (.blk d a b x) s = .next (engNext s) := by
  rw [← bits_high, ← bits_low] at h
  show execBlk d a b x s = _
  unfold execBlk
  extract_lets e g h' rows len ds ss dst src prog de se cp empty sc dc checks onSrc
  have hzero : rows * len = 0 := h
  have hempty : empty = true := beq_iff_eq.2 hzero
  have hlegal : some 0x08 ∉ checks := by simp [checks, sc, dc, hempty, hzero]
  exact congrArg Outcome.next (startCopy_empty hzero hlegal)

/-- A BLK inside the reach, of extents apart. -/
theorem blk_starts {rows len : Nat} {sstride dstride : Int} (hrows : rows = (s.engMe.reg b).toNat / 2 ^ 32)
    (hlen : len = (s.engMe.reg b).toNat % 2 ^ 32)
    (hsstride : sstride = (BitVec.ofNat 32 ((s.engMe.reg (b + 1)).toNat / 2 ^ 0)).toInt)
    (hdstride : dstride = (BitVec.ofNat 32 ((s.engMe.reg (b + 1)).toNat / 2 ^ 32)).toInt)
    (hpos : 0 < rows * len) (htotal : rows * len < 2 ^ 32) (hrecord : RecordOk s (s.engMe.reg x).toNat)
    (hsrc : extentCheck s.engMe.reach (extent (s.engMe.reg a).toNat rows len sstride) 1 = none)
    (hdst : extentCheck s.engMe.reach (extent (s.engMe.reg d).toNat rows len dstride) 2 = none)
    (hapart : (extent (s.engMe.reg a).toNat rows len sstride).2 ≤ (extent (s.engMe.reg d).toNat rows len dstride).1 ∨
      (extent (s.engMe.reg d).toNat rows len dstride).2 ≤ (extent (s.engMe.reg a).toNat rows len sstride).1)
    (hacked : hostWritesOf (drainEngine s) (engineParty s.curCore) = false) :
    ∃ t y, exec (.blk d a b x) s = .next t ∧ t.engMe.copy = some y ∧ y.kind = 0 ∧ y.src = (s.engMe.reg a).toNat ∧
      y.dst = (s.engMe.reg d).toNat ∧ y.total = rows * len ∧ y.rows = rows ∧ y.rowBytes = len ∧ y.sstride = sstride ∧
      y.dstride = dstride ∧ y.pos = 0 ∧ y.fault = none ∧ t.engMe.epc = s.engMe.epc ∧
      Begun s t (s.engMe.reg x).toNat (rows * len) s.engMe.epc := by
  rw [← bits_high] at hrows
  rw [← bits_low] at hlen
  rw [← sext_bits] at hsstride hdstride
  subst hrows hlen hsstride hdstride
  show ∃ t y, execBlk d a b x s = _ ∧ _
  unfold execBlk
  extract_lets e g h rows len ds ss dst src prog de se cp empty sc dc checks onSrc
  have hempty : empty = false := beq_eq_false_iff_ne.2 hpos.ne'
  have hprog : progressCheck s prog = none := progressCheck_none hrecord
  have hoverlap : ¬ (se.1 < de.2 ∧ de.1 < se.2) := by
    rintro ⟨h1, h2⟩
    rcases hapart with h | h
    · exact absurd h2 (not_lt.2 h)
    · exact absurd h1 (not_lt.2 h)
  have hsc : sc = none := (if_neg (by simp [hempty])).trans hsrc
  have hdc : dc = none := (if_neg (by simp [hempty])).trans hdst
  have hsum : ¬ 2 ^ 32 ≤ rows * len := Nat.not_le.2 htotal
  have hclean : ∀ k ∈ checks, k = none := by
    simp only [checks, hsc, hdc, hempty, hprog, if_neg hsum]
    simpa using not_and.1 hoverlap
  obtain ⟨hcopy, hepc⟩ := begunCopy_engine cp s
  exact ⟨_, cp, congrArg Outcome.next (startCopy_begun hpos hclean hacked), hcopy, rfl, rfl, rfl, rfl, rfl, rfl, rfl, rfl, rfl, rfl,
    hepc, begunCopy_record (x := cp) rfl htotal hrecord⟩

end blk

/-! GATH and SCAT (R77). -/

section lists

variable {d a b x k : Nat}

/-- The count of elements and the logarithm of their size, of an operand that names a size. -/
theorem listFields (v : Word) (h : v.toNat / 2 ^ 32 ≤ 8) :
    bits v.toNat 32 4 = v.toNat / 2 ^ 32 ∧ bits v.toNat 0 32 = v.toNat % 2 ^ 32 ∧ v.toNat / 2 ^ 36 = 0 :=
  ⟨Nat.mod_eq_of_lt (by omega), bits_low v, by omega⟩

theorem listCopy_empty (kind : Nat) (hsize : (s.engMe.reg (b + 1)).toNat / 2 ^ 32 ≤ 8)
    (hcount : (s.engMe.reg (b + 1)).toNat % 2 ^ 32 = 0) : listCopy kind d a b x s = engNext s := by
  obtain ⟨hk, hn, htop⟩ := listFields _ hsize
  have htotal : bits (s.engMe.reg (b + 1)).toNat 0 32 * 2 ^ bits (s.engMe.reg (b + 1)).toNat 32 4 = 0 := by
    rw [hn, hcount, Nat.zero_mul]
  have hlegal : ¬ ((s.engMe.reg (b + 1)).toNat / 2 ^ 36 ≠ 0 ∨ 8 < bits (s.engMe.reg (b + 1)).toNat 32 4) := by omega
  refine startCopy_empty htotal ?_
  rw [if_pos htotal, if_neg hlegal, if_pos htotal]
  simp

theorem listCopy_starts (kind : Nat) {list n : Nat} (hlist : list = (s.engMe.reg b).toNat % 2 ^ 52)
    (hn : n = (s.engMe.reg (b + 1)).toNat % 2 ^ 32) (hk : k = (s.engMe.reg (b + 1)).toNat / 2 ^ 32) (hsize : k ≤ 8)
    (hpos : 0 < n) (hrecord : RecordOk s (s.engMe.reg x).toNat) (hreach : reachCheck s.engMe.reach list (4 * n) 1 = none)
    (hacked : hostWritesOf (drainEngine s) (engineParty s.curCore) = false) :
    ∃ y, (listCopy kind d a b x s).engMe.copy = some y ∧ y.kind = kind ∧ y.src = (s.engMe.reg a).toNat ∧
      y.dst = (s.engMe.reg d).toNat ∧ y.list = list ∧ y.esize = 2 ^ k ∧ y.total = n * 2 ^ k ∧ y.pos = 0 ∧
      (listCopy kind d a b x s).engMe.epc = s.engMe.epc ∧
      (n * 2 ^ k < 2 ^ 32 → Begun s (listCopy kind d a b x s) (s.engMe.reg x).toNat (n * 2 ^ k) s.engMe.epc) := by
  subst hk
  obtain ⟨hfield, hcount, htop⟩ := listFields _ hsize
  rw [← hfield] at hsize ⊢
  rw [← hcount] at hn
  subst hn hlist
  have hprog : progressCheck s (s.engMe.reg x).toNat = none := progressCheck_none hrecord
  unfold listCopy
  extract_lets e g list k count prog total cp
  have htotal : 0 < total := Nat.mul_pos hpos (Nat.two_pow_pos _)
  have hsome : ¬ total = 0 := htotal.ne'
  have hlegal : ¬ (g / 2 ^ 36 ≠ 0 ∨ 8 < k) := not_or.2 ⟨not_not.2 htop, not_lt.2 hsize⟩
  rw [if_neg hsome, if_neg hlegal, if_neg hsome, hreach, hprog, startCopy_begun htotal (by simp) hacked]
  obtain ⟨hcopy, hepc⟩ := begunCopy_engine cp s
  exact ⟨cp, hcopy, rfl, rfl, rfl, rfl, rfl, rfl, rfl, hepc, fun h => begunCopy_record (x := cp) rfl h hrecord⟩

end lists

end Sys2Proof.Machine
end

section
/-! SUPPORT. The pieces of a copy in progress (R77, R78). -/

namespace Sys2Proof.Machine

open Host (Outcome)

variable {c idx : Nat} {s t : State} {x : Copy}

/-! Which piece SECTOR_ACCESS moves. -/

theorem exec_sectorAccess (hcopy : (s.eng c).copy = some x) (hfault : x.fault = none) (hpos : x.pos < x.total)
    (hstate : (s.eng c).state ≠ .faulted) : exec (.sectorAccess c) s = .next (copyStep x { s with curCore := c }) := by
  have hcopy' : State.engMe { s with curCore := c } = s.eng c := rfl
  show execSectorAccess c s = _
  unfold execSectorAccess
  dsimp only
  rw [hcopy', hcopy]
  exact if_neg (by simp [hfault, hpos, hstate])

theorem copyStep_piece (htransfer : inTransfer s s.curCore < 64)
    (hword : if x.kind = 0 then idx = 0 else x.word = some (x.pos / x.esize, idx)) : copyStep x s = copyPiece idx x s := by
  unfold copyStep
  dsimp only
  rw [if_neg (Nat.not_le.2 htransfer)]
  by_cases hkind : x.kind = 0
  · rw [if_pos hkind] at hword ⊢
    rw [hword]
  · rw [if_neg hkind] at hword ⊢
    have helement : (x.word.filter fun p => p.1 == x.pos / x.esize) = some (x.pos / x.esize, idx) :=
      Option.filter_eq_some_iff.2 ⟨hword, beq_self_eq_true _⟩
    rw [helement]

theorem copyStep_word {v : Loaded} (htransfer : inTransfer s s.curCore < 64) (hkind : x.kind ≠ 0)
    (hword : ∀ p, x.word = some p → p.1 ≠ x.pos / x.esize)
    (hload : engineLoad (whoEngine s s.curCore) (x.list + 4 * (x.pos / x.esize)) 4 s = .ok v t) (hclean : v.poison = none) :
    copyStep x s = copyPiece (leNat v.bytes) { x with word := some (x.pos / x.esize, leNat v.bytes) }
      (t.modEngMe fun e => { e with copy := some { x with word := some (x.pos / x.esize, leNat v.bytes) }, replies := [] }) := by
  have hnone : (x.word.filter fun p => p.1 == x.pos / x.esize) = none := by
    simpa [Option.filter_eq_none_iff] using fun p q h => hword (p, q) h
  unfold copyStep
  dsimp only
  rw [if_neg (Nat.not_le.2 htransfer), if_neg hkind, hnone]
  simp only [hload, hclean]

/-! Marks that travel with a piece (R30, R102). -/

theorem steady_tagMark (src : Src) (va : Nat) (s : State) : Steady s (tagMark src va s) := by
  unfold tagMark
  split
  · exact .of_cores rfl rfl
  · exact .of_cores rfl rfl
  · exact .of_cores rfl rfl
  · exact .refl s

theorem steady_carryMarks (w : Who) (a : Nat × Nat) (n : Nat) (v : Loaded) (src : Src) (s : State) :
    Steady s (carryMarks w a n v src s) := by
  have hpoison : Steady s (if v.poison.isSome then carryPoison w src a.2 n s else s) :=
    .ite (steady_carryPoison _ _ _ _ s) (.refl s)
  exact .ite hpoison (hpoison.trans (.foldl _ _ (fun s _ => .ite (steady_tagMark _ _ s) (.refl s)) _))

theorem steady_cleanGranule (w : Who) (front : Option (Nat × Bool)) (s : State) : Steady s (cleanGranule w front s) := by
  unfold cleanGranule
  split
  · refine .ite (.refl s) ?_
    split
    · rename_i e _ src t hloc
      have ht : Steady s t := (steady_locate w (e - 64) 0 true s).of_ok hloc
      exact .ite ((ht.trans (steady_drainAgent _ _ t)).trans (.of_apart (apart_setPoison _ _ _ _ _))) (.refl s)
    · exact .refl s
  · exact .refl s

/-! One piece. -/

/-- Bytes of the next piece of a copy, with index word `idx`: at most a 64-byte granule of each side (log 19). -/
def Copy.piece (x : Copy) (idx : Nat) : Nat :=
  min (x.rest x.pos) (min (64 - (x.addr idx x.pos).1 % 64) (64 - (x.addr idx x.pos).2 % 64))

/-- The copy has gone past a piece. -/
def pastPiece (x : Copy) (idx : Nat) (front : Option (Nat × Bool)) (t : State) : State := t.modEngMe fun y => { y with
  copy := some (x.moved idx (x.piece idx) front), state := .running, replies := []
  wait := if y.wait.mode = 0 then y.wait else y.wait.clear }

theorem copyPiece_refused {f : Nat × Nat × Bool} (h : elementCheck s.engMe x idx = some f) :
    copyPiece idx x s = s.modEngMe fun y => { y with copy := some { x with fault := some f } } := by
  unfold copyPiece
  simp only [show elementCheck (s.eng s.curCore) x idx = some f from h]

theorem copyPiece_skips (hcheck : elementCheck s.engMe x idx = none) (hskip : x.skips (x.addr idx x.pos) = true) :
    copyPiece idx x s = pastPiece x idx none s := by
  unfold copyPiece
  simp only [show elementCheck (s.eng s.curCore) x idx = none from hcheck, hskip]
  rfl

/-- A piece whose bytes are read and written goes past them, whatever marks travel with it. -/
theorem copyPiece_moves {rs : List Reply} {t1 t2 : State} (hcheck : elementCheck s.engMe x idx = none)
    (hskip : x.skips (x.addr idx x.pos) = false)
    (hload : bulkLoad (whoEngine s s.curCore) (x.addr idx x.pos).1 (x.piece idx) s = .ok rs t1)
    (hstore : bulkStore (whoEngine s s.curCore) (x.addr idx x.pos).2 (loadedOf rs).bytes t1 = .ok () t2) :
    ∃ front z, copyPiece idx x s = pastPiece x idx front z ∧ Steady s z ∧
      ((loadedOf rs).poison = none → (∀ b ∈ (loadedOf rs).tags, b = false) →
        z = cleanGranule (whoEngine s s.curCore) (x.advance (x.addr idx x.pos).2 (x.piece idx) false) t2) := by
  have ht2 : Steady s t2 := ((steady_bulkLoad _ _ _ s).of_ok hload).trans ((steady_bulkStore _ _ _ t1).of_ok hstore)
  have hdrain : Steady s (drainAgent s.curCore 16 t2) := ht2.trans (steady_drainAgent _ _ t2)
  unfold Copy.piece at hload
  unfold copyPiece
  simp only [show elementCheck (s.eng s.curCore) x idx = none from hcheck, hskip, hload, hstore]
  rw [if_neg (by simp)]
  split
  next hmarks =>
    have hunmarked : ¬ ((loadedOf rs).poison = none ∧ ∀ b ∈ (loadedOf rs).tags, b = false) := by
      rintro ⟨hpoison, htags⟩
      simp only [hpoison, Option.isSome_none, Bool.false_or, List.any_eq_true, id] at hmarks
      obtain ⟨b, hb, htrue⟩ := hmarks
      exact absurd (htags b hb) (by simp [htrue])
    split
    next src t hloc =>
      have ht : Steady s t := hdrain.trans ((steady_locate _ _ _ _ _).of_ok hloc)
      exact ⟨_, _, rfl, ht.trans (steady_carryMarks _ _ _ _ _ t), fun hpoison htags => absurd ⟨hpoison, htags⟩ hunmarked⟩
    next => exact ⟨_, _, rfl, ht2, fun hpoison htags => absurd ⟨hpoison, htags⟩ hunmarked⟩
  next =>
    refine ⟨_, _, rfl, ht2.trans (steady_cleanGranule _ _ t2), fun hpoison _ => ?_⟩
    rw [hpoison]
    rfl

/-- The copy and its engine after a piece. -/
theorem pastPiece_engine (front : Option (Nat × Bool)) (hcore : t.curCore = c) :
    ((pastPiece x idx front t).eng c).copy = some (x.moved idx (x.piece idx) front) ∧
      ((pastPiece x idx front t).eng c).state = .running := by
  subst hcore
  unfold pastPiece
  rw [State.modEngMe, State.eng_modEng_self]
  exact ⟨rfl, rfl⟩

/-! SECTOR_ACCESS, with the index word at hand (R77, R78). -/

section sector

variable (hcopy : (s.eng c).copy = some x) (hfault : x.fault = none) (hpos : x.pos < x.total)
  (hstate : (s.eng c).state ≠ .faulted) (hword : if x.kind = 0 then idx = 0 else x.word = some (x.pos / x.esize, idx))
  (htransfer : inTransfer { s with curCore := c } c < 64)

include hcopy hfault hpos hstate hword htransfer

theorem exec_sectorAccess_piece : exec (.sectorAccess c) s = .next (copyPiece idx x { s with curCore := c }) :=
  (exec_sectorAccess hcopy hfault hpos hstate).trans (congrArg Outcome.next (copyStep_piece htransfer hword))

theorem sectorAccess_refused {f : Nat × Nat × Bool} (hcheck : elementCheck (s.eng c) x idx = some f) :
    ∃ t, exec (.sectorAccess c) s = .next t ∧ (t.eng c).copy = some { x with fault := some f } ∧ t.mem = s.mem := by
  refine ⟨_, (exec_sectorAccess_piece hcopy hfault hpos hstate hword htransfer).trans
    (congrArg Outcome.next (copyPiece_refused hcheck)), ?_, rfl⟩
  exact congrArg Engine.copy (State.eng_modEng_self { s with curCore := c } c _)

theorem sectorAccess_skips (hcheck : elementCheck (s.eng c) x idx = none) (hskip : x.skips (x.addr idx x.pos) = true) :
    ∃ t y, exec (.sectorAccess c) s = .next t ∧ (t.eng c).copy = some y ∧ y.pos = x.pos + x.piece idx ∧ y.fault = none ∧
      t.mem = s.mem ∧ t.cdata = s.cdata :=
  ⟨_, x.moved idx (x.piece idx) none, (exec_sectorAccess_piece hcopy hfault hpos hstate hword htransfer).trans
    (congrArg Outcome.next (copyPiece_skips hcheck hskip)), (pastPiece_engine none rfl).1, rfl, hfault, rfl, rfl⟩

theorem sectorAccess_moves {rs : List Reply} {t1 t2 : State} (hcheck : elementCheck (s.eng c) x idx = none)
    (hskip : x.skips (x.addr idx x.pos) = false)
    (hload : bulkLoad (whoEngine { s with curCore := c } c) (x.addr idx x.pos).1 (x.piece idx) { s with curCore := c } = .ok rs t1)
    (hstore : bulkStore (whoEngine { s with curCore := c } c) (x.addr idx x.pos).2 (loadedOf rs).bytes t1 = .ok () t2) :
    ∃ t y, exec (.sectorAccess c) s = .next t ∧ (t.eng c).copy = some y ∧ y.pos = x.pos + x.piece idx ∧ y.fault = none ∧
      y.total = x.total ∧ (t.eng c).state = .running ∧
      ((loadedOf rs).poison = none → (∀ b ∈ (loadedOf rs).tags, b = false) →
        let z := cleanGranule (whoEngine { s with curCore := c } c) (x.advance (x.addr idx x.pos).2 (x.piece idx) false) t2
        t.mem = z.mem ∧ t.cdata = z.cdata ∧ t.tags = z.tags ∧ t.poison = z.poison) := by
  obtain ⟨front, z, hpiece, hz, hclean⟩ := copyPiece_moves (s := { s with curCore := c }) hcheck hskip hload hstore
  obtain ⟨hcopied, hrunning⟩ := pastPiece_engine (x := x) (idx := idx) front hz.curCore
  refine ⟨_, _, (exec_sectorAccess_piece hcopy hfault hpos hstate hword htransfer).trans (congrArg Outcome.next hpiece),
    hcopied, rfl, hfault, rfl, hrunning, fun hpoison htags => ?_⟩
  rw [← hclean hpoison htags]
  exact ⟨rfl, rfl, rfl, rfl⟩

end sector

end Sys2Proof.Machine
end

section
/-! SUPPORT. Copies that complete and copies that stop (R75, R80 to R82, R84 to R86). -/

namespace Sys2Proof.Machine

open Host (Outcome)

variable {c : Nat} {s t u v : State}

/-! Arrivals at a byte group (R80). -/

/-- The bytes of a stopped or complete copy arrive at the engine's group, where it is bound to one. -/
def arriveBound (c n : Nat) (t : State) : State :=
  match (t.eng c).group with
  | some g => (arriveBytes g (t.eng c).tenant n t).getD t
  | none => t

/-- An arrival reads and changes the groups alone. -/
theorem arriveBytes_of_groups {g tenant n : Nat} (h : t.groups = u.groups) (hv : arriveBytes g tenant n u = some v) :
    ∃ w, arriveBytes g tenant n t = some w ∧ w.groups = v.groups := by
  have hgroup : t.group g = u.group g := congrArg (fun m => SMap.get Group.none m g) h
  unfold arriveBytes at hv ⊢
  dsimp only at hv ⊢
  rw [hgroup]
  split at hv
  next hbound =>
    obtain rfl := Option.some.inj hv
    refine ⟨_, if_pos hbound, ?_⟩
    simp only [State.setGroup, h]
  next => cases hv

theorem arriveBytes_cores {g tenant n : Nat} (h : arriveBytes g tenant n t = some v) : v.cores = t.cores := by
  unfold arriveBytes at h
  dsimp only at h
  split at h
  · obtain rfl := Option.some.inj h
    rfl
  · cases h

theorem eng_of_cores (h : t.cores = u.cores) (c : Nat) : t.eng c = u.eng c := by
  unfold State.eng State.core
  rw [h]

theorem eng_arriveBound (c n : Nat) (t : State) : (arriveBound c n t).eng c = t.eng c := by
  unfold arriveBound
  split
  · cases harrive : arriveBytes _ (t.eng c).tenant n t with
    | none => rfl
    | some v => exact eng_of_cores (arriveBytes_cores harrive) c
  · rfl

/-- The groups after the arrival, told from an earlier state with the same groups. -/
theorem groups_arriveBound {n : Nat} (h : Steady u t) :
    ((u.eng c).group = none → (arriveBound c n t).groups = u.groups) ∧
      ∀ g v, (u.eng c).group = some g → arriveBytes g (u.eng c).tenant n u = some v → (arriveBound c n t).groups = v.groups := by
  have hgroup : (t.eng c).group = (u.eng c).group := h.engField Engine.group (fun _ => rfl) c
  have htenant : (t.eng c).tenant = (u.eng c).tenant := h.engField Engine.tenant (fun _ => rfl) c
  unfold arriveBound
  rw [hgroup, htenant]
  refine ⟨fun hnone => ?_, fun g v hsome harrive => ?_⟩
  · rw [hnone]
    exact h.groups
  · obtain ⟨w, hw, hgroups⟩ := arriveBytes_of_groups h.groups harrive
    rw [hsome]
    dsimp only
    rw [hw]
    exact hgroups

/-! COPY_COMPLETE (R75, R80). -/

theorem exec_copyComplete {x : Copy} (hcopy : (s.eng c).copy = some x) (hfault : x.fault = none) (hdone : x.total ≤ x.pos)
    (hstate : (s.eng c).state ≠ .faulted) (hacked : hostWritesOf (drainAgent c 16 s) (engineParty c) = false) :
    exec (.copyComplete c) s = .next ((arriveBound c (x.total - x.arrived)
      (progressWrite c x 2 x.total 0 [] (drainAgent c 16 s))).modEng c fun e => { e.next with copy := none }) := by
  show execCopyComplete c s = _
  unfold execCopyComplete
  rw [hcopy]
  exact if_neg (by simp [hfault, Nat.not_lt.2 hdone, hstate, engineWrites, hacked])

theorem copyComplete_results {x : Copy} (hcopy : (s.eng c).copy = some x) (hfault : x.fault = none) (hdone : x.total ≤ x.pos)
    (hstate : (s.eng c).state ≠ .faulted) (hacked : hostWritesOf (drainAgent c 16 s) (engineParty c) = false) :
    ∃ t, exec (.copyComplete c) s = .next t ∧ (t.eng c).copy = none ∧ (t.eng c).state = .running ∧
      (t.eng c).epc = ((s.eng c).epc + 4) % 2 ^ 52 ∧ (∀ n, (t.eng c).reg n = (s.eng c).reg n) ∧
      ((s.eng c).group = none → t.groups = (drainAgent c 16 s).groups) ∧
      ∀ g v, (s.eng c).group = some g → arriveBytes g (s.eng c).tenant (x.total - x.arrived) (drainAgent c 16 s) = some v →
        t.groups = v.groups := by
  have hdrain := steady_drainAgent c 16 s
  have hwrite := steady_progressWrite c x 2 x.total 0 [] (drainAgent c 16 s)
  have hall := hdrain.trans hwrite
  have hgroups := groups_arriveBound (c := c) (n := x.total - x.arrived) hwrite
  rw [hdrain.engField Engine.group (fun _ => rfl) c, hdrain.engField Engine.tenant (fun _ => rfl) c] at hgroups
  refine ⟨_, exec_copyComplete hcopy hfault hdone hstate hacked, ?_⟩
  rw [State.eng_modEng_self, eng_arriveBound]
  refine ⟨rfl, rfl, ?_, fun n => hall.engField (Engine.reg · n) (fun _ => rfl) c, hgroups⟩
  exact congrArg (fun p => (p + 4) % 2 ^ 52) (hall.engField Engine.epc (fun _ => rfl) c)

/-! Records and stops (R81, R82, R84). -/

theorem steady_engineRecord {cause va total done word : Nat} {write : Bool} {marked : List Nat}
    (h : engineRecord c cause va write total done marked s = some (word, t)) : Steady s t := by
  unfold engineRecord at h
  dsimp only at h
  split at h
  next hpost =>
    obtain ⟨-, rfl⟩ := Prod.mk.inj (Option.some.inj h)
    split at hpost
    · cases hpost
    · exact .of_keepsCores (keepsCores_postNow _ hpost) (aside_postNow _ hpost)
  next => cases h

theorem engineFaulted_stopped (c word : Nat) (h : ((t.eng c).epc, (t.eng c).e, (t.eng c).interrupts, (t.eng c).kickUid)
    = ((s.eng c).epc, (s.eng c).e, (s.eng c).interrupts, (s.eng c).kickUid)) : EngineStopped s (engineFaulted c word t) c word := by
  simp only [Prod.mk.injEq] at h
  obtain ⟨hepc, hregs, hinterrupts, hkick⟩ := h
  unfold EngineStopped engineFaulted
  rw [State.eng_modEng_self]
  refine ⟨rfl, rfl, rfl, rfl, hepc, fun n => ?_, ?_⟩
  · exact congrArg (fun m => SMap.get 0 m n) hregs
  · rw [← hinterrupts, ← hkick]

/-- An engine that stops at its instruction is FAULTED once its record is posted. -/
theorem engineFault_stopped {cause va word : Nat} {write : Bool}
    (h : engineRecord c cause va write 0 0 [] s = some (word, t)) : EngineStopped s (engineFault c cause va write s) c word := by
  rw [engineFault, engineStop_posted h]
  exact engineFaulted_stopped c word ((steady_engineRecord h).engField
    (fun e => (e.epc, e.e, e.interrupts, e.kickUid)) (fun _ => rfl) c)

/-! COPY_STOP (R78, R80, R82). -/

theorem spanStart_le (pg : Nat → Nat × Nat) (p : Nat) : spanStart pg p ≤ p := by
  induction p with
  | zero => exact Nat.le_refl 0
  | succ p ih =>
    unfold spanStart
    split <;> omega

/-- A stopped copy keeps what it was asked for and has told its group, and goes back at most. -/
theorem Copy.stopped_fields (x : Copy) (write : Bool) (hspan : x.spanAt ≤ x.pos) : (x.stopped write).fault = none ∧
    (x.stopped write).pos ≤ x.pos ∧ (x.stopped write).total = x.total ∧ (x.stopped write).arrived = x.arrived := by
  unfold Copy.stopped
  split
  · exact ⟨rfl, spanStart_le _ _, rfl, rfl⟩
  · refine ⟨rfl, ?_, rfl, rfl⟩
    dsimp only
    split
    · exact Nat.le_refl _
    · exact hspan

/-- A stopped copy `y` once its record is posted and its bytes have arrived, at a group or at none. -/
def Copy.told (y : Copy) (word : Nat) (bound : Bool) : Copy :=
  { y with lastWord := word, arrived := if bound then max y.arrived y.done else y.arrived }

/-- The state in which the stopped copy `y` stops, from that in which its record is posted. -/
def stoppedAt (c va word : Nat) (write : Bool) (y : Copy) (t : State) : State :=
  arriveBound c (y.done - y.arrived) (progressWrite c { y with lastWord := word } 3 y.done va (y.bitmap write) t)

section stop

variable {x y : Copy} {cause va word : Nat} {write : Bool}

theorem exec_copyStop (hcopy : (s.eng c).copy = some x) (hfault : x.fault = some (cause, va, write)) (hy : x.stopped write = y)
    (hacked : hostWritesOf (drainAgent c 16 s) (engineParty c) = false)
    (hrecord : engineRecord c cause va write y.total y.done (y.bitmap write) (drainAgent c 16 s) = some (word, t)) :
    exec (.copyStop c) s = .next (engineFaulted c word ((stoppedAt c va word write y t).modEng c fun e =>
      { e with copy := some (y.told word ((stoppedAt c va word write y t).eng c).group.isSome) })) := by
  show execCopyStop c s = _
  unfold execCopyStop
  rw [hcopy]
  dsimp only
  rw [hfault]
  dsimp only
  rw [if_neg (by simp [engineWrites, hacked]), hy, hrecord]
  rfl

theorem steady_stoppedAt_eng (h : Steady s t) {α : Type} (f : Engine → α) (hf : ∀ e, f e.still = f e) :
    f ((stoppedAt c va word write y t).eng c) = f (s.eng c) := by
  rw [stoppedAt, eng_arriveBound]
  exact (h.trans (steady_progressWrite _ _ _ _ _ _ t)).engField f hf c

theorem copyStop_results (hcopy : (s.eng c).copy = some x) (hfault : x.fault = some (cause, va, write)) (hspan : x.spanAt ≤ x.pos)
    (hacked : hostWritesOf (drainAgent c 16 s) (engineParty c) = false)
    (hrecord : ∀ total done marked, ∃ t, engineRecord c cause va write total done marked (drainAgent c 16 s) = some (word, t)) :
    ∃ t y, exec (.copyStop c) s = .next t ∧ EngineStopped s t c word ∧ (t.eng c).copy = some y ∧ y.fault = none ∧
      y.pos ≤ x.pos ∧ y.total = x.total ∧
      y.arrived = (if (s.eng c).group.isSome then max x.arrived y.done else x.arrived) ∧
      ((s.eng c).group = none → t.groups = (drainAgent c 16 s).groups) ∧
      ∀ g v, (s.eng c).group = some g → arriveBytes g (s.eng c).tenant (y.done - x.arrived) (drainAgent c 16 s) = some v →
        t.groups = v.groups := by
  obtain ⟨hnone, hpos, htotal, harrived⟩ := x.stopped_fields write hspan
  generalize hy : x.stopped write = y at hnone hpos htotal harrived
  obtain ⟨t, ht⟩ := hrecord y.total y.done (y.bitmap write)
  have hdrain := steady_drainAgent c 16 s
  have hposted := steady_engineRecord ht
  have hfield {α : Type} (f : Engine → α) (hf : ∀ e, f e.still = f e) :
      f ((stoppedAt c va word write y t).eng c) = f (s.eng c) := steady_stoppedAt_eng (hdrain.trans hposted) f hf
  have hgroups := groups_arriveBound (c := c) (n := y.done - y.arrived) (hposted.trans
    (steady_progressWrite c { y with lastWord := word } 3 y.done va (y.bitmap write) t))
  rw [hdrain.engField Engine.group (fun _ => rfl) c, hdrain.engField Engine.tenant (fun _ => rfl) c, harrived] at hgroups
  refine ⟨_, y.told word ((stoppedAt c va word write y t).eng c).group.isSome, exec_copyStop hcopy hfault hy hacked ht, ?_, ?_,
    hnone, hpos, htotal, ?_, ?_⟩
  · refine engineFaulted_stopped c word ?_
    rw [State.eng_modEng_self]
    exact hfield (fun e => (e.epc, e.e, e.interrupts, e.kickUid)) fun _ => rfl
  · rw [engineFaulted, State.eng_modEng_self, State.eng_modEng_self]
  · rw [hfield Engine.group fun _ => rfl, ← harrived]
    rfl
  · rw [← harrived] at hgroups ⊢
    exact hgroups

end stop

end Sys2Proof.Machine
end

section
/-! SUPPORT. The interrupt of a copy engine, and its scout (R79, R84). -/

namespace Sys2Proof.Machine

open Host (Outcome)

variable {c k : Nat} {s t : State}

/-! What a slot keeps of itself when its instruction is abandoned (R105, R271, R320). -/

/-- A field of the values of a map that an update of every entry keeps. -/
theorem SMap.get_map_field {α β : Type} (d : α) (f : Nat × α → Nat × α) (g : α → β) (hkey : ∀ p, (f p).1 = p.1)
    (hfield : ∀ p, g (f p).2 = g p.2) (m : SMap α) (n : Nat) : g (SMap.get d (m.map f) n) = g (SMap.get d m n) := by
  induction m with
  | nil => rfl
  | cons p m ih =>
    rw [List.map_cons, SMap.get, SMap.get, hkey]
    split
    · exact hfield p
    · exact ih

theorem slot_of_core_slots (h : (t.core c).slots = (s.core c).slots) (k : Nat) : t.slot c k = s.slot c k := by
  unfold State.slot Core.slot
  rw [h]

theorem slot_removeWaiter (party : Nat) (all : Bool) (c k : Nat) (s : State) :
    (removeWaiter party all s).slot c k = s.slot c k := by
  refine slot_of_core_slots ?_ k
  unfold removeWaiter State.core
  refine SMap.get_map_field Core.reset (fun p : Nat × Core => (p.1, _)) Core.slots ?_ ?_ s.cores c
  · exact fun _ => rfl
  · exact fun _ => rfl

theorem slot_leaveBlocked (c k : Nat) (s : State) : (leaveBlocked c k s).slot c k = s.slot c k := by
  unfold leaveBlocked
  split
  · rfl
  · exact slot_modCore_of_slots c c k _ s fun _ => rfl

/-- A slot that keeps nothing of its instruction and does not wait in COMPOSE is not changed by abandoning it. -/
theorem slot_abandon (hkept : (s.slot c k).kept = none) (hreason : (s.slot c k).wait.reason ≠ 0x0D) :
    (abandon c k s).slot c k = s.slot c k := by
  have hcompose : leaveCompose c k s = s := if_neg hreason
  have hlock : (leaveLock c k s).slot c k = s.slot c k := by
    unfold leaveLock
    split
    · exact slot_removeWaiter _ _ c k s
    · rfl
  have hgive : giveBack c k (leaveLock c k s) = leaveLock c k s := by
    unfold giveBack
    rw [hlock, hkept]
  unfold abandon
  rw [hcompose, hgive, slot_of_cores (orphan_cores c k _), slot_leaveBlocked, hlock]

/-! The interrupt (R84, R370). -/

theorem Slot.endWait_c (y : Slot) (clock : Nat) : (y.endWait clock).c = y.c := by
  unfold Slot.endWait
  split <;> rfl

/-- A trap to the trap vector, of a slot that keeps nothing of its instruction. -/
theorem trapAt_results {cause tval resume : Nat} (htrap : (s.slot c k).inTrap = false) (hvector : (s.slot c k).tvec / 2 ≠ 0)
    (hkept : (s.slot c k).kept = none) (hreason : (s.slot c k).wait.reason ≠ 0x0D) :
    ((trapAt c k cause tval resume s).slot c k).tcause = cause ∧
    ((trapAt c k cause tval resume s).slot c k).tval = BitVec.ofNat 64 tval ∧
    ((trapAt c k cause tval resume s).slot c k).tpc = resume % 2 ^ 52 ∧
    ((trapAt c k cause tval resume s).slot c k).inTrap = true ∧
    ((trapAt c k cause tval resume s).slot c k).c = (s.slot c k).c := by
  have hend (g : Nat) (y : Slot) : (Slot.endStep g y).tcause = y.tcause ∧ (Slot.endStep g y).tval = y.tval ∧
      (Slot.endStep g y).tpc = y.tpc ∧ (Slot.endStep g y).inTrap = y.inTrap ∧ (Slot.endStep g y).c = y.c := by
    unfold Slot.endStep
    split <;> exact ⟨rfl, rfl, rfl, rfl, rfl⟩
  unfold trapAt
  dsimp only
  rw [if_neg (by simpa [htrap] using hvector), State.slot_modSlot_self, slot_abandon hkept hreason]
  simp only [hend, Slot.setPc, Slot.endWait_c, and_self]

theorem slot_forget_engine {p : Pend} (h : p.cause = 0x0F) (s : State) : (forget c k p s).slot c k = s.slot c k := by
  unfold forget
  rw [h]
  exact slot_modCore_of_slots c c k _ s fun _ => rfl

/-- A slot that takes a pending cause is outside a trap and keeps nothing of its instruction. -/
theorem dueCause_boundary {p : Pend} (h : dueCause s c k = some p) :
    (s.slot c k).inTrap = false ∧ (s.slot c k).kept = none := by
  unfold dueCause at h
  dsimp only at h
  split at h
  · cases h
  next hfree =>
    simp only [Bool.or_eq_true, not_or, Bool.not_eq_true, Bool.not_eq_false', atBoundary, Bool.and_eq_true] at hfree
    obtain ⟨htrap, ⟨⟨⟨⟨-, hkept⟩, -⟩, -⟩, -⟩, -⟩ := hfree
    exact ⟨htrap, Option.isNone_iff_eq_none.1 hkept⟩

/-- The slot of the lowest number that may take a cause takes it. -/
theorem deliverCause_eq {p : Pend} {cause : Nat} (hk : k < 7) (hable : (s.slot c k).able = true) (hdue : dueCause s c k = some p)
    (hcause : p.cause = cause)
    (hfirst : ∀ j, j < k → ¬ ((s.slot c j).able = true ∧ ∃ q, dueCause s c j = some q ∧ q.cause = cause)) :
    deliverCause c cause s = takePending c k p s := by
  have hfind : ((List.range 7).find? fun j => (s.slot c j).able && (dueCause s c j).any fun q => q.cause == cause) = some k := by
    rw [List.find?_range_eq_some]
    refine ⟨by simp [hable, hdue, hcause], List.mem_range.2 hk, fun j hj => ?_⟩
    have hother := hfirst j hj
    cases hj : dueCause s c j with
    | none => simp
    | some q => simpa [hj, or_iff_not_imp_left] using hother
  unfold deliverCause
  rw [hfind]
  dsimp only
  rw [hdue]

theorem engineInterrupt_results {p : Pend} (hk : k < 7) (hable : (s.slot c k).able = true) (hdue : dueCause s c k = some p)
    (hcause : p.cause = 0x0F)
    (hfirst : ∀ j, j < k → ¬ ((s.slot c j).able = true ∧ ∃ q, dueCause s c j = some q ∧ q.cause = 0x0F))
    (hvector : (s.slot c k).tvec / 2 ≠ 0) (hreason : (s.slot c k).wait.reason ≠ 0x0D) :
    ∃ t, exec (.engineInterrupt c) s = .next t ∧ (t.slot c k).tcause = 0x0F ∧ (t.slot c k).tval = p.tval ∧
      (t.slot c k).tpc = (s.slot c k).pc ∧ (t.slot c k).inTrap = true ∧ (t.slot c k).c = (s.slot c k).c := by
  obtain ⟨htrap, hkept⟩ := dueCause_boundary hdue
  have hslot := slot_forget_engine (c := c) (k := k) hcause s
  have hpc : (s.slot c k).pc % 2 ^ 52 = (s.slot c k).pc := Nat.mod_mod _ _
  refine ⟨_, congrArg Outcome.next (deliverCause_eq hk hable hdue hcause hfirst), ?_⟩
  obtain ⟨h1, h2, h3, h4, h5⟩ := trapAt_results (s := forget c k p s) (cause := p.cause) (tval := p.tval.toNat)
    (resume := (s.slot c k).pc) (hslot ▸ htrap) (hslot ▸ hvector) (hslot ▸ hkept) (hslot ▸ hreason)
  unfold takePending
  refine ⟨h1.trans hcause, h2.trans (BitVec.ofNat_toNat _ _ |>.trans (BitVec.setWidth_eq _)), h3.trans hpc, h4, h5.trans ?_⟩
  rw [hslot]

/-! SCOUT_TRANSLATION (R79). -/

/-- The scout has noted a page. -/
def noted (c page : Nat) (write bad : Bool) (t : State) : State :=
  t.modEng c fun e => { e with scouted := (page, write, bad) :: e.scouted }

/-- What the scout's translation of an address answers. -/
def scoutAnswer (c va : Nat) (write : Bool) (s : State) : Res Unit :=
  if inWindow va then Res.ok () s else (needRights (whoEngine s c) va (if write then 2 else 1) s).bind fun _ t =>
    (homeOf (whoEngine s c) va t).bind fun _ t => .ok () t

theorem steady_scoutAnswer (c va : Nat) (write : Bool) (s : State) : (scoutAnswer c va write s).Steady s :=
  .ite (Steady.refl s) ((steady_needRights _ _ _ s).bind fun _ t ht =>
    (Res.Steady.trans ht (steady_homeOf _ _ t)).bind fun _ _ h => .ok h)

theorem noted_engine (page : Nat) (write bad : Bool) (h : Steady s t) :
    ((noted c page write bad t).eng c).scouted = (page, write, bad) :: (s.eng c).scouted ∧
      ((noted c page write bad t).eng c).copy = (s.eng c).copy := by
  have hscouted : (t.eng c).scouted = (s.eng c).scouted := h.engField Engine.scouted (fun _ => rfl) c
  have hcopy : (t.eng c).copy = (s.eng c).copy := h.engField Engine.copy (fun _ => rfl) c
  unfold noted
  rw [State.eng_modEng_self, ← hscouted, ← hcopy]
  exact ⟨rfl, rfl⟩

theorem scoutTranslation_results {page : Nat} {write : Bool} {x : Copy} (hcopy : (s.eng c).copy = some x)
    (hscout : (s.eng c).scout ≠ 0) (hstate : (s.eng c).state ≠ .faulted) (hpos : x.pos < x.total)
    (hnext : scoutNext s c x = some (page, write)) :
    ∃ t bad, exec (.scoutTranslation c) s = .next t ∧ (t.eng c).scouted = (page, write, bad) :: (s.eng c).scouted ∧
      (t.eng c).copy = some x := by
  have hanswer := steady_scoutAnswer c (page * 65536) write s
  show ∃ t bad, execScoutTranslation c s = _ ∧ _
  unfold execScoutTranslation
  rw [hcopy]
  dsimp only
  rw [if_neg (by simp [hscout, hstate, hpos]), hnext, ← hcopy]
  dsimp only
  unfold scoutAnswer at hanswer
  split
  next t hgo =>
    rw [hgo] at hanswer
    exact ⟨_, false, rfl, noted_engine page write false hanswer⟩
  next t hgo =>
    rw [hgo] at hanswer
    exact ⟨_, false, rfl, noted_engine page write false hanswer⟩
  next e t hgo =>
    rw [hgo] at hanswer
    obtain ⟨hscouted, hkept⟩ := noted_engine (c := c) page write true hanswer
    have hpost (p : Prop) [Decidable p] (r : Rec) : Steady (noted c page write true t)
        (if p then noted c page write true t else queueRecord r (noted c page write true t)) :=
      .ite (.refl _) (steady_queueRecord r _)
    exact ⟨_, true, rfl, ((hpost _ _).engField Engine.scouted (fun _ => rfl) c).trans hscouted,
      ((hpost _ _).engField Engine.copy (fun _ => rfl) c).trans hkept⟩

end Sys2Proof.Machine

open Sys2Proof Sys2Proof.Machine in
/-- Settles O38: the start of each copy, its pieces, its end, and the engine's stops, interrupt and scout. -/
theorem copyResults : Obligations.CopyResults := by
  unfold Obligations.CopyResults
  refine ⟨fun d a b x s => ?starts, fun c idx s x hcopy hfault hpos hstate hword => ?pieces,
    fun c s t x v hcopy hfault hpos hstate hkind hword => ?indexWord,
    fun c s x hcopy hfault hdone hstate hacked => copyComplete_results hcopy hfault hdone hstate hacked,
    fun c cause va word write s x hcopy hfault hspan hrecord hacked => copyStop_results hcopy hfault hspan hacked hrecord,
    fun w word s t hrecord => ⟨_, rfl, engineFault_stopped hrecord⟩,
    fun cause word s t hrecord => ⟨_, rfl, engineFault_stopped hrecord⟩,
    fun c k p s hk hable hdue hcause hfirst hvector hreason =>
      engineInterrupt_results hk hable hdue hcause hfirst hvector hreason,
    fun c page write s x hcopy hscout hstate hpos hnext => scoutTranslation_results hcopy hscout hstate hpos hnext⟩
  case starts =>
    intro e rows len half se de
    refine ⟨blk_empty, fun hpos htotal htag hrecord hinside hapart hacked => ?_, fun p hp => ?_⟩
    · obtain ⟨hslow, hshigh, hsbase, hstop, hread⟩ := hinside (se, 120) (by simp)
      obtain ⟨hdlow, hdhigh, hdbase, hdtop, hwrite⟩ := hinside (de, 121) (by simp)
      have hneed : e.reach.perms &&& 2 = 2 := e.reach.perms_write.trans (if_pos hwrite)
      exact blk_starts rfl rfl rfl rfl hpos htotal hrecord
        (extentCheck_none htag (extent_le _ _ _ _) hslow hshigh hsbase hstop (e.reach.perms_read hread))
        (extentCheck_none htag (extent_le _ _ _ _) hdlow hdhigh hdbase hdtop hneed) hapart hacked
    · intro list n k hsize
      have hexec : exec (p.1 d a b x) s = .next (listCopy p.2 d a b x s) := by
        simp only [List.mem_cons, List.not_mem_nil, or_false] at hp
        rcases hp with rfl | rfl <;> rfl
      refine ⟨fun hempty => hexec.trans (congrArg Host.Outcome.next (listCopy_empty p.2 hsize hempty)),
        fun hpos hrecord htag hbase htop hread hacked => ?_⟩
      have hreach : reachCheck e.reach list (4 * n) 1 = none :=
        reachCheck_none htag (Nat.mod_lt _ (Nat.two_pow_pos 52)) hbase htop (e.reach.perms_read hread)
      obtain ⟨y, hy⟩ := listCopy_starts (d := d) (a := a) p.2 rfl rfl rfl hsize hpos hrecord hreach hacked
      exact ⟨_, y, hexec, hy⟩
  case pieces =>
    intro u w at_ n htransfer
    exact ⟨fun f hcheck => sectorAccess_refused hcopy hfault hpos hstate hword htransfer hcheck,
      sectorAccess_skips hcopy hfault hpos hstate hword htransfer, fun hcheck hskip rs t1 t2 hload hstore =>
        sectorAccess_moves hcopy hfault hpos hstate hword htransfer hcheck hskip hload hstore⟩
  case indexWord =>
    intro u htransfer hload hclean y
    exact (exec_sectorAccess hcopy hfault hpos hstate).trans
      (congrArg Host.Outcome.next (copyStep_word htransfer hkind hword hload hclean))
end

section
/-! SUPPORT. A place in a core's own banks that an access reaches through the self window (R91, R92, R100). -/

namespace Sys2Proof.Machine

variable {c off n o m : Nat} {s : State}

/-- `n` bytes at offset `off` of a small core's own scratchpad or TOB banks, in one sector; no instruction holds a line. -/
structure OwnSector (s : State) (c off n : Nat) : Prop where
  small : isKeystone c = false
  top : off + n ≤ 2 ^ 18
  pos : 0 < n
  sector : off / 256 = (off + n - 1) / 256
  role : bankRole s c (off / 8192) ≠ 1
  holds : s.lineHolds = []

theorem OwnSector.lt (h : OwnSector s c off n) : off < 2 ^ 18 := by
  obtain ⟨-, htop, hpos, -⟩ := h
  omega

/-- A part of an access within a sector is within the sector. -/
theorem OwnSector.part (h : OwnSector s c off n) (hm : 0 < m) (hlow : off ≤ o) (htop : o + m ≤ off + n) : OwnSector s c o m := by
  obtain ⟨hsmall, htop', hpos, hsector, hrole, hholds⟩ := h
  have hbank : o / 8192 = off / 8192 := by omega
  exact ⟨hsmall, by omega, hm, by omega, hbank ▸ hrole, hholds⟩

end Sys2Proof.Machine
end

section
/-! SUPPORT. What giving a slot to a context leaves of its core and of the machine (R115, R334, R336, R350, R352). -/

namespace Sys2Proof.Machine

/-! A node of the wait-for graph that changes (R352). -/

/-- The change of a core's any-slot node changes nothing but cores. -/
theorem bumpCore_eq (c : Nat) (s : State) : bumpCore c s = { s with cores := (bumpCore c s).cores } := by
  unfold bumpCore
  dsimp only
  split
  · split <;> rfl
  · rfl

@[simp] theorem bumpCore_mem (c : Nat) (s : State) : (bumpCore c s).mem = s.mem := by
  rw [bumpCore_eq]

@[simp] theorem bumpCore_net (c : Nat) (s : State) : (bumpCore c s).net = s.net := by
  rw [bumpCore_eq]

@[simp] theorem bumpCore_nacks (c : Nat) (s : State) : (bumpCore c s).nacks = s.nacks := by
  rw [bumpCore_eq]

@[simp] theorem bumpCore_grants (c : Nat) (s : State) : (bumpCore c s).grants = s.grants := by
  rw [bumpCore_eq]

/-- A core without the generations of its nodes. -/
def Core.ageless (x : Core) : Core := { x with gen := 0, cgen := 0 }

theorem ageless_modCore (c d : Nat) (f : Core → Core) (s : State) (hf : ∀ x, (f x).ageless = x.ageless) :
    ((s.modCore c f).core d).ageless = (s.core d).ageless := by
  by_cases hd : d = c
  · subst hd
    rw [State.core_modCore_self, hf]
  · rw [State.core_modCore_ne _ _ _ _ hd]

theorem ageless_bumpCore (c d : Nat) (s : State) : ((bumpCore c s).core d).ageless = (s.core d).ageless := by
  have hgen : ((s.modCore c fun x => { x with gen := (x.gen + 1) % 2 ^ 16 }).core d).ageless = (s.core d).ageless :=
    ageless_modCore c d _ s fun _ => rfl
  unfold bumpCore
  dsimp only
  split
  · split
    · exact hgen
    · exact (ageless_modCore _ d Core.bumpComp _ fun _ => rfl).trans hgen
  · exact hgen

/-- A field of a core that is no generation keeps its value. -/
theorem coreField_bumpCore {α : Type} (f : Core → α) (hf : ∀ x : Core, f x.ageless = f x := by intro; rfl) (c d : Nat)
    (s : State) : f ((bumpCore c s).core d) = f (s.core d) := by
  rw [← hf, ageless_bumpCore, hf]

@[simp] theorem slot_bumpCore (c d k : Nat) (s : State) : (bumpCore c s).slot d k = s.slot d k :=
  coreField_bumpCore (fun x => x.slot k) (fun _ => rfl) c d s

/-! A context that takes a slot (R115, R334). -/

theorem State.core_modSlot_self (s : State) (c k : Nat) (f : Slot → Slot) :
    (s.modSlot c k f).core c = (s.core c).setSlot k (f (s.slot c k)) := State.core_setSlot_self s c k _

/-- The slot that a context takes holds what the context brings, over a fresh slot. -/
theorem slot_place (c k uid : Nat) (f : Slot → Slot) (s : State) :
    (place c k uid f s).slot c k = f ((s.slot c k).fresh s.clock (if uid = 0 then s.nextUid else uid)) := by
  unfold place
  dsimp only
  rw [slot_bumpCore]
  exact State.slot_setSlot_self s c k _

@[simp] theorem place_mem (c k uid : Nat) (f : Slot → Slot) (s : State) : (place c k uid f s).mem = s.mem :=
  bumpCore_mem c _

@[simp] theorem place_net (c k uid : Nat) (f : Slot → Slot) (s : State) : (place c k uid f s).net = s.net :=
  bumpCore_net c _

/-- A field of its core that is no slot and no generation keeps its value. -/
theorem coreField_place {α : Type} (g : Core → α) (hg : ∀ x : Core, g x.ageless = g x) (hslots : ∀ x k y, g (Core.setSlot x k y) = g x)
    (c k uid : Nat) (f : Slot → Slot) (s : State) : g ((place c k uid f s).core c) = g (s.core c) := by
  unfold place
  dsimp only
  rw [coreField_bumpCore g hg]
  exact (congrArg g (State.core_setSlot_self s c k _)).trans (hslots _ _ _)

/-- A fresh slot's vector registers read zero (R115). -/
@[simp] theorem vr_fresh (y : Slot) (clock uid n : Nat) : (y.fresh clock uid).vr n = 0 := rfl

/-! Values of a map under a function that keeps what an unlisted key has. -/

theorem SMap.get_map_val {α : Type} (d : α) (g : α → α) (hd : g d = d) (m : SMap α) (n : Nat) :
    SMap.get d (m.map fun p => (p.1, g p.2)) n = g (SMap.get d m n) := by
  induction m with
  | nil => exact hd.symm
  | cons p m ih =>
    rw [List.map_cons, SMap.get, SMap.get]
    split
    · rfl
    · exact ih

end Sys2Proof.Machine
end

section
/-! SUPPORT. The fields of a capability made from its parts (R98). -/

namespace Sys2Proof.Machine

section
variable (perms x l base cursor : Nat)

theorem mkCap_nat : (mkCap perms x l base cursor).nat =
    (perms * 2 ^ 120 + x * 2 ^ 116 + l * 2 ^ 104 + base % 2 ^ 52 * 2 ^ 52 + cursor % 2 ^ 52) % 2 ^ 128 :=
  BitVec.toNat_ofNat _ _

theorem mkCap_cursor : (mkCap perms x l base cursor).cursor = cursor % 2 ^ 52 := by
  rw [Reg.cursor, mkCap_nat, bits]
  omega

theorem mkCap_base : (mkCap perms x l base cursor).base = base % 2 ^ 52 := by
  rw [Reg.base, mkCap_nat, bits]
  omega

theorem mkCap_length (hx : x < 16) (hl : l < 4096) : (mkCap perms x l base cursor).length = l * 4 ^ x := by
  have hlenL : (mkCap perms x l base cursor).lenL = l := by
    rw [Reg.lenL, mkCap_nat, bits]
    omega
  have hlenX : (mkCap perms x l base cursor).lenX = x := by
    rw [Reg.lenX, mkCap_nat, bits]
    omega
  rw [Reg.length, hlenL, hlenX]

end

end Sys2Proof.Machine
end

section
/-! SUPPORT. SLOT_DISPATCH, SERVICE_TRAP_DISPATCH, PARK_FRAME_WAIT and FAULT_RECORD_POST (R96, R115, R336, R338, R371, R372, R374,
R376, R378). -/

namespace Sys2Proof.Machine

variable {c k : Nat} {s t : State}

/-! Which of those that wait is given the slot (R336, R376). -/

/-- The state in which a core gives a general slot: its turn bit is written. -/
def turned (c : Nat) (b : Bool) (s : State) : State := s.modCore c fun x => { x with turnBit := b }

theorem exec_slotDispatch (hret : returnComposed c s = none) (hgive : giveSlot c false s = some t) :
    exec (.slotDispatch c) s = .next t := by
  show execSlotDispatch c s = _
  unfold execSlotDispatch
  rw [hret, hgive]

/-- A free slot goes to the reservation list, where nothing else waits or where it is the list's turn. -/
theorem giveSlot_resv {r : Resv} (hfree : freeSlot s c false = some k) (hresv : firstResv s c false = some r)
    (hturn : waitingFor s c false = none ∨ (s.core c).turnBit = false) :
    giveSlot c false s = some (grantSlot c k r (turned c (waitingFor s c false).isSome s)) := by
  unfold giveSlot
  dsimp only
  rw [hfree, hresv]
  cases hwait : waitingFor s c false with
  | none => rfl
  | some w =>
    have hbit : (s.core c).turnBit = false := hturn.resolve_left (by simp [hwait])
    simp only [hbit]
    rfl

/-- A free slot goes to what waits, where the list serves nobody or where it is not its turn. -/
theorem giveSlot_waiting {w : Waiting} (hfree : freeSlot s c false = some k) (hwait : waitingFor s c false = some w)
    (hturn : firstResv s c false = none ∨ (s.core c).turnBit = true) :
    giveSlot c false s = some (takeWaiting c k w (turned c false s)) := by
  unfold giveSlot
  dsimp only
  rw [hfree, hwait]
  cases hresv : firstResv s c false with
  | none => rfl
  | some r =>
    have hbit : (s.core c).turnBit = true := hturn.resolve_left (by simp [hresv])
    simp only [hbit]
    rfl

theorem arrivalReady_turned (b : Bool) : arrivalReady (turned c b s) c false = arrivalReady s c false := by
  unfold arrivalReady turned
  rw [State.core_modCore_self]
  rfl

theorem parkedReady_turned (b : Bool) : parkedReady (turned c b s) c false = parkedReady s c false := by
  unfold parkedReady turned
  rw [State.core_modCore_self]
  rfl

theorem arrivalReady_of_waiting {a : Arrival} (h : waitingFor s c false = some (.arrival a)) :
    (arrivalReady s c false).isSome = true := by
  unfold waitingFor at h
  split at h
  · rename_i ha hp; rw [ha]; rfl
  · rename_i ha hp; rw [ha]; rfl
  · cases hp : parkedReady s c false <;> simp [hp] at h

theorem parkedReady_of_waiting {p : Parked} (h : waitingFor s c false = some (.parked p)) :
    (parkedReady s c false).isSome = true := by
  unfold waitingFor at h
  split at h
  · rename_i ha hp; rw [hp]; rfl
  · cases h
  · cases hp : parkedReady s c false <;> simp [hp] at h ⊢

/-- The state in which what waits takes the slot: where an arrival and a released context both wait, the turn goes to the other. -/
def takeTurn (c : Nat) (both : Bool) (s : State) : State :=
  if both then (turned c false s).modCore c fun x => { x with parkTurn := !x.parkTurn } else turned c false s

theorem takeWaiting_arrival {a : Arrival} (h : waitingFor s c false = some (.arrival a)) :
    takeWaiting c k (.arrival a) (turned c false s) = takeArrival c k a (takeTurn c (parkedReady s c false).isSome s) := by
  unfold takeWaiting takeTurn
  dsimp only
  rw [arrivalReady_turned, parkedReady_turned, arrivalReady_of_waiting h, Bool.true_and]

theorem takeWaiting_parked {p : Parked} (h : waitingFor s c false = some (.parked p)) :
    takeWaiting c k (.parked p) (turned c false s) = takeParked c k p (takeTurn c (arrivalReady s c false).isSome s) := by
  unfold takeWaiting takeTurn
  dsimp only
  rw [arrivalReady_turned, parkedReady_turned, parkedReady_of_waiting h, Bool.and_true]

/-! A slot that is reserved (R336, R337). -/

theorem grantSlot_results (c k : Nat) (r : Resv) (s : State) :
    ((grantSlot c k r s).slot c k).holds = .reserved ∧ ((grantSlot c k r s).slot c k).resvFor = some r ∧
    (grantSlot c k r s).grants = s.grants ++ [(c, r)] ∧ ((grantSlot c k r s).core c).resv = (s.core c).resv.erase r ∧
    (grantSlot c k r s).mem = s.mem ∧ ((grantSlot c k r s).core c).turnBit = (s.core c).turnBit := by
  unfold grantSlot
  extract_lets u
  have hgrants : u.grants = s.grants := bumpCore_grants c _
  have hresv : (u.core c).resv = (s.core c).resv.erase r :=
    (coreField_bumpCore Core.resv (fun _ => rfl) c c _).trans (by rw [State.core_modCore_self])
  have hturn : (u.core c).turnBit = (s.core c).turnBit :=
    (coreField_bumpCore Core.turnBit (fun _ => rfl) c c _).trans (by rw [State.core_modCore_self])
  rw [State.slot_modSlot_self, State.core_modSlot_self]
  exact ⟨rfl, rfl, congrArg (· ++ [(c, r)]) hgrants, hresv, bumpCore_mem c _, hturn⟩

/-! A migrated context (R115, R334). -/

theorem arrivals_settleArray (c : Nat) (s : State) : ((settleArray c s).core c).arrivals = (s.core c).arrivals := by
  unfold settleArray
  rw [State.core_modCore_self]
  split
  · split <;> rfl
  · rfl

/-- What a slot holds that a migrated context takes (R115, R264, R334). -/
def migrated (m : Msg) (f : Frame) (y : Slot) : Slot :=
  { y with
    holds := .thread, tenant := m.tenant, domain := f.domain, autoMig := f.autoMig, inTrap := f.inTrap
    pcc := arriveCap f.pcc, c := f.c.map fun (p : Nat × Reg) => (p.1, arriveCap p.2)
    prio := f.prio, tvec := f.tvec, spawnlim := f.spawnlim, asRem := f.byRoute }

theorem startMigrated_eq (c k : Nat) (m : Msg) (f : Frame) (s : State) :
    startMigrated c k m f s = place c k f.uid (migrated m f) s := rfl

/-- A migrated context has what its frame holds; a capability keeps its tag only with its global bit. -/
theorem migrated_registers (m : Msg) (f : Frame) (y : Slot) :
    let z := migrated m f y
    z.holds = .thread ∧ z.tenant = m.tenant ∧ z.domain = f.domain ∧ z.prio = f.prio ∧ z.tvec = f.tvec ∧ z.spawnlim = f.spawnlim ∧
    z.inTrap = f.inTrap ∧ z.autoMig = f.autoMig ∧ z.pcc.raw = f.pcc.raw ∧ z.pcc.tag = (f.pcc.tag && f.pcc.isGlobal) ∧
    (∀ n, (z.cr n).raw = (SMap.get Reg.zero f.c n).raw ∧
      (z.cr n).tag = ((SMap.get Reg.zero f.c n).tag && (SMap.get Reg.zero f.c n).isGlobal)) ∧ ∀ n, z.vr n = y.vr n := by
  have hcr (n : Nat) : (migrated m f y).cr n = arriveCap (SMap.get Reg.zero f.c n) :=
    SMap.get_map_val Reg.zero arriveCap rfl f.c n
  refine ⟨rfl, rfl, rfl, rfl, rfl, rfl, rfl, rfl, rfl, rfl, fun n => ?_, fun _ => rfl⟩
  rw [hcr]
  exact ⟨rfl, rfl⟩

theorem takeArrival_migrated {a : Arrival} {f0 : Frame} {b : List Byte} (hbytes : arrivalBytes c a s = some (b, t))
    (hframe : a.msg.frame = some f0) (htype : a.msg.header.toNat % 256 ≠ 0xFE) :
    takeArrival c k a s = startMigrated c k a.msg (readMigration b f0)
      (settleArray c (t.modCore c fun x => { x with arrivals := x.arrivals.erase a })) := by
  unfold takeArrival
  rw [hbytes, hframe]
  exact if_neg htype

/-- The state after a migrated context has left the arrival queue for a slot. -/
theorem startMigrated_results (c k : Nat) (a : Arrival) (m : Msg) (f : Frame) (t : State) :
    let u := startMigrated c k m f (settleArray c (t.modCore c fun x => { x with arrivals := x.arrivals.erase a }))
    (u.core c).arrivals = (t.core c).arrivals.erase a ∧ u.mem = t.mem ∧
      ∃ y : Slot, u.slot c k = migrated m f y ∧ ∀ n, y.vr n = 0 := by
  dsimp only
  rw [startMigrated_eq, slot_place, coreField_place Core.arrivals (fun _ => rfl) (fun _ _ _ => rfl), arrivals_settleArray,
    State.core_modCore_self]
  exact ⟨rfl, place_mem c k f.uid _ _, _, rfl, vr_fresh _ _ _⟩

/-! A service context (R371, R372). -/

theorem slot_bumpOnce (c d k : Nat) (s t : State) : (bumpOnce c s t).slot d k = t.slot d k :=
  slot_modCore_of_slots c d k _ t fun _ => rfl

/-- What a keystone context holds that starts on frame place `p` of its keystone (R372). -/
def served (s : State) (c k p : Nat) (o : Place) (y : Slot) : Slot :=
  { serviceContext s c k y with
    tenant := (s.slot o.core o.slot).tenant, origin := some p
    c := [(0, mkCap 0x1B 0 512 (0xFFFFFFFF00000 + placeOff p) (0xFFFFFFFF00000 + placeOff p)),
      (1, Reg.ofNat (localWord s c (placeOff p + 0x180) % 256)), (2, Reg.ofNat (localWord s c (placeOff p + 0x188))),
      (3, Reg.ofNat (localWord s c (placeOff p + 0x140) / 2 ^ 32))] ++ (serviceContext s c k y).c }

/-- The frame place is marked. -/
def dispatched (c p : Nat) (o : Place) (s : State) : State :=
  s.modCore c fun x => { x with frames := SMap.put x.frames p { o with dispatched := true } }

theorem served_dispatched (c k p : Nat) (o : Place) (y : Slot) (s : State) :
    served (dispatched c p o s) c k p o y = served s c k p o y := by
  have htenant : (dispatched c p o s).slot o.core o.slot = s.slot o.core o.slot :=
    slot_modCore_of_slots c o.core o.slot _ s fun _ => rfl
  unfold served
  rw [htenant]
  rfl

theorem exec_serviceTrapDispatch {p : Nat} {o : Place} {s0 : State} (hkey : isKeystone c = true)
    (hold : oldestFrame (placeNext c s0) c = some (p, o)) (hslot : o.slot ≠ 0xFFFF)
    (hfree : freeSlot (placeNext c s0) c false = some k) :
    exec (.serviceTrapDispatch c) s0 = .next (bumpOnce c s0
      (place c k 0 (served (dispatched c p o (placeNext c s0)) c k p o) (dispatched c p o (placeNext c s0)))) := by
  show execServiceTrapDispatch c s0 = _
  unfold execServiceTrapDispatch
  dsimp only
  rw [hkey, hold, hfree]
  exact if_neg hslot

/-- The state in which the context starts, over `s`. -/
theorem dispatched_results {p : Nat} {o : Place} (s0 s : State) :
    let t := bumpOnce c s0 (place c k 0 (served (dispatched c p o s) c k p o) (dispatched c p o s))
    t.mem = s.mem ∧ SMap.get o (t.core c).frames p = { o with dispatched := true } ∧
      ∃ y : Slot, t.slot c k = served s c k p o y ∧ ∀ n, y.vr n = 0 := by
  refine ⟨place_mem _ _ _ _ _, ?_, ((dispatched c p o s).slot c k).fresh (dispatched c p o s).clock (dispatched c p o s).nextUid, ?_,
    vr_fresh _ _ _⟩
  · have hframes : ((dispatched c p o s).core c).frames = SMap.put (s.core c).frames p { o with dispatched := true } := by
      rw [dispatched, State.core_modCore_self]
    unfold bumpOnce
    rw [State.core_modCore_self]
    dsimp only
    rw [coreField_place Core.frames (fun _ => rfl) (fun _ _ _ => rfl), hframes]
    exact SMap.get_put_self _ _ _ _
  · rw [slot_bumpOnce, slot_place, served_dispatched, if_pos rfl]

/-- The registers of a context that starts on a frame (R372). -/
theorem served_results (s : State) (c k p : Nat) (o : Place) (y : Slot) :
    let z := served s c k p o y
    let block (off : Nat) : Reg := ⟨BitVec.ofNat 128 (leNat (bytesAt s.mem (localKey c off) 16)), physTag s (localKey c off)⟩
    z.holds = .thread ∧ z.mode = .service ∧ z.origin = some p ∧ z.tenant = (s.slot o.core o.slot).tenant ∧ z.pcc = block 0 ∧
    z.cr 1 = Reg.ofNat (localWord s c (placeOff p + 0x180) % 256) ∧ z.cr 2 = Reg.ofNat (localWord s c (placeOff p + 0x188)) ∧
    z.cr 12 = block (0x10 + 16 * k) ∧ (z.cr 0).tag = true ∧
    (p < 32 → (z.cr 0).cursor = 0xFFFFFFFF00000 + placeOff p ∧ (z.cr 0).base = 0xFFFFFFFF00000 + placeOff p) ∧
    (z.cr 0).length = 512 ∧ z.domain = localWord s c 0x50 % 256 ∧ z.prio = localWord s c 0x50 / 256 % 16 := by
  have hc0 : (served s c k p o y).cr 0 = mkCap 0x1B 0 512 (0xFFFFFFFF00000 + placeOff p) (0xFFFFFFFF00000 + placeOff p) := rfl
  have hfits (hp : p < 32) : (0xFFFFFFFF00000 + placeOff p) % 2 ^ 52 = 0xFFFFFFFF00000 + placeOff p := by
    unfold placeOff
    omega
  refine ⟨rfl, rfl, rfl, rfl, rfl, rfl, rfl, rfl, rfl, fun hp => ?_, ?_, rfl, rfl⟩
  · rw [hc0, mkCap_cursor, mkCap_base]
    exact ⟨hfits hp, hfits hp⟩
  · rw [hc0, mkCap_length _ _ _ _ _ (by decide) (by decide)]
    norm_num

/-! A context that is parked (R374). -/

theorem cores_of_apart (h : apart t = apart s) : t.cores = s.cores :=
  show (apart t).cores = (apart s).cores from congrArg State.cores h

theorem tryPark_waits {q : ParkReq} (hwant : (s.slot c k).parkWant = some q)
    (hnone : isKeystone c = true ∨ freePark s c (s.slot c k).tenant = none) : tryPark c k s = s := by
  have hlines : (if isKeystone c then none else freePark s c (s.slot c k).tenant) = none := by
    rcases hnone with h | h <;> simp [h]
  unfold tryPark
  dsimp only
  rw [hwant]
  dsimp only
  rw [hlines]

/-- The tags of a parked context's capabilities are set on the lines of its frame (R375). -/
def tagLines (c : Nat) (lines : List Nat) (y : Slot) (s : State) : State :=
  let cap (off : Nat) (r : Reg) (u : State) : State :=
    if r.tag then writeAt (frameAt s c lines off) (onLines lines off) (leBytes 16 r.nat) true u else u
  (List.range 16).foldl (fun s i => cap (0x40 + 16 * i) (y.cr i) s) (cap 0x10 y.pcc s)

theorem apart_tagLines (c : Nat) (lines : List Nat) (y : Slot) (s : State) : apart (tagLines c lines y s) = apart s :=
  (apart_foldl _ _ (fun _ _ => apart_ite (apart_writeAt _ _ _ _ _) rfl) _).trans (apart_ite (apart_writeAt _ _ _ _ _) rfl)

/-- The context of slot `k` is among those parked at its core, and its slot is free. -/
def leaveFor (c k : Nat) (p : Parked) (s : State) : State :=
  bumpCore c ((s.modCore c fun x => { x with parked := x.parked ++ [p] }).modSlot c k fun y => y.free s.clock .none)

theorem leaveFor_results (c k : Nat) (p : Parked) (s : State) :
    ((leaveFor c k p s).slot c k).holds = .empty ∧ ((leaveFor c k p s).slot c k).tomb = .none ∧
    ((leaveFor c k p s).core c).parked = (s.core c).parked ++ [p] := by
  unfold leaveFor
  rw [slot_bumpCore, State.slot_modSlot_self, coreField_bumpCore Core.parked, State.core_modSlot_self, Core.setSlot_parked,
    State.core_modCore_self]
  exact ⟨rfl, rfl, rfl⟩

theorem tryPark_parks {q : ParkReq} {lines : List Nat} {seq : Nat} {s1 s2 : State} (hwant : (s.slot c k).parkWant = some q)
    (hsmall : isKeystone c = false) (hpark : freePark s c (s.slot c k).tenant = some lines)
    (hnone : ∀ r ∈ s.records, r.tenant ≠ (s.slot c k).tenant) (hpost : postNow (parkRec s c k q) s = some (seq, s1))
    (hwrite : writeLines (whoSlot s c k) lines ((List.range 32).map fun i => (256 * i, ((fullFrame (s.partyAt c k) (s.slot c k) 1 seq
      (7 + q.flags / 2 ^ 15 % 2 * 2 ^ 10) q.va).drop (256 * i)).take 256)) s1 = some s2) :
    tryPark c k s = leaveFor c k ⟨lines.headD 0, false, lines, { s.slot c k with parkWant := none }⟩
      (tagLines c lines (s.slot c k) s2) := by
  have hrecords : (s.records.any fun r => r.tenant == (s.slot c k).tenant) = false := by
    simpa using hnone
  unfold parkRec at hpost
  unfold tryPark
  dsimp only
  rw [hwant]
  dsimp only
  rw [hsmall, if_neg (by decide), hpark]
  dsimp only
  rw [hrecords, if_neg (by decide), hpost]
  dsimp only
  rw [hwrite]
  rfl

end Sys2Proof.Machine

open Sys2Proof Sys2Proof.Machine in
/-- Settles O47: each event's first choice is made, and the context or record goes where the choice says. -/
theorem slotDispatches : Obligations.SlotDispatches := by
  unfold Obligations.SlotDispatches
  refine ⟨fun c k r s hret hfree hresv hturn => ?reserved, fun c k a f0 b s s1 hret hfree hwait hturn hbytes hframe htype => ?migrated,
    fun c k p s hret hfree hwait hresv => ?released, fun c k p o s0 hkey hold hslot hfree => ?service,
    fun c k q s hwant => ⟨fun hnone => ?waits, fun lines seq s1 s2 hsmall hpark hnone hpost hwrite => ?parks⟩,
    fun tenant q r s u hfirst => ?record⟩
  case reserved =>
    obtain ⟨hholds, hfor, hgrants, hlist, hmem, hbit⟩ := grantSlot_results c k r (turned c (waitingFor s c false).isSome s)
    refine ⟨_, exec_slotDispatch hret (giveSlot_resv hfree hresv hturn), hholds, hfor, hgrants, ?_, hmem, ?_⟩
    · rw [hlist, turned, State.core_modCore_self]
    · rw [hbit, turned, State.core_modCore_self]
  case migrated =>
    have htake := takeArrival_migrated (k := k) (hbytes : arrivalBytes c a (takeTurn c _ s) = _) hframe htype
    obtain ⟨harrivals, hmem, y, hz, hv⟩ := startMigrated_results c k a a.msg (readMigration b f0) s1
    refine ⟨_, exec_slotDispatch hret ((giveSlot_waiting hfree hwait hturn).trans
      (congrArg some ((takeWaiting_arrival hwait).trans htake))), harrivals, hmem, ?_⟩
    obtain ⟨h1, h2, h3, h4, h5, h6, h7, h8, h9, h10, hregs, hvregs⟩ := migrated_registers a.msg (readMigration b f0) y
    extract_lets f z
    rw [show z = _ from hz]
    exact ⟨h1, h2, h3, h4, h5, h6, h7, h8, h9, h10, hregs, fun n => (hvregs n).trans (hv n)⟩
  case released =>
    exact exec_slotDispatch hret ((giveSlot_waiting hfree hwait (.inl hresv)).trans (congrArg some (takeWaiting_parked hwait)))
  case service =>
    obtain ⟨hmem, hframes, y, hz, hv⟩ := dispatched_results (c := c) (k := k) (p := p) (o := o) s0 (placeNext c s0)
    obtain ⟨h1, h2, h3, h4, h5, h6, h7, h8, h9, h10, h11, h12, h13⟩ := served_results (placeNext c s0) c k p o y
    refine ⟨_, exec_serviceTrapDispatch hkey hold hslot hfree, hmem, hframes, ?_⟩
    extract_lets z block
    rw [show z = _ from hz]
    exact ⟨h1, h2, h3, h4, h5, h6, h7, h8, h9, h10, h11, h12, h13, hv⟩
  case waits => exact congrArg Host.Outcome.next (tryPark_waits hwant hnone)
  case parks =>
    obtain ⟨hholds, htomb, hparked⟩ := leaveFor_results c k ⟨lines.headD 0, false, lines, { s.slot c k with parkWant := none }⟩
      (tagLines c lines (s.slot c k) s2)
    have hcore : (tagLines c lines (s.slot c k) s2).core c = s2.core c := by
      unfold State.core
      rw [cores_of_apart (apart_tagLines c lines (s.slot c k) s2)]
    exact ⟨_, congrArg Host.Outcome.next (tryPark_parks hwant hsmall hpark hnone hpost hwrite), hholds, htomb, hcore ▸ hparked⟩
  case record =>
    constructor
    all_goals
      intro hpost
      show execFaultRecordPost tenant s = _
      unfold execFaultRecordPost
      rw [hfirst]
      dsimp only
      rw [hpost]
end

section
/-! SUPPORT. Messages on their way: activations, deposits, refusals, grants and resends (R93, R330 to R340, R384, R391). -/

namespace Sys2Proof.Machine

variable {c k i : Nat} {m : Msg} {e : Entry} {s t u : State}

/-! A message without a grant (R336). -/

theorem reservedSlot_not_granted (c : Nat) (s : State) (h : m.granted = false) : reservedSlot s c m = none :=
  if_pos (by simp [h])

theorem unreserve_not_granted (c : Nat) (s : State) (h : m.granted = false) : unreserve c m s = s := by
  unfold unreserve
  rw [reservedSlot_not_granted c s h]

theorem slotFor_not_granted (c : Nat) (urgent : Bool) (s : State) (h : m.granted = false) :
    slotFor s c urgent m = openSlot s c urgent := by
  unfold slotFor
  rw [reservedSlot_not_granted c s h]

/-! MESSAGE_ARRIVAL (R331, R340). -/

theorem exec_messageArrival_waits (hnet : s.net[i]? = some m) (hover : overtaken s i m = true) :
    exec (.messageArrival i) s = .next s := by
  show execMessageArrival i s = _
  unfold execMessageArrival
  rw [hnet]
  exact if_pos hover

/-- The state in which message `i` has left the network. -/
def received (i : Nat) (s : State) : State := { s with net := s.net.eraseIdx i }

theorem exec_messageArrival (hnet : s.net[i]? = some m) (hover : overtaken s i m = false) (hpeer : m.peer = none) :
    exec (.messageArrival i) s = .next (deliver m (received i s)) := by
  show execMessageArrival i s = _
  unfold execMessageArrival
  rw [hnet]
  dsimp only
  rw [hover, hpeer]
  rfl

theorem exec_messageArrival_peer {d : Nat} (hnet : s.net[i]? = some m) (hover : overtaken s i m = false) (hpeer : m.peer = some d) :
    exec (.messageArrival i) s = .next ((sendPeer d m (received i s)).getD s) := by
  show execMessageArrival i s = _
  unfold execMessageArrival
  rw [hnet]
  dsimp only
  rw [hover, hpeer]
  rfl

theorem deliver_done (h : arrive m s = .done t) : deliver m s = t := by
  unfold deliver
  rw [h]

theorem deliver_fail {reason : Nat} (h : arrive m s = .fail reason t) : deliver m s = failArrival reason m t := by
  unfold deliver
  rw [h]

/-- A refusal is answered, and entered in the receiver's list where it has room. -/
theorem deliver_refuse {cls : RClass} (h : arrive m s = .refuse cls u) :
    (deliver m s).nacks = u.nacks ++ [⟨{ m with granted := false }, cls, decide ((u.core m.dst).resv.length < 64)⟩] ∧
    ((deliver m s).core m.dst).resv = (if (u.core m.dst).resv.length < 64 then (u.core m.dst).resv ++ [⟨m.srcCore, m.srcSlot, cls⟩]
      else (u.core m.dst).resv) := by
  unfold deliver
  rw [h]
  unfold reserve
  dsimp only
  by_cases hfull : 64 ≤ (u.core m.dst).resv.length
  · rw [if_pos hfull, if_neg (Nat.not_lt.2 hfull), decide_eq_false (Nat.not_lt.2 hfull)]
    exact ⟨rfl, rfl⟩
  · rw [if_neg hfull, if_pos (Nat.lt_of_not_le hfull), decide_eq_true (Nat.lt_of_not_le hfull)]
    refine ⟨congrArg (· ++ _) (bumpCore_nacks m.dst _), ?_⟩
    refine (coreField_bumpCore Core.resv (fun _ => rfl) m.dst m.dst _).trans ?_
    rw [State.core_modCore_self]

/-- A program message by an entry of its receiver's table that is in order goes by the entry. -/
theorem arrive_byEntry (h : Arriving s i m e) :
    arrive m (received i s) = byEntry m.dst m.tenant e m false (received i s) := by
  obtain ⟨-, -, -, hframe, -, htype, htenant, hstate, -, henable, hvtab, hthere, rfl, hgood⟩ := h
  have hclass : ¬ (0xF0 ≤ m.header.toNat % 256 ∧ m.header.toNat % 256 ≤ 0xFB) := by omega
  have hstart : m.header.toNat % 256 ≠ 0xFC := by omega
  have hown : m.tenant ≠ 256 := by omega
  unfold arrive
  dsimp only
  rw [if_neg fun h => hstate h.2, if_neg hclass, if_neg hstart, hframe]
  dsimp only
  rw [if_pos htype]
  unfold arriveProgram
  dsimp only
  have hpass : (!(s.core m.dst).vtabEnable || (s.core m.dst).vtabTenant != m.tenant ||
      !entryThere s m.dst (s.core m.dst).vtabOffset (m.header.toNat % 256)) = false := by
    simp [henable, hvtab, hthere]
  rw [if_neg hown, Nat.mod_eq_of_lt htenant]
  exact (if_neg (Bool.eq_false_iff.1 hpass)).trans (if_neg (Bool.eq_false_iff.1 hgood))

/-! An entry of mode activate (R334). -/

/-- What a slot holds in which an entry starts an activation for a message of no task (R334). -/
def activated (s : State) (c k t : Nat) (e : Entry) (m : Msg) (y : Slot) : Slot :=
  { y with
    holds := .activation
    tenant := t
    pcc := (descCap s t 4).withCursor (bits e.w0 1 51 * 2)
    c := [(12, slotStack s t c k), (13, descCap s t 6), (15, descCap s t 8)]
    domain := bits (descWord s t 10) (8 * bits e.w1 32 2) 8
    prio := bits e.w1 0 4
    spawnlim := 16
    header := m.header
    payload := m.payload
    sender := m.sender
    urgent := e.urgent
    redeliveries := m.redeliver
    trigger := some { m with granted := false }
    task := none }

theorem startActivation_eq (c k t : Nat) (e : Entry) (s : State) (hgrant : m.granted = false) (htask : pKind m.sender ≠ 5) :
    startActivation c k t e m false s = place c k 0 (activated s c k t e m) s := by
  unfold startActivation
  dsimp only
  rw [unreserve_not_granted c s hgrant, if_neg htask]
  rfl

theorem byEntry_activates (hmode : e.mode = 1) (hgrant : m.granted = false) (htask : pKind m.sender ≠ 5)
    (hslot : openSlot s c e.urgent = some k) (hdesc : descOk s m.tenant = true) :
    byEntry c m.tenant e m false s = .done (place c k 0 (activated s c k m.tenant e m) s) := by
  have hdeposit : ¬ (e.mode = 3 ∧ m.redeliver = 0) := by omega
  unfold byEntry
  rw [if_neg (by omega), slotFor_not_granted c e.urgent s hgrant, hslot]
  dsimp only
  rw [if_neg hdeposit]
  dsimp only
  rw [if_pos hdesc, startActivation_eq c k m.tenant e s hgrant htask]

/-- The registers of an activation as it starts (R334). -/
theorem activated_registers (s : State) (c k t : Nat) (e : Entry) (m : Msg) (y : Slot) :
    let z := activated s c k t e m y
    z.holds = .activation ∧ z.tenant = t ∧ z.urgent = e.urgent ∧ z.mode = y.mode ∧
    z.pcc = (descCap s t 4).withCursor (bits e.w0 1 51 * 2) ∧ z.cr 12 = slotStack s t c k ∧
    z.cr 13 = descCap s t 6 ∧ z.cr 15 = descCap s t 8 ∧ (∀ n, n ≠ 12 → n ≠ 13 → n ≠ 15 → z.cr n = Reg.zero) ∧
    (∀ n, z.vr n = y.vr n) ∧ z.prio = bits e.w1 0 4 ∧ z.domain = bits (descWord s t 10) (8 * bits e.w1 32 2) 8 ∧ z.spawnlim = 16 ∧
    z.header = m.header ∧ z.payload = m.payload ∧ z.sender = m.sender := by
  refine ⟨rfl, rfl, rfl, rfl, rfl, rfl, rfl, rfl, fun n h12 h13 h15 => ?_, fun _ => rfl, rfl, rfl, rfl, rfl, rfl, rfl⟩
  exact (if_neg h12).trans ((if_neg h13).trans (if_neg h15))

/-! An entry of mode deposit (R93). -/

theorem noteCount_eq (c n : Nat) (s : State) : noteCount c n s = { s with cores := (noteCount c n s).cores } := by
  unfold noteCount
  split
  · split <;> rfl
  · rfl

theorem cnt_noteCount (c n : Nat) (s : State) : ((noteCount c n s).core c).cnt = (s.core c).cnt := by
  have hnext : ((s.modEng c Engine.next).core c).cnt = (s.core c).cnt := by
    rw [State.modEng, State.core_modCore_self]
  unfold noteCount
  split
  · split
    · exact hnext
    · rfl
  · rfl

/-- Header and payload go to the counter's slot of the buffer, and the counter counts. -/
theorem deposit_results (c : Nat) (e : Entry) (m : Msg) (s : State) :
    let n := bits e.w1 8 4
    let cnt := SMap.get 0 (s.core c).cnt n
    let slot := bits e.w1 16 10 * 256 + cnt % 2 ^ bits e.w1 12 4 * 256
    scratch s c slot 256 = true → ∃ u, deposit c e m s = some u ∧ u.net = s.net ∧
      SMap.get 0 (u.core c).cnt n = (cnt + 1) % 2 ^ 32 ∧
      u.mem = putBytes s.mem (localKey c slot) ((m.header.toNat :: m.payload.map BitVec.toNat).map (leBytes 8)).flatten := by
  intro n cnt slot hscratch
  have hroom : ¬ (!scratch s c slot 256) = true := by simp [hscratch]
  refine ⟨_, if_neg hroom, by rw [noteCount_eq]; rfl, ?_, by rw [noteCount_eq]; rfl⟩
  rw [cnt_noteCount, State.core_modCore_self]
  exact SMap.get_put_self _ _ _ _

theorem byEntry_deposits (t : Nat) (hmode : e.mode = 2) (hgrant : m.granted = false) (htask : pKind m.sender ≠ 5)
    (h : deposit c e m s = some u) : byEntry c t e m false s = .done u := by
  unfold byEntry
  rw [if_pos hmode, if_neg htask, h]
  dsimp only
  rw [unreserve_not_granted c u hgrant]

/-! NEGATIVE_ACKNOWLEDGEMENT, GRANT, REFUSAL_RESEND, REDELIVERY (R300, R337, R384). -/

theorem exec_negativeAcknowledgement {n : Nack} (hnack : s.nacks[i]? = some n)
    (hfree : ∀ h ∈ s.held, ¬ (h.msg.srcCore = n.msg.srcCore ∧ h.msg.srcSlot = n.msg.srcSlot)) :
    exec (.negativeAcknowledgement i) s = .next { s with
      nacks := s.nacks.eraseIdx i, held := s.held ++ [⟨n.msg, n.cls, if n.listed then none else some (s.clock + 1024)⟩] } := by
  have hnone : (s.held.any fun h => h.msg.srcCore == n.msg.srcCore && h.msg.srcSlot == n.msg.srcSlot) = false := by
    simpa using hfree
  show execNegativeAcknowledgement i s = _
  unfold execNegativeAcknowledgement
  rw [hnack]
  dsimp only
  rw [hnone]
  rfl

section grants
variable {r : Resv} (hgrant : s.grants[i]? = some (c, r)) (hsmall : r.core < numCores)
include hgrant hsmall

/-- An owner operation that was refused enters its queue. -/
theorem exec_grant_flight {f : Flight} (hflight : grantedFlight s c r = some f) :
    exec (.grant i) s = .next (addFlight { f with refused := none }
      { s with grants := s.grants.eraseIdx i, flights := s.flights.erase f }) := by
  show execGrant i s = _
  unfold execGrant
  rw [hgrant]
  dsimp only
  rw [if_neg (Nat.not_le.2 hsmall), show grantedFlight { s with grants := s.grants.eraseIdx i } c r = some f from hflight]

/-- A message that was refused is sent again. -/
theorem exec_grant_held {j : Nat} {h : Held} (hflight : grantedFlight s c r = none) (hheld : s.held[j]? = some h)
    (hfirst : s.held.findIdx? (fun h => grantedMsg c r h.msg h.cls && h.resendAt.isNone) = some j) :
    exec (.grant i) s = .next { s with
      grants := s.grants.eraseIdx i, held := s.held.eraseIdx j, net := { h.msg with granted := true } :: s.net } := by
  show execGrant i s = _
  unfold execGrant
  rw [hgrant]
  dsimp only
  rw [if_neg (Nat.not_le.2 hsmall), show grantedFlight { s with grants := s.grants.eraseIdx i } c r = none from hflight, hfirst]
  dsimp only
  rw [hheld]

end grants

theorem exec_refusalResend {j : Nat} {h : Held} (hheld : s.held[j]? = some h)
    (hfirst : s.held.findIdx? (fun h => h.msg.srcCore == c && h.msg.srcSlot == k && h.resendAt.any fun t => decide (t ≤ s.clock)) =
      some j) :
    exec (.refusalResend c k) s = .next { s with held := s.held.eraseIdx j, net := h.msg :: s.net } := by
  show execRefusalResend c k s = _
  unfold execRefusalResend
  rw [hfirst]
  dsimp only
  rw [hheld]

theorem exec_redelivery {j : Nat} {p : Nat × Msg} (hwait : (s.core c).backoff[j]? = some p)
    (hfirst : (s.core c).backoff.findIdx? (fun p => decide (p.1 ≤ s.clock)) = some j) :
    exec (.redelivery c) s = .next (deliver p.2 (s.modCore c fun x => { x with backoff := x.backoff.eraseIdx j })) := by
  show execRedelivery c s = _
  unfold execRedelivery
  rw [hfirst]
  dsimp only
  rw [hwait]

end Sys2Proof.Machine
end

section
/-! SUPPORT. Messages held for an absence buffer (R391). -/

namespace Sys2Proof.Machine

variable {i due : Nat} {m : Msg} {s t : State}

/-! Writes of the table window change nothing but memory, the caches, cores and the accesses on their way. -/

/-- A state without memory, the caches, the cores and the accesses on their way. -/
def beyond (s : State) : State := { apart s with cores := [], flights := [] }

theorem beyond_of_apart (h : apart t = apart s) : beyond t = beyond s :=
  congrArg (fun u => { u with cores := [], flights := [] }) h

theorem beyond_ite {p : Prop} [Decidable p] {a b : State} (ha : beyond a = beyond s) (hb : beyond b = beyond s) :
    beyond (if p then a else b) = beyond s := by split <;> assumption

theorem beyond_foldl {β : Type} (l : List β) (f : State → β → State) (hf : ∀ s b, beyond (f s b) = beyond s) (s : State) :
    beyond (l.foldl f s) = beyond s := by
  induction l generalizing s with
  | nil => rfl
  | cons b l ih => exact (ih _).trans (hf s b)

theorem beyond_amoAt (src : Src) (va n amo b e : Nat) (s : State) : beyond (amoAt src va n amo b e s).2 = beyond s := by
  have hw (l : List Byte) : beyond (writeAt src va l false s) = beyond s := beyond_of_apart (apart_writeAt _ _ _ _ s)
  unfold amoAt
  extract_lets old
  split
  · rfl
  cases amoNew amo n (leNat old) b e with
  | none => rfl
  | some v =>
    cases src with
    | cached h fill => exact beyond_ite (hw (leBytes n v)) (hw (leBytes n v))
    | _ => exact hw (leBytes n v)

theorem beyond_performFlight (f : Flight) (s : State) : beyond (performFlight f s).2 = beyond s := by
  unfold performFlight
  split
  · rfl
  split
  · exact beyond_of_apart (apart_writeOver _ _ _ _ _ s)
  · exact beyond_amoAt _ _ _ _ _ _ s
  · rfl
  · rfl

theorem beyond_finishFlight (f : Flight) (s : State) : beyond (finishFlight f s) = beyond s := by
  unfold finishFlight
  split
  · extract_lets u
    have hu : beyond u = beyond s := (beyond_performFlight f _ : beyond u = beyond { s with flights := s.flights.erase f })
    exact beyond_ite ((beyond_of_apart (apart_setPoison _ _ _ _ u)).trans hu) hu
  · exact beyond_performFlight f s

theorem beyond_tableFill (pa : Nat) (s : State) : beyond (tableFill pa s) = beyond s := by
  have hby (va : Nat) : beyond (settleBy va s) = beyond s :=
    beyond_foldl _ _ (fun s f => beyond_ite (beyond_finishFlight f s) rfl) s
  unfold tableFill
  split
  · extract_lets va u
    have hu : beyond u = beyond s := (beyond_of_apart (apart_fillFrom _ _ _ _ _)).trans (hby va)
    exact beyond_ite rfl hu
  · rfl

theorem beyond_tableBytes (pa : Nat) (l : List Byte) (s : State) : beyond (tableBytes pa l s) = beyond s :=
  (beyond_of_apart (apart_writeAt _ _ _ _ _)).trans (beyond_tableFill pa s)

theorem beyond_tableWords (pa : Nat) (ws : List Nat) (s : State) : beyond (tableWords pa ws s) = beyond s :=
  beyond_foldl _ _ (fun s _ => beyond_tableBytes _ _ s) s

theorem absentHeld_of_beyond (h : beyond t = beyond s) : t.absentHeld = s.absentHeld :=
  show (beyond t).absentHeld = (beyond s).absentHeld from congrArg State.absentHeld h

theorem absentHeld_absenceWrite (m : Msg) (s : State) : (absenceWrite m s).absentHeld = s.absentHeld := by
  unfold absenceWrite
  split
  extract_lets prod e ws u v
  have hv : v.absentHeld = s.absentHeld := absentHeld_of_beyond ((beyond_tableBytes _ _ u).trans (beyond_tableWords e ws s))
  exact hv

/-! ABSENCE_RESEND. -/

theorem exec_absenceResend_waits (hheld : s.absentHeld[i]? = some (due, m))
    (hwait : s.clock < due ∨ ((s.absentHeld.take i).any fun h => sameFlow m h.2) = true) :
    exec (.absenceResend i) s = .next s := by
  show execAbsenceResend i s = _
  unfold execAbsenceResend
  rw [hheld]
  exact if_pos hwait

/-- A message whose turn has come is sent; where its buffer is full it is held again. -/
theorem exec_absenceResend (hheld : s.absentHeld[i]? = some (due, m)) (hdue : due ≤ s.clock)
    (hfirst : ((s.absentHeld.take i).any fun h => sameFlow m h.2) = false) :
    exec (.absenceResend i) s =
      (if i < (netSend m { s with absentHeld := s.absentHeld.take i }).absentHeld.length
       then .next { s with absentHeld := s.absentHeld.set i (s.clock + 1024, m) }
       else .next { netSend m { s with absentHeld := s.absentHeld.take i } with absentHeld := s.absentHeld.eraseIdx i }) := by
  show execAbsenceResend i s = _
  unfold execAbsenceResend
  rw [hheld]
  dsimp only
  rw [if_neg (by simp [hfirst, hdue]), List.take_eraseIdx_eq_take_of_le _ i i (Nat.le_refl i)]

/-- What sending does with a message of an absent tenant: its absence buffer takes it, or it is held. -/
theorem netSend_absent (hfirst : ((s.absentHeld.take i).any fun h => sameFlow m h.2) = false) (hpeer : m.peer = none)
    (hgone : s.absent.contains (m.tenant, globalTile m.dst) = true) (hstate : tenantState s m.tenant ≠ 2) :
    netSend m { s with absentHeld := s.absentHeld.take i } =
    (if 0 < (absenceBuf s m.tenant).2 ∧
        tableRead s (absenceBuf s m.tenant).1 8 - tableRead s ((absenceBuf s m.tenant).1 + 8) 8 < (absenceBuf s m.tenant).2
      then absenceWrite m { s with absentHeld := s.absentHeld.take i }
      else { s with absentHeld := s.absentHeld.take i ++ [(s.clock + 1024, m)] }) := by
  have habsent : (m.peer.isNone && s.absent.contains (m.tenant, globalTile m.dst) && tenantState s m.tenant != 2) = true := by
    rw [hpeer, hgone]
    simpa using hstate
  exact (if_neg (Bool.eq_false_iff.1 hfirst)).trans (if_pos habsent)

section turn
variable (hheld : s.absentHeld[i]? = some (due, m)) (hdue : due ≤ s.clock)
  (hfirst : ((s.absentHeld.take i).any fun h => sameFlow m h.2) = false)
include hheld hdue hfirst

/-- A message that enters the network or its absence buffer is held no longer. -/
theorem exec_absenceResend_sent {u : State} (hsend : netSend m { s with absentHeld := s.absentHeld.take i } = u)
    (hkept : u.absentHeld = s.absentHeld.take i) :
    exec (.absenceResend i) s = .next { u with absentHeld := s.absentHeld.eraseIdx i } := by
  have hlast : ¬ i < u.absentHeld.length := by
    rw [hkept, List.length_take]
    omega
  rw [exec_absenceResend hheld hdue hfirst, hsend, if_neg hlast]

/-- A message of a tenant that is present at its tile, or to a peer, enters the network. -/
theorem exec_absenceResend_present
    (h : m.peer ≠ none ∨ s.absent.contains (m.tenant, globalTile m.dst) = false ∨ tenantState s m.tenant = 2) :
    exec (.absenceResend i) s = .next { s with absentHeld := s.absentHeld.eraseIdx i, net := s.net ++ [m] } := by
  have hpresent : ¬ (m.peer.isNone && s.absent.contains (m.tenant, globalTile m.dst) && tenantState s m.tenant != 2) = true := by
    cases hp : m.peer <;> simp [hp] at h ⊢
    tauto
  refine exec_absenceResend_sent hheld hdue hfirst ((if_neg (Bool.eq_false_iff.1 hfirst)).trans (if_neg hpresent)) rfl

section absent
variable (hpeer : m.peer = none) (hgone : s.absent.contains (m.tenant, globalTile m.dst) = true) (hstate : tenantState s m.tenant ≠ 2)
include hpeer hgone hstate

theorem exec_absenceResend_buffered (hroom : 0 < (absenceBuf s m.tenant).2 ∧
      tableRead s (absenceBuf s m.tenant).1 8 - tableRead s ((absenceBuf s m.tenant).1 + 8) 8 < (absenceBuf s m.tenant).2) :
    exec (.absenceResend i) s =
      .next { absenceWrite m { s with absentHeld := s.absentHeld.take i } with absentHeld := s.absentHeld.eraseIdx i } :=
  exec_absenceResend_sent hheld hdue hfirst ((netSend_absent hfirst hpeer hgone hstate).trans (if_pos hroom))
    (absentHeld_absenceWrite m _)

theorem exec_absenceResend_full (hfull : ¬ (0 < (absenceBuf s m.tenant).2 ∧
      tableRead s (absenceBuf s m.tenant).1 8 - tableRead s ((absenceBuf s m.tenant).1 + 8) 8 < (absenceBuf s m.tenant).2)) :
    exec (.absenceResend i) s = .next { s with absentHeld := s.absentHeld.set i (s.clock + 1024, m) } := by
  have hi : i < s.absentHeld.length := (List.getElem?_eq_some_iff.1 hheld).1
  have hsend := (netSend_absent hfirst hpeer hgone hstate).trans (if_neg hfull)
  rw [exec_absenceResend hheld hdue hfirst, hsend]
  refine if_pos ?_
  simp only [List.length_append, List.length_take, List.length_singleton]
  omega

end absent
end turn

end Sys2Proof.Machine
end

section
/-! SUPPORT. Messages to cores of peer devices (R296, R405, R407, R412). -/

namespace Sys2Proof.Machine

variable {d i link : Nat} {m : Msg} {s : State}

theorem Link.transmit_lists (k : Nat) (x : Link) :
    (x.transmit k).requests = x.requests ∧ (x.transmit k).outbound = x.outbound := ⟨rfl, rfl⟩

/-- Sending the packets that wait changes neither the requests in use nor the packets handed over. -/
theorem Link.pump_lists (l : List Packet) (x : Link) :
    (Link.pump l x).requests = x.requests ∧ (Link.pump l x).outbound = x.outbound := by
  induction l generalizing x with
  | nil => exact ⟨rfl, rfl⟩
  | cons p l ih =>
    unfold Link.pump
    split
    · exact ih (x.transmit p.flits)
    · exact ⟨rfl, rfl⟩

/-- A request that is no write leaves on its link with the lowest tag that is free. -/
theorem sendRequest_leaves {n tag : Nat} {r : Request} (hop : r.op ≠ 2) (htag : freeTag (s.link n) = some tag) :
    ∃ u, sendRequest n r s = some u ∧ u.net = s.net ∧
      (u.link n).requests = (s.link n).requests ++ [{ r with tag := tag, since := s.clock }] ∧
      (u.link n).outbound = (s.link n).outbound ++ [Request.packet s n { r with tag := tag, since := s.clock }] := by
  refine ⟨s.modLink n fun x => Link.push (Request.packet s n { r with tag := tag, since := s.clock })
    { x with requests := x.requests ++ [{ r with tag := tag, since := s.clock }] }, ?_, rfl, ?_, ?_⟩
  · unfold sendRequest
    dsimp only
    rw [htag]
    exact if_pos (.inl hop)
  · rw [State.link_modLink_self]
    exact (Link.pump_lists _ _).1
  · rw [State.link_modLink_self]
    exact (Link.pump_lists _ _).2

theorem sendRequest_stays {n : Nat} (r : Request) (htag : freeTag (s.link n) = none) : sendRequest n r s = none := by
  unfold sendRequest
  dsimp only
  rw [htag]

/-- The request that carries a message to a peer device (R405). -/
def peerRequest (m : Msg) : Request :=
  let data := (m.payload.map fun w => leBytes 8 w.toNat).flatten
  ⟨0, 4, coreAddress m.dst, 0, data.length, data, 0, m.header.toNat, 0, false, false, m.sender, m.sender, 19, m.srcCore, m.tenant, 0,
    some m, false, []⟩

theorem sendPeer_absent (h : peerLink s d m.srcCore m.dst = none) : sendPeer d m s = some (failMsg 4 m s) := by
  unfold sendPeer
  rw [h]

theorem sendPeer_present (h : peerLink s d m.srcCore m.dst = some link) :
    sendPeer d m s = sendRequest link (peerRequest m) s := by
  unfold sendPeer
  rw [h]
  rfl

/-- The packet of a message to a peer device: header, payload and the core's address (R405). -/
theorem peerRequest_packet (s : State) (n tag since : Nat) (m : Msg) :
    let q := Request.packet s n { peerRequest m with tag := tag, since := since }
    q.op = 4 ∧ q.tag = tag ∧ q.words = [m.header.toNat] ∧ q.address = coreAddress m.dst ∧
      q.data = (m.payload.flatMap fun w => leBytes 8 w.toNat).map BitVec.toNat := by
  refine ⟨rfl, rfl, rfl, rfl, ?_⟩
  rw [List.flatMap_def]
  rfl

end Sys2Proof.Machine

open Sys2Proof Sys2Proof.Machine in
/-- Settles O46: each event's guard is decided, and what it does is the operation that the guard lets through. -/
theorem messageArrivals : Obligations.MessageArrivals := by
  unfold Obligations.MessageArrivals
  refine ⟨fun i m s => exec_messageArrival_waits, fun i k m e s harriving hmode hdesc hslot => ?activation,
    fun i m e s harriving hmode hscratch => ?deposit, fun i m cls s u hnet hover hpeer harrive => ?refused,
    fun i reason m s u hnet hover hpeer harrive => ?failed, fun i n s hnack hfree => ?nack, fun i c r s hgrant hsmall => ?grant,
    fun c k j h s hheld hfirst => exec_refusalResend hheld hfirst, fun c j p s hwait hfirst => exec_redelivery hwait hfirst,
    fun i due m s hheld => ?absence, fun i d m s hnet hover hpeer => ?peer⟩
  case activation =>
    have hentry := arrive_byEntry harriving
    obtain ⟨hnet, hover, hpeer, -, hgranted, -, -, -, htask, -⟩ := harriving
    have harrive := hentry.trans
      (byEntry_activates (s := received i s) hmode hgranted htask hslot hdesc)
    refine ⟨_, (exec_messageArrival hnet hover hpeer).trans (congrArg Host.Outcome.next (deliver_done harrive)), place_net _ _ _ _ _,
      place_mem _ _ _ _ _, ?_⟩
    dsimp only
    rw [slot_place]
    exact activated_registers _ _ _ _ _ _ _
  case deposit =>
    have hentry := arrive_byEntry harriving
    obtain ⟨hnet, hover, hpeer, -, hgranted, -, -, -, htask, -⟩ := harriving
    obtain ⟨u, hdeposit, hresults⟩ := deposit_results m.dst e m (received i s) hscratch
    have harrive := hentry.trans (byEntry_deposits m.tenant hmode hgranted htask hdeposit)
    exact ⟨u, (exec_messageArrival hnet hover hpeer).trans (congrArg Host.Outcome.next (deliver_done harrive)), hresults⟩
  case refused => exact ⟨_, exec_messageArrival hnet hover hpeer, deliver_refuse harrive⟩
  case failed => exact (exec_messageArrival hnet hover hpeer).trans (congrArg Host.Outcome.next (deliver_fail harrive))
  case nack => exact ⟨_, exec_negativeAcknowledgement hnack hfree, rfl, rfl⟩
  case grant =>
    exact ⟨fun f => exec_grant_flight hgrant hsmall, fun j h hflight hheld => exec_grant_held hgrant hsmall hflight hheld⟩
  case absence =>
    refine ⟨exec_absenceResend_waits hheld, fun hdue hfirst => ⟨exec_absenceResend_present hheld hdue hfirst,
      fun hpeer hgone hstate => ⟨exec_absenceResend_buffered hheld hdue hfirst hpeer hgone hstate,
        exec_absenceResend_full hheld hdue hfirst hpeer hgone hstate⟩⟩⟩
  case peer =>
    refine ⟨fun habsent => ?_, fun link hlink => ⟨fun htag => ?_, fun tag htag => ?_⟩⟩
    · rw [exec_messageArrival_peer hnet hover hpeer, sendPeer_absent (s := received i s) habsent]
      rfl
    · rw [exec_messageArrival_peer hnet hover hpeer, sendPeer_present (s := received i s) hlink,
        sendRequest_stays (s := received i s) (peerRequest m) htag]
      rfl
    · obtain ⟨u, hsend, hunet, hrequests, houtbound⟩ := sendRequest_leaves (s := received i s)
        (r := peerRequest m) (by simp [peerRequest]) (htag : freeTag ((received i s).link link) = some tag)
      obtain ⟨hop, hqtag, hwords, haddress, hdata⟩ := peerRequest_packet (received i s) link tag s.clock m
      refine ⟨u, _, _, ?_, hunet, hrequests, rfl, rfl, rfl, houtbound, hop, hqtag, hwords, haddress, hdata⟩
      rw [exec_messageArrival_peer hnet hover hpeer, sendPeer_present (s := received i s) hlink, hsend]
      rfl
end

section
/-! SUPPORT. Bytes, tags and poison marks of a run of bytes that is written or read in parts (R5, R30, R92, R102). -/

namespace Sys2Proof.Machine

/-! Runs of bytes. -/

theorem bytesAt_append (m : List Host.Cell) (a i j : Nat) : bytesAt m a (i + j) = bytesAt m a i ++ bytesAt m (a + i) j := by
  induction i generalizing a with
  | zero => simp [bytesAt]
  | succ i ih =>
    rw [show i + 1 + j = (i + j) + 1 by omega, bytesAt, bytesAt, ih, List.cons_append, show a + 1 + i = a + (i + 1) by omega]

theorem putBytes_append (m : List Host.Cell) (a : Nat) (l l' : List Byte) :
    putBytes m a (l ++ l') = putBytes (putBytes m a l) (a + l.length) l' := by
  induction l generalizing m a with
  | nil => rfl
  | cons b l ih =>
    rw [List.cons_append, putBytes, putBytes, ih, List.length_cons, show a + 1 + l.length = a + (l.length + 1) by omega]

theorem leNat_lt (l : List Byte) : leNat l < 256 ^ l.length := by
  induction l with
  | nil => exact Nat.one_pos
  | cons b l ih =>
    have hb : b.toNat < 256 := b.isLt
    rw [leNat, List.length_cons, Nat.pow_succ']
    omega

theorem anyMark_eq_false {m : SMap Bool} {a n : Nat} : anyMark m a n = false ↔ ∀ i < n, SMap.get false m (a + i) = false := by
  induction n generalizing a with
  | zero => simp [anyMark]
  | succ n ih =>
    rw [anyMark, Bool.or_eq_false_iff, ih, Nat.forall_lt_succ_left]
    simp [Nat.add_comm, Nat.add_left_comm]

/-- A mark in a run of keys, and outside it. -/
theorem get_setMarks {m : SMap Bool} (hm : SMap.canon false m) (a n x : Nat) (v : Bool) :
    SMap.get false (setMarks m a n v) x = if a ≤ x ∧ x < a + n then v else SMap.get false m x := by
  split
  · next h =>
    obtain ⟨i, rfl⟩ := Nat.exists_eq_add_of_le h.1
    exact get_setMarks_in hm a n i v (by omega)
  · next h => exact get_setMarks_out m a n x v (by omega)

theorem touched_pos {g n : Nat} (a : Nat) (h : 0 < n) : touched g a n = (a + n - 1) / g - a / g + 1 := if_neg (by omega)

/-- Bytes without poison: so is every part of them. -/
theorem physPoison_part {s : State} {a n b m : Nat} (h : physPoison s a n = false) (hm : 0 < m) (hlow : a ≤ b)
    (htop : b + m ≤ a + n) : physPoison s b m = false := by
  unfold physPoison at h ⊢
  rw [anyMark_eq_false, touched_pos _ (by omega)] at *
  intro i hi
  have hpart := h (b / 64 + i - a / 64) (by omega)
  rwa [show a / 64 + (b / 64 + i - a / 64) = b / 64 + i by omega] at hpart

/-- The tags of the granules that a store of a run of bytes touches. -/
theorem get_storeTags {m : SMap Bool} (hm : SMap.canon false m) {n : Nat} (a g : Nat) (v : Bool) (h : 0 < n) :
    SMap.get false (storeTags m a n v) g = if a / 16 ≤ g ∧ g ≤ (a + n - 1) / 16 then v else SMap.get false m g := by
  have hle : a / 16 ≤ (a + n - 1) / 16 := Nat.div_le_div_right (by omega)
  rw [storeTags, touched_pos a h, get_setMarks hm]
  congr 1
  simp only [eq_iff_iff]
  omega

/-- A store of less than a granule of 64 bytes clears no poison (R30). -/
theorem storePoison_part (m : SMap Bool) {a n : Nat} (h : n < 64) : storePoison m a n = m := by
  have hnone : (a + n) / 64 - (a + 63) / 64 = 0 := by omega
  rw [storePoison, hnone, setMarks]

/-! Parts of an access. -/

/-- Parts that follow on each other from `va` on, `n` bytes in all. -/
def Tiles : List (Nat × Nat) → Nat → Nat → Prop
  | [], _, n => n = 0
  | p :: l, va, n => p.1 = va ∧ 0 < p.2 ∧ p.2 ≤ n ∧ Tiles l (va + p.2) (n - p.2)

theorem tiles_splitBlocks {b : Nat} (hb : 0 < b) (f va n : Nat) (hfuel : n + va % b ≤ b * f) : Tiles (splitBlocks b f va n) va n := by
  induction f generalizing va n with
  | zero =>
    show n = 0
    omega
  | succ f ih =>
    have hmod : va % b < b := Nat.mod_lt va hb
    unfold splitBlocks
    dsimp only
    split
    · assumption
    · split
      · exact ⟨rfl, by omega, by omega, Nat.sub_self n⟩
      · refine ⟨rfl, by dsimp only; omega, by dsimp only; omega, ih _ _ ?_⟩
        have hnext : (va + (b - va % b)) % b = 0 := by
          have hle := Nat.mod_le va b
          rw [show va + (b - va % b) = va - va % b + b by omega, Nat.add_mod_right]
          exact Nat.sub_mod_eq_zero_of_mod_eq (Nat.mod_mod va b).symm
        rw [hnext]
        rw [Nat.mul_succ] at hfuel
        omega

theorem tiles_blocks {b : Nat} (hb : 0 < b) (va n : Nat) : Tiles (splitBlocks b (n / b + 2) va n) va n := by
  refine tiles_splitBlocks hb _ va n ?_
  have hmod : va % b < b := Nat.mod_lt va hb
  have hdiv := Nat.lt_mul_div_succ n hb
  rw [Nat.mul_succ, Nat.mul_succ]
  rw [Nat.mul_succ] at hdiv
  omega

theorem Tiles.mem {l : List (Nat × Nat)} {va n : Nat} (h : Tiles l va n) {p : Nat × Nat} (hp : p ∈ l) :
    va ≤ p.1 ∧ 0 < p.2 ∧ p.1 + p.2 ≤ va + n := by
  induction l generalizing va n with
  | nil => cases hp
  | cons q l ih =>
    obtain ⟨hva, hpos, hle, htail⟩ := h
    rcases List.mem_cons.1 hp with rfl | hp
    · omega
    · have := ih htail hp
      omega

/-- An access within one block has one part. -/
theorem splitBlocks_one {b f va n : Nat} (hn : 0 < n) (h : va % b + n ≤ b) : splitBlocks b (f + 1) va n = [(va, n)] := by
  unfold splitBlocks
  rw [if_neg (by omega)]
  exact if_pos (by omega)

end Sys2Proof.Machine
end

section
/-! SUPPORT. Accesses of a slot to its core's own banks, through the self window (R91, R92, R97, R100, R184). -/

namespace Sys2Proof.Machine

variable {c k off n o m : Nat} {s t u : State} {w : Who}

/-! Addresses of the self window (R91, R92). -/

theorem localKey_add (c : Nat) {off i : Nat} (h : off + i < 2 ^ 18) : localKey c (off + i) = localKey c off + i := by
  unfold localKey
  rw [if_pos h, if_pos (by omega)]
  omega

theorem inWindow_self (h : off < 2 ^ 18) : inWindow (0xFFFFFFFFC0000 + off) = true := by
  have hdiv : (0xFFFFFFFFC0000 + off) / 2 ^ 44 = 0xFF := by omega
  rw [inWindow, hdiv]
  rfl

theorem windowAt_self (hsmall : isKeystone c = false) (h : off < 2 ^ 18) : windowAt c (0xFFFFFFFFC0000 + off) = some (c, off) := by
  have hoff : (0xFFFFFFFFC0000 + off) % 2 ^ 18 = off := by omega
  unfold windowAt
  rw [if_pos (by omega), hsmall, if_neg (by decide), hoff]

theorem windowSrc_self (h : OwnSector s c off n) : windowSrc s c (0xFFFFFFFFC0000 + off) n = some (.bank c off) := by
  obtain ⟨hsmall, htop, hpos, hsector, hrole, -⟩ := h
  have hbank : (off + n - 1) / 8192 = off / 8192 := by omega
  unfold windowSrc
  rw [windowAt_self hsmall (by omega)]
  dsimp only
  rw [hsmall, if_neg (by decide), hbank]
  refine if_pos ?_
  simp [hrole]
  omega

theorem badWindow_self (h : OwnSector s w.core off n) : badWindow w (0xFFFFFFFFC0000 + off) n s = false := by
  have hlt := h.lt
  unfold badWindow
  rw [inWindow_self hlt, if_pos rfl, windowSrc_self h]
  rfl

theorem locateSpan_self (h : OwnSector s w.core off n) (hint : Nat) (write : Bool) :
    locateSpan w (0xFFFFFFFFC0000 + off) n hint write s = .ok (.bank w.core off) s := by
  have hlt := h.lt
  have hfirst : OwnSector s w.core off 1 := h.part Nat.one_pos (Nat.le_refl _) (by have := h.pos; omega)
  have hheld : lineHeld s w (0xFFFFFFFFC0000 + off) = false := by simp [lineHeld, h.holds]
  unfold locateSpan
  rw [if_pos (.inl (inWindow_self hlt))]
  unfold locate
  rw [hheld, inWindow_self hlt, if_neg (by decide), if_pos rfl, windowSrc_self hfirst]

/-- The parts of an access to the own banks. -/
theorem tiles_parts (w : Who) (h : off + n ≤ 2 ^ 18) (hpos : 0 < n) :
    Tiles (parts w (0xFFFFFFFFC0000 + off) n) (0xFFFFFFFFC0000 + off) n := by
  unfold parts
  rw [inWindow_self (by omega)]
  split
  · exact tiles_blocks (by decide) _ n
  · exact tiles_blocks (by decide) _ n

/-- Parts of an access within a sector of the own banks. -/
theorem OwnSector.tile {p : Nat × Nat} {l : List (Nat × Nat)} (h : OwnSector s c off n)
    (hl : Tiles (p :: l) (0xFFFFFFFFC0000 + off) n) :
    p = (0xFFFFFFFFC0000 + off, p.2) ∧ OwnSector s c off p.2 ∧ Tiles l (0xFFFFFFFFC0000 + (off + p.2)) (n - p.2) ∧
      (p.2 = n ∧ l = [] ∨ p.2 < n ∧ OwnSector s c (off + p.2) (n - p.2)) := by
  obtain ⟨hva, hpos, hle, htail⟩ := hl
  refine ⟨Prod.ext hva rfl, h.part hpos (Nat.le_refl _) (by omega), by rwa [← Nat.add_assoc], ?_⟩
  rcases Nat.eq_or_lt_of_le hle with heq | hlt
  · refine .inl ⟨heq, ?_⟩
    cases l with
    | nil => rfl
    | cons q l =>
      obtain ⟨-, hq, hqle, -⟩ := htail
      omega
  · exact .inr ⟨hlt, h.part (by omega) (by omega) (by omega)⟩

theorem OwnSector.of_cores (h : OwnSector s c off n) (hcores : t.cores = s.cores) (hholds : t.lineHolds = s.lineHolds) :
    OwnSector t c off n := by
  have hrole : bankRole t c (off / 8192) = bankRole s c (off / 8192) := by
    unfold bankRole State.core
    rw [hcores]
  exact ⟨h.small, h.top, h.pos, h.sector, hrole ▸ h.role, hholds.trans h.holds⟩

theorem sectorParts_self (h : OwnSector s c off n) :
    sectorParts (0xFFFFFFFFC0000 + off) n = [(0xFFFFFFFFC0000 + off, n)] := by
  have hsector := h.sector
  have hpos := h.pos
  exact splitBlocks_one hpos (by omega)

/-! Reading (R258). -/

/-- What a load takes from unpoisoned bytes of one sector: the bytes, the tag of their first granule, no poison. -/
theorem takeAt_self (h : OwnSector s c off n) (hclean : physPoison s (localKey c off) n = false) :
    let r := takeAt s (.bank c off) (0xFFFFFFFFC0000 + off) n
    r.bytes = bytesAt s.mem (localKey c off) n ∧ (∃ l, r.tags = physTag s (localKey c off) :: l) ∧ r.poison = false := by
  refine ⟨?_, ?_, ?_⟩
  · show readOver s (.bank c off) (0xFFFFFFFFC0000 + off) n = _
    rw [readOver, sectorParts_self h, List.flatMap_singleton, Nat.sub_self]
    rfl
  · show ∃ l, tagsAt s (.bank c off) (0xFFFFFFFFC0000 + off) n = _
    rw [tagsAt, touched_pos _ h.pos, List.range_succ_eq_map]
    exact ⟨_, rfl⟩
  · show (poisonedAt s (.bank c off) (0xFFFFFFFFC0000 + off) n).isSome = false
    have hnone : (splitBlocks 64 (n / 64 + 2) (0xFFFFFFFFC0000 + off) n).find? (fun p =>
        poisonAt s ((Src.bank c off).plus (p.1 - (0xFFFFFFFFC0000 + off))) p.1 p.2) = none := by
      refine List.find?_eq_none.2 fun p hp => ?_
      obtain ⟨hlow, hpos, htop⟩ := (tiles_blocks (by decide) (0xFFFFFFFFC0000 + off) n).mem hp
      have hbound := h.top
      have hpart : physPoison s (localKey c (off + (p.1 - (0xFFFFFFFFC0000 + off)))) p.2 = false := by
        rw [localKey_add c (by omega)]
        exact physPoison_part hclean hpos (by omega) (by omega)
      exact Bool.eq_false_iff.1 hpart
    rw [poisonedAt, hnone]
    rfl

theorem findReply_none (va n : Nat) (hreplies : repliesOf w s = []) : findReply w va n s = none := by
  rw [findReply, hreplies]
  rfl

theorem loadPart_self (hreplies : repliesOf w s = []) (hflights : s.flights = []) (hint va n off : Nat) (acq : Bool) :
    loadPart w hint acq (va, n, .bank w.core off) s = (some (takeAt s (.bank w.core off) va n), s) := by
  have hnear : isRemote w (.bank w.core off) = false := by simp [isRemote]
  unfold loadPart
  dsimp only
  rw [findReply_none va n hreplies, hnear]
  simp [inFlight, hflights]

theorem loadedOf_cons (r : Reply) (rs : List Reply) : (loadedOf (r :: rs)).bytes = r.bytes ++ (loadedOf rs).bytes ∧
    (loadedOf (r :: rs)).tags = r.tags ++ (loadedOf rs).tags := ⟨rfl, rfl⟩

theorem loadParts_self (hreplies : repliesOf w s = []) (hflights : s.flights = []) (hint : Nat) (acq strict : Bool)
    {l : List (Nat × Nat)} (h : OwnSector s w.core off n) (hclean : physPoison s (localKey w.core off) n = false)
    (hl : Tiles l (0xFFFFFFFFC0000 + off) n) :
    ∃ rs, loadParts w hint acq strict false l s = .ok rs s ∧ (loadedOf rs).bytes = bytesAt s.mem (localKey w.core off) n ∧
      loadedTag (loadedOf rs) = physTag s (localKey w.core off) := by
  induction l generalizing off n with
  | nil => exact absurd h.pos (by rw [show n = 0 from hl]; decide)
  | cons p l ih =>
    obtain ⟨hp, hfirst, htail, hrest⟩ := h.tile hl
    have hcleanFirst : physPoison s (localKey w.core off) p.2 = false :=
      physPoison_part hclean hfirst.pos (Nat.le_refl _) (by have := hl.2.2.1; omega)
    obtain ⟨hbytes, ⟨tags, htags⟩, hgood⟩ := takeAt_self hfirst hcleanFirst
    generalize hr : takeAt s (.bank w.core off) (0xFFFFFFFFC0000 + off) p.2 = r at hbytes htags hgood
    have hstep : loadParts w hint acq strict false (p :: l) s =
        (loadParts w hint acq strict false l s).bind fun rs s => .ok (r :: rs) s := by
      rw [hp]
      conv_lhs => unfold loadParts
      rw [findReply_none _ _ hreplies]
      dsimp only
      rw [locateSpan_self hfirst]
      dsimp only
      rw [loadPart_self hreplies hflights, hr]
      dsimp only
      rw [hgood, Bool.and_false]
      rfl
    have htag (rs : List Reply) : loadedTag (loadedOf (r :: rs)) = physTag s (localKey w.core off) := by
      rw [loadedTag, (loadedOf_cons r rs).2, htags]
      rfl
    rcases hrest with ⟨hall, rfl⟩ | ⟨hpart, hrest⟩
    · refine ⟨[r], hstep, ?_, htag []⟩
      rw [(loadedOf_cons r []).1, hbytes, hall]
      exact List.append_nil _
    · have hbound := h.top
      have hkey : localKey w.core (off + p.2) = localKey w.core off + p.2 := localKey_add _ (by omega)
      have hcleanRest : physPoison s (localKey w.core (off + p.2)) (n - p.2) = false := by
        rw [hkey]
        exact physPoison_part hclean (by omega) (by omega) (by omega)
      obtain ⟨rs, hrs, hrsBytes, -⟩ := ih hrest hcleanRest htail
      refine ⟨r :: rs, ?_, ?_, htag rs⟩
      · rw [hstep, hrs]
        rfl
      · rw [(loadedOf_cons r rs).1, hbytes, hrsBytes, hkey, ← bytesAt_append, Nat.add_sub_cancel' (Nat.le_of_lt hpart)]

end Sys2Proof.Machine
end

section
/-! SUPPORT. A store to the own banks, part by part (R92, R100, R102, R260). -/

namespace Sys2Proof.Machine

variable {c k off n o m : Nat} {s t u : State} {w : Who} {data data' : List Byte} {tagged : Bool}

/-- What a store of `data` at `k` leaves: its bytes and the tags of the granules that it touches. -/
structure Stored (s t : State) (k : Nat) (data : List Byte) (tagged : Bool) : Prop where
  same : t = { s with mem := putBytes s.mem k data, tags := t.tags }
  tags (g : Nat) : SMap.get false t.tags g = if k / 16 ≤ g ∧ g ≤ (k + data.length - 1) / 16 then tagged else SMap.get false s.tags g
  canonical : SMap.canon false t.tags

theorem physWrite_stored (hs : SMap.canon false s.tags) (k : Nat) (tagged : Bool) (hpos : 0 < data.length) (hle : data.length < 64) :
    Stored s (physWrite k data tagged s) k data tagged := by
  refine ⟨?_, fun g => get_storeTags hs k g tagged hpos, canon_storeTags hs _ _ _⟩
  unfold physWrite
  rw [storePoison_part _ hle]

theorem Stored.trans (h : Stored s t k data tagged) (h' : Stored t u (k + data.length) data' tagged) (hpos : 0 < data.length)
    (hpos' : 0 < data'.length) : Stored s u k (data ++ data') tagged := by
  obtain ⟨hsame, htags, -⟩ := h
  obtain ⟨hsame', htags', hcanonical⟩ := h'
  refine ⟨?_, fun g => ?_, hcanonical⟩
  · rw [hsame', hsame, putBytes_append]
  · rw [htags', htags, List.length_append]
    by_cases hright : (k + data.length) / 16 ≤ g ∧ g ≤ (k + data.length + data'.length - 1) / 16
    · rw [if_pos hright, if_pos (by omega)]
    · rw [if_neg hright]
      exact if_congr (by omega) rfl rfl

theorem storePart_self (h : OwnSector s w.core off data.length) (hint : Nat) (rel tagged : Bool) :
    storePart w hint rel tagged false data (0xFFFFFFFFC0000 + off, data.length, .bank w.core off) s =
      some (physWrite (localKey w.core off) data tagged s) := by
  have hnear : isRemote w (.bank w.core off) = false := by simp [isRemote]
  unfold storePart
  dsimp only
  rw [hnear, Bool.and_false, Bool.false_and, if_neg (by decide), if_neg (by decide), writeOver, sectorParts_self h]
  have hhere : (if hint = 2 then (Src.bank w.core off).here (0xFFFFFFFFC0000 + off) s else .bank w.core off) = .bank w.core off := by
    split <;> rfl
  simp [Src.plus, hhere, writeAt]

theorem locateParts_self (hint : Nat) (write : Bool) {l : List (Nat × Nat)} (h : OwnSector s w.core off n)
    (hl : Tiles l (0xFFFFFFFFC0000 + off) n) :
    locateParts w hint write l s = .ok (l.map fun p => (p.1, p.2, .bank w.core (p.1 - 0xFFFFFFFFC0000))) s := by
  induction l generalizing off n with
  | nil => rfl
  | cons p l ih =>
    obtain ⟨hp, hfirst, htail, hrest⟩ := h.tile hl
    have hlater : locateParts w hint write l s = .ok (l.map fun p => (p.1, p.2, .bank w.core (p.1 - 0xFFFFFFFFC0000))) s := by
      rcases hrest with ⟨-, rfl⟩ | ⟨-, hrest⟩
      · rfl
      · exact ih hrest htail
    rw [List.map_cons, hp, locateParts, locateSpan_self hfirst, Res.bind, hlater, Nat.add_sub_cancel_left]
    rfl

theorem storeParts_self (hint : Nat) (rel : Bool) {l : List (Nat × Nat)} (h : OwnSector s w.core off data.length)
    (hle : data.length < 64) (hs : SMap.canon false s.tags) (hl : Tiles l (0xFFFFFFFFC0000 + off) data.length) :
    ∃ t, storeParts w hint rel tagged (fun _ => false) (l.map fun p => (p.1, p.2, .bank w.core (p.1 - 0xFFFFFFFFC0000))) data s =
      some t ∧ Stored s t (localKey w.core off) data tagged := by
  induction l generalizing off data s with
  | nil => exact absurd h.pos (by rw [show data.length = 0 from hl]; decide)
  | cons p l ih =>
    obtain ⟨hp, hfirst, htail, hrest⟩ := h.tile hl
    have hsize : p.2 ≤ data.length := hl.2.2.1
    have htake : (data.take p.2).length = p.2 := List.length_take_of_le hsize
    have hpart := storePart_self (data := data.take p.2) (htake.symm ▸ hfirst) hint rel tagged
    rw [htake] at hpart
    have hdone := physWrite_stored hs (localKey w.core off) tagged (data := data.take p.2) (by rw [htake]; exact hfirst.pos)
      (by omega)
    have hstep : storeParts w hint rel tagged (fun _ => false)
        ((p :: l).map fun p => (p.1, p.2, .bank w.core (p.1 - 0xFFFFFFFFC0000))) data s =
        storeParts w hint rel tagged (fun _ => false) (l.map fun p => (p.1, p.2, .bank w.core (p.1 - 0xFFFFFFFFC0000)))
          (data.drop p.2) (physWrite (localKey w.core off) (data.take p.2) tagged s) := by
      rw [List.map_cons, hp, storeParts, Nat.add_sub_cancel_left, hpart]
    rw [hstep]
    rcases hrest with ⟨hall, rfl⟩ | ⟨hlt, hrest⟩
    · rw [hall, List.take_length] at hdone ⊢
      exact ⟨_, rfl, hdone⟩
    · have hdrop : (data.drop p.2).length = data.length - p.2 := List.length_drop
      have hrest' : OwnSector (physWrite (localKey w.core off) (data.take p.2) tagged s) w.core (off + p.2) (data.drop p.2).length :=
        hdrop.symm ▸ hrest.of_cores rfl rfl
      obtain ⟨t, ht, hstored⟩ := ih hrest' (by omega) hdone.canonical (hdrop.symm ▸ htail)
      refine ⟨t, ht, ?_⟩
      rw [localKey_add _ (by have := h.top; omega)] at hstored
      have hboth := hdone.trans (by rwa [htake]) (by rw [htake]; exact hfirst.pos) (by omega)
      rwa [List.take_append_drop] at hboth

end Sys2Proof.Machine
end

section
/-! SUPPORT. What an access of general registers keeps of the slot and of its core (R103, R105, R41, R295). -/

namespace Sys2Proof.Machine

variable {s t u : State} {y z : Slot}

/-- A slot without what its instruction has popped. -/
def Slot.unkept (y : Slot) : Slot := { y with kept := none, miPos := 0 }

/-- The running core's PLB holds the right `b` of the current slot's domain to the self window. -/
def SelfRight (s : State) (b : Nat) : Prop :=
  (s.core s.curCore).plb.find? (fun e => e.1 == s.me.domain && e.2.1 == 2 ^ 23 - 1) = some (s.me.domain, 2 ^ 23 - 1, b)

/-- Only cores change; the current slot keeps everything but what its instruction has popped, its core keeps its bank roles and
the right to the self window. -/
structure Idle (s t : State) : Prop where
  same : t = { s with cores := t.cores }
  role : (t.core s.curCore).bankrole = (s.core s.curCore).bankrole
  me : t.me.unkept = s.me.unkept
  context : context t = context s
  right (b : Nat) : SelfRight s b → SelfRight t b

theorem Idle.refl (s : State) : Idle s s := ⟨rfl, rfl, rfl, rfl, fun _ => id⟩

theorem Idle.curCore (h : Idle s t) : t.curCore = s.curCore := congrArg Prod.fst h.context

theorem Idle.curSlot (h : Idle s t) : t.curSlot = s.curSlot := congrArg (fun x => x.2.1) h.context

theorem Idle.domain (h : Idle s t) : t.me.domain = s.me.domain := congrArg (fun x => x.2.2.2.1) h.context

theorem Idle.trans (h : Idle s t) (h' : Idle t u) : Idle s u := by
  have hcore := h.curCore
  obtain ⟨hsame, hrole, hme, hctx, hright⟩ := h
  obtain ⟨hsame', hrole', hme', hctx', hright'⟩ := h'
  refine ⟨?_, ?_, hme'.trans hme, hctx'.trans hctx, fun b hb => hright' b (hright b hb)⟩
  · rw [hsame', hsame]
  · rw [← hrole, ← hcore, hrole']

/-- A core's queues, ports, marks and PLB are none of what an access keeps. -/
theorem Idle.modCore (c : Nat) (f : Core → Core) (s : State)
    (hf : ∀ x, (f x).slots = x.slots ∧ (f x).comp = x.comp ∧ (f x).bankrole = x.bankrole)
    (hright : ∀ b, SelfRight s b → SelfRight (s.modCore c f) b) : Idle s (s.modCore c f) := by
  refine ⟨rfl, ?_, ?_, context_modCore c f s (fun x => (hf x).1) (fun x => (hf x).2.1), hright⟩
  · by_cases hc : s.curCore = c
    · rw [hc, State.core_modCore_self, (hf _).2.2]
    · rw [State.core_modCore_ne _ _ _ _ hc]
  · exact congrArg Slot.unkept (slot_modCore_of_slots c s.curCore s.curSlot f s fun x => (hf x).1)

/-- The right found is the right that a later look finds (R41). -/
theorem idle_plbUse {b : Nat} (h : SelfRight s b) :
    Idle s (s.modCore s.curCore fun x => plbUse x s.me.domain (2 ^ 23 - 1) b) := by
  refine .modCore _ _ s (fun _ => ⟨rfl, rfl, rfl⟩) fun b' hb' => ?_
  obtain rfl : b = b' := by simpa using h.symm.trans hb'
  have hdomain : (s.modCore s.curCore fun x => plbUse x s.me.domain (2 ^ 23 - 1) b).me = s.me :=
    slot_modCore_of_slots s.curCore s.curCore s.curSlot _ s fun _ => rfl
  unfold SelfRight
  rw [hdomain]
  show ((s.modCore s.curCore _).core s.curCore).plb.find? _ = _
  rw [State.core_modCore_self, plbUse]
  simp

theorem selfRight_modCore {b c : Nat} {f : Core → Core} (hf : ∀ x, (f x).slots = x.slots ∧ (f x).plb = x.plb) (h : SelfRight s b) :
    SelfRight (s.modCore c f) b := by
  have hme : (s.modCore c f).me = s.me := slot_modCore_of_slots c s.curCore s.curSlot f s fun x => (hf x).1
  have hplb : ((s.modCore c f).core s.curCore).plb = (s.core s.curCore).plb := by
    by_cases hc : s.curCore = c
    · rw [hc, State.core_modCore_self, (hf _).2]
    · rw [State.core_modCore_ne _ _ _ _ hc]
  unfold SelfRight
  rw [hme]
  exact (congrArg (List.find? _) hplb).trans h

theorem idle_foldr_unread (c : Nat) (l : List (Nat × Word)) (s : State) :
    Idle s (l.foldr (fun p s => s.modCore c fun y => y.unread p.1 p.2) s) := by
  have hunread (x : Core) (f : Nat) (w : Word) :
      ((x.unread f w).slots = x.slots ∧ (x.unread f w).comp = x.comp ∧ (x.unread f w).bankrole = x.bankrole) ∧
        (x.unread f w).plb = x.plb := by
    unfold Core.unread
    dsimp only
    split <;> exact ⟨⟨rfl, rfl, rfl⟩, rfl⟩
  induction l with
  | nil => exact .refl s
  | cons p l ih => exact ih.trans (.modCore c _ _ (fun x => (hunread x p.1 p.2).1) fun b => selfRight_modCore fun x =>
      ⟨(hunread x p.1 p.2).1.1, (hunread x p.1 p.2).2⟩)

theorem Idle.modSlot (h : Idle s t) (f : Slot → Slot) (hf : ∀ y, (f y).unkept = y.unkept) :
    Idle s (t.modSlot s.curCore s.curSlot f) := by
  refine h.trans ?_
  rw [← h.curCore, ← h.curSlot]
  refine ⟨rfl, ?_, (congrArg Slot.unkept (State.me_modMe t f)).trans (hf _), context_modSlot _ _ f t fun y => ?_, fun b hb => ?_⟩
  · rw [State.core_modSlot_self t t.curCore t.curSlot f]
    rfl
  · have hfields := congrArg (fun y => (Slot.pcc y, Slot.domain y, Slot.tenant y, Slot.composed y)) (hf y)
    exact hfields
  · have hkeep := congrArg Slot.domain (hf t.me)
    have hdomain := (congrArg Slot.domain (State.me_modMe t f)).trans hkeep
    have hcore := congrArg Core.plb (State.core_modSlot_self t t.curCore t.curSlot f)
    unfold SelfRight
    rw [show (t.modSlot t.curCore t.curSlot f).me.domain = t.me.domain from hdomain]
    exact (congrArg (List.find? _) hcore).trans hb

theorem idle_giveBack (s : State) : Idle s (giveBack s.curCore s.curSlot s) := by
  unfold giveBack
  split
  · exact .refl s
  · exact (idle_foldr_unread s.curCore _ s).modSlot _ fun _ => rfl

/-! Fields that are general registers or z. -/

theorem plainField_of_capField {f : Nat} (h : capField f) : plainField f = true := by
  rcases h with h | rfl
  · simp [plainField, h]
  · rfl

theorem readField_cap {f : Nat} (h : capField f) (s : State) : (readField f s).2 = s := by
  unfold readField
  rcases h with h | rfl
  · rw [if_pos h]
  · rfl

theorem readFields_cap {l : List Nat} (h : ∀ f ∈ l, capField f) (s : State) : (readFields l s).2 = s := by
  induction l with
  | nil => rfl
  | cons f l ih =>
    rw [List.forall_mem_cons] at h
    show (readFields l (readField f s).2).2 = s
    rw [readField_cap h.1, ih h.2]

theorem idle_taken {reads writes : List Nat} (s : State) (h : ∀ f ∈ reads ++ writes, capField f) :
    Idle s (taken reads writes s).2 := by
  unfold taken
  split
  · exact .refl s
  · rw [readFields_cap fun f hf => h f (List.mem_append_left _ hf), readied,
      touchesQueue_plain fun f hf => plainField_of_capField (h f hf)]
    exact idle_giveBack s

theorem issue_cap {reads writes : List Nat} (s : State) (h : ∀ f ∈ reads ++ writes, capField f) :
    issue reads writes s = .go (taken reads writes s).1 (taken reads writes s).2 :=
  issue_ready (ready_plain s fun f hf => plainField_of_capField (h f hf))

/-! Completion (R295). -/

/-- What of a slot outlasts an instruction that only moves PCC: neither what it has fetched, nor a wait, nor a step asked for. -/
def Slot.lasting (y : Slot) : Slot :=
  { y.unkept with
    pcc := .zero, replies := [], asRem := false, waitr := 0, wait := ⟨0, 0, 0, 0, []⟩, decl := none, chanWait := none, waitArg := none,
    waitSince := 0, overCount := 0, halted := false, stepping := false }

theorem slotKept_of_lasting (h : z.lasting = y.lasting)
    (hwait : y.wait.mode = 0 → y.stepping = false → z.wait = y.wait ∧ z.waitr = y.waitr) : SlotKept y z [] := by
  have field {α : Type} (f : Slot → α) (hf : ∀ y, f y.lasting = f y) : f z = f y := by rw [← hf, h, hf]
  exact ⟨fun n _ => field (·.cr n) fun _ => rfl, fun n => field (·.vr n) fun _ => rfl, fun n => field (·.kr n) fun _ => rfl,
    field Slot.status fun _ => rfl, field Slot.prio fun _ => rfl, field Slot.tvec fun _ => rfl,
    field Slot.tcause fun _ => rfl, field Slot.tval fun _ => rfl, field Slot.tpc fun _ => rfl,
    field Slot.spawnlim fun _ => rfl, field Slot.tenant fun _ => rfl, field Slot.holds fun _ => rfl,
    field Slot.commit fun _ => rfl, field Slot.heldMsgs fun _ => rfl, field Slot.pend fun _ => rfl,
    field Slot.payload fun _ => rfl, field Slot.header fun _ => rfl, hwait⟩

theorem lasting_leaveWait (y : Slot) (clock : Nat) : (y.leaveWait clock).lasting = y.lasting := by
  unfold Slot.leaveWait
  split
  · rfl
  · simp only [Slot.lasting, Slot.unkept]

theorem lasting_endStep (y : Slot) (g : Nat) : (y.endStep g).lasting = y.lasting := by
  unfold Slot.endStep
  split
  · simp only [Slot.lasting, Slot.unkept]
  · rfl

/-- A slot with its PCC moved and nothing of what it fetched. -/
def Slot.past (z : Slot) (p : Reg) : Slot := { z with pcc := p, replies := [], asRem := false, kept := none }

theorem complete_eq_past (y : Slot) (clock n : Nat) :
    ∃ p, y.complete clock n = ((y.leaveWait clock).past p).endStep y.wait.gen := by
  unfold Slot.complete Slot.setPc
  dsimp only
  generalize (y.leaveWait clock).pcc.withCursor ((y.leaveWait clock).pc + n) = p
  exact ⟨p, rfl⟩

theorem lasting_past (z : Slot) (p : Reg) : (z.past p).lasting = z.lasting := rfl

theorem lasting_complete (y : Slot) (clock n : Nat) : (y.complete clock n).lasting = y.lasting := by
  obtain ⟨p, hp⟩ := complete_eq_past y clock n
  rw [hp, lasting_endStep, lasting_past, lasting_leaveWait]

theorem complete_wait_of_running (hmode : y.wait.mode = 0) (hstep : y.stepping = false) (clock n : Nat) :
    (y.complete clock n).wait = y.wait ∧ (y.complete clock n).waitr = y.waitr := by
  have hleave : y.leaveWait clock = y := if_pos (.inl hmode)
  obtain ⟨p, hp⟩ := complete_eq_past y clock n
  have hrunning : ¬ (y.past p).stepping = true := Bool.eq_false_iff.1 hstep
  rw [hp, hleave, Slot.endStep, if_neg hrunning]
  exact ⟨rfl, rfl⟩

theorem slotKept_complete (h : z.unkept = y.unkept) (clock n : Nat) : SlotKept y (z.complete clock n) [] := by
  have hlasting := congrArg Slot.lasting h
  refine slotKept_of_lasting ((lasting_complete z clock n).trans hlasting) fun hmode hstep => ?_
  have hfields := congrArg (fun y => (Slot.wait y, Slot.waitr y, Slot.stepping y)) h
  obtain ⟨hwait, hfields⟩ := Prod.mk.inj (show (z.wait, z.waitr, z.stepping) = (y.wait, y.waitr, y.stepping) from hfields)
  obtain ⟨hwaitr, hstepping⟩ := Prod.mk.inj hfields
  obtain ⟨hnow, hnowr⟩ := complete_wait_of_running (hwait ▸ hmode) (hstepping.trans hstep) clock n
  exact ⟨hnow.trans hwait, hnowr.trans hwaitr⟩

theorem SlotKept.of_setC {d : Nat} {r : Reg} (h : SlotKept (y.setC d r) z []) : SlotKept y z [d] := by
  obtain ⟨hc, hrest⟩ := h
  refine ⟨fun n hn => (hc n List.not_mem_nil).trans (Slot.cr_setC_ne _ _ _ _ ?_), hrest⟩
  simpa using hn

/-- One register written, an access completes. -/
theorem slotKept_complete_setC (h : z.unkept = y.unkept) (d : Nat) (r : Reg) (clock n : Nat) :
    SlotKept y ((z.setC d r).complete clock n) [d] ∧ ((z.setC d r).complete clock n).cr d = r := by
  have hkept : SlotKept (y.setC d r) ((z.setC d r).complete clock n) [] :=
    slotKept_complete (congrArg (·.setC d r) h) clock n
  exact ⟨hkept.of_setC, (hkept.1 d List.not_mem_nil).trans (Slot.cr_setC_self y d r)⟩

end Sys2Proof.Machine
end

section
/-! SUPPORT. The checks of an access to the own banks, and the access (R97, R100, R256, R257, R258, R260). -/

namespace Sys2Proof.Machine

variable {s t u : State} {w : Who} {r : Reg} {ea : Int} {off n b perms align need : Nat}

theorem capCheck_none (h : CapOk r ea n perms align) : capCheck r ea n perms align = none := by
  obtain ⟨htag, hbase, htop, hperms, halign⟩ := h
  unfold capCheck
  rw [if_neg (by simp [htag]), if_neg (by omega), if_neg (by simp [hperms]), if_neg (by simp [halign])]

theorem CapOk.unaligned (h : CapOk r ea n perms align) : CapOk r ea n perms 1 := by
  obtain ⟨htag, hbase, htop, hperms, -⟩ := h
  exact ⟨htag, hbase, htop, hperms, Int.emod_one ea⟩

theorem CapOk.perms_part {perms' : Nat} (h : CapOk r ea n perms align) (hpart : perms &&& perms' = perms') : CapOk r ea n perms' align := by
  obtain ⟨htag, hbase, htop, hperms, halign⟩ := h
  refine ⟨htag, hbase, htop, ?_, halign⟩
  rw [← hpart, ← Nat.and_assoc, hperms]

theorem vaOf_self (hoff : off < 2 ^ 18) : vaOf (0xFFFFFFFFC0000 + off) = 0xFFFFFFFFC0000 + off := by
  have hmod : ((0xFFFFFFFFC0000 + off : Int)) % 2 ^ 52 = 0xFFFFFFFFC0000 + off := by omega
  rw [vaOf, toField, hmod]
  rfl

theorem needRegions_self (h : SelfRight t b) (htop : off + n ≤ 2 ^ 18) (hpos : 0 < n) (hneed : b &&& need = need) :
    needRegions (whoMe t) (0xFFFFFFFFC0000 + off) n need t =
      .ok () (t.modCore t.curCore fun x => plbUse x t.me.domain (2 ^ 23 - 1) b) := by
  have hregion : (0xFFFFFFFFC0000 + off) / 2 ^ 29 % 2 ^ 23 = 2 ^ 23 - 1 := by omega
  have hfind : (t.core (whoMe t).core).plb.find? (fun e => e.1 == (whoMe t).dom && e.2.1 == 2 ^ 23 - 1) =
      some (t.me.domain, 2 ^ 23 - 1, b) := h
  rw [needRegions, if_pos (by omega), needRights, rightsOf, hregion, hfind]
  exact if_pos hneed

theorem memCheck_self (hcap : CapOk r (0xFFFFFFFFC0000 + off) n perms align) (hbank : OwnSector t t.curCore off n)
    (hright : SelfRight t b) (hneed : b &&& need = need) :
    memCheck (whoMe t) r (0xFFFFFFFFC0000 + off) n perms align need t =
      .ok (0xFFFFFFFFC0000 + off) (t.modCore t.curCore fun x => plbUse x t.me.domain (2 ^ 23 - 1) b) := by
  have hlt := hbank.lt
  have hwindow : badWindow (whoMe t) (0xFFFFFFFFC0000 + off) n t = false := badWindow_self hbank
  unfold memCheck
  rw [capCheck_none hcap, vaOf_self hlt]
  dsimp only
  rw [hwindow, if_neg (by decide), needRegions_self hright hbank.top hbank.pos hneed]
  rfl

theorem rightsOf_self (h : SelfRight t b) (hlt : off < 2 ^ 18) :
    rightsOf (whoMe t) (0xFFFFFFFFC0000 + off) t = .ok b (t.modCore t.curCore fun x => plbUse x t.me.domain (2 ^ 23 - 1) b) := by
  have hregion : (0xFFFFFFFFC0000 + off) / 2 ^ 29 % 2 ^ 23 = 2 ^ 23 - 1 := by omega
  have hfind : (t.core (whoMe t).core).plb.find? (fun e => e.1 == (whoMe t).dom && e.2.1 == 2 ^ 23 - 1) =
      some (t.me.domain, 2 ^ 23 - 1, b) := h
  rw [rightsOf, hregion, hfind]
  rfl

theorem migrateTo_window (w : Who) {va : Nat} (h : inWindow va = true) (n route : Nat) (names : List Nat) (s : State) :
    migrateTo w va n route names s = none := by
  unfold migrateTo
  exact if_pos (by simp [h])

theorem trainMe_self (h : OwnSector t t.curCore off n) : trainMe (0xFFFFFFFFC0000 + off) n s = s := by
  obtain ⟨-, htop, hpos, hsector, -, -⟩ := h
  have hone : touched 1024 (0xFFFFFFFFC0000 + off) n = 1 := by
    rw [touched_pos _ hpos]
    omega
  have hmod : (0xFFFFFFFFC0000 + off) % 2 ^ 52 = 0xFFFFFFFFC0000 + off := Nat.mod_eq_of_lt (by omega)
  rw [trainMe, hone]
  show trainLine ((0xFFFFFFFFC0000 + off) % 2 ^ 52) s = s
  rw [hmod, trainLine, if_pos (inWindow_self (by omega))]

theorem drainWhere_none (p : Flight → Bool) (h : s.flights = []) : drainWhere p s = s := by
  rw [drainWhere, settle, h]
  rfl

theorem storeAt_self {data : List Byte} {scope : Nat} {tagged : Bool} (hint : Nat) (hscope : scope ≠ 5) (hflights : s.flights = [])
    (h : OwnSector s w.core off data.length) (hle : data.length < 64) (hs : SMap.canon false s.tags) :
    ∃ t, storeAt w (0xFFFFFFFFC0000 + off) hint scope data tagged s = .ok () t ∧
      Stored s t (localKey w.core off) data tagged := by
  obtain ⟨t, ht, hstored⟩ := storeParts_self (tagged := tagged) hint (scope != 0) h hle hs (tiles_parts w h.top h.pos)
  refine ⟨t, ?_, hstored⟩
  have hscope' : (decide (scope = 5) && hostWritesOf s w.agent) = false := by simp [hscope]
  unfold storeAt
  simp only [drainLine, drainScope, drainWhere_none _ hflights, ite_self]
  rw [hscope', if_neg (by decide), locateParts_self hint true h (tiles_parts w h.top h.pos), Res.bind, ht]

theorem storeSlot_self {data : List Byte} {scope : Nat} {tagged : Bool} (hint : Nat) (hscope : scope ≠ 5) (hflights : s.flights = [])
    (hexposed : s.me.holds = .activation → s.me.exposed = true)
    (h : OwnSector s s.curCore off data.length) (hle : data.length < 64) (hs : SMap.canon false s.tags) :
    ∃ t, storeSlot (whoMe s) (0xFFFFFFFFC0000 + off) hint scope data tagged s = .ok () t ∧
      Stored s t (localKey s.curCore off) data tagged := by
  have hopen : ¬ (s.me.holds = .activation ∧ s.me.exposed = false) := by
    rintro ⟨hholds, hclosed⟩
    rw [hexposed hholds] at hclosed
    cases hclosed
  have hstore : storeSlot (whoMe s) (0xFFFFFFFFC0000 + off) hint scope data tagged s =
      storeAt (whoMe s) (0xFFFFFFFFC0000 + off) hint scope data tagged s := if_neg hopen
  rw [hstore]
  exact storeAt_self (w := whoMe s) hint hscope hflights h hle hs

theorem hostReleaseOf_none (h : s.links.all (fun p => p.2.requests.isEmpty) = true) (agent : Nat) : hostReleaseOf s agent = false := by
  unfold hostReleaseOf
  rw [List.any_eq_false]
  intro p hp
  have hempty := List.isEmpty_iff.1 (List.all_eq_true.1 h p hp)
  simp [hempty]

theorem loadAt_self {scope : Nat} (hint : Nat) (hflights : s.flights = []) (hreplies : repliesOf w s = [])
    (hlinks : s.links.all (fun p => p.2.requests.isEmpty) = true) (h : OwnSector s w.core off n)
    (hclean : physPoison s (localKey w.core off) n = false) :
    ∃ x, loadAt w (0xFFFFFFFFC0000 + off) n hint scope s = .ok x s ∧ x.bytes = bytesAt s.mem (localKey w.core off) n ∧
      loadedTag x = physTag s (localKey w.core off) := by
  obtain ⟨rs, hrs, hbytes, htag⟩ := loadParts_self hreplies hflights hint (scope != 0) (decide (w.slot < 16)) h hclean
    (tiles_parts w h.top h.pos)
  refine ⟨loadedOf rs, ?_, hbytes, htag⟩
  unfold loadAt
  simp only [drainLine, drainWhere_none _ hflights]
  rw [hostReleaseOf_none hlinks, Bool.and_false, if_neg (by decide), hrs]
  rfl

theorem Idle.field {α : Type} (h : Idle s t) (f : State → α) (hf : ∀ s cores, f { s with cores := cores } = f s) : f t = f s := by
  rw [h.same, hf]

theorem Idle.ownSector (h : Idle s t) (hs : OwnSector s s.curCore off n) : OwnSector t t.curCore off n := by
  have hrole : bankRole t s.curCore (off / 8192) = bankRole s s.curCore (off / 8192) := by
    unfold bankRole
    rw [h.role]
  have hholds := h.field State.lineHolds fun _ _ => rfl
  rw [h.curCore]
  exact ⟨hs.small, hs.top, hs.pos, hs.sector, hrole ▸ hs.role, hholds.trans hs.holds⟩

theorem Idle.meField {α : Type} (h : Idle s t) (f : Slot → α) (hf : ∀ y, f y.unkept = f y) : f t.me = f s.me := by
  rw [← hf, h.me, hf]

theorem Idle.exposed (h : Idle s t) (hs : s.me.holds = .activation → s.me.exposed = true) :
    t.me.holds = .activation → t.me.exposed = true := by
  rw [h.meField Slot.holds fun _ => rfl, h.meField Slot.exposed fun _ => rfl]
  exact hs

theorem Idle.whoMe (h : Idle s t) : whoMe t = whoMe s := by
  show Who.mk t.curCore t.curSlot (t.partyAt t.curCore t.curSlot) (agentOf t.me.uid) t.me.domain
    (if t.me.mode = .user then t.me.tenant else 256) t.me.tenant = _
  rw [partyAt_of_context h.context, h.meField Slot.uid fun _ => rfl, h.domain, h.meField Slot.mode fun _ => rfl,
    h.meField Slot.tenant fun _ => rfl, h.curCore, h.curSlot]
  rfl

theorem OwnBank.sector (h : OwnBank s ea n off b) : OwnSector s s.curCore off n := by
  obtain ⟨-, htop, hpos, hsector, hsmall, hrole, hholds, -⟩ := h
  exact ⟨hsmall, htop, hpos, hsector, hrole, hholds⟩

theorem OwnBank.right (h : OwnBank s ea n off b) : SelfRight s b := by
  obtain ⟨-, -, -, -, -, -, -, hright⟩ := h
  exact hright

/-- A store of general registers to the own banks (R97, R260). -/
theorem storeOp_self {a v : Nat} {imm : Int} {cap tagged : Bool} {x : Reg} (len : Nat) {hint scope route : Nat}
    (ha : capField a) (hv : capField v)
    (hr : source [a, v] [] s 0 = r) (hx : source [a, v] [] s 1 = x) (htagged : (cap && x.tag) = tagged)
    (hs : s.Canonical) (hflights : s.flights = []) (hexposed : s.me.holds = .activation → s.me.exposed = true)
    (hscope : scope ≠ 5) (hn : n < 64) (hcap : CapOk r (r.cursor + imm) n (if tagged = true then 0x12 else 2) align)
    (hbank : OwnBank s (r.cursor + imm) n off b)
    (hneed : b &&& (if tagged = true then 0x12 else 2) = if tagged = true then 0x12 else 2) :
    ∃ t u, storeOp len v a imm n align hint scope route cap s = complete len u ∧ Idle s t ∧
      Stored t u (localKey s.curCore off) (leBytes n x.nat) tagged := by
  have hlt := hbank.sector.lt
  have hea : (r.cursor : Int) + imm = 0xFFFFFFFFC0000 + off := hbank.1
  rw [hea] at hcap
  have hread : CapOk r (0xFFFFFFFFC0000 + off) n 2 align := hcap.perms_part (by split <;> rfl)
  have hfields : ∀ f ∈ [a, v] ++ [], capField f := by simp [ha, hv]
  have hidle := idle_taken (reads := [a, v]) (writes := []) s hfields
  have hissue := issue_cap (reads := [a, v]) (writes := []) s hfields
  have hr' : (taken [a, v] [] s).1.getD 0 .zero = r := hr
  have hx' : (taken [a, v] [] s).1.getD 1 .zero = x := hx
  generalize (taken [a, v] [] s).2 = u at hidle hissue
  have hsector := hidle.ownSector hbank.sector
  have hright := hidle.right b hbank.right
  have hcheck := memCheck_self hread hsector hright hneed
  have hwindow : windowAt (whoMe u).core (0xFFFFFFFFC0000 + off) = some (u.curCore, off) := windowAt_self hsector.small hlt
  have hplb := idle_plbUse hright
  generalize (u.modCore u.curCore fun x => plbUse x u.me.domain (2 ^ 23 - 1) b) = t at hcheck hplb
  have hwho := hplb.whoMe
  have hidle' := hidle.trans hplb
  have hlength := length_leBytes n x.nat
  obtain ⟨z, hz, hstored⟩ := storeSlot_self (s := t) (data := leBytes n x.nat) (tagged := tagged) hint hscope
    ((hidle'.field State.flights fun _ _ => rfl).trans hflights) (hidle'.exposed hexposed)
    (hlength.symm ▸ hplb.ownSector hsector) (hlength.symm ▸ hn)
    ((hidle'.field State.tags fun _ _ => rfl).symm ▸ hs.tags)
  rw [hwho] at hz
  refine ⟨t, z, ?_, hidle', hidle'.curCore ▸ hstored⟩
  unfold storeOp
  rw [hissue]
  dsimp only
  rw [hr', hx', htagged, hea, vaOf_self hlt, capCheck_none hcap.unaligned, hwindow]
  dsimp only
  rw [hcheck, if_neg (by simp [inWindow_self hlt, whoMe, whoSlot])]
  dsimp only
  rw [migrateTo_window _ (inWindow_self hlt), ite_self]
  dsimp only
  rw [hz]
  dsimp only
  rw [trainMe_self hsector]

end Sys2Proof.Machine
end

section
/-! SUPPORT. Loads from the own banks, and what the forms of load and store execute as (R231, R258 to R261). -/

namespace Sys2Proof.Machine

variable {s t u : State} {r : Reg} {off n b k : Nat}

theorem repliesOf_me (hslot : s.curSlot < 16) (h : s.me.replies = []) : repliesOf (whoMe s) s = [] := by
  have hcur : (whoMe s).slot = s.curSlot := rfl
  unfold repliesOf
  rw [if_neg (by omega), if_neg (by omega), if_neg (by omega)]
  exact h

theorem overlay_none (va : Nat) (x : Loaded) (h : s.me.commit = []) : overlay (whoMe s) va x s = x := by
  have hempty : s.me.commit.isEmpty = true := List.isEmpty_iff.2 h
  exact if_pos hempty

/-- A load into a general register or z from the own banks (R97, R258). -/
theorem loadOp_self {a d align : Nat} {imm : Int} (len : Nat) {hint scope route : Nat} (val : Reg → Nat → Nat → Bool → Reg)
    (ha : capField a) (hd : capField d) (hr : source [a] [d] s 0 = r) (hflights : s.flights = []) (hcommit : s.me.commit = [])
    (hreplies : s.me.replies = []) (hcap : CapOk r (r.cursor + imm) n 1 align) (hbank : OwnBank s (r.cursor + imm) n off b)
    (hneed : b &&& 1 = 1) (hslot : s.curSlot < 16) (hlinks : s.links.all (fun p => p.2.requests.isEmpty) = true)
    (hclean : physPoison s (localKey s.curCore off) n = false) :
    ∃ t, loadOp len d a imm n align hint scope route val s = complete len (writeField d
      (val r b (leNat (bytesAt s.mem (localKey s.curCore off) n)) (physTag s (localKey s.curCore off))) t) ∧ Idle s t := by
  have hlt := hbank.sector.lt
  have hea : (r.cursor : Int) + imm = 0xFFFFFFFFC0000 + off := hbank.1
  rw [hea] at hcap
  have hfields : ∀ f ∈ [a] ++ [d], capField f := by simp [ha, hd]
  have hidle := idle_taken (reads := [a]) (writes := [d]) s hfields
  have hissue := issue_cap (reads := [a]) (writes := [d]) s hfields
  have hr' : (taken [a] [d] s).1.getD 0 .zero = r := hr
  generalize (taken [a] [d] s).2 = u at hidle hissue
  have hsector := hidle.ownSector hbank.sector
  have hright := hidle.right b hbank.right
  have hcheck := memCheck_self hcap hsector hright hneed
  have hplb := idle_plbUse hright
  generalize (u.modCore u.curCore fun x => plbUse x u.me.domain (2 ^ 23 - 1) b) = t at hcheck hplb
  have hwho := hplb.whoMe
  have hidle' := hidle.trans hplb
  have hcore : (whoMe t).core = s.curCore := hidle'.curCore
  have hmem : t.mem = s.mem := hidle'.field State.mem fun _ _ => rfl
  obtain ⟨x, hx, hbytes, htag⟩ := loadAt_self (w := whoMe t) (s := t) (scope := scope) hint
    ((hidle'.field State.flights fun _ _ => rfl).trans hflights)
    (repliesOf_me (hidle'.curSlot.symm ▸ hslot) ((hidle'.meField Slot.replies fun _ => rfl).trans hreplies))
    ((hidle'.field State.links fun _ _ => rfl).symm ▸ hlinks) (hplb.ownSector hsector)
    (hcore.symm ▸ (hidle'.field (physPoison · (localKey s.curCore off) n) fun _ _ => rfl).trans hclean)
  have hover := overlay_none (s := t) (0xFFFFFFFFC0000 + off) x ((hidle'.meField Slot.commit fun _ => rfl).trans hcommit)
  have hrights := rightsOf_self (hplb.right b hright) hlt
  have hplb' := idle_plbUse (hplb.right b hright)
  generalize (t.modCore t.curCore fun x => plbUse x t.me.domain (2 ^ 23 - 1) b) = z at hrights hplb'
  rw [hcore, hmem] at hbytes
  rw [hcore, hidle'.field (physTag · (localKey s.curCore off)) fun _ _ => rfl] at htag
  rw [hwho] at hx hover hrights
  refine ⟨z, ?_, hidle'.trans hplb'⟩
  unfold loadOp
  rw [hissue]
  dsimp only
  rw [hr', hea, hcheck]
  dsimp only
  rw [migrateTo_window _ (inWindow_self hlt), ite_self]
  dsimp only
  rw [hx]
  dsimp only
  rw [hover, hrights]
  dsimp only
  rw [trainMe_self hsector, hbytes, htag]

/-! The forms (R231, R260). -/

theorem exec_storeForms : ∀ p ∈ storeForms, ∀ v a imm s,
    exec (p.1 v a imm) s = .next (storeOp 4 v a imm p.2.1 p.2.2.1 0 0 0 p.2.2.2 s) := by
  simp only [storeForms, List.forall_mem_cons]
  exact ⟨fun _ _ _ _ => rfl, fun _ _ _ _ => rfl, fun _ _ _ _ => rfl, fun _ _ _ _ => rfl, fun _ _ _ _ => rfl,
    fun _ _ _ _ => rfl, fun _ h => absurd h List.not_mem_nil⟩

theorem exec_storeXForms : ∀ p ∈ storeXForms, ∀ v a hint scope route s,
    exec (p.1 v a hint scope route) s = .next (storeOp 4 v a 0 p.2.1 p.2.2.1 hint scope route p.2.2.2 s) := by
  simp only [storeXForms, List.forall_mem_cons]
  exact ⟨fun _ _ _ _ _ _ => rfl, fun _ _ _ _ _ _ => rfl, fun _ _ _ _ _ _ => rfl, fun _ _ _ _ _ _ => rfl,
    fun _ _ _ _ _ _ => rfl, fun _ _ _ _ _ _ => rfl, fun _ h => absurd h List.not_mem_nil⟩

theorem exec_store {f : StoreForm} (h : IsStore f) (s : State) :
    exec f.i s = .next (storeOp f.len f.b f.a f.off f.n f.align f.hint f.scope f.route f.cap s) := by
  rcases h with ⟨p, hp, v, a, imm, rfl⟩ | ⟨p, hp, v, a, hint, scope, route, rfl⟩ | ⟨v, a, off, rfl⟩ | ⟨v, a, off, rfl⟩
  · exact exec_storeForms p hp v a imm s
  · exact exec_storeXForms p hp v a hint scope route s
  · dsimp only
    rw [Nat.mul_comm 8 off]
    rfl
  · dsimp only
    rw [Nat.mul_comm 4 off]
    rfl

/-- A store is of 16 bytes at most; SCAP is of 16, aligned. -/
theorem IsStore.size {f : StoreForm} (h : IsStore f) : f.n ≤ 16 ∧ (f.cap = true → f.n = 16 ∧ f.align = 16) := by
  have hforms : ∀ p ∈ storeForms, p.2.1 ≤ 16 ∧ (p.2.2.2 = true → p.2.1 = 16 ∧ p.2.2.1 = 16) := by simp [storeForms]
  have hxforms : ∀ p ∈ storeXForms, p.2.1 ≤ 16 ∧ (p.2.2.2 = true → p.2.1 = 16 ∧ p.2.2.1 = 16) := by simp [storeXForms]
  rcases h with ⟨p, hp, v, a, imm, rfl⟩ | ⟨p, hp, v, a, hint, scope, route, rfl⟩ | ⟨v, a, off, rfl⟩ | ⟨v, a, off, rfl⟩
  · exact hforms p hp
  · exact hxforms p hp
  · exact ⟨Nat.le_add_right 8 8, fun h => absurd h Bool.false_ne_true⟩
  · exact ⟨Nat.le_add_right 4 12, fun h => absurd h Bool.false_ne_true⟩

theorem sext_eq_toInt {w m : Nat} (hw : 0 < w) (hm : m < 2 ^ w) : sext w m = (BitVec.ofNat w m).toInt := by
  have hpow : 2 ^ w = 2 * 2 ^ (w - 1) := by rw [← pow_succ', Nat.sub_add_cancel hw]
  rw [BitVec.toInt_eq_toNat_cond, BitVec.toNat_ofNat, Nat.mod_eq_of_lt hm, sext]
  push_cast
  congr 1
  simp only [eq_iff_iff]
  omega

/-- Two readings of `n` bytes give a register the same value. -/
def SameValue (n : Nat) (val val' : Reg → Nat → Nat → Bool → Reg) : Prop :=
  ∀ r rights m tag, m < 256 ^ n → val r rights m tag = val' r rights m tag

theorem sameValue_signed (n : Nat) : SameValue (n + 1) (signed (n + 1)) (signExt (n + 1)) := by
  intro r rights m tag hm
  have hlt : m < 2 ^ (8 * (n + 1)) := by rwa [Nat.pow_mul]
  rw [signed, sext_eq_toInt (by omega) hlt]
  rfl

theorem sameValue_unsigned (n : Nat) : SameValue n unsigned zeroExt := fun _ _ _ _ _ => rfl

theorem bit_eq_testBit (w i : Nat) : bit w i = w.testBit i := by
  rw [bit, Nat.testBit_eq_decide_div_mod_eq]
  exact beq_eq_decide _ _

theorem sameValue_capValue (n : Nat) : SameValue n capValue capExt := by
  intro r rights m tag _
  rw [capValue, capExt, Reg.canLoadCap, bit_eq_testBit, bit_eq_testBit]

/-- A form of load executes as a load whose value, of bytes read, is the form's. -/
def Loads (f : LoadForm) : Prop :=
  ∃ val, (∀ s, exec f.i s = .next (loadOp f.len f.d f.a f.off f.n f.align f.hint f.scope f.route val s)) ∧
    SameValue f.n val f.val

theorem loads_loadForms : ∀ p ∈ loadForms, ∀ d a imm,
    Loads ⟨p.1 d a imm, 4, a, d, imm, p.2.1, p.2.2.1, 0, 0, 0, p.2.2.2⟩ := by
  simp only [loadForms, List.forall_mem_cons]
  exact ⟨fun _ _ _ => ⟨_, fun _ => rfl, sameValue_signed 0⟩,
    fun _ _ _ => ⟨_, fun _ => rfl, sameValue_unsigned _⟩,
    fun _ _ _ => ⟨_, fun _ => rfl, sameValue_signed 1⟩,
    fun _ _ _ => ⟨_, fun _ => rfl, sameValue_unsigned _⟩,
    fun _ _ _ => ⟨_, fun _ => rfl, sameValue_signed 3⟩,
    fun _ _ _ => ⟨_, fun _ => rfl, sameValue_unsigned _⟩,
    fun _ _ _ => ⟨_, fun _ => rfl, sameValue_unsigned _⟩,
    fun _ _ _ => ⟨_, fun _ => rfl, sameValue_capValue _⟩,
    fun _ h => absurd h List.not_mem_nil⟩

theorem loads_loadXForms : ∀ p ∈ loadXForms, ∀ d a hint scope route,
    Loads ⟨p.1 d a hint scope route, 4, a, d, 0, p.2.1, p.2.2.1, hint, scope, route, p.2.2.2⟩ := by
  simp only [loadXForms, List.forall_mem_cons]
  exact ⟨fun _ _ _ _ _ => ⟨_, fun _ => rfl, sameValue_signed 0⟩,
    fun _ _ _ _ _ => ⟨_, fun _ => rfl, sameValue_unsigned _⟩,
    fun _ _ _ _ _ => ⟨_, fun _ => rfl, sameValue_signed 1⟩,
    fun _ _ _ _ _ => ⟨_, fun _ => rfl, sameValue_unsigned _⟩,
    fun _ _ _ _ _ => ⟨_, fun _ => rfl, sameValue_signed 3⟩,
    fun _ _ _ _ _ => ⟨_, fun _ => rfl, sameValue_unsigned _⟩,
    fun _ _ _ _ _ => ⟨_, fun _ => rfl, sameValue_unsigned _⟩,
    fun _ _ _ _ _ => ⟨_, fun _ => rfl, sameValue_unsigned _⟩,
    fun _ _ _ _ _ => ⟨_, fun _ => rfl, sameValue_capValue _⟩,
    fun _ h => absurd h List.not_mem_nil⟩

theorem IsLoad.loads {f : LoadForm} (h : IsLoad f) : Loads f := by
  rcases h with ⟨p, hp, d, a, imm, rfl⟩ | ⟨p, hp, d, a, hint, scope, route, rfl⟩ | ⟨d, a, off, rfl⟩ | ⟨d, a, off, rfl⟩
  · exact loads_loadForms p hp d a imm
  · exact loads_loadXForms p hp d a hint scope route
  · rw [Nat.mul_comm 8 off]
    exact ⟨_, fun _ => rfl, sameValue_unsigned _⟩
  · rw [Nat.mul_comm 4 off]
    exact ⟨_, fun _ => rfl, sameValue_signed 3⟩

end Sys2Proof.Machine
end

section
/-! SUPPORT. The settlement of the accesses to the own banks. -/

namespace Sys2Proof.Machine

variable {s t u : State} {k off n b : Nat} {data : List Byte} {tagged : Bool}

/-- What an instruction that completes in `complete len u` leaves where it stored `data` at `k`. -/
theorem complete_stored (len : Nat) (hidle : Idle s t) (h : Stored t u k data tagged) (hmem : Memory.wf s.mem) :
    let z := complete len u
    SlotKept s.me z.me [] ∧ Moved s.me.pcc z.me.pcc (s.me.pc + len) ∧ bytesAt z.mem k data.length = data ∧
      (∀ a, a < k ∨ k + data.length ≤ a → SMap.get 0 z.mem a = SMap.get 0 s.mem a) ∧ z.cdata = s.cdata ∧ z.ctags = s.ctags ∧
      (∀ g, SMap.get false z.tags g =
        if k / 16 ≤ g ∧ g ≤ (k + data.length - 1) / 16 then tagged else SMap.get false s.tags g) ∧
      (∀ g, SMap.get false z.poison g = SMap.get false s.poison g) := by
  obtain ⟨hsame, htags, -⟩ := h
  have hu : u.mem = putBytes s.mem k data ∧ u.cdata = s.cdata ∧ u.ctags = s.ctags ∧ u.poison = s.poison := by
    rw [hsame]
    exact ⟨congrArg (putBytes · k data) (hidle.field State.mem fun _ _ => rfl), hidle.field State.cdata fun _ _ => rfl,
      hidle.field State.ctags fun _ _ => rfl, hidle.field State.poison fun _ _ => rfl⟩
  obtain ⟨humem, hucdata, huctags, hupoison⟩ := hu
  have hme : u.me = t.me := by rw [hsame]; rfl
  have hctx : context u = context s := by
    rw [← hidle.context, hsame]
    rfl
  have hdone : (complete len u).me = u.me.complete u.clock len := State.me_modMe u _
  intro z
  refine ⟨?_, complete_moved_of_context len hctx, ?_, fun a ha => ?_, hucdata, huctags, fun g => ?_,
    fun g => congrArg (SMap.get false · g) hupoison⟩
  · rw [hdone, hme]
    exact slotKept_complete hidle.me _ _
  · show bytesAt u.mem k data.length = data
    rw [humem]
    exact bytesAt_putBytes hmem k data
  · show SMap.get 0 u.mem a = _
    rw [humem]
    exact get_putBytes_out _ _ _ _ ha
  · exact (htags g).trans (by rw [hidle.field State.tags fun _ _ => rfl])

/-- What a load that completes leaves where it wrote `r` to field `d`. -/
theorem complete_loaded (len : Nat) {d : Nat} (hd : capField d) (r : Reg) (hidle : Idle s t) :
    let z := complete len (writeField d r t)
    SlotKept s.me z.me [d] ∧ Moved s.me.pcc z.me.pcc (s.me.pc + len) ∧ (d < 16 → z.me.cr d = r) ∧
      z.mem = s.mem ∧ z.tags = s.tags ∧ z.poison = s.poison ∧ z.cdata = s.cdata := by
  have hfields : t.mem = s.mem ∧ t.tags = s.tags ∧ t.poison = s.poison ∧ t.cdata = s.cdata :=
    ⟨hidle.field State.mem fun _ _ => rfl, hidle.field State.tags fun _ _ => rfl, hidle.field State.poison fun _ _ => rfl,
      hidle.field State.cdata fun _ _ => rfl⟩
  rcases hd with hd | rfl
  · have hwrite : writeField d r t = t.modMe fun y => y.setC d r := if_pos hd
    have hctx : context (t.modMe fun y => y.setC d r) = context s := (context_modSlot _ _ _ t).trans hidle.context
    have hdone : (complete len (t.modMe fun y => y.setC d r)).me = (t.me.setC d r).complete t.clock len := by
      rw [complete, State.me_modMe, State.me_modMe]
      rfl
    obtain ⟨hkept, hreg⟩ := slotKept_complete_setC hidle.me d r t.clock len
    rw [← hdone] at hkept hreg
    rw [hwrite]
    exact ⟨hkept, complete_moved_of_context len hctx, fun _ => hreg, hfields⟩
  · have hdone : (complete len t).me = t.me.complete t.clock len := State.me_modMe t _
    have hkept : SlotKept s.me (complete len t).me [] := hdone ▸ slotKept_complete hidle.me _ _
    obtain ⟨hc, hrest⟩ := hkept
    exact ⟨⟨fun n _ => hc n List.not_mem_nil, hrest⟩, complete_moved_of_context len hidle.context,
      fun h => absurd h (by decide), hfields⟩

/-- An aligned offset of the own banks is an aligned key: the 16 bytes there are one granule. -/
theorem localKey_granule (c : Nat) (hlt : off < 2 ^ 18) (halign : off % 16 = 0) : (localKey c off + 16 - 1) / 16 = localKey c off / 16 := by
  have hkey : localKey c off % 16 = 0 := by
    unfold localKey
    rw [if_pos hlt]
    omega
  omega

end Sys2Proof.Machine

open Sys2Proof Sys2Proof.Machine in
/-- Settles O16: the access's parts are located, performed and put together within its sector. -/
theorem ownBankAccesses : Obligations.OwnBankAccesses := by
  unfold Obligations.OwnBankAccesses
  refine ⟨?_, ?_, ?_⟩
  · intro f s off b hf ha hb hs hflights hexposed htagged hscope hcap hbank hneed k
    obtain ⟨hn, -⟩ := hf.size
    obtain ⟨t, u, hexec, hidle, hstored⟩ := storeOp_self (route := f.route) (hint := f.hint) f.len ha hb rfl rfl htagged hs hflights
      hexposed hscope (by omega) hcap hbank hneed
    have hleft := complete_stored f.len hidle hstored hs.mem
    rw [length_leBytes] at hleft
    exact ⟨_, (exec_store hf s).trans (congrArg _ hexec), hleft⟩
  · intro f s off b hf ha hb hs hflights hexposed htagged hscope hcap hbank hneed k
    obtain ⟨hn, halign⟩ := hf.size.2 (Bool.and_eq_true_iff.1 htagged).1
    obtain ⟨t, u, hexec, hidle, hstored⟩ := storeOp_self (n := f.n) (align := f.align) (route := f.route) (hint := f.hint) f.len ha hb
      rfl rfl htagged hs hflights hexposed hscope (by omega) (by rwa [hn, halign]) (by rwa [hn]) hneed
    obtain ⟨hkept, hmoved, hbytes, hmem, hcdata, hctags, htags, hpoison⟩ := complete_stored f.len hidle hstored hs.mem
    rw [length_leBytes, hn] at hbytes hmem htags
    have hgranule : (k + 16 - 1) / 16 = k / 16 := by
      obtain ⟨-, -, -, -, hmod⟩ := hcap
      obtain ⟨hea, htop, -⟩ := hbank
      exact localKey_granule _ (by omega) (by omega)
    refine ⟨_, (exec_store hf s).trans (congrArg _ hexec), hkept, hmoved, hbytes, hmem, hcdata, hctags, fun g => ?_, hpoison⟩
    have honly : k / 16 ≤ g ∧ g ≤ (k + 16 - 1) / 16 ↔ g = k / 16 := by omega
    exact (htags g).trans (if_congr honly rfl rfl)
  · intro f s off b hf ha hd hflights hcommit hreplies hcap hbank hneed hslot hlinks hclean
    obtain ⟨val, hexec, hval⟩ := hf.loads
    obtain ⟨t, ht, hidle⟩ := loadOp_self (scope := f.scope) (route := f.route) (hint := f.hint) f.len val ha hd rfl hflights hcommit
      hreplies hcap hbank hneed hslot hlinks hclean
    have hlt : leNat (bytesAt s.mem (localKey s.curCore off) f.n) < 256 ^ f.n := by
      have h := leNat_lt (bytesAt s.mem (localKey s.curCore off) f.n)
      rwa [length_bytesAt] at h
    rw [hval _ _ _ _ hlt] at ht
    exact ⟨_, (hexec s).trans (congrArg _ ht), complete_loaded f.len hd _ hidle⟩
end

section
/-! SUPPORT. What reading and writing a register field does (R99, R103 to R107, R235). -/

namespace Sys2Proof.Machine

variable {s : State} {f n c : Nat}

/-- An update of the current slot reaches no other slot, and no byte, tag or poison mark. -/
theorem onlyMe_setMe (y : Slot) (s : State) : OnlyMe s (s.setMe y) := by
  refine ⟨⟨y, rfl⟩, fun c k hother => State.slot_setSlot_ne s _ _ c k y (not_and_or.1 hother), fun src va n => ?_⟩
  cases src <;> exact ⟨rfl, rfl, rfl⟩

/-! General registers, z and mi (R103, R107). -/

theorem writeField_register (h : f < 16) (r : Reg) (s : State) : writeField f r s = s.setMe (s.me.setC f r) := if_pos h

theorem readField_register (h : f < 16) (s : State) : readField f s = (s.me.cr f, s) := if_pos h

theorem readField_mi (s : State) : readField 28 s = if s.me.holds = .activation ∧ s.me.miPos < s.me.payload.length
    then (.ofWord (s.me.payload.getD s.me.miPos 0), s.setMe { s.me with miPos := s.me.miPos + 1 }) else (.zero, s) := rfl

theorem readField_mi_word {w : Word} (hholds : s.me.holds = .activation) (hword : s.me.payload[s.me.miPos]? = some w) :
    readField 28 s = (.ofWord w, s.setMe { s.me with miPos := s.me.miPos + 1 }) := by
  obtain ⟨hlt, -⟩ := List.getElem?_eq_some_iff.1 hword
  have hget : s.me.payload.getD s.me.miPos 0 = w := by rw [List.getD_eq_getElem?_getD, hword, Option.getD_some]
  rw [readField_mi, if_pos ⟨hholds, hlt⟩, hget]

theorem readField_mi_exhausted (h : s.me.holds ≠ .activation ∨ s.me.payload.length ≤ s.me.miPos) : readField 28 s = (.zero, s) := by
  rw [readField_mi, if_neg]
  rintro ⟨hholds, hlt⟩
  exact h.elim (absurd hholds) (Nat.not_le.2 hlt)

/-! Queues (R104). -/

theorem readField_queue (h : n < 8) (s : State) : readField (16 + n) s =
    (.ofWord (((s.core s.curCore).queue n).headD 0), s.modCore s.curCore fun x => x.popWord (16 + n)) := by
  unfold readField
  rw [if_neg (by omega), if_pos (isQueue_of_lt h), Nat.add_sub_cancel_left]

theorem writeField_queue (h : n < 8) (r : Reg) (s : State) :
    writeField (16 + n) r s = s.modCore s.curCore fun x => x.setQueue n (x.queue n ++ [r.word]) := by
  unfold writeField
  rw [if_neg (by omega), if_pos (isQueue_of_lt h), Nat.add_sub_cancel_left]

theorem Core.queue_setQueue_ne {m : Nat} (h : m ≠ n) (x : Core) (l : List Word) : (x.setQueue n l).queue m = x.queue m :=
  SMap.get_put_ne _ _ _ _ _ h

/-! Ports (R106). -/

theorem isPort_of_lt (h : n < 4) : isPort (24 + n) = true := by
  simp [isPort]
  omega

theorem isQueue_port (n : Nat) : isQueue (24 + n) = false := by
  simp [isQueue]

theorem Core.port_setPort (x : Core) (n : Nat) (l : List Word) : (x.setPort n l).port n = l := SMap.get_put_self _ _ _ _

theorem Core.port_popWord (x : Core) (n : Nat) : (x.popWord (24 + n)).port n = (x.port n).tail := by
  unfold Core.popWord
  rw [isQueue_port, if_neg Bool.false_ne_true, Nat.add_sub_cancel_left]
  exact SMap.get_put_self _ _ _ _

theorem readField_port (h : n < 4) (s : State) : readField (24 + n) s =
    (.ofWord (((s.core s.curCore).port n).headD 0), s.modCore s.curCore fun x => x.popWord (24 + n)) := by
  unfold readField
  rw [if_neg (by omega), isQueue_port, if_neg Bool.false_ne_true, if_pos (isPort_of_lt h), Nat.add_sub_cancel_left]

theorem writeField_port (h : n < 4) (hside : neighbour s.curCore n = some c) (r : Reg) : writeField (24 + n) r s =
    s.modCore c fun x => x.setPort (opposite n) (x.port (opposite n) ++ [r.word]) := by
  unfold writeField
  rw [if_neg (by omega), isQueue_port, if_neg Bool.false_ne_true, if_pos (isPort_of_lt h), Nat.add_sub_cancel_left, hside]

end Sys2Proof.Machine

open Sys2Proof Sys2Proof.Machine in
/-- Settles O9: a field is a general register, z, a queue, a port or mi, and each kind reads and writes its own place. -/
theorem fieldsReadAndWritten : Obligations.FieldsReadAndWritten := by
  unfold Obligations.FieldsReadAndWritten
  refine ⟨fun s f r => ⟨fun hf => ?_, rfl, rfl⟩, ⟨?_, ?_, ?_, ?_⟩,
    fun s => ⟨fun w hholds hword => ?_, readField_mi_exhausted⟩⟩
  · rw [writeField_register hf, State.me_setMe]
    exact ⟨Slot.cr_setC_self _ _ _, fun n hn => Slot.cr_setC_ne _ _ _ _ hn, onlyMe_setMe _ s, readField_register hf s⟩
  · intro s n w l hn hqueue
    rw [readField_queue hn]
    dsimp only
    rw [State.core_modCore_self, Core.queue_popWord hn, hqueue]
    exact ⟨rfl, rfl⟩
  · intro s n r hn
    rw [writeField_queue hn, State.core_modCore_self]
    exact ⟨Core.queue_setQueue _ _ _, fun m hm => Core.queue_setQueue_ne hm _ _⟩
  · intro s n w l hn hport
    rw [readField_port hn]
    dsimp only
    rw [State.core_modCore_self, Core.port_popWord, hport]
    exact ⟨rfl, rfl⟩
  · intro s n c r hn hside
    rw [writeField_port hn hside, State.core_modCore_self]
    exact Core.port_setPort _ _ _
  · rw [readField_mi_word hholds hword]
    exact ⟨rfl, rfl⟩
end

section
/-! SUPPORT. An instruction that cannot issue: a field its core does not have, or a first condition that is not met (R104 to R106). -/

namespace Sys2Proof.Machine

variable {s : State} {reads writes : List Nat} {f : Nat} {w : Bool}

/-- The wait of an instruction whose first unmet condition is a read or a write of a field: reason and party (R104, R106). -/
def unmetWait (c f : Nat) (w : Bool) : Nat × Nat := if w then fullWait c f else emptyWait c f

/-- From `g` the current slot waits for field `f`: it stands in the list of those blocked there under `key`, and `arg` says what it
waits for. -/
def blockedOn (f : Nat) (w : Bool) (key arg : Nat) (g : State) : State :=
  waitFor 1 (unmetWait g.curCore f w).1 false [(unmetWait g.curCore f w).2]
    (joinBlocked g.curCore g.curSlot key (g.modMe fun y => { y with waitArg := some arg }))

theorem issue_unmet (hexist : ∀ f ∈ reads ++ writes, absentField s.curCore f = false) (hkept : keptFor s reads writes = none)
    (hunmet : unmet (giveBack s.curCore s.curSlot s) reads writes = some (f, w)) :
    ∃ key arg, issue reads writes s = .stop (blockedOn f w key arg (giveBack s.curCore s.curSlot s)) := by
  have hnone : (reads.any (absentField s.curCore) || writes.any (absentField s.curCore)) = false := by
    rw [← List.any_append, List.any_eq_false]
    exact fun f hf => Bool.eq_false_iff.1 (hexist f hf)
  have hidle := idle_giveBack s
  refine ⟨if w then f + 32 else f,
    (if w then countOf writes f - (if isQueue f then countOf reads f else 0) else countOf reads f) * 64 + (if w then f + 32 else f), ?_⟩
  unfold issue blockedOn
  rw [hidle.curCore, hidle.curSlot]
  simp only [hnone, hkept, hunmet, Bool.false_eq_true, if_false]
  rfl

/-- A slot that enters a wait, or stands in it, has the wait's record, and its registers and PCC. -/
theorem enterWait_record (y : Slot) (clock mode reason : Nat) (l : List Nat) :
    let z := y.enterWait clock mode reason false l
    z.wait.mode = mode ∧ z.wait.reason = reason ∧ z.wait.targets = l ∧ z.c = y.c ∧ z.pcc = y.pcc := by
  unfold Slot.enterWait
  by_cases hsame : y.wait.same mode reason l = true
  · rw [if_pos hsame]
    unfold WaitRec.same at hsame
    simp only [Bool.and_eq_true, beq_iff_eq, decide_eq_true_eq] at hsame
    obtain ⟨⟨hmode, hreason⟩, htargets⟩ := hsame
    exact ⟨hmode, hreason, htargets, rfl, rfl⟩
  · rw [if_neg hsame]
    exact ⟨rfl, rfl, rfl, rfl, rfl⟩

theorem joinBlocked_keeps (d c k key : Nat) (s : State) : ((joinBlocked c k key s).core d).slots = (s.core d).slots ∧
    ((joinBlocked c k key s).core d).q = (s.core d).q ∧ ((joinBlocked c k key s).core d).ports = (s.core d).ports := by
  unfold joinBlocked
  by_cases hd : d = c
  · subst hd
    rw [State.core_modCore_self]
    dsimp only
    split <;> exact ⟨rfl, rfl, rfl⟩
  · rw [State.core_modCore_ne _ _ _ _ hd]
    exact ⟨rfl, rfl, rfl⟩

theorem modMe_keeps_queues (d : Nat) (g : Slot → Slot) (s : State) :
    ((s.modMe g).core d).q = (s.core d).q ∧ ((s.modMe g).core d).ports = (s.core d).ports := by
  by_cases hd : d = s.curCore
  · subst hd
    rw [State.core_modMe]
    exact ⟨rfl, rfl⟩
  · have hcore : (s.modMe g).core d = s.core d := State.core_setSlot_ne s _ _ d _ hd
    rw [hcore]
    exact ⟨rfl, rfl⟩

theorem blockedOn_queues (d f : Nat) (w : Bool) (key arg : Nat) (g : State) :
    ((blockedOn f w key arg g).core d).q = (g.core d).q ∧ ((blockedOn f w key arg g).core d).ports = (g.core d).ports := by
  unfold blockedOn
  generalize hmarked : g.modMe (fun y => { y with waitArg := some arg }) = t
  obtain ⟨hq, hports⟩ := modMe_keeps_queues d (fun y => { y with waitArg := some arg }) g
  rw [hmarked] at hq hports
  obtain ⟨-, hq', hports'⟩ := joinBlocked_keeps d g.curCore g.curSlot key t
  obtain ⟨hq'', hports''⟩ := modMe_keeps_queues d _ (joinBlocked g.curCore g.curSlot key t)
  exact ⟨hq''.trans (hq'.trans hq), hports''.trans (hports'.trans hports)⟩

theorem blockedOn_me (f : Nat) (w : Bool) (key arg : Nat) (g : State) :
    let z := (blockedOn f w key arg g).me
    z.wait.mode = 1 ∧ (z.wait.reason, z.wait.targets) = ((unmetWait g.curCore f w).1, [(unmetWait g.curCore f w).2]) ∧
      z.c = g.me.c ∧ z.pcc = g.me.pcc := by
  have hjoin : (joinBlocked g.curCore g.curSlot key (g.modMe fun y => { y with waitArg := some arg })).me =
      { g.me with waitArg := some arg } :=
    (congrArg (SMap.get Slot.empty · g.curSlot) (joinBlocked_keeps g.curCore _ _ _ _).1).trans (State.me_modMe g _)
  unfold blockedOn waitFor
  rw [State.me_modMe, hjoin]
  obtain ⟨hmode, hreason, htargets, hc, hpcc⟩ := enterWait_record { g.me with waitArg := some arg }
    (joinBlocked g.curCore g.curSlot key (g.modMe fun y => { y with waitArg := some arg })).clock 1 (unmetWait g.curCore f w).1
    [(unmetWait g.curCore f w).2]
  exact ⟨hmode, Prod.ext hreason htargets, hc, hpcc⟩

/-- Every ALU-R instruction is one of two integer sources and an integer destination. -/
theorem exec_aluResults : ∀ p ∈ aluResults, ∃ g : Word → Word → Word, ∀ d a b s, exec (p.1 d a b) s = .next (intOp2 4 d a b g s) := by
  simp only [aluResults, List.forall_mem_cons]
  refine ⟨?_, ?_, ?_, ?_, ?_, ?_, ?_, ?_, ?_, ?_, ?_, ?_, ?_, ?_, ?_, ?_, ?_, ?_, ?_, ?_, fun _ h => absurd h List.not_mem_nil⟩
  all_goals exact ⟨_, fun _ _ _ _ => rfl⟩

theorem intOp2_stop {len d a b : Nat} {t : State} (g : Word → Word → Word) (h : issue [a, b] [d] s = .stop t) :
    intOp2 len d a b g s = t := by
  unfold intOp2
  rw [h]

end Sys2Proof.Machine

open Sys2Proof Sys2Proof.Machine in
/-- Settles O10: issue stops at the first unmet condition with the slot in the condition's wait, or at an absent field with a trap. -/
theorem issueWaits : Obligations.IssueWaits := by
  unfold Obligations.IssueWaits
  intro p hp d a b s g
  obtain ⟨op, hexec⟩ := exec_aluResults p hp
  refine ⟨fun hexist hkept f w hunmet => ?_, fun f hf habsent => ?_⟩
  · obtain ⟨key, arg, hissue⟩ := issue_unmet hexist hkept hunmet
    have hidle : Idle s g := idle_giveBack s
    obtain ⟨hmode, hrecord, hc, hpcc⟩ := blockedOn_me f w key arg g
    rw [hidle.curCore] at hrecord
    refine ⟨_, (hexec d a b s).trans (congrArg _ (intOp2_stop op hissue)), hmode, hrecord,
      hc.trans (hidle.meField Slot.c fun _ => rfl), hpcc.trans (hidle.meField Slot.pcc fun _ => rfl),
      fun c => blockedOn_queues c f w key arg g, fun hnone => ?_, hidle.field State.mem fun _ _ => rfl⟩
    show giveBack _ _ _ = _
    unfold giveBack
    rw [show (s.slot s.curCore s.curSlot).kept = none from hnone]
  · exact (hexec d a b s).trans (congrArg _ (intOp2_stop op (issue_absent hf habsent)))
end

section
/-! SUPPORT. The checks of a capability and of alignment, in their order (R100, R101, R256, R257). -/

namespace Sys2Proof.Machine

variable {s : State} {r : Reg} {ea : Int} {n perms align cause : Nat}

/-- The first check that an access fails: tag, bounds, permissions, alignment (R256). -/
inductive FailsCheck (r : Reg) (ea : Int) (n perms align : Nat) : Nat → Prop
  | tag : r.tag = false → FailsCheck r ea n perms align 0x02
  | bounds : r.tag = true → ea < r.base ∨ r.top < ea + n → FailsCheck r ea n perms align 0x03
  | permission : r.tag = true → r.base ≤ ea → ea + n ≤ r.top → r.perms &&& perms ≠ perms → FailsCheck r ea n perms align 0x04
  | alignment : r.tag = true → r.base ≤ ea → ea + n ≤ r.top → r.perms &&& perms = perms → ea % align ≠ 0 →
      FailsCheck r ea n perms align 0x05

theorem capCheck_fails (h : FailsCheck r ea n perms align cause) : capCheck r ea n perms align = some cause := by
  unfold capCheck
  cases h with
  | tag htag => rw [if_pos (by simp [htag])]
  | bounds htag hout => rw [if_neg (by simp [htag]), if_pos hout]
  | permission htag hbase htop hperms => rw [if_neg (by simp [htag]), if_neg (by omega), if_pos hperms]
  | alignment htag hbase htop hperms halign =>
    rw [if_neg (by simp [htag]), if_neg (by omega), if_neg (not_not.2 hperms), if_pos halign]

theorem memCheck_fails {w : Who} {need : Nat} (h : FailsCheck r ea n perms align cause) (s : State) :
    memCheck w r ea n perms align need s = .exc (.vec cause (vaOf ea)) s := by
  unfold memCheck
  rw [capCheck_fails h]

/-- Alignment apart, an access passes the checks before it or fails the same one. -/
theorem FailsCheck.unaligned (h : FailsCheck r ea n perms align cause) :
    FailsCheck r ea n perms 1 cause ∨ capCheck r ea n perms 1 = none := by
  cases h with
  | tag htag => exact .inl (.tag htag)
  | bounds htag hout => exact .inl (.bounds htag hout)
  | permission htag hbase htop hperms => exact .inl (.permission htag hbase htop hperms)
  | alignment htag hbase htop hperms halign => exact .inr (capCheck_none ⟨htag, hbase, htop, hperms, Int.emod_one ea⟩)

/-- A load that fails a check traps with the check's cause and the effective address, from the state before it issued. -/
theorem loadOp_traps {a d : Nat} {imm : Int} (len hint scope route : Nat) (val : Reg → Nat → Nat → Bool → Reg)
    (hready : Ready [a] [d] s)
    (h : FailsCheck (source [a] [d] s 0) ((source [a] [d] s 0).cursor + imm) n 1 align cause) :
    loadOp len d a imm n align hint scope route val s = trapMe cause (toField 64 ((source [a] [d] s 0).cursor + imm)) s := by
  unfold source at h ⊢
  unfold loadOp
  rw [issue_ready hready]
  dsimp only
  rw [memCheck_fails h]
  rfl

theorem storeOp_traps {a b : Nat} {imm : Int} (len hint scope route : Nat) (hready : Ready [a, b] [] s)
    (h : FailsCheck (source [a, b] [] s 0) ((source [a, b] [] s 0).cursor + imm) n 2 align cause) :
    storeOp len b a imm n align hint scope route false s = trapMe cause (toField 64 ((source [a, b] [] s 0).cursor + imm)) s := by
  unfold source at h ⊢
  unfold storeOp
  rw [issue_ready hready]
  dsimp only
  rw [Bool.false_and, if_neg Bool.false_ne_true]
  rcases h.unaligned with hfails | hpass
  · rw [capCheck_fails hfails]
    rfl
  · rw [hpass]
    dsimp only
    rw [Bool.false_and, Bool.false_and, if_neg Bool.false_ne_true, memCheck_fails h]
    rfl

/-- Where the permission an access needs is one bit of the capability, the check that fails is read from that bit (R98, R256). -/
theorem failsCheck_of_bit {i : Nat} (hi : i < 8)
    (h : r.tag = false ∧ cause = 0x02 ∨ r.tag = true ∧ (ea < r.base ∨ r.top < ea + n) ∧ cause = 0x03 ∨
      r.tag = true ∧ r.base ≤ ea ∧ ea + n ≤ r.top ∧ r.nat.testBit (120 + i) = false ∧ cause = 0x04 ∨
      r.tag = true ∧ r.base ≤ ea ∧ ea + n ≤ r.top ∧ r.nat.testBit (120 + i) = true ∧ ea % align ≠ 0 ∧ cause = 0x05) :
    FailsCheck r ea n (2 ^ i) align cause := by
  have hperms := r.perms_and hi
  rcases h with ⟨htag, rfl⟩ | ⟨htag, hout, rfl⟩ | ⟨htag, hbase, htop, hbit, rfl⟩ | ⟨htag, hbase, htop, hbit, halign, rfl⟩
  · exact .tag htag
  · exact .bounds htag hout
  · refine .permission htag hbase htop ?_
    rw [hperms, hbit, Bool.toNat_false, Nat.zero_mul]
    exact (Nat.two_pow_pos i).ne
  · refine .alignment htag hbase htop ?_ halign
    rw [hperms, hbit, Bool.toNat_true, Nat.one_mul]

end Sys2Proof.Machine

open Sys2Proof Sys2Proof.Machine in
/-- Settles O15: the first check that fails gives the cause, before anything is popped, read or written. -/
theorem accessChecks : Obligations.AccessChecks := by
  unfold Obligations.AccessChecks
  constructor
  · intro f s cause hf hready r h
    obtain ⟨val, hexec, -⟩ := hf.loads
    exact (hexec s).trans (congrArg _ (loadOp_traps f.len f.hint f.scope f.route val hready (failsCheck_of_bit (i := 0) (by decide) h)))
  · intro f s cause hf hcap hready r h
    have hexec := exec_store hf s
    rw [hcap] at hexec
    exact hexec.trans (congrArg _ (storeOp_traps f.len f.hint f.scope f.route hready (failsCheck_of_bit (i := 1) (by decide) h)))
end

section
/-! SUPPORT. Reading control and status registers (R10, R33, R111 to R113). -/

namespace Sys2Proof.Machine

variable {s : State} {n v d : Nat}

theorem svcMode_user (h : s.me.mode = .user) : svcMode s = false := by
  simp [svcMode, h]

theorem svcMode_of_ne (h : s.me.mode ≠ .user) : svcMode s = true := by
  simpa [svcMode] using h

/-- A service register reads 0 in user mode (R33). -/
theorem csrValue_user (hservice : 0x800 ≤ n) (hexists : (serviceCsr n s).isSome = true) (huser : s.me.mode = .user) :
    csrValue n s = some 0 := by
  obtain ⟨v, hv⟩ := Option.isSome_iff_exists.1 hexists
  unfold csrValue
  rw [if_neg (by omega), if_neg (by omega), hv, svcMode_user huser]
  rfl

theorem serviceCsr_exists (s : State) :
    ∀ n ∈ [0x800, 0x801, 0x802, 0x803, 0x820, 0x83F], 0x800 ≤ n ∧ (serviceCsr n s).isSome = true := by
  simp only [List.forall_mem_cons]
  exact ⟨⟨by decide, rfl⟩, ⟨by decide, rfl⟩, ⟨by decide, rfl⟩, ⟨by decide, rfl⟩, ⟨by decide, rfl⟩, ⟨by decide, rfl⟩,
    fun _ h => absurd h List.not_mem_nil⟩

/-- The slot's registers end at 0x00C (R112, R113). -/
theorem csrValue_absent (hlow : 0x00D ≤ n) (hhigh : n < 0x100) : csrValue n s = none := by
  obtain ⟨k, rfl⟩ := Nat.exists_eq_add_of_le' hlow
  unfold csrValue
  rw [if_pos hhigh]
  rfl

theorem csrValue_counter (h : n < 16) (s : State) : csrValue (0x110 + n) s = some (SMap.get 0 (s.core s.curCore).cnt n) := by
  unfold csrValue coreCsr
  rw [if_neg (by omega), if_pos (by omega)]
  dsimp only
  rw [if_pos (by omega), Nat.add_sub_cancel_left]

theorem csrValue_csrReads : ∀ p ∈ csrReads, ∀ s : State, csrValue p.1 s = some (p.2 s) := by
  simp only [csrReads, List.forall_mem_cons]
  refine ⟨?_, ?_, ?_, ?_, ?_, ?_, ?_, ?_, ?_, ?_, ?_, ?_, fun _ h => absurd h List.not_mem_nil⟩
  all_goals exact fun _ => rfl

theorem csrr_none (h : csrValue n s = none) : exec (.csrr d n) s = .next (illegal s) := by
  show execCsrr d n s = _
  unfold execCsrr
  rw [h]

theorem csrr_reads (hready : Ready [] [d] s) (hexists : (csrValue n s).isSome = true)
    (hvalue : csrValue n (taken [] [d] s).2 = some v) : exec (.csrr d n) s = .next (doneWith 4 [] d (.ofNat v) s) := by
  obtain ⟨old, hold⟩ := Option.isSome_iff_exists.1 hexists
  show execCsrr d n s = _
  unfold execCsrr
  rw [hold, issue_ready hready]
  dsimp only
  rw [hvalue]
  rfl

end Sys2Proof.Machine
end

section
/-! SUPPORT. Whether a write of a control and status register is made (R90, R111, R322, R382). -/

namespace Sys2Proof.Machine

variable {s t e : State} {n v a : Nat} {reads : List Nat}

/-! A write, its operand at hand. -/

theorem csrPut_illegal (h : csrIllegal n v t = true) : csrPut n v reads s t = illegal s := if_pos h

theorem csrPut_legal (hlegal : csrIllegal n v t = false) (hwrites : Writes n t e)
    (hroles : n ≠ 0x100 ∨ rolesDone e = false ∧ rolesWait (BitVec.ofNat 64 v) e = false) :
    csrPut n v reads s t = complete 4 (csrWrite n v e) := by
  unfold csrPut
  rw [if_neg (Bool.eq_false_iff.1 hlegal)]
  unfold Writes at hwrites
  by_cases hcore : 0x100 ≤ n ∧ n < 0x800
  · rw [if_pos hcore] at hwrites
    rw [if_pos hcore, exposing_ok hwrites]
    rcases hroles with hother | ⟨hdone, hwait⟩
    · rw [if_pos hother]
    · rw [hdone, hwait]
      simp
  · rw [if_neg hcore] at hwrites
    rw [if_neg hcore, ← hwrites]
    exact if_pos (by omega)

theorem csrPut_roles_done (hlegal : csrIllegal 0x100 v t = false) (hexpose : exposeMe t = .ok () e) (hdone : rolesDone e = true) :
    csrPut 0x100 v reads s t = complete 4 e := by
  unfold csrPut
  rw [if_neg (Bool.eq_false_iff.1 hlegal)]
  dsimp only
  rw [if_pos (by decide), exposing_ok hexpose, if_neg (by decide), if_pos hdone]

theorem csrPut_roles_wait (hlegal : csrIllegal 0x100 v t = false) (hexpose : exposeMe t = .ok () e) (hdone : rolesDone e = false)
    (hwait : rolesWait (BitVec.ofNat 64 v) e = true) : csrPut 0x100 v reads s t =
      stallOp reads [] s (e.modCore e.curCore fun x => { x with rolePend := some (x.rolePend.getD (e.curSlot, BitVec.ofNat 64 v)) }) := by
  unfold csrPut
  rw [if_neg (Bool.eq_false_iff.1 hlegal)]
  dsimp only
  rw [if_pos (by decide), exposing_ok hexpose, if_neg (by decide), if_neg (Bool.eq_false_iff.1 hdone), if_pos hwait]

/-! CSRW, CSRSET, CSRCLR (R322). -/

variable {f : Nat → Nat → Nat}

theorem csrOp_none (h : csrValue n s = none) : csrOp n a f s = illegal s := by
  unfold csrOp
  rw [h]

theorem csrOp_refused {old : Nat} (hvalue : csrValue n s = some old) (h : csrReadOnly n = true ∨ 0x800 ≤ n ∧ s.me.mode = .user) :
    csrOp n a f s = illegal s := by
  unfold csrOp
  rw [hvalue]
  refine if_pos ?_
  rcases h with hro | ⟨hservice, huser⟩
  · rw [hro, Bool.true_or]
  · rw [svcMode_user huser, decide_eq_true hservice]
    exact Bool.or_true _

theorem csrOp_ready {old : Nat} (hvalue : csrValue n s = some old) (hro : csrReadOnly n = false)
    (hmode : n < 0x800 ∨ s.me.mode ≠ .user) (hready : Ready [a] [] s) :
    csrOp n a f s = csrPut n (f old (sourceWord [a] [] s 0).toNat) [a] s (taken [a] [] s).2 := by
  have hservice : (decide (0x800 ≤ n) && !svcMode s) = false := by
    rcases hmode with hlow | hother
    · rw [decide_eq_false (Nat.not_le.2 hlow), Bool.false_and]
    · rw [svcMode_of_ne hother, Bool.not_true, Bool.and_false]
  unfold csrOp
  rw [hvalue]
  dsimp only
  rw [hro, hservice, Bool.false_or, if_neg Bool.false_ne_true, issue_ready hready]
  rfl

/-- The three instructions, with the new value that each makes of the old one and its operand. -/
def csrUpdates : List ((Nat → Nat → Instr) × (Nat → Nat → Nat)) :=
  [(.csrw, fun _ x => x), (.csrset, fun o x => o ||| x), (.csrclr, fun o x => o &&& (2 ^ 64 - 1 - x))]

theorem exec_csrUpdates : ∀ p ∈ csrUpdates, ∀ n a s, exec (p.1 n a) s = .next (csrOp n a p.2 s) := by
  simp only [csrUpdates, List.forall_mem_cons]
  exact ⟨fun _ _ _ => rfl, fun _ _ _ => rfl, fun _ _ _ => rfl, fun _ h => absurd h List.not_mem_nil⟩

/-! The rows of the opcode table that write one register. -/

theorem exec_csrRows : ∀ p ∈ csrRows, ∀ v s, exec (p.1 v) s = .next (csrPut p.2 v [] s s) := by
  simp only [csrRows, List.forall_mem_cons]
  exact ⟨fun _ _ => rfl, fun _ _ => rfl, fun _ _ => rfl, fun _ _ => rfl, fun _ _ => rfl, fun _ _ => rfl, fun _ _ => rfl,
    fun _ _ => rfl, fun _ h => absurd h List.not_mem_nil⟩

theorem csrIllegal_counter (h : n < 16) (v : Nat) (s : State) : csrIllegal (0x110 + n) v s = false := by
  have hro : csrReadOnly (0x110 + n) = false := by
    simp only [csrReadOnly, Bool.or_eq_false_iff, Bool.and_eq_false_iff, decide_eq_false_iff_not]
    omega
  have hne (m : Nat) (hm : m < 0x110) : (0x110 + n == m) = false := beq_false_of_ne (by omega)
  unfold csrIllegal
  rw [csrValue_counter h, hro, hne 0x100 (by decide), hne 0x102 (by decide), hne 0x104 (by decide), hne 0x105 (by decide),
    decide_eq_false (by omega)]
  rfl

end Sys2Proof.Machine
end

section
/-! SUPPORT. What a write of a control and status register leaves in it (R111 to R113). -/

namespace Sys2Proof.Machine

variable {s : State} {n v x : Nat}

/-- In `t` register `n` reads `x`; memory, and the registers and PCC of the current slot, are those of `s`. -/
def RegisterSet (s t : State) (n x : Nat) : Prop := csrValue n t = some x ∧ t.mem = s.mem ∧ t.me.c = s.me.c ∧ t.me.pcc = s.me.pcc

/-- A register that is a field `g` of the slot, written by `f`. -/
theorem registerSet_slot (g : Slot → Nat) (f : Slot → Slot) (hfield : g (f s.me) = x)
    (hread : ∀ t, csrValue n t = some (g t.me) := by intro; rfl)
    (hkeep : ∀ y, (f y).c = y.c ∧ (f y).pcc = y.pcc := by intro; exact ⟨rfl, rfl⟩) : RegisterSet s (s.modMe f) n x := by
  unfold RegisterSet
  rw [hread, State.me_modMe, hfield]
  exact ⟨rfl, rfl, hkeep _⟩

/-- A register that is a field `g` of a small core, written by `f`. -/
theorem registerSet_core (g : Core → Nat) (f : Core → Core) (hsmall : isKeystone s.curCore = false)
    (hread : ∀ t, isKeystone t.curCore = false → csrValue n t = some (g (t.core t.curCore))) (hkeep : ∀ y, (f y).slots = y.slots)
    (hfield : g (f (s.core s.curCore)) = x) : RegisterSet s (s.modCore s.curCore f) n x := by
  have hme : (s.modCore s.curCore f).me = s.me := slot_modCore_of_slots _ _ _ f s hkeep
  have hcore : (s.modCore s.curCore f).core s.curCore = f (s.core s.curCore) := State.core_modCore_self s _ f
  refine ⟨(hread (s.modCore s.curCore f) hsmall).trans (congrArg some ?_), rfl, congrArg Slot.c hme, congrArg Slot.pcc hme⟩
  exact (congrArg g hcore).trans hfield

/-- A 64-bit register of a small core keeps the whole of what is written. -/
theorem registerSet_word {n : Nat} (g : Core → Word) (f : Core → Core) (hsmall : isKeystone s.curCore = false)
    (hread : ∀ t, csrValue n t = if isKeystone t.curCore then none else some (g (t.core t.curCore)).toNat := by intro; rfl)
    (hkeep : ∀ y, (f y).slots = y.slots := by intro; rfl) (hfield : ∀ y, g (f y) = BitVec.ofNat 64 v := by intro; rfl) :
    RegisterSet s (s.modCore s.curCore f) n (v % 2 ^ 64) :=
  registerSet_core (fun y => (g y).toNat) f hsmall (fun t ht => (hread t).trans (if_neg (Bool.eq_false_iff.1 ht))) hkeep
    ((congrArg BitVec.toNat (hfield _)).trans (BitVec.toNat_ofNat v 64))

theorem tvec_field (v : Nat) : bits v 1 51 * 2 = v % 2 ^ 52 / 2 * 2 := by
  unfold bits
  omega

theorem bits_zero (v k : Nat) : bits v 0 k = v % 2 ^ k := by
  rw [bits, pow_zero, Nat.div_one]

theorem registerSet_csrFields (hsmall : isKeystone s.curCore = false) (v : Nat) :
    ∀ p ∈ csrFields, RegisterSet s (csrWrite p.1 v s) p.1 (p.2 v) := by
  simp only [csrFields, List.forall_mem_cons]
  exact ⟨registerSet_slot Slot.prio (fun y => { y with prio := bits v 0 4 }) (bits_zero v 4),
    registerSet_slot Slot.tvec (fun y => { y with tvec := bits v 1 51 * 2 }) (tvec_field v),
    registerSet_slot Slot.tcause (fun y => { y with tcause := bits v 0 8 }) (bits_zero v 8),
    registerSet_slot (fun y => y.tval.toNat) (fun y => { y with tval := BitVec.ofNat 64 v }) (BitVec.toNat_ofNat v 64),
    registerSet_slot Slot.tpc (fun y => { y with tpc := bits v 0 52 }) (bits_zero v 52),
    registerSet_slot Slot.spawnlim (fun y => { y with spawnlim := bits v 0 16 }) (bits_zero v 16),
    registerSet_word Core.fmta (fun x => { x with fmta := BitVec.ofNat 64 v }) hsmall,
    registerSet_word Core.fmtb (fun x => { x with fmtb := BitVec.ofNat 64 v }) hsmall,
    registerSet_word Core.fmtc (fun x => { x with fmtc := BitVec.ofNat 64 v }) hsmall,
    registerSet_word Core.scla (fun x => { x with scla := BitVec.ofNat 64 v }) hsmall,
    registerSet_word Core.sclb (fun x => { x with sclb := BitVec.ofNat 64 v }) hsmall,
    fun _ h => absurd h List.not_mem_nil⟩

/-! Counters (R94). -/

theorem noteCount_keeps (c n d : Nat) (s : State) : (noteCount c n s).curCore = s.curCore ∧
    ((noteCount c n s).core d).cnt = (s.core d).cnt := by
  have hnext : ((s.modEng c Engine.next).core d).cnt = (s.core d).cnt := by
    by_cases hd : d = c
    · subst hd
      unfold State.modEng
      rw [State.core_modCore_self]
    · unfold State.modEng
      rw [State.core_modCore_ne _ _ _ _ hd]
  unfold noteCount
  split
  · split
    · exact ⟨rfl, hnext⟩
    · exact ⟨rfl, rfl⟩
  · exact ⟨rfl, rfl⟩

theorem csrWrite_counter (h : n < 16) (v : Nat) (s : State) : csrWrite (0x110 + n) v s =
    noteCount s.curCore n (s.modCore s.curCore fun x => { x with cnt := SMap.put x.cnt n (bits v 0 32) }) := by
  unfold csrWrite
  dsimp only
  rw [if_neg (by omega), if_pos (by omega), if_pos (by omega), Nat.add_sub_cancel_left]

theorem csrValue_csrWrite_counter (h : n < 16) (v : Nat) (s : State) :
    csrValue (0x110 + n) (csrWrite (0x110 + n) v s) = some (v % 2 ^ 32) := by
  let t := s.modCore s.curCore fun x => { x with cnt := SMap.put x.cnt n (bits v 0 32) }
  obtain ⟨hcore, hcnt⟩ := noteCount_keeps s.curCore n s.curCore t
  have hput : (t.core s.curCore).cnt = SMap.put (s.core s.curCore).cnt n (bits v 0 32) :=
    congrArg Core.cnt (State.core_modCore_self s s.curCore _)
  rw [csrWrite_counter h, csrValue_counter h, show (noteCount s.curCore n t).curCore = s.curCore from hcore, hcnt, hput,
    SMap.get_put_self, bits_zero]

end Sys2Proof.Machine
end

section
/-! SUPPORT. Bank roles that change (R89, R90). -/

namespace Sys2Proof.Machine

variable {s t e : State} {c k b i v n : Nat} {w : Word}

/-! A change that waits. -/

/-- A stalled instruction changes its own slot, and there neither PCC nor a general register. -/
theorem stallOp_eq_modMe (reads writes : List Nat) (s t : State) :
    ∃ f, stallOp reads writes s t = t.modMe f ∧ ∀ y, (f y).pcc = y.pcc := by
  unfold stallOp stallMe keepTaken
  refine ⟨_, State.modMe_modMe t _ _, fun y => ?_⟩
  unfold Slot.leaveWait Function.comp
  dsimp only
  split <;> rfl

/-- BANKROLE that has to wait is pending for the slot that writes it, which stalls at its instruction. -/
theorem stallOp_rolePend (reads : List Nat) (he : context e = context s) (hnone : (e.core s.curCore).rolePend = none) (w : Word) :
    let t := stallOp reads [] s (e.modCore e.curCore fun x => { x with rolePend := some (x.rolePend.getD (e.curSlot, w)) })
    t.me.pcc = s.me.pcc ∧ (t.core s.curCore).rolePend = some (s.curSlot, w) ∧
      (t.core s.curCore).bankrole = (e.core s.curCore).bankrole := by
  have hcore : e.curCore = s.curCore := congrArg Prod.fst he
  have hslot : e.curSlot = s.curSlot := congrArg (fun x => x.2.1) he
  have hpcc : e.me.pcc = s.me.pcc := congrArg (fun x => x.2.2.1) he
  rw [hcore, hslot]
  generalize hu : e.modCore s.curCore (fun x => { x with rolePend := some (x.rolePend.getD (s.curSlot, w)) }) = u
  obtain ⟨f, hstall, hf⟩ := stallOp_eq_modMe reads [] s u
  have hucore : u.curCore = s.curCore := hu ▸ hcore
  have hme : u.me = e.me := hu ▸ slot_modCore_of_slots _ _ _ _ e fun _ => rfl
  have hpend : u.core s.curCore = { e.core s.curCore with rolePend := some (s.curSlot, w) } := by
    rw [← hu, State.core_modCore_self, hnone]
    rfl
  have hput := State.core_modMe f u
  rw [hucore, hpend] at hput
  intro t
  have ht : t = u.modMe f := hstall
  rw [ht, State.me_modMe, hf, hme, hput]
  exact ⟨hpcc, rfl, rfl⟩

/-! A change that takes effect. -/

/-- A map whose keys that fail a test are unlisted. -/
theorem SMap.get_filter_key {α : Type} (d : α) (p : Nat → Bool) (m : SMap α) (x : Nat) :
    SMap.get d (m.filter fun q => p q.1) x = if p x then SMap.get d m x else d := by
  induction m with
  | nil => exact (ite_self d).symm
  | cons q m ih =>
    by_cases hq : x = q.1
    · subst hq
      cases hp : p q.1
      · rw [List.filter_cons_of_neg (by simp [hp]), ih, hp]
        rfl
      · rw [List.filter_cons_of_pos (by simp [hp])]
        simp [SMap.get]
    · have hskip (m : SMap α) : SMap.get d (q :: m) x = SMap.get d m x := if_neg hq
      rw [hskip, ← ih]
      cases hp : p q.1
      · rw [List.filter_cons_of_neg (by simp [hp])]
      · rw [List.filter_cons_of_pos (by simp [hp]), hskip]

/-- The banks that a value takes out of the cache role. -/
def leavingBanks (c : Nat) (w : Word) (s : State) : List Nat :=
  (banksOf (s.core c).bankrole 1).filter fun b => bits w.toNat (2 * b) 2 != 1

/-- A local bank reads as zero, without tags and poison. -/
def clearBank (c : Nat) (s : State) (b : Nat) : State :=
  let a := localKey c (8192 * b)
  { s with
    mem := s.mem.filter fun q => !(decide (a ≤ q.1) && decide (q.1 < a + 8192))
    tags := s.tags.filter fun q => !(decide (a / 16 ≤ q.1) && decide (q.1 < (a + 8192) / 16))
    poison := s.poison.filter fun q => !(decide (a / 64 ≤ q.1) && decide (q.1 < (a + 8192) / 64)) }

/-- The lines that leave the banks first, then the banks that are cleared, then the roles. -/
theorem setRoles_eq (c : Nat) (w : Word) (s : State) : ∃ lines : List (Nat × Line), setRoles c w s =
    ((leavingBanks c w s).foldl (clearBank c) (lines.foldl (fun s p => leaveBanks p.1 s) s)).modCore c
      fun x => { x with bankrole := w, rolePend := none } := ⟨_, rfl⟩

theorem clearBank_mem (c b : Nat) (s : State) (x : Nat) : SMap.get 0 (clearBank c s b).mem x =
    if localKey c (8192 * b) ≤ x ∧ x < localKey c (8192 * b) + 8192 then 0 else SMap.get 0 s.mem x := by
  refine (SMap.get_filter_key 0 (fun a => !(decide (localKey c (8192 * b) ≤ a) && decide (a < localKey c (8192 * b) + 8192)))
    s.mem x).trans ?_
  by_cases h : localKey c (8192 * b) ≤ x ∧ x < localKey c (8192 * b) + 8192 <;> simp [h]

/-- A bank that is cleared once reads as zero whatever banks are cleared after it. -/
theorem foldl_clearBank_zero (c : Nat) (l : List Nat) (s : State) (x : Nat)
    (h : SMap.get 0 s.mem x = 0 ∨ ∃ b ∈ l, localKey c (8192 * b) ≤ x ∧ x < localKey c (8192 * b) + 8192) :
    SMap.get 0 (l.foldl (clearBank c) s).mem x = 0 := by
  induction l generalizing s with
  | nil => exact h.resolve_right fun ⟨_, hb, _⟩ => absurd hb List.not_mem_nil
  | cons b l ih =>
    rw [List.foldl_cons]
    refine ih _ ?_
    rw [clearBank_mem]
    rcases h with hzero | ⟨d, hd, hin⟩
    · exact .inl (by rw [hzero, ite_self])
    · rcases List.mem_cons.1 hd with rfl | hd
      · exact .inl (if_pos hin)
      · exact .inr ⟨d, hd, hin⟩

theorem mem_leavingBanks (hb : b < 32) (hcache : (s.core c).bankrole.toNat / 4 ^ b % 4 = 1) (hleave : w.toNat / 4 ^ b % 4 ≠ 1) :
    b ∈ leavingBanks c w s := by
  have hpow : 2 ^ (2 * b) = 4 ^ b := Nat.pow_mul 2 2 b
  unfold leavingBanks banksOf bits
  simp only [List.mem_filter, List.mem_range, hpow]
  exact ⟨⟨hb, beq_iff_eq.2 hcache⟩, bne_iff_ne.2 hleave⟩

/-- A bank that leaves the cache role reads as zero (R90). -/
theorem setRoles_zero (hb : b < 32) (hcache : (s.core c).bankrole.toNat / 4 ^ b % 4 = 1) (hleave : w.toNat / 4 ^ b % 4 ≠ 1)
    (hi : i < 8192) : SMap.get 0 (setRoles c w s).mem (localKey c (8192 * b) + i) = 0 := by
  obtain ⟨lines, hroles⟩ := setRoles_eq c w s
  rw [hroles]
  exact foldl_clearBank_zero c _ _ _ (.inr ⟨b, mem_leavingBanks hb hcache hleave, Nat.le_add_right _ _, by omega⟩)

theorem setRoles_core (c : Nat) (w : Word) (s : State) :
    ((setRoles c w s).core c).bankrole = w ∧ ((setRoles c w s).core c).rolePend = none := by
  obtain ⟨lines, hroles⟩ := setRoles_eq c w s
  rw [hroles, State.core_modCore_self]
  exact ⟨rfl, rfl⟩

/-- BANKROLE_CHANGE of a pending value whose banks are free gives the core its roles and leaves nothing pending (R90). -/
theorem bankroleChange_sets (hpend : (s.core c).rolePend = some (k, w)) (hfree : tobBusy c w s = false) :
    ∃ t, exec (.bankroleChange c) s = .next t ∧ (t.core c).bankrole = w ∧ (t.core c).rolePend = none ∧
      t.mem = (setRoles c w s).mem := by
  obtain ⟨hrole, hnone⟩ := setRoles_core c w s
  have hexec : exec (.bankroleChange c) s = .next (if k < 8 then (setRoles c w s).modSlot c k fun y =>
      { y with replies := y.replies ++ [⟨0x100, [], [], false, 0⟩] } else setRoles c w s) := by
    show execBankroleChange c s = _
    unfold execBankroleChange
    rw [hpend]
    exact if_neg (Bool.eq_false_iff.1 hfree)
  refine ⟨_, hexec, ?_⟩
  split
  · rw [State.core_modSlot_self]
    exact ⟨hrole, hnone, rfl⟩
  · exact ⟨hrole, hnone, rfl⟩

end Sys2Proof.Machine

open Sys2Proof Sys2Proof.Machine in
/-- Settles O43: reads by the register's number, writes by whether and when the write is made, and bank roles by their wait. -/
theorem csrReadsAndWrites : Obligations.CsrReadsAndWrites := by
  unfold Obligations.CsrReadsAndWrites
  refine ⟨⟨?reads, ?noRegister, csrValue_csrReads, ?userMode, fun n s => csrValue_absent⟩, ?updates, ?noUpdate, ?fields, ?counters, ?rows,
    ?counterRow, ?roleWrite, ?roleChange⟩
  case reads => exact fun d csr v s hready hexists hvalue => csrr_reads hready hexists hvalue
  case noRegister => exact fun d csr s hnone => csrr_none hnone
  case userMode =>
    intro n s hn huser
    obtain ⟨hservice, hexists⟩ := serviceCsr_exists s n hn
    exact csrValue_user hservice hexists huser
  case updates =>
    intro p hp n a old s hvalue
    rw [exec_csrUpdates p hp]
    refine ⟨fun h => congrArg _ (csrOp_refused hvalue h), fun hro hmode hready => ?_⟩
    rw [csrOp_ready hvalue hro hmode hready]
    refine ⟨fun h => congrArg _ (csrPut_illegal h), fun hlegal e hwrites =>
      ⟨fun hroles => congrArg _ (csrPut_legal hlegal hwrites hroles), ?_⟩⟩
    rintro rfl hdone
    exact congrArg _ (csrPut_roles_done hlegal hwrites hdone)
  case noUpdate =>
    intro p hp n a s hnone
    obtain ⟨q, hq, rfl⟩ := List.mem_map.1 (show p ∈ csrUpdates.map Prod.fst from hp)
    exact (exec_csrUpdates q hq n a s).trans (congrArg _ (csrOp_none hnone))
  case fields => exact fun p hp v s hsmall => registerSet_csrFields hsmall v p hp
  case counters => exact fun n v s hn => csrValue_csrWrite_counter hn v s
  case rows =>
    intro p hp v s
    rw [exec_csrRows p hp]
    exact ⟨fun hillegal => congrArg _ (csrPut_illegal hillegal), fun hlegal e hwrites hroles =>
      congrArg _ (csrPut_legal hlegal hwrites hroles)⟩
  case counterRow =>
    intro n v s e hn hexpose
    exact congrArg Host.Outcome.next (csrPut_legal (csrIllegal_counter hn v s) ((if_pos (by omega)).mpr hexpose) (.inl (by omega)))
  case roleWrite =>
    intro v s e hlegal hexpose
    exact ⟨fun hdone => congrArg Host.Outcome.next (csrPut_roles_done hlegal hexpose hdone), fun hdone hwait hnone => ⟨_,
      congrArg Host.Outcome.next (csrPut_roles_wait hlegal hexpose hdone hwait), stallOp_rolePend [] (context_exposeMe hexpose) hnone _⟩⟩
  case roleChange =>
    intro c k b i w s hpend hfree
    obtain ⟨t, hexec, hrole, hnone, hmem⟩ := bankroleChange_sets hpend hfree
    exact ⟨t, hexec, hrole, hnone, fun hb hcache hleave hi => hmem ▸ setRoles_zero hb hcache hleave hi⟩
end

section
/-! SUPPORT. Writes of the matrix units, and the end of a command (R139, R163). -/

namespace Sys2Proof.Machine

variable {α β : Type} {g : Mx → α} {c d : Nat} {s t u : State} {x : Started}

/-! What a step of the units alone leaves unchanged. -/

@[simp] theorem State.mx_modMx_self (s : State) (c : Nat) (f : Mx → Mx) : (s.modMx c f).mx c = f (s.mx c) :=
  congrArg Core.mx (State.core_modCore_self s c _)

theorem State.mx_modMx_ne (s : State) (f : Mx → Mx) (h : d ≠ c) : (s.modMx c f).mx d = s.mx d :=
  congrArg Core.mx (State.core_modCore_ne s c d _ h)

/-- What a write of a unit keeps, it keeps of every unit. -/
theorem State.mx_modMx_field (s : State) (c d : Nat) {f : Mx → Mx} (hf : ∀ m, g (f m) = g m := by intro; rfl) :
    g ((s.modMx c f).mx d) = g (s.mx d) := by
  by_cases hd : d = c
  · rw [hd, State.mx_modMx_self, hf]
  · rw [State.mx_modMx_ne s f hd]

/-- A write of a core that keeps its unit keeps every unit. -/
theorem State.mx_modCore_of_mx (s : State) (c d : Nat) {f : Core → Core} (hf : ∀ k, (f k).mx = k.mx := by intro; rfl) :
    (s.modCore c f).mx d = s.mx d := by
  unfold State.mx
  by_cases hd : d = c
  · rw [hd, State.core_modCore_self, hf]
  · rw [State.core_modCore_ne s c d f hd]

/-- From `s` to `t` only matrix units change, and of each unit nothing that `g` reads. -/
structure KeepsMx (g : Mx → α) (s t : State) : Prop where
  rest : { t with cores := s.cores } = s
  core : ∀ d, { t.core d with mx := (s.core d).mx } = s.core d
  unit : ∀ d, g (t.mx d) = g (s.mx d)

theorem KeepsMx.refl (s : State) : KeepsMx g s s := ⟨rfl, fun _ => rfl, fun _ => rfl⟩

theorem KeepsMx.trans (h : KeepsMx g s t) (h' : KeepsMx g t u) : KeepsMx g s u where
  rest := (congrArg (fun v : State => { v with cores := s.cores }) h'.rest).trans h.rest
  core := fun d => (congrArg (fun k : Core => { k with mx := (s.core d).mx }) (h'.core d)).trans (h.core d)
  unit := fun d => (h'.unit d).trans (h.unit d)

/-- Less is asked of the units. -/
theorem KeepsMx.map (f : α → β) (h : KeepsMx g s t) : KeepsMx (fun m => f (g m)) s t :=
  ⟨h.rest, h.core, fun d => congrArg f (h.unit d)⟩

theorem KeepsMx.ite {p : Prop} [Decidable p] (ht : KeepsMx g s t) (hu : KeepsMx g s u) : KeepsMx g s (if p then t else u) := by
  split <;> assumption

theorem KeepsMx.foldl {ι : Type} (l : List ι) (f : State → ι → State) (hf : ∀ s i, KeepsMx g s (f s i)) (s : State) :
    KeepsMx g s (l.foldl f s) := by
  induction l generalizing s with
  | nil => exact .refl s
  | cons i l ih => exact (hf s i).trans (ih _)

theorem KeepsMx.modMx (s : State) (c : Nat) (f : Mx → Mx) (hf : ∀ m, g (f m) = g m := by intro; rfl) :
    KeepsMx g s (s.modMx c f) where
  rest := rfl
  core := fun d => by
    by_cases hd : d = c
    · subst hd
      exact congrArg (fun k : Core => { k with mx := (s.core d).mx }) (State.core_modCore_self s d _)
    · rw [State.modMx, State.core_modCore_ne _ _ _ _ hd]
  unit := fun d => State.mx_modMx_field s c d hf

/-- A field of the state that does not see the cores. -/
theorem KeepsMx.field (h : KeepsMx g s t) (f : State → β) (hf : ∀ v cores, f { v with cores := cores } = f v) : f t = f s :=
  (hf t s.cores).symm.trans (congrArg f h.rest)

/-- A field of a core that does not see its unit. -/
theorem KeepsMx.coreField (h : KeepsMx g s t) (f : Core → β) (hf : ∀ k m, f { k with mx := m } = f k) (d : Nat) :
    f (t.core d) = f (s.core d) := (hf (t.core d) _).symm.trans (congrArg f (h.core d))

/-- A field of a unit that does not see what the step changes. -/
theorem KeepsMx.unitField {g : Mx → Mx} (h : KeepsMx g s t) (f : Mx → β) (d : Nat)
    (hf : ∀ m, f (g m) = f m := by intro; rfl) : f (t.mx d) = f (s.mx d) :=
  (hf _).symm.trans ((congrArg f (h.unit d)).trans (hf _))

theorem KeepsMx.curCore (h : KeepsMx g s t) : t.curCore = s.curCore := h.field State.curCore fun _ _ => rfl

theorem KeepsMx.mem (h : KeepsMx g s t) : t.mem = s.mem := h.field State.mem fun _ _ => rfl

theorem KeepsMx.tick (h : KeepsMx g s t) : t.tick = s.tick := h.field State.tick fun _ _ => rfl

theorem KeepsMx.setCur (s : State) (c : Nat) (x : Started) (hg : ∀ m : Mx, g { m with cur := some x } = g m := by intro; rfl) :
    KeepsMx g s (setCur c x s) := .modMx s c _ hg

theorem setCur_cur (c : Nat) (x : Started) (s : State) : ((setCur c x s).mx c).cur = some x := by
  rw [setCur, State.mx_modMx_self]

theorem KeepsMx.mxRun (s : State) (c : Nat) (hg : ∀ (m : Mx) w, g { m with wait := w } = g m := by intros; rfl) :
    KeepsMx g s (mxRun c s) :=
  .modMx s c _ fun m => hg m _

/-! A wait of the sequencer. -/

theorem mxWait_wait (c reason target : Nat) (s : State) :
    ((mxWait c reason target s).mx c).wait.mode = 1 ∧ ((mxWait c reason target s).mx c).wait.reason = reason ∧
      ((mxWait c reason target s).mx c).wait.targets = [target] := by
  rw [mxWait, State.mx_modMx_self]
  dsimp only
  split
  · rename_i hsame
    simpa [WaitRec.same, and_assoc] using hsame
  · exact ⟨rfl, rfl, rfl⟩

theorem mxWait_cur (c reason target : Nat) (s : State) : ((mxWait c reason target s).mx c).cur = (s.mx c).cur :=
  State.mx_modMx_field (g := Mx.cur) s c c fun _ => rfl

/-! The stores and records of a command leave its links' requests and the units. -/

theorem beyond_landFlight (f : Flight) (s : State) : beyond (landFlight f s) = beyond s := by
  refine (beyond_finishFlight f _).trans ?_
  unfold Flight.arrives
  split
  · refine beyond_foldl _ _ (fun s p => ?_) s
    exact beyond_ite (beyond_ite rfl rfl) (beyond_ite rfl ((beyond_of_apart (apart_fillFrom _ _ _ _ _)).trans
      (beyond_foldl _ _ (fun s f => beyond_ite (beyond_finishFlight f s) rfl) s)))
  · rfl

theorem beyond_landAll (p : Flight → Bool) (l : List Flight) (s : State) : beyond (landAll p l s) = beyond s := by
  induction l generalizing s with
  | nil => rfl
  | cons f l ih => exact (ih _).trans (beyond_ite (beyond_landFlight f s) rfl)

theorem links_of_beyond (h : beyond t = beyond s) : t.links = s.links :=
  show (beyond t).links = (beyond s).links from congrArg State.links h

theorem links_drainAgent (c k : Nat) (s : State) : (drainAgent c k s).links = s.links :=
  links_of_beyond (beyond_landAll _ _ s)

theorem hostWritesOf_congr (h : t.links = s.links) (agent : Nat) : hostWritesOf t agent = hostWritesOf s agent := by
  unfold hostWritesOf
  rw [h]

theorem links_netSend (m : Msg) (s : State) : (netSend m s).links = s.links := by
  unfold netSend
  split
  · rfl
  split
  · split
    split
    · unfold absenceWrite
      split
      extract_lets prod e ws u v
      have hv : v.links = s.links := links_of_beyond ((beyond_tableBytes _ _ u).trans (beyond_tableWords e ws s))
      exact hv
    · rfl
  · rfl

theorem links_postNow (r : Rec) {q : Nat} (h : postNow r s = some (q, t)) : t.links = s.links := by
  unfold postNow at h
  split at h
  · obtain ⟨-, rfl⟩ := Prod.mk.inj (Option.some.inj h)
    rfl
  split at h
  · cases h
  extract_lets b w0 prod size k q' first parts ring seq count word0 kept copy pay w3 told posted at h
  have hcount : count.links = s.links := links_of_beyond ((beyond_tableBytes _ _ seq).trans
    ((beyond_tableBytes _ _ ring).trans (beyond_foldl _ _ (fun s _ => beyond_tableWords _ _ s) s)))
  clear_value count
  have hcopy : copy.links = s.links := by unfold copy; split <;> exact hcount
  clear_value copy
  have htold : told.links = s.links := by
    unfold told
    split
    · exact (links_netSend _ copy).trans hcopy
    · exact hcopy
  clear_value told
  obtain ⟨-, rfl⟩ := Prod.mk.inj (Option.some.inj h)
  unfold posted
  split
  · dsimp only
    split
    · exact (links_netSend _ _).trans htold
    · exact htold
  · exact htold

theorem links_queueRecord (r : Rec) (s : State) : (queueRecord r s).links = s.links := by
  unfold queueRecord queueSeq
  split
  · rename_i p h
    split at h
    · cases h
    · exact links_postNow r h
  · rfl

/-! The end of a command. -/

/-- A command of the unit of `c` can end at once: no store of it is on its way or awaits an acknowledgement, and q4 has room. -/
structure MxCalm (c : Nat) (s : State) : Prop where
  flights : s.flights = []
  acked : hostWritesOf s (seqParty c) = false
  room : (s.core c).load 4 < 8

theorem KeepsMx.calm (h : KeepsMx g s t) (hs : MxCalm c s) : MxCalm c t where
  flights := (h.field State.flights fun _ _ => rfl).trans hs.flights
  acked := (hostWritesOf_congr (h.field State.links fun _ _ => rfl) _).trans hs.acked
  room := (h.coreField (fun k => k.load 4) (fun _ _ => rfl) c).trans_lt hs.room

/-- A command that is done since a state is done since one before it that only units tell apart. -/
theorem KeepsMx.mxDone {op seq status detail : Nat} (h : KeepsMx g s t) (hdone : MxDone t u c op seq status detail) :
    MxDone s u c op seq status detail := by
  unfold MxDone at hdone ⊢
  rwa [h.coreField (fun k => k.queue 4) (fun _ _ => rfl) c] at hdone

/-- A unit without what the end of a command changes. -/
def Mx.lasting (m : Mx) : Mx :=
  { m with cur := none, token := none, done := 0, idleSince := 0, ramped := false, replies := [], wait := ⟨0, 0, 0, 0, []⟩ }

theorem mxRun_field (c d : Nat) (s : State) (hg : ∀ (m : Mx) w, g { m with wait := w } = g m) :
    g ((mxRun c s).mx d) = g (s.mx d) := State.mx_modMx_field s c d fun m => hg m _

theorem pushToken_field (c d : Nat) (s : State) (hwait : ∀ (m : Mx) w, g { m with wait := w } = g m)
    (htoken : ∀ (m : Mx), g { m with token := none } = g m) : g ((pushToken c s).mx d) = g (s.mx d) := by
  unfold pushToken
  split
  · rfl
  rename_i w _
  split
  · exact mxRun_field c d s hwait
  exact (mxRun_field c d _ hwait).trans ((State.mx_modMx_field _ c d htoken).trans (congrArg g (State.mx_modCore_of_mx s c d)))

theorem pushToken_room {w : Word} (htoken : (s.mx c).token = some w) (hroom : (s.core c).load 4 < 8) : pushToken c s =
    mxRun c ((s.modCore c fun k => k.setQueue 4 (k.queue 4 ++ [w])).modMx c fun m => { m with token := none }) := by
  unfold pushToken
  rw [htoken]
  exact if_neg (Nat.not_le.2 hroom)

/-- A unit whose command has ended, with its token. -/
def Mx.ended (seq clock : Nat) (w : Word) (m : Mx) : Mx :=
  { m with cur := none, token := some w, done := seq, idleSince := clock, ramped := false, replies := [],
           wait := if m.wait.mode = 0 then m.wait else m.wait.clear }

/-- The word of a token (R163). -/
def Started.token (x : Started) (status detail : Nat) : Word :=
  BitVec.ofNat 64 (detail * 2 ^ 48 + x.q.cmd.op * 2 ^ 40 + status * 2 ^ 32 + x.q.seq)

theorem mxComplete_acked (status detail : Nat) (hacked : hostWritesOf s (seqParty c) = false) : mxComplete c x status detail s =
    pushToken c ((drainAgent c 17 s).modMx c (Mx.ended x.q.seq s.clock (x.token status detail))) :=
  if_neg (Bool.eq_false_iff.1 ((hostWritesOf_congr (links_drainAgent c 17 s) _).trans hacked))

theorem mxComplete_lasting (c d : Nat) (x : Started) (status detail : Nat) (s : State) :
    ((mxComplete c x status detail s).mx d).lasting = (s.mx d).lasting := by
  have hdrain : ((drainAgent c 17 s).mx d).lasting = (s.mx d).lasting :=
    (steady_drainAgent c 17 s).coreField (fun k => k.mx.lasting) (fun _ => rfl) d
  unfold mxComplete
  extract_lets v word
  split
  · exact (mxRun_field (g := Mx.lasting) c d _ fun _ _ => rfl).trans ((State.mx_modMx_field v c d).trans hdrain)
  · exact (pushToken_field (g := Mx.lasting) c d _ (fun _ _ => rfl) fun _ => rfl).trans
      ((State.mx_modMx_field v c d).trans hdrain)

/-- What of a unit the end of a command leaves. -/
theorem mxComplete_field (c d : Nat) (x : Started) (status detail : Nat) (s : State) (hg : ∀ m : Mx, g m.lasting = g m) :
    g ((mxComplete c x status detail s).mx d) = g (s.mx d) := by
  rw [← hg, mxComplete_lasting, hg]

theorem mxComplete_ends (status detail : Nat) (hacked : hostWritesOf s (seqParty c) = false) :
    ((mxComplete c x status detail s).mx c).cur = none ∧ ((mxComplete c x status detail s).mx c).done = x.q.seq := by
  rw [mxComplete_acked status detail hacked]
  constructor
  · rw [pushToken_field (g := Mx.cur) c c _ (fun _ _ => rfl) fun _ => rfl, State.mx_modMx_self, Mx.ended]
  · rw [pushToken_field (g := Mx.done) c c _ (fun _ _ => rfl) fun _ => rfl, State.mx_modMx_self, Mx.ended]

theorem mxComplete_calm (x : Started) (status detail : Nat) (hs : MxCalm c s) : mxComplete c x status detail s =
    mxRun c (((s.modMx c (Mx.ended x.q.seq s.clock (x.token status detail))).modCore c
      fun k => k.setQueue 4 (k.queue 4 ++ [x.token status detail])).modMx c fun m => { m with token := none }) := by
  rw [mxComplete_acked status detail hs.acked, drainAgent, drainWhere_none _ hs.flights]
  refine pushToken_room (by rw [State.mx_modMx_self]; rfl) ?_
  rw [State.modMx, State.core_modCore_self]
  exact hs.room

theorem mxDone_mxComplete (x : Started) (status detail : Nat) (hs : MxCalm c s) :
    MxDone s (mxComplete c x status detail s) c x.q.cmd.op x.q.seq status detail := by
  obtain ⟨hcur, hdone⟩ := mxComplete_ends (x := x) status detail hs.acked
  refine ⟨hcur, hdone, ?_, ?_⟩
  · rw [mxComplete_calm x status detail hs, mxRun_field (g := Mx.token) c c _ fun _ _ => rfl, State.mx_modMx_self]
  · rw [mxComplete_calm x status detail hs]
    simp only [mxRun, State.modMx, State.core_modCore_self]
    exact Core.queue_setQueue _ _ _

theorem mem_mxComplete (x : Started) (status detail : Nat) (hs : MxCalm c s) : (mxComplete c x status detail s).mem = s.mem := by
  rw [mxComplete_calm x status detail hs]
  rfl

/-! A command that runs goes on with its body. -/

theorem MxRuns.calm (h : MxRuns s c x) : MxCalm c s := by
  obtain ⟨-, -, -, -, -, -, -, -, -, -, hflights, hacked, hroom⟩ := h
  exact ⟨hflights, hacked, hroom⟩

theorem MxRuns.cur (h : MxRuns s c x) : (s.mx c).cur = some x := h.1

theorem MxRuns.status (h : MxRuns s c x) : x.status = 0 := h.2.1

theorem MxRuns.fresh (h : MxRuns s c x) : x.detail = 0 ∧ x.steps = 0 ∧ x.waiting = false ∧ x.parts = [] := by
  obtain ⟨-, -, hdetail, hsteps, hwaiting, hparts, -⟩ := h
  exact ⟨hdetail, hsteps, hwaiting, hparts⟩

variable {cmd : Cmd} {t4 : Bool × Bool × Bool} {check : Started → State → Option (Nat × Nat)}
  {body : Started → State → State}

/-- A turn of a command that reads local memory reads some parts first, or it is its body. -/
theorem runCmd_runs (h : MxRuns s s.curCore x) : runCmd cmd t4 check body s =
    (if cmd.readsLocal then Config.readsFirst s.tick else none).elim (body x s) fun l =>
      setCur s.curCore { x with parts := l.foldl (readPart s s.curCore) [] } s := by
  obtain ⟨hcur, hstatus, -, -, -, hparts, -, hfault, hsampled, hramp, -⟩ := h
  have hramped : (x.ramp && !(s.mx s.curCore).ramped) = false := by
    rcases hramp with hramp | hramp <;> simp [hramp]
  unfold runCmd
  simp only [hcur]
  unfold goCmd
  simp only [hfault, hstatus, hparts, hsampled, hramped, beq_self_eq_true, Bool.and_true, Bool.false_eq_true, if_false, if_true]
  generalize (if cmd.readsLocal then Config.readsFirst s.tick else none) = first
  cases first <;> rfl

theorem mxTurn_runCmd (h : MxRuns s s.curCore x) (p : State → Prop) (hbody : p (body x s)) :
    MxTurn cmd x s (runCmd cmd t4 check body s) (p (runCmd cmd t4 check body s)) := by
  rw [runCmd_runs h]
  unfold MxTurn
  generalize (if cmd.readsLocal then Config.readsFirst s.tick else none) = first
  cases first with
  | some l => rfl
  | none => exact hbody

theorem runCmd_body (h : MxRuns s s.curCore x) (hlocal : cmd.readsLocal = false) : runCmd cmd t4 check body s = body x s := by
  rw [runCmd_runs h, hlocal]
  rfl

theorem mxFail_success (hstatus : x.status = 0) (hdetail : x.detail = 0) (c : Nat) (named : Bool) (s : State) :
    mxFail c x named s = mxComplete c x 0 0 s := by
  unfold mxFail
  rw [hstatus, hdetail]
  rfl

end Sys2Proof.Machine
end

section
/-! SUPPORT. Multiplications: accumulators, groups of products, operand parts read once (R131, R133, R175, R176, R182). -/

namespace Sys2Proof.Machine

variable {c n i j : Nat} {s t : State} {x : Started} {m : MulCmd}

/-! Accumulators. -/

@[simp] theorem Mx.acc_setAcc (u : Mx) (n : Nat) (a : SMap (BitVec 32)) : (u.setAcc n a).acc n = a := by
  unfold Mx.acc Mx.setAcc
  split <;> rfl

@[simp] theorem Mx.poison_setAcc (u : Mx) (n k : Nat) (a : SMap (BitVec 32)) : (u.setAcc n a).poison k = u.poison k := by
  unfold Mx.setAcc
  split <;> rfl

@[simp] theorem Mx.poison_setPoison (u : Mx) (n : Nat) (p : Bool) : (u.setPoison n p).poison n = p := by
  unfold Mx.poison Mx.setPoison
  split <;> rfl

@[simp] theorem Mx.acc_setPoison (u : Mx) (n k : Nat) (p : Bool) : (u.setPoison n p).acc k = u.acc k := by
  unfold Mx.setPoison
  split <;> rfl

/-- A unit without its accumulators and their poison marks. -/
def Mx.apartAcc (u : Mx) : Mx := { u with acc0 := [], acc1 := [], poison0 := false, poison1 := false }

@[simp] theorem Mx.apartAcc_setAcc (u : Mx) (n : Nat) (a : SMap (BitVec 32)) : (u.setAcc n a).apartAcc = u.apartAcc := by
  unfold Mx.setAcc
  split <;> rfl

@[simp] theorem Mx.apartAcc_setPoison (u : Mx) (n : Nat) (p : Bool) : (u.setPoison n p).apartAcc = u.apartAcc := by
  unfold Mx.setPoison
  split <;> rfl

theorem accElem_accMap (f : Nat → Nat → Nat) (hi : i < 32) (hj : j < 32) : accElem (accMap f) i j = f i j % 2 ^ 32 := by
  have hsorted : SMap.Sorted (accMap f) := by
    unfold SMap.Sorted accMap
    rw [List.pairwise_map]
    exact List.pairwise_lt_range
  have hmem : (32 * i + j, BitVec.ofNat 32 (f i j)) ∈ accMap f := by
    refine List.mem_map.2 ⟨32 * i + j, List.mem_range.2 (by omega), ?_⟩
    rw [show (32 * i + j) / 32 = i by omega, show (32 * i + j) % 32 = j by omega]
  rw [accElem, SMap.get_of_mem _ hsorted hmem, BitVec.toNat_ofNat]

theorem accElem_mulAcc (a : MulArgs) (core rows K g0 g1 : Nat) (acc : SMap (BitVec 32)) (hi : i < 32) (hj : j < 32) :
    accElem (mulAcc a core rows K g0 g1 acc) i j =
      (if i < rows then sumGroups a core K g0 g1 i j (accElem acc i j) else accElem acc i j) % 2 ^ 32 :=
  accElem_accMap _ hi hj

/-! Integer mode (R133). -/

/-- A sum of terms is the same modulo `n` when every term is. -/
theorem foldl_add_modEq {n : Int} {f g : Nat → Int} (hfg : ∀ k, f k ≡ g k [ZMOD n]) (l : List Nat) (z : Int) :
    l.foldl (fun z k => z + f k) z ≡ z + (l.map g).sum [ZMOD n] := by
  induction l generalizing z with
  | nil => rw [List.map_nil, List.sum_nil, add_zero]; rfl
  | cons k l ih =>
    rw [List.map_cons, List.sum_cons, ← add_assoc]
    exact (ih _).trans (((hfg k).add_left z).add_right _)

theorem sext_modEq (v : Nat) : sext 32 v ≡ (BitVec.ofNat 32 v).toInt [ZMOD 2 ^ 32] := by
  have hv : sext 32 v ≡ v [ZMOD 2 ^ 32] := by
    unfold sext
    split
    · rfl
    · exact Int.sub_modulus_modEq_iff.2 rfl
  refine hv.trans ?_
  rw [BitVec.toInt_ofNat']
  exact (Int.bmod_emod (m := 2 ^ 32) (x := v)).symm

theorem toField_cast (n : Nat) (z : Int) : (toField n z : Int) = z % 2 ^ n :=
  Int.toNat_of_nonneg (Int.emod_nonneg z (pow_ne_zero n two_ne_zero))

/-- The k of group `g` among K (R131). -/
def groupKs (K g : Nat) : List Nat := ((List.range 4).map fun d => 4 * g + d).filter fun k => decide (k < K)

/-- The k of the groups before `g`, and those of group `g`. -/
theorem range_filter_groups (K g : Nat) : ((List.range (4 * (g + 1))).filter fun k => decide (k < K)) =
    ((List.range (4 * g)).filter fun k => decide (k < K)) ++ groupKs K g := by
  rw [Nat.mul_succ, List.range_add, List.filter_append, groupKs]

theorem range_filter_all (K : Nat) : ((List.range (4 * ((K + 3) / 4))).filter fun k => decide (k < K)) = List.range K := by
  obtain ⟨r, hr⟩ := Nat.exists_eq_add_of_le (show K ≤ 4 * ((K + 3) / 4) by omega)
  rw [hr, List.range_add, List.filter_append, List.filter_eq_self.2 (by simp), List.filter_eq_nil_iff.2 (by simp), List.append_nil]

theorem sumGroups_int_succ {a : MulArgs} (hint : a.int = true) (hpresent : ∀ q, a.present q = true) (core K g i j acc : Nat) :
    sumGroups a core K 0 (g + 1) i j acc = toField 32 ((groupKs K g).foldl
      (fun t k => t + sext 32 (a.a i k) * sext 32 (a.b k j)) (sumGroups a core K 0 g i j acc : Int)) := by
  unfold sumGroups groupKs
  simp only [Nat.sub_zero, List.range_succ, List.foldl_append, List.foldl_cons, List.foldl_nil, Nat.zero_add, hpresent, hint,
    Bool.not_true, Bool.false_eq_true, if_false, if_true]

/-- In integer mode the groups before `g` add their products, modulo 2^32. -/
theorem sumGroups_int {a : MulArgs} (hint : a.int = true) (hpresent : ∀ q, a.present q = true) (core K g i j : Nat) {acc : Nat}
    (hacc : acc < 2 ^ 32) : (sumGroups a core K 0 g i j acc : Int) = ((acc : Int) +
      (((List.range (4 * g)).filter fun k => decide (k < K)).map fun k =>
        (BitVec.ofNat 32 (a.a i k)).toInt * (BitVec.ofNat 32 (a.b k j)).toInt).sum) % 2 ^ 32 := by
  induction g with
  | zero =>
    simp only [sumGroups, Nat.sub_self, List.range_zero, List.foldl_nil, Nat.mul_zero, List.filter_nil, List.map_nil,
      List.sum_nil, add_zero]
    omega
  | succ g ih =>
    rw [sumGroups_int_succ hint hpresent, toField_cast, range_filter_groups, List.map_append, List.sum_append, ← add_assoc]
    refine (foldl_add_modEq (fun k => (sext_modEq _).mul (sext_modEq _)) _ _).trans (Int.ModEq.add_right _ ?_)
    rw [ih]
    exact Int.mod_modEq _ _

/-! Operand parts that a command has read (R182). -/

theorem SMap.set_get {α : Type} [DecidableEq α] (d : α) {l : SMap α} (h : SMap.canon d l) (k : Nat) :
    SMap.set d l k (SMap.get d l k) = l := by
  induction l with
  | nil => simp [SMap.set, SMap.get, SMap.del]
  | cons p l ih =>
    obtain ⟨a, v⟩ := p
    obtain ⟨hsorted, hne⟩ := h
    obtain ⟨hhead, htail⟩ := List.pairwise_cons.1 hsorted
    have hset := ih ⟨htail, fun q hq => hne q (List.mem_cons_of_mem _ hq)⟩
    by_cases hk : k = a
    · have hv : v ≠ d := hne (a, v) List.mem_cons_self
      simp [SMap.set, SMap.get, SMap.put, hk, hv]
    · have hget : SMap.get d ((a, v) :: l) k = SMap.get d l k := if_neg hk
      rw [hget]
      unfold SMap.set at hset ⊢
      split
      · rename_i habsent
        rw [if_pos habsent] at hset
        rw [SMap.del, if_neg hk, hset]
      · rename_i hlisted
        rw [if_neg hlisted] at hset
        have hlt : ¬ k < a := fun hlt => hlisted (SMap.get_absent d l k fun q hq => by have := hhead q hq; omega)
        rw [SMap.put, if_neg hlt, if_neg hk, hset]

/-- Bytes written back as they were read change nothing. -/
theorem putBytes_bytesAt {mem : List Host.Cell} (h : Memory.wf mem) (a n : Nat) : putBytes mem a (bytesAt mem a n) = mem := by
  induction n generalizing a with
  | zero => rfl
  | succ n ih =>
    rw [bytesAt, putBytes, SMap.set_get 0 h]
    exact ih _

/-- The parts are those of the core's local memory as it is. -/
def PartsOf (s : State) (c : Nat) (l : SMap (List Byte × Bool)) : Prop :=
  ∀ p ∈ l, p.2.1 = physBytes s (localKey c (16 * p.1)) 16

theorem partsOf_foldl_readPart (l : List Nat) {parts : SMap (List Byte × Bool)} (h : PartsOf s c parts) :
    PartsOf s c (l.foldl (readPart s c) parts) := by
  induction l generalizing parts with
  | nil => exact h
  | cons k l ih =>
    refine ih ?_
    unfold readPart
    split
    · exact h
    · intro p hp
      rcases SMap.mem_put hp with rfl | hp
      · rfl
      · exact h p hp

theorem partsOf_record (hparts : x.parts = []) (q0 q1 : Nat) : PartsOf s s.curCore (m.record x q0 q1 s).parts :=
  partsOf_foldl_readPart _ (by rw [hparts]; exact fun _ h => absurd h List.not_mem_nil)

theorem mem_overlay (hs : Memory.wf s.mem) (hparts : PartsOf s c x.parts) : (x.overlay c s).mem = s.mem := by
  unfold Started.overlay
  extract_lets clean
  suffices h : ∀ (l : SMap (List Byte × Bool)) (t : State), PartsOf s c l → t.mem = s.mem → (l.foldl (fun t p =>
      let key := localKey c (16 * p.1)
      { t with
        mem := putBytes t.mem key p.2.1
        poison := if p.2.2 then SMap.set false t.poison (key / 64) true
                  else if clean p.1 then SMap.set false t.poison (key / 64) false else t.poison }) t).mem = s.mem from
    h _ s hparts rfl
  intro l
  induction l with
  | nil => exact fun t _ ht => ht
  | cons p l ih =>
    intro t hl ht
    refine ih _ (fun q hq => hl q (List.mem_cons_of_mem _ hq)) ?_
    show putBytes t.mem _ p.2.1 = s.mem
    rw [ht, hl p List.mem_cons_self]
    exact putBytes_bytesAt hs _ _

theorem Started.overlay_nil (hparts : x.parts = []) (c : Nat) (s : State) : x.overlay c s = s := by
  unfold Started.overlay
  rw [hparts]
  rfl

/-! Blocks multiplied into an accumulator, and the end of the multiplication (R153, R161, R175). -/

theorem keepsMx_mulApply (m : MulCmd) (x : Started) (q0 q1 : Nat) (s : State) : KeepsMx Mx.apartAcc s (m.apply x q0 q1 s).2 := by
  unfold MulCmd.apply
  dsimp only
  refine .modMx s s.curCore _ fun u => ?_
  rw [Mx.apartAcc_setPoison, Mx.apartAcc_setAcc]

theorem mulApply_clean {q0 q1 : Nat} (hclean : m.poisoned x q0 q1 (x.overlay s.curCore s) = false) :
    (m.apply x q0 q1 s).1 = x ∧
      (((m.apply x q0 q1 s).2.mx s.curCore).poison m.cmd.acc = (s.mx s.curCore).poison m.cmd.acc) ∧
      ((m.apply x q0 q1 s).2.mx s.curCore).acc m.cmd.acc = mulAcc (m.args x (32 * q0) (x.overlay s.curCore s)) s.curCore m.rows m.K
        (8 * q0) (min (8 * q1) ((m.K + 3) / 4)) ((s.mx s.curCore).acc m.cmd.acc) := by
  unfold MulCmd.apply
  simp [hclean]

/-- A residue check that fails changes of the unit's accumulators only the poison (R153). -/
theorem residueCheck_keeps (m : MulCmd) (x : Started) (s : State) : (residueCheck m x s).1.q = x.q ∧
    (residueCheck m x s).2.curCore = s.curCore ∧ (residueCheck m x s).2.links = s.links ∧
    ∀ n, ((residueCheck m x s).2.mx s.curCore).acc n = (s.mx s.curCore).acc n := by
  unfold residueCheck
  split
  · exact ⟨rfl, rfl, rfl, fun _ => rfl⟩
  · extract_lets c p u
    refine ⟨rfl, (steady_queueRecord _ u).curCore, links_queueRecord _ u, fun n => ?_⟩
    refine ((steady_queueRecord _ u).coreField (fun k => k.mx.acc n) (fun _ => rfl) c).trans ?_
    show (u.mx c).acc n = _
    rw [State.mx_modMx_self]
    exact Mx.acc_setPoison _ _ _ _

/-- The end of a multiplication over an unpoisoned accumulator: the command is done and the accumulators are kept, with status 0
where no residue check fails. -/
theorem mulFinish_ends (hpoison : (s.mx s.curCore).poison m.cmd.acc = false)
    (hacked : hostWritesOf s (seqParty s.curCore) = false) :
    ((m.finish x s).mx s.curCore).cur = none ∧ ((m.finish x s).mx s.curCore).done = x.q.seq ∧
      (∀ n, ((m.finish x s).mx s.curCore).acc n = (s.mx s.curCore).acc n) ∧
      (Config.residue s.tick = none → m.finish x s = mxComplete s.curCore x 0 0 s) := by
  obtain ⟨hq, hcore, hlinks, hacc⟩ := residueCheck_keeps m x s
  have hfinish : ∃ status detail, m.finish x s =
      mxComplete s.curCore (residueCheck m x s).1 status detail (residueCheck m x s).2 := by
    rw [← hcore]
    exact ⟨_, _, rfl⟩
  refine ⟨?_, ?_, ?_, fun hnone => ?_⟩
  · obtain ⟨status, detail, hfinish⟩ := hfinish
    rw [hfinish]
    exact (mxComplete_ends status detail ((hostWritesOf_congr hlinks _).trans hacked)).1
  · obtain ⟨status, detail, hfinish⟩ := hfinish
    rw [hfinish, ← hq]
    exact (mxComplete_ends status detail ((hostWritesOf_congr hlinks _).trans hacked)).2
  · intro n
    obtain ⟨status, detail, hfinish⟩ := hfinish
    rw [hfinish]
    exact (mxComplete_field (g := fun u => u.acc n) _ _ _ _ _ _ fun _ => rfl).trans (hacc n)
  · unfold MulCmd.finish residueCheck
    rw [hnone]
    dsimp only
    rw [hpoison]
    rfl

end Sys2Proof.Machine
end

section
/-! SUPPORT. MX.MMA, and the rotation steps of MX.ROT and MX.MMAR (R143, R172, R175, R176). -/

namespace Sys2Proof.Machine

variable {c : Nat} {cmd : Cmd} {r : Ring} {s t : State} {x : Started} {rest : Started → State → State}

/-! MX.MMA. -/

/-- A multiplication of `x` is over: the elements of its accumulator `n` are as `sum` says, and its status is 0 where no residue
check fails (R153, R175, log 94). -/
def MulEnds (s t : State) (x : Started) (n : Nat) (sum : Nat → Nat → Nat) : Prop :=
  (t.mx s.curCore).cur = none ∧ (t.mx s.curCore).done = x.q.seq ∧
  (Config.residue s.tick = none → MxDone s t s.curCore x.q.cmd.op x.q.seq 0 0 ∧ t.mem = s.mem) ∧
  ∀ i j, i < 32 → j < 32 → accElem ((t.mx s.curCore).acc n) i j = sum i j % 2 ^ 32

/-- An element of an accumulator after the multiplication's groups (R175). -/
def mulElem (m : MulCmd) (a : MulArgs) (core groups : Nat) (acc : SMap (BitVec 32)) (i j : Nat) : Nat :=
  if i < m.rows then sumGroups a core m.K 0 groups i j (accElem acc i j) else accElem acc i j

/-- A multiplication ends once its groups are in an unpoisoned accumulator. -/
theorem mulFinish_mulEnds {m : MulCmd} {a : MulArgs} {groups : Nat} {y : Started} {u : State} (hkeep : KeepsMx (fun _ => ()) s u)
    (hcalm : MxCalm s.curCore s) (hq : y.q = x.q) (hpoison : (u.mx s.curCore).poison m.cmd.acc = false)
    (hprod : (u.mx s.curCore).acc m.cmd.acc = mulAcc a s.curCore m.rows m.K 0 groups ((s.mx s.curCore).acc m.cmd.acc)) :
    MulEnds s (m.finish y u) x m.cmd.acc (mulElem m a s.curCore groups ((s.mx s.curCore).acc m.cmd.acc)) := by
  have hcalm := hkeep.calm hcalm
  have hends := mulFinish_ends (m := m) (x := y) (s := u) (by rwa [hkeep.curCore]) (by rw [hkeep.curCore]; exact hcalm.acked)
  rw [hkeep.curCore, hkeep.tick, hq] at hends
  obtain ⟨hcur, hdone, hkept, hresidue⟩ := hends
  refine ⟨hcur, hdone, fun hnone => ?_, fun i j hi hj => ?_⟩
  · rw [hresidue hnone, ← hq]
    exact ⟨hkeep.mxDone (mxDone_mxComplete y 0 0 hcalm), (mem_mxComplete y 0 0 hcalm).trans hkeep.mem⟩
  · rw [hkept, hprod]
    exact accElem_mulAcc _ _ _ _ _ _ _ hi hj

/-- What an MX.MMA does when it has read no part first and its operands are unpoisoned. -/
theorem mma_body {m : MulCmd} (hruns : MxRuns s s.curCore x) (hacc : (s.mx s.curCore).poison m.cmd.acc = false)
    (hclean : m.poisoned x 0 ((m.K + 31) / 32) s = false) :
    MulEnds s (m.finish (m.apply x 0 ((m.K + 31) / 32) s).1 (m.apply x 0 ((m.K + 31) / 32) s).2) x m.cmd.acc
      (mulElem m (m.args x 0 s) s.curCore ((m.K + 3) / 4) ((s.mx s.curCore).acc m.cmd.acc)) := by
  obtain ⟨-, -, -, hparts⟩ := hruns.fresh
  have hover := Started.overlay_nil hparts s.curCore s
  obtain ⟨hfst, hpoison, hprod⟩ := mulApply_clean (m := m) (q0 := 0) (q1 := (m.K + 31) / 32) (by rw [hover]; exact hclean)
  rw [hover, Nat.mul_zero, Nat.min_eq_right (by omega)] at hprod
  exact mulFinish_mulEnds ((keepsMx_mulApply m x 0 _ s).map fun _ => ()) hruns.calm (congrArg Started.q hfst)
    (hpoison.trans hacc) hprod

theorem mma_turn (hruns : MxRuns s s.curCore x) (p : State → Prop)
    (hbody : let m : MulCmd := ⟨cmd, cmd.count, cmd.flag 2⟩
      p (m.finish (m.apply x 0 ((m.K + 31) / 32) s).1 (m.apply x 0 ((m.K + 31) / 32) s).2)) :
    ∃ t, exec (.mxMma cmd) s = .next t ∧ MxTurn cmd x s t (p t) :=
  ⟨_, rfl, mxTurn_runCmd hruns p (by rw [if_neg (by simp [hruns.status])]; exact hbody)⟩

/-! One attempt at a rotation step. -/

/-- A unit without its tiles and the counts of its rotation steps. -/
def Mx.apartRing (m : Mx) : Mx :=
  { m with front := Latch.empty, back := Latch.empty, ringSent := 0, ringRecv := 0, ringDone := 0, ringFirst := [] }

theorem keepsMx_takeFirst (c : Nat) (r : Ring) (s : State) : KeepsMx Mx.apartRing s (takeFirst c r s) := by
  unfold takeFirst
  dsimp only
  split
  · exact .ite (.modMx s c _) (.refl s)
  · exact .refl s

theorem keepsMx_rotateTry (c : Nat) (s : State) : KeepsMx Mx.apartRing s (rotateTry c s) := by
  unfold rotateTry
  split
  · exact .refl s
  rename_i r _
  extract_lets taken x u takes sent y
  have htaken : KeepsMx Mx.apartRing s taken := keepsMx_takeFirst c r s
  have hsent : KeepsMx Mx.apartRing s sent :=
    .ite (htaken.trans ((KeepsMx.modMx taken r.succ _).trans (.modMx _ c _))) htaken
  exact .ite (hsent.trans (.modMx sent c _)) hsent

/-- A unit that has sent and received takes the tile it received. -/
theorem rotateTry_over (hring : (s.mx c).ring = some r) (hsent : (s.mx c).ringSent = (s.mx c).ringDone + 1)
    (hrecv : (s.mx c).ringRecv = (s.mx c).ringDone + 1) :
    (rotateTry c s).mx c = { s.mx c with front := (s.mx c).back, back := Latch.empty, ringDone := (s.mx c).ringDone + 1 } := by
  have hfirst : takeFirst c r s = s := by
    unfold takeFirst
    dsimp only
    split
    · exact if_neg fun h => by omega
    · rfl
  have hbusy : ((s.mx c).ringSent == (s.mx c).ringDone) = false := beq_eq_false_iff_ne.2 (by omega)
  have htry : rotateTry c s = s.modMx c fun m => { m with front := m.back, back := Latch.empty, ringDone := m.ringDone + 1 } := by
    unfold rotateTry
    simp only [hring, hfirst, hbusy, Bool.false_and, Bool.false_eq_true, if_false]
    exact if_pos ⟨hsent, hrecv⟩
  rw [htry, State.mx_modMx_self]

/-! A rotation step of a command. -/

/-- A step that is over is followed by what `rest` says. -/
theorem rotateStep_over {n : Nat} (hbefore : (s.mx c).ringDone = n)
    (hafter : ((rotateTry c (setCur c { x with waiting := true } s)).mx c).ringDone = n + 1) :
    rotateStep c x rest s = rest { x with steps := x.steps + 1, waiting := false }
      (setCur c { x with steps := x.steps + 1, waiting := false }
        (mxRun c (rotateTry c (setCur c { x with waiting := true } s)))) :=
  if_neg (by omega)

/-- A step that is not over leaves the sequencer waiting for a neighbour. -/
theorem rotateStep_waits (hring : (s.mx c).ring = some r)
    (hsame : ((rotateTry c (setCur c { x with waiting := true } s)).mx c).ringDone = (s.mx c).ringDone) :
    ((rotateStep c x rest s).mx c).wait.mode = 1 ∧ ((rotateStep c x rest s).mx c).wait.reason = 0x0A ∧
      ((rotateStep c x rest s).mx c).cur = some { x with waiting := true } := by
  have hkeep := keepsMx_rotateTry c (setCur c { x with waiting := true } s)
  have hstep : rotateStep c x rest s = ringWait c (rotateTry c (setCur c { x with waiting := true } s)) := if_pos hsame
  have hring' : ((rotateTry c (setCur c { x with waiting := true } s)).mx c).ring = some r :=
    (hkeep.unitField Mx.ring c).trans (((KeepsMx.setCur (g := Mx.ring) s c _).unit c).trans hring)
  have hcur : ((rotateTry c (setCur c { x with waiting := true } s)).mx c).cur = some { x with waiting := true } :=
    (hkeep.unitField Mx.cur c).trans (setCur_cur c _ s)
  rw [hstep]
  generalize rotateTry c (setCur c { x with waiting := true } s) = v at hring' hcur
  have hwait : ∃ target, ringWait c v = mxWait c 0x0A target v := by
    unfold ringWait
    simp only [hring']
    split
    · exact ⟨_, rfl⟩
    · exact ⟨_, rfl⟩
  obtain ⟨target, hwait⟩ := hwait
  obtain ⟨hmode, hreason, -⟩ := mxWait_wait c 0x0A target v
  rw [hwait]
  exact ⟨hmode, hreason, (mxWait_cur c _ _ v).trans hcur⟩

/-- A unit without what the rotation step of its command changes. -/
def Mx.apartStep (m : Mx) : Mx := { m.apartRing with cur := none, wait := ⟨0, 0, 0, 0, []⟩ }

/-- A command that has taken its step goes on in a state that differs in the rings, the command and its wait. -/
theorem keepsMx_rotated (c : Nat) (x y : Started) (s : State) :
    KeepsMx Mx.apartStep s (setCur c y (mxRun c (rotateTry c (setCur c x s)))) :=
  (KeepsMx.setCur s c x).trans
    (((keepsMx_rotateTry c _).map fun m => { m with cur := none, wait := ⟨0, 0, 0, 0, []⟩ }).trans
      ((KeepsMx.mxRun _ c).trans (.setCur _ c y)))

/-! MX.ROT. -/

theorem takesNoPart_success (hring : (s.mx c).ring = some r) (hstatus : x.status = 0) (bad : Bool) :
    takesNoPart s c x bad = false := by
  unfold takesNoPart
  rw [hring, hstatus]
  rfl

theorem exec_mxRot (hruns : MxRuns s s.curCore x) (hlocal : cmd.readsLocal = false) (hring : (s.mx s.curCore).ring = some r)
    (hcount : x.q.cmd.count = 1) : exec (.mxRot cmd) s = .next (rotateStep s.curCore x
      (fun x t => if x.q.cmd.count ≤ x.steps then mxFail s.curCore x false t else t) s) := by
  obtain ⟨-, hsteps, -, -⟩ := hruns.fresh
  refine congrArg Host.Outcome.next ((runCmd_body hruns hlocal).trans ?_)
  unfold rotateOnly
  dsimp only
  rw [takesNoPart_success hring hruns.status, hcount, hsteps]
  rfl

/-- MX.ROT of one step that is over at once. -/
theorem mxRot_over (hruns : MxRuns s s.curCore x) (hlocal : cmd.readsLocal = false) (hring : (s.mx s.curCore).ring = some r)
    (hcount : x.q.cmd.count = 1) (hafter : ((rotateTry s.curCore (setCur s.curCore { x with waiting := true } s)).mx
      s.curCore).ringDone = (s.mx s.curCore).ringDone + 1) :
    ∃ t, exec (.mxRot cmd) s = .next t ∧ MxDone s t s.curCore x.q.cmd.op x.q.seq 0 0 ∧ (t.mx s.curCore).front =
      ((rotateTry s.curCore (setCur s.curCore { x with waiting := true } s)).mx s.curCore).front := by
  obtain ⟨hdetail, -, -, -⟩ := hruns.fresh
  refine ⟨_, exec_mxRot hruns hlocal hring hcount, ?_⟩
  rw [rotateStep_over rfl hafter, if_pos (by dsimp only; omega), mxFail_success (by exact hruns.status) (by exact hdetail)]
  have hkeep := keepsMx_rotated s.curCore { x with waiting := true } { x with steps := x.steps + 1, waiting := false } s
  refine ⟨hkeep.mxDone (mxDone_mxComplete _ 0 0 (hkeep.calm hruns.calm)), ?_⟩
  refine (mxComplete_field (g := Mx.front) _ _ _ _ _ _ fun _ => rfl).trans ?_
  exact ((KeepsMx.setCur (g := Mx.front) _ _ _).unit _).trans ((KeepsMx.mxRun (g := Mx.front) _ _).unit _)

/-! MX.MMAR. -/

/-- The body of an MX.MMAR of one tile: the products of the parts it reads, then a rotation step. -/
theorem mmar_turn {m : MulCmd} (hm : m = ⟨cmd, 32, false⟩) (hruns : MxRuns s s.curCore x) (hcount : cmd.count = 1)
    (htile : tileMismatch (s.mx s.curCore).front m.int = false) (p : State → Prop)
    (hbody : p (rotateStep s.curCore (m.apply (m.record x 0 1 s) 0 1 s).1
      (fun x t => if cmd.count ≤ x.steps then m.finish x t else t) (m.apply (m.record x 0 1 s) 0 1 s).2)) :
    ∃ t, exec (.mxMmar cmd) s = .next t ∧ MxTurn cmd x s t (p t) := by
  obtain ⟨-, hsteps, hwaiting, -⟩ := hruns.fresh
  have hm' : (⟨cmd, 32 * cmd.count, false⟩ : MulCmd) = m := by rw [hm, hcount]
  refine ⟨_, rfl, mxTurn_runCmd hruns p ?_⟩
  rw [hm', if_neg (by simp [hruns.status]), if_neg (by simp [hsteps, hcount]), if_neg (by simp [htile]), hwaiting, hsteps]
  exact hbody

/-- MX.MMAR of one tile over unpoisoned operands, whose rotation step is over at once. -/
theorem mmar_body {m : MulCmd} (hK : m.K = 32) {y : Started} (hy : y = m.record x 0 1 s) (hruns : MxRuns s s.curCore x)
    (hcount : cmd.count = 1) (hacc : (s.mx s.curCore).poison m.cmd.acc = false)
    (hclean : m.poisoned y 0 1 (y.overlay s.curCore s) = false)
    (hafter : ((rotateTry s.curCore (setCur s.curCore { (m.apply y 0 1 s).1 with waiting := true } (m.apply y 0 1 s).2)).mx
      s.curCore).ringDone = (s.mx s.curCore).ringDone + 1) :
    MulEnds s (rotateStep s.curCore (m.apply y 0 1 s).1 (fun x t => if cmd.count ≤ x.steps then m.finish x t else t)
        (m.apply y 0 1 s).2) x m.cmd.acc
      (mulElem m (m.args y 0 (y.overlay s.curCore s)) s.curCore 8 ((s.mx s.curCore).acc m.cmd.acc)) := by
  obtain ⟨hfst, hpoison, hprod⟩ := mulApply_clean hclean
  have happly := keepsMx_mulApply m y 0 1 s
  have hbefore : ((m.apply y 0 1 s).2.mx s.curCore).ringDone = (s.mx s.curCore).ringDone :=
    happly.unitField Mx.ringDone s.curCore
  have hq : y.q = x.q := by rw [hy]; rfl
  have hgroups : min (8 * 1) ((m.K + 3) / 4) = 8 := by omega
  rw [hgroups] at hprod
  rw [rotateStep_over hbefore hafter, if_pos (by dsimp only; omega), hfst]
  generalize (m.apply y 0 1 s).2 = a at hpoison hprod happly
  have hstep := keepsMx_rotated s.curCore { y with waiting := true } { y with steps := y.steps + 1, waiting := false } a
  refine mulFinish_mulEnds ((happly.map fun _ => ()).trans (hstep.map fun _ => ())) hruns.calm hq ?_ ?_
  · exact (hstep.unitField (fun u => u.poison m.cmd.acc) s.curCore).trans (hpoison.trans hacc)
  · exact (hstep.unitField (fun u => u.acc m.cmd.acc) s.curCore).trans hprod

end Sys2Proof.Machine
end

section
/-! SUPPORT. MX.RED: the running sum of a ring (R162, R177). -/

namespace Sys2Proof.Machine

variable {c : Nat} {cmd : Cmd} {r : Ring} {p q : Partial} {s t : State} {x : Started}

/-- A unit without the partials on their way to it and the count of those it has sent. -/
def Mx.apartRed (m : Mx) : Mx := { m with redIn := none, redSent := 0, redFirst := [] }

theorem keepsMx_usePartial (c : Nat) (r : Ring) (s : State) : KeepsMx Mx.apartRed s (usePartial c r s) :=
  .modMx s c _ fun m => by split <;> rfl

theorem usePartial_redIn (hin : (s.mx c).redIn = some p) : ((usePartial c r s).mx c).redIn = none := by
  rw [usePartial, State.mx_modMx_self, hin]
  rfl

/-- What handing a partial to the successor changes. -/
theorem sendPartial_eq (hring : (s.mx c).ring = some r) (hsend : sendPartial c q s = some t) :
    t = (s.modMx r.succ fun u => { u with redIn := some q }).modMx c fun u => { u with redSent := u.redSent + 1 } := by
  unfold sendPartial at hsend
  simp only [hring] at hsend
  split at hsend
  · exact (Option.some.inj hsend).symm
  · cases hsend

theorem keepsMx_sendPartial (hring : (s.mx c).ring = some r) (hsend : sendPartial c q s = some t) : KeepsMx Mx.apartRed s t := by
  rw [sendPartial_eq hring hsend]
  exact (KeepsMx.modMx s r.succ _).trans (.modMx _ c _)

theorem sendPartial_redIn (hring : (s.mx c).ring = some r) (hsend : sendPartial c q s = some t) (hsucc : r.succ ≠ c) :
    (t.mx r.succ).redIn = some q := by
  rw [sendPartial_eq hring hsend, State.mx_modMx_ne _ _ hsucc, State.mx_modMx_self]

/-- A member's place after the root that an MX.RED names (R177). -/
def redPlace (r : Ring) (cmd : Cmd) : Nat := (r.pos + r.size - cmd.word 1 % 2 ^ 7 % r.size) % r.size

/-- The partial that a member adds to: an empty one next after the root, else the one that has come in. -/
def redBase (s : State) (c : Nat) (r : Ring) (cmd : Cmd) : Option Partial :=
  if redPlace r cmd = 1 then some ⟨none, false⟩ else partialIn s c r

/-- The sum that leaves a member. -/
def redSum (s : State) (c : Nat) (cmd : Cmd) (p : Partial) : Partial :=
  addPartial ((cmd.word 0).testBit 9) c p ((s.mx c).acc cmd.acc) ((s.mx c).poison cmd.acc) false

/-- The root takes a sum into its accumulator. -/
def redTake (c n : Nat) (p q : Partial) (t : State) : State :=
  if p.elems.isNone then t
  else t.modMx c fun u => (u.setAcc n (accMap fun i j => (q.elems.getD []).getD (32 * i + j) 0)).setPoison n q.poison

theorem redTake_some {l : List Nat} {b : Bool} (c n : Nat) (q : Partial) (t : State) :
    KeepsMx Mx.apartAcc t (redTake c n ⟨some l, b⟩ q t) ∧ ((redTake c n ⟨some l, b⟩ q t).mx c).poison n = q.poison ∧
      ∀ i j, i < 32 → j < 32 → accElem (((redTake c n ⟨some l, b⟩ q t).mx c).acc n) i j =
        (q.elems.getD []).getD (32 * i + j) 0 % 2 ^ 32 := by
  have htake : redTake c n ⟨some l, b⟩ q t = t.modMx c fun u =>
      (u.setAcc n (accMap fun i j => (q.elems.getD []).getD (32 * i + j) 0)).setPoison n q.poison := rfl
  rw [htake, State.mx_modMx_self, Mx.poison_setPoison, Mx.acc_setPoison, Mx.acc_setAcc]
  refine ⟨.modMx t c _ fun u => ?_, rfl, fun i j hi hj => accElem_accMap _ hi hj⟩
  rw [Mx.apartAcc_setPoison, Mx.apartAcc_setAcc]

/-- The end of an MX.RED that has made its exchange. -/
def redEnd (c n : Nat) (x : Started) (t : State) : State :=
  let t := t.modMx c fun u => { u with redDone := u.redDone + 1 }
  let bad := (t.mx c).poison n
  mxComplete c x (if bad then 1 else 0) (if bad then 1 else 0) t

/-- An MX.RED of status 0 on a unit in a ring (R177). -/
def redBody (cmd : Cmd) (r : Ring) (c : Nat) (x : Started) (s : State) : State :=
  match redBase s c r cmd with
  | none => mxWait c 0x0A (seqParty r.pred) s
  | some p =>
    if redPlace r cmd = 0 then redEnd c cmd.acc x (redTake c cmd.acc p (redSum s c cmd p) (usePartial c r s))
    else match sendPartial c (redSum s c cmd p) s with
      | some t => redEnd c cmd.acc x (if redPlace r cmd = 1 then t else usePartial c r t)
      | none => mxWait c 0x0A (seqParty r.succ) s

theorem flag_one (cmd : Cmd) : cmd.flag 1 = (cmd.word 0).testBit 9 := by
  rw [Nat.testBit_eq_decide_div_mod_eq]
  rfl

theorem exec_mxRed (hruns : MxRuns s s.curCore x) (hlocal : cmd.readsLocal = false) (hring : (s.mx s.curCore).ring = some r) :
    exec (.mxRed cmd) s = .next (redBody cmd r s.curCore x s) := by
  refine congrArg Host.Outcome.next ((runCmd_body hruns hlocal).trans ?_)
  have hfield : cmd.field 1 0 7 = cmd.word 1 % 2 ^ 7 := bits_zero _ _
  have hstatus : (x.status != 0) = false := by rw [hruns.status]; rfl
  simp only [hring, takesNoPart_success hring hruns.status, hstatus, hfield, flag_one cmd, Bool.false_or, Bool.false_eq_true,
    if_false]
  rfl

theorem redEnd_clean (n : Nat) (x : Started) (hpoison : (t.mx c).poison n = false) :
    redEnd c n x t = mxComplete c x 0 0 (t.modMx c fun u => { u with redDone := u.redDone + 1 }) := by
  have hbad : ((t.modMx c fun u => { u with redDone := u.redDone + 1 }).mx c).poison n = false :=
    (State.mx_modMx_field (g := fun u => u.poison n) t c c).trans hpoison
  unfold redEnd
  simp only [hbad, Bool.false_eq_true, if_false]

/-- An exchange over unpoisoned sums ends the command. -/
theorem redEnd_done {n : Nat} {x : Started} {α : Type} {g : Mx → α} (hkeep : KeepsMx g s t) (hcalm : MxCalm c s)
    (hpoison : (t.mx c).poison n = false) :
    MxDone s (redEnd c n x t) c x.q.cmd.op x.q.seq 0 0 ∧ ((redEnd c n x t).mx c).redDone = (t.mx c).redDone + 1 ∧
      (∀ d, ((redEnd c n x t).mx d).redIn = (t.mx d).redIn) ∧ ∀ d k, ((redEnd c n x t).mx d).acc k = (t.mx d).acc k := by
  have hcount : KeepsMx (fun _ => ()) s (t.modMx c fun u => { u with redDone := u.redDone + 1 }) :=
    (hkeep.map fun _ => ()).trans (.modMx t c _)
  rw [redEnd_clean n x hpoison]
  refine ⟨hcount.mxDone (mxDone_mxComplete x 0 0 (hcount.calm hcalm)), ?_, fun d => ?_, fun d k => ?_⟩
  · rw [mxComplete_field (g := Mx.redDone) c c x 0 0 _ fun _ => rfl, State.mx_modMx_self]
  · exact (mxComplete_field (g := Mx.redIn) c d x 0 0 _ fun _ => rfl).trans (State.mx_modMx_field t c d)
  · exact (mxComplete_field (g := fun u => u.acc k) c d x 0 0 _ fun _ => rfl).trans
      (State.mx_modMx_field (g := fun u => u.acc k) t c d)

/-! The three turns of an MX.RED. -/

theorem red_waits (hplace : redPlace r cmd ≠ 1) (hin : partialIn s c r = none) :
    ((redBody cmd r c x s).mx c).wait.reason = 0x0A ∧ ((redBody cmd r c x s).mx c).wait.targets = [seqParty r.pred] ∧
      ((redBody cmd r c x s).mx c).cur = (s.mx c).cur := by
  have hbase : redBase s c r cmd = none := (if_neg hplace).trans hin
  obtain ⟨-, hreason, htargets⟩ := mxWait_wait c 0x0A (seqParty r.pred) s
  unfold redBody
  rw [hbase]
  exact ⟨hreason, htargets, mxWait_cur c _ _ s⟩

/-- A member that is not the root hands its sum on. -/
theorem red_passes (hcalm : MxCalm c s) (hring : (s.mx c).ring = some r) (hpoison : (s.mx c).poison cmd.acc = false)
    (hplace : redPlace r cmd ≠ 0) (hbase : redBase s c r cmd = some p) (hsend : sendPartial c (redSum s c cmd p) s = some t) :
    MxDone s (redBody cmd r c x s) c x.q.cmd.op x.q.seq 0 0 ∧
      ((redBody cmd r c x s).mx c).redDone = (s.mx c).redDone + 1 ∧
      (r.succ ≠ c → ((redBody cmd r c x s).mx r.succ).redIn = some (redSum s c cmd p)) := by
  have hbody : redBody cmd r c x s = redEnd c cmd.acc x (if redPlace r cmd = 1 then t else usePartial c r t) := by
    unfold redBody
    rw [hbase]
    dsimp only
    rw [if_neg hplace, hsend]
  have hsent := keepsMx_sendPartial hring hsend
  have hkeep : KeepsMx Mx.apartRed s (if redPlace r cmd = 1 then t else usePartial c r t) :=
    .ite hsent (hsent.trans (keepsMx_usePartial c r t))
  have hdone := hkeep.unitField Mx.redDone c
  obtain ⟨hends, hcount, hin, -⟩ := redEnd_done (x := x) hkeep hcalm
    ((hkeep.unitField (fun u => u.poison cmd.acc) c).trans hpoison)
  rw [hbody]
  refine ⟨hends, hcount.trans (congrArg (· + 1) hdone), fun hsucc => (hin r.succ).trans ?_⟩
  split
  · exact sendPartial_redIn hring hsend hsucc
  · rw [usePartial, State.mx_modMx_ne _ _ hsucc]
    exact sendPartial_redIn hring hsend hsucc

/-- Element (i, j) of the sum of the partial `l` and the member's accumulator (R177). -/
def redElem (s : State) (c : Nat) (cmd : Cmd) (l : List Nat) (i j : Nat) : Nat :=
  if (cmd.word 0).testBit 9 then l.getD (32 * i + j) 0 + accElem ((s.mx c).acc cmd.acc) i j
  else fpAdd fp32 (c, 0) (fp32.read (l.getD (32 * i + j) 0)) (fp32.read (accElem ((s.mx c).acc cmd.acc) i j))

theorem redSum_elem {l : List Nat} {i j : Nat} (hi : i < 32) (hj : j < 32) (poison : Bool) :
    ((redSum s c cmd ⟨some l, poison⟩).elems.getD []).getD (32 * i + j) 0 % 2 ^ 32 = redElem s c cmd l i j % 2 ^ 32 := by
  have hrange : (List.range 1024)[32 * i + j]? = some (32 * i + j) := List.getElem?_range (by omega)
  have hrow : (32 * i + j) / 32 = i := by omega
  have hcolumn : (32 * i + j) % 32 = j := by omega
  simp only [redSum, addPartial, redElem, Bool.false_eq_true, if_false, Option.getD_some, List.getD_eq_getElem?_getD,
    List.getElem?_map, hrange, Option.map_some, hrow, hcolumn]
  split
  · exact Nat.mod_mod _ _
  · rfl

/-- The root adds the sum that has come in to its accumulator. -/
theorem red_root {l : List Nat} (hcalm : MxCalm c s) (hpoison : (s.mx c).poison cmd.acc = false) (hplace : redPlace r cmd = 0)
    (hin : (s.mx c).redIn = some ⟨some l, false⟩) :
    MxDone s (redBody cmd r c x s) c x.q.cmd.op x.q.seq 0 0 ∧ ((redBody cmd r c x s).mx c).redIn = none ∧
      ∀ i j, i < 32 → j < 32 → accElem (((redBody cmd r c x s).mx c).acc cmd.acc) i j =
        redElem s c cmd l i j % 2 ^ 32 := by
  have hbase : redBase s c r cmd = some ⟨some l, false⟩ := by
    unfold redBase partialIn
    simp only [hplace, hin, zero_ne_one, if_false]
  have hbody : redBody cmd r c x s = redEnd c cmd.acc x
      (redTake c cmd.acc ⟨some l, false⟩ (redSum s c cmd ⟨some l, false⟩) (usePartial c r s)) := by
    unfold redBody
    rw [hbase]
    exact if_pos hplace
  have hclean : (redSum s c cmd ⟨some l, false⟩).poison = false := by
    rw [redSum, hpoison]
    rfl
  obtain ⟨htaken, hbad, helems⟩ := redTake_some (l := l) (b := false) c cmd.acc (redSum s c cmd ⟨some l, false⟩) (usePartial c r s)
  have hkeep : KeepsMx (fun _ => ()) s _ := ((keepsMx_usePartial c r s).map fun _ => ()).trans (htaken.map fun _ => ())
  obtain ⟨hends, -, hredIn, hacc⟩ := redEnd_done (n := cmd.acc) (x := x) hkeep hcalm (hbad.trans hclean)
  rw [hbody]
  refine ⟨hends, (hredIn c).trans ((htaken.unitField Mx.redIn c).trans (usePartial_redIn hin)), fun i j hi hj => ?_⟩
  rw [hacc, helems i j hi hj]
  exact redSum_elem hi hj false

end Sys2Proof.Machine
end

section
/-! SUPPORT. MX.SYNC: the members of a ring meet (R172, R180). -/

namespace Sys2Proof.Machine

variable {c d : Nat} {cmd : Cmd} {l : List Nat} {r : Ring} {s t : State} {x : Started}

/-! The members of a ring depend on the rings alone. -/

theorem ringCores_congr (h : ∀ d, (t.mx d).ring = (s.mx d).ring) (n c : Nat) : ringCores t n c = ringCores s n c := by
  induction n generalizing c with
  | zero => rfl
  | succ n ih =>
    rw [ringCores, ringCores, h]
    cases (s.mx c).ring with
    | none => rfl
    | some r => exact congrArg (c :: ·) (ih r.succ)

theorem ringMembers_congr (h : ∀ d, (t.mx d).ring = (s.mx d).ring) (c : Nat) : ringMembers t c = ringMembers s c := by
  unfold ringMembers
  simp only [h, ringCores_congr h]

/-! The start of an MX.SYNC. -/

/-- The ring's members have all met. -/
def syncAll (l : List Nat) (s : State) : State :=
  l.foldl (fun s d => s.modMx d fun u => { u with syncDone := true, syncs := u.syncs + 1 }) s

theorem keepsMx_syncAll (l : List Nat) (s : State) : KeepsMx (fun _ => ()) s (syncAll l s) :=
  .foldl l _ (fun s d => .modMx s d _) s

theorem syncAll_syncDone (l : List Nat) (s : State) (h : (s.mx d).syncDone = true ∨ d ∈ l) :
    ((syncAll l s).mx d).syncDone = true := by
  unfold syncAll
  induction l generalizing s with
  | nil => exact h.resolve_right List.not_mem_nil
  | cons e l ih =>
    refine ih _ ?_
    by_cases hd : d = e
    · exact .inl (by rw [hd, State.mx_modMx_self])
    · rw [State.mx_modMx_ne _ _ hd]
      exact h.imp_right fun hmem => (List.mem_cons.1 hmem).resolve_left hd

/-- The member that starts its MX.SYNC. -/
theorem setCur_ring (c : Nat) (y : Started) (s : State) (d : Nat) : ((setCur c y s).mx d).ring = (s.mx d).ring :=
  (KeepsMx.setCur (g := Mx.ring) s c y).unit d

/-- A member that stands in its MX.SYNC for the same meeting as the unit of `c`. -/
def syncsWith (s : State) (c d : Nat) : Bool := inSync (s.mx d) && (s.mx d).syncs == (s.mx c).syncs

theorem startSync_starts (hmembers : ringMembers s c = some l) (hopen : (s.mx c).syncDone = false) : startSync c x s =
    if l.all (syncsWith (setCur c { x with waiting := true } s) c) then syncAll l (setCur c { x with waiting := true } s)
    else setCur c { x with waiting := true } s := by
  have hmembers' := (ringMembers_congr (setCur_ring c { x with waiting := true } s) c).trans hmembers
  unfold startSync
  simp only [hopen, hmembers', Bool.false_eq_true, if_false]
  rfl

/-- The member that starts stands in its MX.SYNC; of the others this is no news. -/
theorem syncsWith_setCur (hopen : (s.mx c).syncDone = false) (hop : x.q.cmd.op = 0x0C) :
    syncsWith (setCur c { x with waiting := true } s) c d = true ↔
      (d ≠ c → inSync (s.mx d) = true ∧ (s.mx d).syncs = (s.mx c).syncs) := by
  have hself : (setCur c { x with waiting := true } s).mx c = { s.mx c with cur := some { x with waiting := true } } :=
    State.mx_modMx_self s c _
  unfold syncsWith
  by_cases hd : d = c
  · subst hd
    simp [hself, inSync, hopen, hop]
  · have hother : (setCur c { x with waiting := true } s).mx d = s.mx d := State.mx_modMx_ne s _ hd
    simp [hself, hother, hd]

/-! The turn of an MX.SYNC. -/

/-- An MX.SYNC of status 0 that has started (R180). -/
def syncTurn (c : Nat) (x : Started) (t : State) : State :=
  if (t.mx c).syncDone then mxComplete c x 0 0 t
  else match (t.mx c).ring with
    | some r => mxWait c 0x0A (seqParty r.pred) t
    | none => t

theorem exec_mxSync (hruns : MxRuns s s.curCore x) (hlocal : cmd.readsLocal = false) (hring : (s.mx s.curCore).ring = some r) :
    exec (.mxSync cmd) s = .next (syncTurn s.curCore x (startSync s.curCore x s)) := by
  obtain ⟨hdetail, -, -, -⟩ := hruns.fresh
  refine congrArg Host.Outcome.next ((runCmd_body hruns hlocal).trans ?_)
  simp only [takesNoPart_success hring hruns.status, hruns.status, hdetail, Bool.false_eq_true, if_false]
  rfl

theorem syncTurn_over (hkeep : KeepsMx (fun _ => ()) s t) (hcalm : MxCalm c s) (hover : (t.mx c).syncDone = true) :
    MxDone s (syncTurn c x t) c x.q.cmd.op x.q.seq 0 0 ∧ ∀ d, ((syncTurn c x t).mx d).syncDone = (t.mx d).syncDone := by
  have hturn : syncTurn c x t = mxComplete c x 0 0 t := if_pos hover
  rw [hturn]
  exact ⟨hkeep.mxDone (mxDone_mxComplete x 0 0 (hkeep.calm hcalm)),
    fun d => mxComplete_field (g := Mx.syncDone) c d x 0 0 t fun _ => rfl⟩

theorem syncTurn_waits (hopen : (t.mx c).syncDone = false) (hring : (t.mx c).ring = some r) :
    syncTurn c x t = mxWait c 0x0A (seqParty r.pred) t := by
  unfold syncTurn
  simp only [hopen, hring, Bool.false_eq_true, if_false]

/-- A member that starts after the ring has met completes. -/
theorem mxSync_met (hruns : MxRuns s s.curCore x) (hlocal : cmd.readsLocal = false) (hring : (s.mx s.curCore).ring = some r)
    (hmet : (s.mx s.curCore).syncDone = true) :
    ∃ t, exec (.mxSync cmd) s = .next t ∧ MxDone s t s.curCore x.q.cmd.op x.q.seq 0 0 := by
  have hstart : startSync s.curCore x s = s := if_pos hmet
  exact ⟨_, (exec_mxSync hruns hlocal hring).trans (by rw [hstart]), (syncTurn_over (.refl s) hruns.calm hmet).1⟩

/-- The last member to start ends the meeting for all. -/
theorem mxSync_last (hruns : MxRuns s s.curCore x) (hlocal : cmd.readsLocal = false) (hring : (s.mx s.curCore).ring = some r)
    (hmembers : ringMembers s s.curCore = some l) (hself : s.curCore ∈ l) (hop : x.q.cmd.op = 0x0C)
    (hopen : (s.mx s.curCore).syncDone = false)
    (hothers : ∀ d ∈ l, d ≠ s.curCore → inSync (s.mx d) = true ∧ (s.mx d).syncs = (s.mx s.curCore).syncs) :
    ∃ t, exec (.mxSync cmd) s = .next t ∧ MxDone s t s.curCore x.q.cmd.op x.q.seq 0 0 ∧
      ∀ d ∈ l, (t.mx d).syncDone = true := by
  have hstart : startSync s.curCore x s = syncAll l (setCur s.curCore { x with waiting := true } s) :=
    (startSync_starts hmembers hopen).trans (if_pos (List.all_eq_true.2 fun d hd => (syncsWith_setCur hopen hop).2 (hothers d hd)))
  have hall : ∀ d ∈ l, ((syncAll l (setCur s.curCore { x with waiting := true } s)).mx d).syncDone = true :=
    fun d hd => syncAll_syncDone l _ (.inr hd)
  have hkeep := (KeepsMx.setCur s s.curCore { x with waiting := true }).trans (keepsMx_syncAll l _)
  obtain ⟨hdone, hkept⟩ := syncTurn_over (x := x) hkeep hruns.calm (hall _ hself)
  exact ⟨_, (exec_mxSync hruns hlocal hring).trans (by rw [hstart]), hdone, fun d hd => (hkept d).trans (hall d hd)⟩

/-- A member that starts before another waits for its predecessor. -/
theorem mxSync_waits (hruns : MxRuns s s.curCore x) (hlocal : cmd.readsLocal = false) (hring : (s.mx s.curCore).ring = some r)
    (hmembers : ringMembers s s.curCore = some l) (hop : x.q.cmd.op = 0x0C) (hopen : (s.mx s.curCore).syncDone = false)
    (hlate : ∃ d ∈ l, d ≠ s.curCore ∧ (inSync (s.mx d) = false ∨ (s.mx d).syncs ≠ (s.mx s.curCore).syncs)) :
    ∃ t, exec (.mxSync cmd) s = .next t ∧ (t.mx s.curCore).wait.reason = 0x0A ∧
      (t.mx s.curCore).wait.targets = [seqParty r.pred] ∧ (t.mx s.curCore).cur = some { x with waiting := true } := by
  have hnot : ¬ l.all (syncsWith (setCur s.curCore { x with waiting := true } s) s.curCore) = true := fun hall => by
    obtain ⟨d, hd, hne, hnot⟩ := hlate
    obtain ⟨hin, hsame⟩ := (syncsWith_setCur hopen hop).1 (List.all_eq_true.1 hall d hd) hne
    rcases hnot with hnot | hnot
    · rw [hin] at hnot
      cases hnot
    · exact hnot hsame
  have hstart := (startSync_starts hmembers hopen).trans (if_neg hnot)
  have hturn : syncTurn s.curCore x (setCur s.curCore { x with waiting := true } s) = _ :=
    syncTurn_waits (((KeepsMx.setCur (g := Mx.syncDone) s _ _).unit _).trans hopen) ((setCur_ring _ _ s _).trans hring)
  obtain ⟨-, hreason, htargets⟩ := mxWait_wait s.curCore 0x0A (seqParty r.pred) (setCur s.curCore { x with waiting := true } s)
  exact ⟨_, (exec_mxSync hruns hlocal hring).trans (by rw [hstart, hturn]), hreason, htargets,
    (mxWait_cur _ _ _ _).trans (setCur_cur _ _ s)⟩

end Sys2Proof.Machine
end

section
/-! SUPPORT. The settlement of the matrix multiplications and the ring commands. -/

namespace Sys2Proof.Machine

variable {cmd : Cmd} {r : Ring} {s t : State} {x : Started}

/-- The sum a member hands on, as R177 says it for the member next after the root and for the others. -/
theorem redBase_of_sum {q : Partial} {mine : List Nat}
    (hmine : mine = (List.range 1024).map fun i => accElem ((s.mx s.curCore).acc cmd.acc) (i / 32) (i % 32))
    (hpoison : (s.mx s.curCore).poison cmd.acc = false)
    (hsum : redPlace r cmd = 1 ∧ q = ⟨some mine, false⟩ ∨ redPlace r cmd ≠ 0 ∧ redPlace r cmd ≠ 1 ∧
      ∃ p, partialIn s s.curCore r = some p ∧
        q = addPartial ((cmd.word 0).testBit 9) s.curCore p ((s.mx s.curCore).acc cmd.acc) false false) :
    redPlace r cmd ≠ 0 ∧ ∃ p, redBase s s.curCore r cmd = some p ∧ q = redSum s s.curCore cmd p := by
  unfold redBase redSum
  rw [hpoison]
  rcases hsum with ⟨hplace, rfl⟩ | ⟨hroot, hplace, p, hin, rfl⟩
  · exact ⟨by omega, _, if_pos hplace, by rw [hmine]; rfl⟩
  · exact ⟨hroot, p, (if_neg hplace).trans hin, rfl⟩

end Sys2Proof.Machine

open Sys2Proof Sys2Proof.Machine in
/-- Settles O41: a multiplication by its groups over one accumulator, a ring command by what its exchange leaves of the units. -/
theorem matrixMultiply : Obligations.MatrixMultiply := by
  unfold Obligations.MatrixMultiply
  refine ⟨?multiply, ?integer, ?rotate, ?multiplyRotate, ?stepOver, ?reduce, ?meet⟩
  case multiply =>
    intro cmd x s hruns c m hacc hclean
    exact mma_turn hruns _ (mma_body (m := m) hruns hacc hclean)
  case integer =>
    intro a core K i j acc hint hpresent hacc
    rw [sumGroups_int hint hpresent core K _ i j hacc, range_filter_all]
  case rotate =>
    intro cmd x r s hruns hlocal hring hcount c v
    exact ⟨fun hover => mxRot_over hruns hlocal hring hcount hover, fun hsame =>
      ⟨_, exec_mxRot hruns hlocal hring hcount, rotateStep_waits hring hsame⟩⟩
  case multiplyRotate =>
    intro cmd x r s hruns hring hcount c m y z htile hacc hclean v
    obtain ⟨-, -, -, hparts⟩ := hruns.fresh
    refine ⟨fun hmem => mem_overlay hmem (partsOf_record hparts 0 1), fun hover => mmar_turn rfl hruns hcount htile _ ?_⟩
    obtain ⟨hcur, hdone, hresidue, helems⟩ := mmar_body rfl rfl hruns hcount hacc hclean hover
    exact ⟨hcur, hdone, fun hnone => (hresidue hnone).1, helems⟩
  case stepOver =>
    intro c r s hring hsent hrecv
    have hunit := rotateTry_over hring hsent hrecv
    exact ⟨congrArg Mx.front hunit, congrArg (fun u => u.back.full) hunit, congrArg Mx.ringDone hunit⟩
  case reduce =>
    intro cmd x r s hruns hlocal hring hsize c n rel mine
    have hexec := exec_mxRed hruns hlocal hring
    refine ⟨fun q t hpoison hsend hsum => ⟨_, hexec, ?_⟩, fun hroot l p hin hclean hpoison => ⟨_, hexec, ?_⟩,
      fun hplace hnone => ⟨_, hexec, ?_⟩⟩
    · obtain ⟨hplace, p, hbase, rfl⟩ := redBase_of_sum rfl hpoison hsum
      exact red_passes hruns.calm hring hpoison hplace hbase hsend
    · exact red_root hruns.calm hpoison hroot (hclean ▸ hin)
    · obtain ⟨hreason, htargets, hcur⟩ := red_waits (x := x) hplace hnone
      exact ⟨hreason, htargets, hcur.trans hruns.cur⟩
  case meet =>
    intro cmd x r l s hruns hlocal hring hmembers hself hop c
    exact ⟨mxSync_met hruns hlocal hring, mxSync_last hruns hlocal hring hmembers hself hop,
      mxSync_waits hruns hlocal hring hmembers hop⟩
end

section
/-! SUPPORT. The start of a command, and the commands that only set a unit (R140, R160, R161, R163, R171, R172).

What a lemma's auto-parameter would prove is written out at each use: the default is evaluated only once every declaration before it
has been checked. -/

namespace Sys2Proof.Machine

variable {c i mask : Nat} {cmd : Cmd} {q : Queued} {s t : State} {y : Started} {named : Bool} {r : Option (Nat × Nat)}
  {t4 : Bool × Bool × Bool} {check : Started → State → Option (Nat × Nat)} {body : Started → State → State}

/-! The accumulators of a unit. -/

/-- The accumulators with their poison marks. -/
def Mx.accs (m : Mx) : SMap (BitVec 32) × SMap (BitVec 32) × Bool × Bool := (m.acc0, m.acc1, m.poison0, m.poison1)

theorem accKept_iff : AccKept s t c ↔ (t.mx c).accs = (s.mx c).accs :=
  ⟨fun ⟨h0, h1, hp0, hp1⟩ => Prod.ext h0 (Prod.ext h1 (Prod.ext hp0 hp1)), fun h => ⟨congrArg (fun p => p.1) h,
    congrArg (fun p => p.2.1) h, congrArg (fun p => p.2.2.1) h, congrArg (fun p => p.2.2.2) h⟩⟩

/-! Words that break their layout (R160, R161). -/

theorem flag_testBit (cmd : Cmd) (i : Nat) : cmd.flag i = (cmd.word 0 / 256).testBit i := by
  rw [Nat.testBit_eq_decide_div_mod_eq, Nat.div_div_eq_div_mul, ← Nat.pow_add 2 8 i]
  rfl

/-- Word 0 of a command that names no accumulator and no count, with flags of its mask alone, is within its layout. -/
theorem bad0_none (hsmall : cmd.word 0 / 256 < 256) (hflags : cmd.word 0 / 256 &&& (255 - mask) = 0) :
    cmd.bad0 mask false (cmd.countBad 0 0) = false := by
  have hreserved : cmd.field 0 17 15 = 0 := by unfold Cmd.field bits; omega
  have hacc : cmd.acc = 0 := by unfold Cmd.acc Cmd.field bits; omega
  have hcount : cmd.count = 0 := by unfold Cmd.count Cmd.field bits; omega
  have hfield : cmd.field 0 8 8 = cmd.word 0 / 256 := Nat.mod_eq_of_lt hsmall
  simp [Cmd.bad0, Cmd.countBad, hreserved, hacc, hcount, hfield, hflags]

/-- A command is within its layout when no word that its check names breaks it and the others are 0. -/
theorem illegal_none {l : List Bool} (hl : ∀ b ∈ l, b = false) (hrest : restZero cmd l.length) : cmd.illegal l = none := by
  have hzero : ∀ b ∈ l ++ (List.range (8 - l.length)).map fun i => cmd.word (l.length + i) != 0, b = false := by
    intro b hb
    rcases List.mem_append.1 hb with hb | hb
    · exact hl b hb
    · obtain ⟨i, hi, rfl⟩ := List.mem_map.1 hb
      have hi := List.mem_range.1 hi
      simp [hrest (l.length + i) (by omega) (by omega)]
  unfold Cmd.illegal
  dsimp only
  rw [show List.findIdx? id _ = none from List.findIdx?_eq_none_iff.2 hzero]

/-- The first word past word 0 that is not 0 is named, where the others must be 0. -/
theorem illegal_word (hpos : 1 ≤ i) (hlt : i < 8) (hbefore : ∀ j, 1 ≤ j → j < i → cmd.word j = 0) (hword : cmd.word i ≠ 0) :
    cmd.illegal [false] = some (6, i) := by
  have hfind : ([false] ++ (List.range 7).map fun j => cmd.word (1 + j) != 0).findIdx? id = some i := by
    refine List.findIdx?_eq_some_iff_getElem.2 ⟨by simpa using hlt, ?_, fun j hj => ?_⟩
    · rw [List.getElem_append_right (by simpa using hpos)]
      simp [Nat.add_sub_cancel' hpos, hword]
    · cases j with
      | zero => simp
      | succ j => simp [Nat.add_comm 1 j, hbefore (j + 1) (by omega) hj]
  unfold Cmd.illegal
  exact congrArg (fun o : Option Nat => match o with | some i => some (6, i) | none => none) hfind

/-! The start of a command (R140). -/

/-- A unit without what the start of a command changes. -/
def Mx.apartStart (m : Mx) : Mx := { m with queue := [], cur := none, syncDone := false, seen := 0 }

/-- Command `q`, with the words of `cmd`, is `y` from state `s` to `t`: nothing of it is done, and of the machine only its unit has
changed. -/
def Starts (s : State) (cmd : Cmd) (q : Queued) (status detail : Nat) (y : Started) (t : State) : Prop :=
  y.q.cmd = cmd ∧ y.q.seq = q.seq ∧ y.status = status ∧ y.detail = detail ∧ KeepsMx Mx.apartStart s t

theorem keepsMx_start (c : Nat) (rest : List Queued) (s : State) :
    KeepsMx Mx.apartStart s (s.modMx c fun m => { m with queue := rest, syncDone := false }) :=
  .modMx s c _ fun _ => rfl

theorem startCmd_ready (h : MxReady s c q) : ∃ y t, startCmd c cmd s = some (y, t) ∧ Starts s cmd q 0 0 y t ∧
    y.fault = none ∧ y.parts = [] ∧ y.sampled = false ∧ (y.ramp && !(t.mx c).ramped) = false := by
  obtain ⟨-, ⟨rest, hqueue⟩, hstart, hlive, honline, hgeom, hramp, -⟩ := h
  have hsame : ((s.mx c).native && (s.mx c).generation != (s.mx c).seen) = false := by
    rcases hgeom with hgeom | hgeom <;> simp [hgeom]
  unfold startCmd
  simp only [hqueue, hstart, hlive, honline, hsame, Bool.not_true, Bool.false_eq_true, if_false]
  refine ⟨_, _, rfl, ⟨rfl, rfl, rfl, rfl, ?_⟩, rfl, rfl, rfl, ?_⟩
  · exact (keepsMx_start c rest s).trans ((KeepsMx.modMx _ c _ (by intro; rfl)).trans (.setCur _ c _ (by intro; rfl)))
  · simp only [setCur, State.mx_modMx_self]
    rcases hramp with hramp | hramp
    · simp [hramp]
    · simp [Nat.not_lt.2 hramp]

theorem MxReady.calm (h : MxReady s c q) : MxCalm c s := by
  obtain ⟨-, -, -, -, -, -, -, hflights, hacked, hroom⟩ := h
  exact ⟨hflights, hacked, hroom⟩

/-- The status of a command that is cancelled, or whose unit is offline. -/
def stopStatus (m : Mx) (q : Queued) (status : Nat) : Prop :=
  q.cancelled = true ∧ status = 5 ∨ q.cancelled = false ∧ m.offline = true ∧ status = 4

theorem stopStatus.pos {m : Mx} {status : Nat} (h : stopStatus m q status) : status ≠ 0 := by
  rcases h with ⟨-, rfl⟩ | ⟨-, -, rfl⟩ <;> decide

theorem startCmd_stops {status : Nat} (hqueue : ∃ l, (s.mx c).queue = q :: l) (hstart : mayStartCmd s c = true)
    (hstop : stopStatus (s.mx c) q status) : ∃ y t, startCmd c cmd s = some (y, t) ∧ Starts s cmd q status 0 y t ∧
      y.fault = none ∧ y.sampled = true ∧ y.ramp = false := by
  obtain ⟨rest, hqueue⟩ := hqueue
  unfold startCmd
  rcases hstop with ⟨hcancelled, rfl⟩ | ⟨hlive, hoffline, rfl⟩
  · simp only [hqueue, hstart, hcancelled, Bool.not_true, Bool.false_eq_true, if_false, if_true]
    exact ⟨_, _, rfl, ⟨rfl, rfl, rfl, rfl, (keepsMx_start c rest s).trans (.setCur _ c _ (by intro; rfl))⟩, rfl, rfl, rfl⟩
  · simp only [hqueue, hstart, hlive, hoffline, Bool.not_true, Bool.false_eq_true, if_false, if_true]
    exact ⟨_, _, rfl, ⟨rfl, rfl, rfl, rfl, (keepsMx_start c rest s).trans (.setCur _ c _ (by intro; rfl))⟩, rfl, rfl, rfl⟩

/-! The turn of a command that starts. -/

/-- A command that reads no local memory is checked and executed in the turn in which it starts. -/
theorem runCmd_starts (hready : MxReady s s.curCore q) (hlocal : cmd.readsLocal = false)
    (hcheck : ∀ x v, v.curCore = s.curCore → check x v = r) : ∃ y t, runCmd cmd t4 check body s = body y t ∧
      Starts s cmd q (r.getD (0, 0)).1 (r.getD (0, 0)).2 y t := by
  obtain ⟨y, t, hstart, ⟨hcmd, hseq, hstatus, hdetail, hkeep⟩, hfault, hparts, hsampled, hramp⟩ :=
    startCmd_ready (cmd := cmd) hready
  have hramp (x : Started) : (y.ramp && !((setCur s.curCore x t).mx s.curCore).ramped) = false := by
    rwa [(KeepsMx.setCur (g := Mx.ramped) t s.curCore x fun _ => rfl).unit]
  obtain ⟨hnone, -⟩ := hready
  unfold runCmd
  simp only [hnone, hstart]
  unfold goCmd
  simp only [hfault, hlocal, hsampled, Started.overlay_nil hparts, hcheck _ t hkeep.curCore, hkeep.curCore, Bool.false_and,
    Bool.false_eq_true, if_false]
  cases r with
  | none =>
    simp only [hramp, Bool.false_eq_true, if_false]
    exact ⟨_, _, rfl, hcmd, hseq, hstatus, hdetail, hkeep.trans (.setCur t _ _ (by intro; rfl))⟩
  | some r =>
    simp only [hramp, Bool.false_eq_true, if_false]
    exact ⟨_, _, rfl, hcmd, hseq, rfl, rfl, hkeep.trans (.setCur t _ _ (by intro; rfl))⟩

theorem runCmd_stops {status : Nat} (hnone : (s.mx s.curCore).cur = none) (hqueue : ∃ l, (s.mx s.curCore).queue = q :: l)
    (hstart : mayStartCmd s s.curCore = true) (hstop : stopStatus (s.mx s.curCore) q status) :
    ∃ y t, runCmd cmd t4 check body s = body y t ∧ Starts s cmd q status 0 y t := by
  obtain ⟨y, t, hgo, hy, hfault, hsampled, hramp⟩ := startCmd_stops (cmd := cmd) hqueue hstart hstop
  obtain ⟨-, -, hstatus, -, -⟩ := id hy
  have hpos : (y.status == 0) = false := beq_eq_false_iff_ne.2 (hstatus ▸ hstop.pos)
  refine ⟨y, t, ?_, hy⟩
  unfold runCmd
  simp only [hnone, hgo]
  unfold goCmd
  simp only [hfault, hpos, hsampled, hramp, Bool.and_false, Bool.false_and, Bool.false_eq_true, if_false, if_true]

/-! Commands whose effect is whole at once. -/

/-- A started command whose effect is whole at once: it fails, or takes its effect, and completes. -/
def wholeTurn (c : Nat) (named : Bool) (effect : Started → State → Nat × Nat × State) (x : Started) (t : State) : State :=
  if x.status ≠ 0 then mxFail c x named t
  else mxComplete c x (effect x t).1 (effect x t).2.1 (effect x t).2.2

theorem simpleCmd_runs (effect : Started → State → Nat × Nat × State) : simpleCmd cmd check named effect s =
    runCmd cmd (false, false, false) check (wholeTurn s.curCore named effect) s := rfl

/-- A command within its layout completes with status 0 after its effect `e`. -/
theorem simpleCmd_done (e : State → State) (he : ∀ t, KeepsMx (fun _ => ()) t (e t)) (hready : MxReady s s.curCore q)
    (hlocal : cmd.readsLocal = false) (hcheck : ∀ x v, v.curCore = s.curCore → check x v = none) :
    ∃ u, KeepsMx Mx.apartStart s u ∧ ∃ t, simpleCmd cmd check named (fun _ v => (0, 0, e v)) s = t ∧
      MxDone s t s.curCore cmd.op q.seq 0 0 ∧ t.mem = s.mem ∧ (t.mx s.curCore).lasting = ((e u).mx s.curCore).lasting := by
  obtain ⟨y, u, hrun, hcmd, hseq, hstatus, -, hkeep⟩ := runCmd_starts (t4 := (false, false, false))
    (body := wholeTurn s.curCore named fun _ v => (0, 0, e v)) hready hlocal hcheck
  have hchanged : KeepsMx (fun _ => ()) s (e u) := (hkeep.map fun _ => ()).trans (he u)
  have hcalm := hchanged.calm hready.calm
  refine ⟨u, hkeep, _, (simpleCmd_runs _).trans (hrun.trans (if_neg (not_not.2 hstatus))), ?_,
    (mem_mxComplete y 0 0 hcalm).trans hchanged.mem, mxComplete_lasting _ _ y 0 0 _⟩
  rw [← hcmd, ← hseq]
  exact hchanged.mxDone (mxDone_mxComplete y 0 0 hcalm)

/-- A command that ends before its effect completes with its status and leaves the accumulators. -/
theorem wholeTurn_fails {status detail : Nat} (effect : Started → State → Nat × Nat × State) (hcalm : MxCalm s.curCore s)
    (hy : Starts s cmd q status detail y t) (hpos : status ≠ 0) :
    MxDone s (wholeTurn s.curCore false effect y t) s.curCore cmd.op q.seq status detail ∧
      AccKept s (wholeTurn s.curCore false effect y t) s.curCore := by
  obtain ⟨rfl, hseq, rfl, rfl, hkeep⟩ := hy
  have hfail : wholeTurn s.curCore false effect y t = mxComplete s.curCore y y.status y.detail t :=
    (if_pos hpos).trans (by simp [mxFail])
  rw [hfail, ← hseq]
  exact ⟨hkeep.mxDone (mxDone_mxComplete y _ _ (hkeep.calm hcalm)), accKept_iff.2
    ((mxComplete_field (g := Mx.accs) _ _ y _ _ t fun _ => rfl).trans (hkeep.unitField Mx.accs _ fun _ => rfl))⟩

/-! MX.NOP (R171). -/

theorem mxNop_done (hready : MxReady s s.curCore q) (hlocal : cmd.readsLocal = false) (hrest : restZero cmd 1)
    (hflags : cmd.word 0 / 256 = 0) : ∃ t, exec (.mxNop cmd) s = .next t ∧ MxDone s t s.curCore cmd.op q.seq 0 0 ∧
      AccKept s t s.curCore ∧ t.mem = s.mem := by
  have hbad := bad0_none (cmd := cmd) (mask := 0) (by omega) (by rw [hflags]; rfl)
  obtain ⟨u, hkeep, t, hrun, hdone, hmem, hunit⟩ := simpleCmd_done (named := false) id .refl hready hlocal fun _ _ _ =>
    illegal_none (l := [cmd.bad0 0 false (cmd.countBad 0 0)]) (by simp [hbad]) hrest
  exact ⟨t, congrArg Host.Outcome.next hrun, hdone,
    accKept_iff.2 ((congrArg Mx.accs hunit).trans (hkeep.unitField Mx.accs _ fun _ => rfl)), hmem⟩

theorem mxNop_illegal (hready : MxReady s s.curCore q) (hlocal : cmd.readsLocal = false) (hflags : cmd.word 0 / 256 = 0)
    (hillegal : cmd.illegal [false] = some (6, i)) :
    ∃ t, exec (.mxNop cmd) s = .next t ∧ MxDone s t s.curCore cmd.op q.seq 6 i ∧ AccKept s t s.curCore := by
  have hbad := bad0_none (cmd := cmd) (mask := 0) (by omega) (by rw [hflags]; rfl)
  obtain ⟨y, t, hrun, hy⟩ := runCmd_starts (r := some (6, i)) (check := fun _ _ => cmd.illegal [cmd.bad0 0 false (cmd.countBad 0 0)])
    hready hlocal fun _ _ _ => by rw [hbad, hillegal]
  exact ⟨_, congrArg Host.Outcome.next ((simpleCmd_runs _).trans hrun), wholeTurn_fails _ hready.calm hy (by decide)⟩

theorem mxNop_stops {status : Nat} (hcalm : MxCalm s.curCore s) (hnone : (s.mx s.curCore).cur = none)
    (hqueue : ∃ l, (s.mx s.curCore).queue = q :: l) (hstart : mayStartCmd s s.curCore = true)
    (hstop : stopStatus (s.mx s.curCore) q status) :
    ∃ t, exec (.mxNop cmd) s = .next t ∧ MxDone s t s.curCore cmd.op q.seq status 0 ∧ AccKept s t s.curCore := by
  obtain ⟨y, t, hrun, hy⟩ := runCmd_stops hnone hqueue hstart hstop
  exact ⟨_, congrArg Host.Outcome.next ((simpleCmd_runs _).trans hrun), wholeTurn_fails _ hcalm hy hstop.pos⟩

/-! MX.MODE (R171). -/

theorem mxMode_done (hready : MxReady s s.curCore q) (hlocal : cmd.readsLocal = false) (hrest : restZero cmd 1)
    (hflags : cmd.word 0 / 256 < 2) : ∃ t, exec (.mxMode cmd) s = .next t ∧ MxDone s t s.curCore cmd.op q.seq 0 0 ∧
      AccKept s t s.curCore ∧ t.mem = s.mem ∧ (t.mx s.curCore).native = decide (cmd.word 0 / 256 = 1) ∧
      (t.mx s.curCore).seen = (s.mx s.curCore).generation := by
  have hmask : cmd.word 0 / 256 &&& (255 - 1) = 0 ∧ (cmd.word 0 / 256).testBit 0 = decide (cmd.word 0 / 256 = 1) := by
    interval_cases cmd.word 0 / 256 <;> decide
  have hbad := bad0_none (by omega) hmask.1
  obtain ⟨u, hkeep, t, hrun, hdone, hmem, hunit⟩ := simpleCmd_done (named := false)
    (fun t => t.modMx t.curCore fun m => { m with native := cmd.flag 0, seen := m.generation })
    (fun t => .modMx t _ _ (by intro; rfl)) hready hlocal fun _ _ _ =>
      illegal_none (l := [cmd.bad0 1 false (cmd.countBad 0 0)]) (by simp [hbad]) hrest
  rw [hkeep.curCore, State.mx_modMx_self] at hunit
  exact ⟨t, congrArg Host.Outcome.next hrun, hdone,
    accKept_iff.2 ((congrArg Mx.accs hunit).trans (hkeep.unitField Mx.accs _ fun _ => rfl)), hmem,
    (congrArg Mx.native hunit).trans ((flag_testBit cmd 0).trans hmask.2),
    (congrArg Mx.seen hunit).trans (hkeep.unitField Mx.generation _ fun _ => rfl)⟩

/-! MX.ZERO (R171). -/

/-- A unit with the accumulators that the command names cleared. -/
def Mx.zeroed (cmd : Cmd) (m : Mx) : Mx :=
  let m := if cmd.flag 0 then (m.setAcc 0 []).setPoison 0 false else m
  if cmd.flag 1 then (m.setAcc 1 []).setPoison 1 false else m

theorem Mx.zeroed_acc0 (cmd : Cmd) (m : Mx) : (m.zeroed cmd).acc0 = (if cmd.flag 0 then [] else m.acc0) ∧
    (m.zeroed cmd).poison0 = (if cmd.flag 0 then false else m.poison0) := by
  unfold Mx.zeroed
  cases cmd.flag 0 <;> cases cmd.flag 1 <;> exact ⟨rfl, rfl⟩

theorem Mx.zeroed_acc1 (cmd : Cmd) (m : Mx) : (m.zeroed cmd).acc1 = (if cmd.flag 1 then [] else m.acc1) ∧
    (m.zeroed cmd).poison1 = (if cmd.flag 1 then false else m.poison1) := by
  unfold Mx.zeroed
  cases cmd.flag 0 <;> cases cmd.flag 1 <;> exact ⟨rfl, rfl⟩

theorem accElem_nil (i j : Nat) : accElem [] i j = 0 := rfl

/-- What is said of an accumulator that a command clears where its flag `b` is set. -/
theorem cleared_of_flag {a a' : SMap (BitVec 32)} {p p' : Bool} {n : Nat} (b : Bool) (hb : b = decide (n = 1))
    (h : a' = (if b then [] else a) ∧ p' = if b then false else p) :
    if n = 1 then (∀ i j, accElem a' i j = 0) ∧ p' = false else a' = a ∧ p' = p := by
  obtain ⟨rfl, rfl⟩ := h
  by_cases hn : n = 1
  · simp [hb, hn, accElem_nil]
  · simp [hb, hn]

theorem mxZero_done (hready : MxReady s s.curCore q) (hlocal : cmd.readsLocal = false) (hrest : restZero cmd 1)
    (hpos : 1 ≤ cmd.word 0 / 256) (hflags : cmd.word 0 / 256 < 4) :
    ∃ t, exec (.mxZero cmd) s = .next t ∧ MxDone s t s.curCore cmd.op q.seq 0 0 ∧ t.mem = s.mem ∧
      (if cmd.word 0 / 256 % 2 = 1 then (∀ i j, accElem (t.mx s.curCore).acc0 i j = 0) ∧ (t.mx s.curCore).poison0 = false
        else (t.mx s.curCore).acc0 = (s.mx s.curCore).acc0 ∧ (t.mx s.curCore).poison0 = (s.mx s.curCore).poison0) ∧
      (if cmd.word 0 / 256 / 2 = 1 then (∀ i j, accElem (t.mx s.curCore).acc1 i j = 0) ∧ (t.mx s.curCore).poison1 = false
        else (t.mx s.curCore).acc1 = (s.mx s.curCore).acc1 ∧ (t.mx s.curCore).poison1 = (s.mx s.curCore).poison1) := by
  have hflag (i : Nat) := flag_testBit cmd i
  obtain ⟨hmask, h0, h1, hsome⟩ : cmd.word 0 / 256 &&& (255 - 3) = 0 ∧ cmd.flag 0 = decide (cmd.word 0 / 256 % 2 = 1) ∧
      cmd.flag 1 = decide (cmd.word 0 / 256 / 2 = 1) ∧ (!cmd.flag 0 && !cmd.flag 1) = false := by
    simp only [hflag]
    interval_cases cmd.word 0 / 256 <;> decide
  have hbad := bad0_none (by omega) hmask
  obtain ⟨u, hkeep, t, hrun, hdone, hmem, hunit⟩ := simpleCmd_done (named := false)
    (fun t => t.modMx t.curCore (Mx.zeroed cmd)) (fun t => .modMx t _ _ (by intro; rfl)) hready hlocal
    fun _ _ _ => illegal_none (l := [cmd.bad0 3 false (cmd.countBad 0 0) || (!cmd.flag 0 && !cmd.flag 1)]) (by simp [hbad, hsome]) hrest
  rw [hkeep.curCore, State.mx_modMx_self] at hunit
  obtain ⟨ha0, ha1, hp0, hp1⟩ := accKept_iff.2 (hkeep.unitField Mx.accs s.curCore fun _ => rfl)
  refine ⟨t, congrArg Host.Outcome.next hrun, hdone, hmem, cleared_of_flag _ h0 ?_, cleared_of_flag _ h1 ?_⟩
  · rw [← ha0, ← hp0]
    exact ⟨(congrArg Mx.acc0 hunit).trans (Mx.zeroed_acc0 cmd _).1, (congrArg Mx.poison0 hunit).trans (Mx.zeroed_acc0 cmd _).2⟩
  · rw [← ha1, ← hp1]
    exact ⟨(congrArg Mx.acc1 hunit).trans (Mx.zeroed_acc1 cmd _).1, (congrArg Mx.poison1 hunit).trans (Mx.zeroed_acc1 cmd _).2⟩

/-! MX.RING (R172). -/

theorem keepsMx_leaveRing (c : Nat) (s : State) : KeepsMx Mx.accs s (leaveRing c s) := by
  unfold leaveRing
  split
  · exact .refl s
  · exact .ite ((KeepsMx.modMx s _ _ (by intro; rfl)).trans (.modMx _ c _ (by intro; rfl))) (.modMx s _ _ (by intro; rfl))

/-- A unit with the ring of an MX.RING, all of its steps to come. -/
def Mx.inRing (cmd : Cmd) (m : Mx) : Mx :=
  { m with
    ring := ringOf cmd, back := Latch.empty, ringSent := 0, ringRecv := 0, ringDone := 0, redIn := none, syncs := 0, redDone := 0,
    redSent := 0, report := none, shared := none }

theorem mxRing_done (hready : MxReady s s.curCore q) (hlocal : cmd.readsLocal = false) (hrest : restZero cmd 2)
    (hflags : cmd.word 0 / 256 < 2) (hring : ringBad s.curCore cmd = false) :
    ∃ t, exec (.mxRing cmd) s = .next t ∧ MxDone s t s.curCore cmd.op q.seq 0 0 ∧ AccKept s t s.curCore ∧
      (t.mx s.curCore).ring = ringOf cmd ∧ (t.mx s.curCore).back.full = false := by
  have hmask : cmd.word 0 / 256 &&& (255 - 1) = 0 := by interval_cases cmd.word 0 / 256 <;> rfl
  have hbad := bad0_none (by omega) hmask
  obtain ⟨u, hkeep, t, hrun, hdone, -, hunit⟩ := simpleCmd_done (named := false)
    (check := fun _ t => cmd.illegal [cmd.bad0 1 false (cmd.countBad 0 0), ringBad t.curCore cmd])
    (fun t => (leaveRing t.curCore t).modMx t.curCore (Mx.inRing cmd))
    (fun t => ((keepsMx_leaveRing _ t).map fun _ => ()).trans (.modMx _ _ _ (by intro; rfl))) hready hlocal
    fun _ v hv => illegal_none (by simp [hbad, hv, hring]) hrest
  rw [hkeep.curCore, State.mx_modMx_self] at hunit
  exact ⟨t, congrArg Host.Outcome.next hrun, hdone, accKept_iff.2 ((congrArg Mx.accs hunit).trans
    (((keepsMx_leaveRing _ u).unit _).trans (hkeep.unitField Mx.accs _ fun _ => rfl))), congrArg Mx.ring hunit,
    congrArg (fun m => m.back.full) hunit⟩

theorem ringOf_word (hflags : cmd.word 0 / 256 = 0) : ∃ r, ringOf cmd = some r ∧ r.size = cmd.word 1 % 2 ^ 7 ∧
    r.pos = cmd.word 1 / 2 ^ 8 % 2 ^ 7 ∧ r.keeper = cmd.word 1 / 2 ^ 16 % 2 ^ 7 ∧ r.succ = cmd.word 1 / 2 ^ 32 % 2 ^ 13 ∧
    r.pred = cmd.word 1 / 2 ^ 48 % 2 ^ 13 := by
  have hflag : cmd.flag 0 = false := by rw [flag_testBit, hflags]; rfl
  unfold ringOf
  rw [hflag]
  exact ⟨_, rfl, bits_zero _ _, rfl, rfl, rfl, rfl⟩

theorem ringOf_none (hflags : cmd.word 0 / 256 = 1) (hword : cmd.word 1 = 0) : ringOf cmd = none ∧ ringBad c cmd = false := by
  have hflag : cmd.flag 0 = true := by rw [flag_testBit, hflags]; rfl
  simp [ringOf, ringBad, hflag, hword]

end Sys2Proof.Machine

open Sys2Proof Sys2Proof.Machine in
/-- Settles O39: each command starts, is within its layout or not, and completes after its effect on the unit. -/
theorem matrixConfiguration : Obligations.MatrixConfiguration := by
  unfold Obligations.MatrixConfiguration
  refine ⟨fun cmd q s hready hlocal hrest => ⟨mxNop_done hready hlocal hrest, mxMode_done hready hlocal hrest,
    mxZero_done hready hlocal hrest⟩, fun cmd q s hready hlocal hrest => ⟨fun hflags hring => ?sets, fun hflags hword => ?drops⟩,
    fun cmd q s i hready hlocal hflags hpos hlt hbefore hword =>
      mxNop_illegal hready hlocal hflags (illegal_word hpos hlt hbefore hword),
    fun cmd q s status hnone hqueue hstart hflights hacked hroom hstop =>
      mxNop_stops ⟨hflights, hacked, hroom⟩ hnone hqueue hstart hstop⟩
  case sets =>
    obtain ⟨t, hexec, hdone, hacc, hset, hback⟩ := mxRing_done hready hlocal hrest (by omega) hring
    exact ⟨t, hexec, hdone, hacc, hset ▸ ringOf_word hflags, hback⟩
  case drops =>
    obtain ⟨hdrop, hring⟩ := ringOf_none (c := s.curCore) hflags hword
    obtain ⟨t, hexec, hdone, -, hset, -⟩ := mxRing_done hready hlocal hrest (by omega) hring
    exact ⟨t, hexec, hdone, hset.trans hdrop⟩
end

section
/-! SUPPORT. Events of the matrix units: tokens, rotation steps, shared scales, scans, ramps (R139, R143, R146, R154 to R159). -/

namespace Sys2Proof.Machine

variable {c d die : Nat} {l : List Nat} {s : State} {x : Started} {cmd : Cmd}

/-- A sequencer that runs has no wait. -/
theorem mxRun_wait (c : Nat) (s : State) : ((mxRun c s).mx c).wait.mode = 0 := by
  rw [mxRun, State.mx_modMx_self]
  dsimp only
  split
  · assumption
  · rfl

/-! TOKEN_PUSH (R139). -/

theorem tokenPush_room {w : Word} (htoken : (s.mx c).token = some w) (hroom : (s.core c).load 4 < 8) :
    ∃ t, exec (.tokenPush c) s = .next t ∧ (t.mx c).token = none ∧ (t.core c).queue 4 = (s.core c).queue 4 ++ [w] ∧
      t.mem = s.mem := by
  refine ⟨_, congrArg Host.Outcome.next (pushToken_room htoken hroom), ?_, ?_, rfl⟩
  · rw [mxRun_field (g := Mx.token) c c _ fun _ _ => rfl, State.mx_modMx_self]
  · simp only [mxRun, State.modMx, State.core_modCore_self]
    exact Core.queue_setQueue _ _ _

theorem tokenPush_full {w : Word} (htoken : (s.mx c).token = some w) (hfull : 8 ≤ (s.core c).load 4) :
    ∃ t, exec (.tokenPush c) s = .next t ∧ (t.mx c).token = some w ∧ (t.mx c).wait.mode = 0 ∧
      t.core c = { s.core c with mx := t.mx c } := by
  have hpush : pushToken c s = mxRun c s := by
    unfold pushToken
    rw [htoken]
    exact if_pos hfull
  refine ⟨_, congrArg Host.Outcome.next hpush, ?_, mxRun_wait c s, ?_⟩
  · exact (mxRun_field (g := Mx.token) c c s fun _ _ => rfl).trans htoken
  · exact (congrArg (fun k : Core => { k with mx := (mxRun c s).mx c })
      ((KeepsMx.mxRun (g := fun _ => ()) s c fun _ _ => rfl).core c) : _)

/-! ROTATION_STEP (R143). -/

theorem rotationStep_over (hcur : (s.mx c).cur = some x) (hrotating : rotating s c = true)
    (hover : ((rotateTry c s).mx c).ringDone ≠ (s.mx c).ringDone) : ∃ t, exec (.rotationStep c) s = .next t ∧
      (t.mx c).cur = some { x with steps := x.steps + 1, waiting := false } ∧ (t.mx c).front = ((rotateTry c s).mx c).front ∧
      (t.mx c).wait.mode = 0 := by
  have hstep : exec (.rotationStep c) s = .next (setCur c { x with steps := x.steps + 1, waiting := false }
      (mxRun c (rotateTry c s))) := by
    show execRotationStep c s = _
    unfold execRotationStep
    simp only [hcur, hrotating, hover, if_true, if_false]
  refine ⟨_, hstep, setCur_cur c _ _, ?_, ?_⟩
  · exact ((KeepsMx.setCur (g := Mx.front) _ c _ fun _ => rfl).unit c).trans ((KeepsMx.mxRun (g := Mx.front) _ c fun _ _ => rfl).unit c)
  · exact (congrArg WaitRec.mode ((KeepsMx.setCur (g := Mx.wait) _ c _ fun _ => rfl).unit c)).trans (mxRun_wait c _)

/-! SCALE_BROADCAST (R146). -/

theorem mx_foldl_modMx_absent {f : Mx → Mx} (hd : d ∉ l) (s : State) :
    (l.foldl (fun s e => s.modMx e f) s).mx d = s.mx d := by
  induction l generalizing s with
  | nil => rfl
  | cons e l ih =>
    rw [List.mem_cons, not_or] at hd
    obtain ⟨hne, hl⟩ := hd
    exact (ih hl _).trans (State.mx_modMx_ne s f hne)

/-- A change made once of each unit in a list. -/
theorem mx_foldl_modMx {f : Mx → Mx} (hd : d ∈ l) (hnodup : l.Nodup) (s : State) :
    (l.foldl (fun s e => s.modMx e f) s).mx d = f (s.mx d) := by
  induction l generalizing s with
  | nil => cases hd
  | cons e l ih =>
    obtain ⟨he, hl⟩ := List.nodup_cons.1 hnodup
    by_cases hde : d = e
    · subst hde
      exact (mx_foldl_modMx_absent he _).trans (State.mx_modMx_self s d f)
    · exact (ih (List.mem_of_ne_of_mem hde hd) hl _).trans (congrArg f (State.mx_modMx_ne s f hde))

/-- A unit that has been given the shared scale. -/
def Mx.shares (scale : Nat) (m : Mx) : Mx := { m with report := none, shared := some scale }

theorem scaleBroadcast_all {tab : Table} (hmembers : ringMembers s c = some l) (hcur : (s.mx c).cur = some x)
    (hkeeper : ringKeeper s c = c) (hall : ∀ d ∈ l, (s.mx d).report.isSome = true) (htab : x.tabC = some tab) (hnodup : l.Nodup) :
    ∃ t, exec (.scaleBroadcast c) s = .next t ∧ ∀ d ∈ l, (t.mx d).report = none ∧
      (t.mx d).shared = some (sharedScale tab (l.filterMap fun d => (s.mx d).report.getD none)) := by
  have hscale : broadcastTry c s = l.foldl (fun t d => t.modMx d
      (Mx.shares (sharedScale tab (l.filterMap fun d => (s.mx d).report.getD none)))) s := by
    unfold broadcastTry
    simp only [hmembers, hcur, htab]
    exact if_pos ⟨hkeeper, List.all_eq_true.2 hall⟩
  refine ⟨_, congrArg Host.Outcome.next hscale, fun d hd => ?_⟩
  rw [mx_foldl_modMx hd hnodup]
  exact ⟨rfl, rfl⟩

/-! SCAN_START, SCAN_PASS and SCAN_FAIL (R154, R156, R157). -/

/-- A unit that a scan slot has taken. -/
def Mx.scans (m : Mx) : Mx := { m with scanning := true, scanHead := false }

theorem scanStart_takes (hfree : ((List.range 1536).filter fun i => (s.mx (die * 1536 + i)).scanning).length < 4)
    (hnext : (scanOrder s die).find? (fun d => wantsScan (s.mx d)) = some c) : ∃ t, exec (.scanStart die) s = .next t ∧
      (t.mx c).scanning = true ∧ mayStartCmd t c = false ∧ (t.mx c).queue = (s.mx c).queue ∧ AccKept s t c := by
  have hunit : ∃ t, exec (.scanStart die) s = .next t ∧ t.mx c = (s.mx c).scans := by
    refine ⟨{ s.modMx c Mx.scans with scanHead := SMap.put s.scanHead die ((c % 1536 + 1) % 1536) }, ?_,
      State.mx_modMx_self s c Mx.scans⟩
    show execScanStart die s = _
    unfold execScanStart
    rw [if_neg (Nat.not_le.2 hfree), hnext]
    rfl
  obtain ⟨t, hexec, hunit⟩ := hunit
  have hscan : (t.mx c).scanning = true := congrArg Mx.scanning hunit
  exact ⟨t, hexec, hscan, by simp [mayStartCmd, hscan], (congrArg Mx.queue hunit :), accKept_iff.2 (congrArg Mx.accs hunit :)⟩

theorem exec_scanPass (hscan : (s.mx c).scanning = true) (hnone : (s.mx c).cur = none) : exec (.scanPass c) s =
    .next (s.modMx c fun m => { m with
      mark := m.done, scanning := false, idleSince := s.clock, ramping := none, ramped := false }) :=
  if_pos (by simp [drained, hscan, hnone])

theorem scanPass_marks (hscan : (s.mx c).scanning = true) (hnone : (s.mx c).cur = none) :
    ∃ t, exec (.scanPass c) s = .next t ∧ (t.mx c).mark = (s.mx c).done ∧ (t.mx c).scanning = false ∧
      (t.mx c).revoked = (s.mx c).revoked ∧ AccKept s t c := by
  refine ⟨_, exec_scanPass hscan hnone, ?_⟩
  rw [accKept_iff, State.mx_modMx_self]
  exact ⟨rfl, rfl, rfl, rfl⟩

theorem Mx.mem_remap (m : Mx) (cells : List (Nat × Nat)) (p : Nat × Nat) :
    p ∈ (m.remap cells).spalled ↔ p ∈ cells ∧ p.1 < 34 ∧ p.2 < 33 := by
  have hlist : (m.remap cells).spalled =
      (List.range 34).flatMap fun r => ((List.range 33).filter fun c => cells.contains (r, c)).map fun c => (r, c) := by
    unfold Mx.remap
    dsimp only
    split
    next h => exact h.symm
    next => rfl
  rw [hlist]
  obtain ⟨r, k⟩ := p
  simp only [List.mem_flatMap, List.mem_range, List.mem_map, List.mem_filter, List.contains_iff_mem, Prod.mk.injEq]
  constructor
  · rintro ⟨r, hr, k, ⟨hk, hmem⟩, rfl, rfl⟩
    exact ⟨hmem, hr, hk⟩
  · rintro ⟨hmem, hr, hk⟩
    exact ⟨r, hr, k, ⟨hk, hmem⟩, rfl, rfl⟩

/-- A unit without the values that have come back to it, which alone of it accesses and records change. -/
def Mx.unanswered (m : Mx) : Mx := { m with replies := [] }

/-- A unit without its fault map and those values. -/
def Mx.apartMap (m : Mx) : Mx := { m with spalled := [], generation := 0, replies := [] }

theorem Mx.apartMap_unanswered (m : Mx) : m.unanswered.apartMap = m.apartMap := rfl

theorem Mx.apartMap_remap (m : Mx) (cells : List (Nat × Nat)) : (m.remap cells).apartMap = m.apartMap := by
  unfold Mx.remap
  dsimp only
  split <;> rfl

theorem State.mx_modSlot (c k : Nat) (f : Slot → Slot) (d : Nat) (s : State) : (s.modSlot c k f).mx d = s.mx d := by
  unfold State.mx
  by_cases hd : d = c
  · rw [hd, State.core_modSlot_self]
    rfl
  · exact congrArg Core.mx (State.core_setSlot_ne s c k d _ hd)

/-- The unit of `c` with the scan it has failed, but for its fault map. -/
def Mx.scanFailed (clock : Nat) (m : Mx) : Mx :=
  { m with
    revoked := ((if seqLe m.done m.mark then none else some ⟨nextSeq m.mark, m.done⟩) :: m.revoked).take 4
    mark := m.done, failures := min 65535 (m.failures + 1), scanning := false, idleSince := clock, ramping := none, ramped := false }

/-- The record and the causes of a failed scan leave the unit as the scan has left it. -/
theorem scanFail_unit (cells : List (Nat × Nat)) (hscan : (s.mx c).scanning = true) (hnone : (s.mx c).cur = none) :
    ∃ t, exec (.scanFail c cells) s = .next t ∧ (t.mx c).unanswered =
      (((s.mx c).scanFailed s.clock).remap ((s.mx c).spalled ++ cells)).unanswered := by
  refine ⟨_, if_neg (by simp [drained, hscan, hnone]), ?_⟩
  have hfold (p : Nat → Bool) (f : Slot → Slot) (u : State) :
      ((List.range 7).foldl (fun t k => if p k then t.modSlot c k f else t) u).mx c = u.mx c := by
    induction List.range 7 generalizing u with
    | nil => rfl
    | cons k l ih =>
      refine (ih _).trans ?_
      dsimp only
      split
      · exact State.mx_modSlot c k f c u
      · rfl
  rw [hfold]
  refine ((steady_queueRecord _ _).coreField (fun k => k.mx.unanswered) (fun _ => rfl) c).trans ?_
  exact congrArg Mx.unanswered (State.mx_modMx_self s c _)

theorem scanFail_revokes (cells : List (Nat × Nat)) (hscan : (s.mx c).scanning = true) (hnone : (s.mx c).cur = none) :
    ∃ t, exec (.scanFail c cells) s = .next t ∧ (t.mx c).mark = (s.mx c).done ∧ (t.mx c).scanning = false ∧ AccKept s t c ∧
      ((s.mx c).failures < 65535 → (t.mx c).failures = (s.mx c).failures + 1) ∧
      (t.mx c).revoked = ((if seqLe (s.mx c).done (s.mx c).mark then none else some ⟨nextSeq (s.mx c).mark, (s.mx c).done⟩) ::
        (s.mx c).revoked).take 4 ∧
      ((∀ p ∈ (s.mx c).spalled, p.1 < 34 ∧ p.2 < 33) →
        ∀ p, p ∈ (t.mx c).spalled ↔ p ∈ (s.mx c).spalled ∨ p ∈ cells ∧ p.1 < 34 ∧ p.2 < 33) := by
  obtain ⟨t, hexec, hunit⟩ := scanFail_unit cells hscan hnone
  have hrest := congrArg Mx.apartMap hunit
  rw [Mx.apartMap_unanswered, Mx.apartMap_unanswered, Mx.apartMap_remap] at hrest
  refine ⟨t, hexec, congrArg Mx.mark hrest, congrArg Mx.scanning hrest, accKept_iff.2 (congrArg Mx.accs hrest :),
    fun hcount => (congrArg Mx.failures hrest).trans (Nat.min_eq_right (by omega)), congrArg Mx.revoked hrest, fun hin p => ?_⟩
  have hcells : (t.mx c).spalled = _ := (congrArg Mx.spalled hunit :)
  refine (hcells ▸ Mx.mem_remap ((s.mx c).scanFailed s.clock) _ p).trans ?_
  rw [List.mem_append]
  constructor
  · rintro ⟨hold | hnew, hp⟩
    · exact .inl hold
    · exact .inr ⟨hnew, hp⟩
  · rintro (hold | ⟨hnew, hp⟩)
    · exact ⟨.inl hold, hin p hold⟩
    · exact ⟨.inr hnew, hp⟩

/-! RAMP (R140, R159). -/

/-- A command that has been sampled is not executed before its unit has ramped. -/
theorem mxNop_unramped (hcur : (s.mx s.curCore).cur = some x) (hfault : x.fault = none) (hsampled : x.sampled = true)
    (hramp : x.ramp = true) (hcold : (s.mx s.curCore).ramped = false) (hlocal : cmd.readsLocal = false) :
    exec (.mxNop cmd) s = .next (mxRun s.curCore s) := by
  refine congrArg Host.Outcome.next ?_
  unfold simpleCmd runCmd
  simp only [hcur]
  unfold goCmd
  simp only [hfault, hlocal, hsampled, hramp, hcold, Bool.false_and, Bool.not_false, Bool.and_self, Bool.false_eq_true, if_false,
    if_true]

theorem ramp_begins (hidle : (s.mx c).ramping = none)
    (hfew : (((List.range 32).map fun i => c / 32 * 32 + i).filter fun d => (s.mx d).ramping.isSome).length < 4)
    (hfirst : ((List.range 32).map fun i => c / 32 * 32 + i).find? (wantsRamp s) = some c) :
    ∃ t, exec (.ramp c) s = .next t ∧ (t.mx c).ramping = some s.clock ∧ (t.mx c).queue = (s.mx c).queue ∧ AccKept s t c := by
  refine ⟨s.modMx c fun m => { m with ramping := some s.clock }, ?_, ?_⟩
  · show execRamp c s = _
    unfold execRamp
    simp only [hidle]
    rw [if_pos ⟨hfew, hfirst⟩]
  rw [accKept_iff, State.mx_modMx_self]
  exact ⟨rfl, rfl, rfl⟩

theorem ramp_ends {b : Nat} (hramping : (s.mx c).ramping = some b) (hover : b + 512 ≤ s.clock) :
    ∃ t, exec (.ramp c) s = .next t ∧ (t.mx c).ramping = none ∧ (t.mx c).ramped = true ∧ (t.mx c).queue = (s.mx c).queue ∧
      AccKept s t c := by
  refine ⟨s.modMx c fun m => { m with ramping := none, ramped := true }, ?_, ?_⟩
  · show execRamp c s = _
    unfold execRamp
    simp only [hramping, hover, if_true]
  rw [accKept_iff, State.mx_modMx_self]
  exact ⟨rfl, rfl, rfl, rfl⟩

end Sys2Proof.Machine
end

section
/-! SUPPORT. MXQ, MXWAIT and MXCURE (R138, R156, R317), and the cause of a geometry change (R151, R369). -/

namespace Sys2Proof.Machine

variable {a b c k : Nat} {s t v : State}

/-! What taking its operands leaves of the units and of a context's vector registers. -/

/-- The matrix units but for the values that have come back to them, and the vector registers of the context that runs. -/
def units (s : State) : (Nat → Mx) × SMap (BitVec 512) := (fun d => (s.mx d).unanswered, s.me.v)

theorem units_modCore (c : Nat) (f : Core → Core) (s : State) (hslots : ∀ x, (f x).slots = x.slots)
    (hmx : ∀ x, (f x).mx = x.mx) : units (s.modCore c f) = units s := by
  have hme : (s.modCore c f).me = s.me := slot_modCore_of_slots c s.curCore s.curSlot f s hslots
  exact Prod.ext (funext fun d => congrArg Mx.unanswered (State.mx_modCore_of_mx s c d hmx)) (congrArg Slot.v hme)

theorem units_modSlot (c k : Nat) (f : Slot → Slot) (s : State) (hf : ∀ y, (f y).v = y.v) :
    units (s.modSlot c k f) = units s := by
  have hme : (s.modSlot c k f).me.v = s.me.v := by
    by_cases h : s.curCore = c ∧ s.curSlot = k
    · obtain ⟨rfl, rfl⟩ := h
      rw [show (s.modSlot s.curCore s.curSlot f).me = f s.me from State.slot_modSlot_self s _ _ f, hf]
    · exact congrArg Slot.v (State.slot_setSlot_ne s c k s.curCore s.curSlot _ (by tauto))
  exact Prod.ext (funext fun d => congrArg Mx.unanswered (State.mx_modSlot c k f d s)) hme

theorem Steady.units (h : Steady s t) : Machine.units t = Machine.units s := by
  have hme : t.me.v = s.me.v := by
    rw [State.me, h.curCore, h.curSlot]
    exact h.slotField Slot.v (fun _ => rfl) _ _
  exact Prod.ext (funext fun d => h.coreField (fun x => x.mx.unanswered) (fun _ => rfl) d) hme

theorem Core.unread_keeps (x : Core) (f : Nat) (w : Word) : (x.unread f w).slots = x.slots ∧ (x.unread f w).mx = x.mx := by
  unfold Core.unread
  dsimp only
  split <;> exact ⟨rfl, rfl⟩

theorem Core.popWord_keeps (x : Core) (f : Nat) : (x.popWord f).slots = x.slots ∧ (x.popWord f).mx = x.mx := by
  unfold Core.popWord
  dsimp only
  split <;> exact ⟨rfl, rfl⟩

theorem units_foldr_unread (c : Nat) (l : List (Nat × Word)) (s : State) :
    units (l.foldr (fun p s => s.modCore c fun y => y.unread p.1 p.2) s) = units s := by
  induction l with
  | nil => rfl
  | cons p l ih =>
    exact (units_modCore c _ _ (fun x => (x.unread_keeps _ _).1) (fun x => (x.unread_keeps _ _).2)).trans ih

theorem units_giveBack (c k : Nat) (s : State) : units (giveBack c k s) = units s := by
  unfold giveBack
  split
  · rfl
  · exact (units_modSlot c k _ _ (by intro; rfl)).trans (units_foldr_unread c _ s)

theorem units_leaveBlocked (c k : Nat) (s : State) : units (leaveBlocked c k s) = units s := by
  unfold leaveBlocked
  split
  · rfl
  · exact units_modCore c _ s (by intro; rfl) (by intro; rfl)

theorem units_exposeMe (h : exposeMe s = .ok () t) : units t = units s := ((steady_exposeMe s).of_ok h).units

theorem units_readied (reads writes : List Nat) (s : State) : units (readied reads writes s) = units s := by
  have hback := units_giveBack s.curCore s.curSlot s
  unfold readied
  extract_lets u
  split
  · split
    · exact (units_leaveBlocked _ _ _).trans ((units_exposeMe ‹_›).trans hback)
    · exact hback
  · exact hback

theorem units_readField (f : Nat) (s : State) : units (readField f s).2 = units s := by
  have hpop : units (s.modCore s.curCore fun x => x.popWord f) = units s :=
    units_modCore _ _ s (fun x => (x.popWord_keeps f).1) (fun x => (x.popWord_keeps f).2)
  unfold readField
  extract_lets c
  split
  · rfl
  split
  · exact hpop
  split
  · exact hpop
  split
  · split
    · exact units_modSlot s.curCore s.curSlot (fun y => { y with miPos := y.miPos + 1 }) s fun _ => rfl
    · rfl
  · rfl

theorem units_readFields (l : List Nat) (s : State) : units (readFields l s).2 = units s := by
  induction l generalizing s with
  | nil => rfl
  | cons f l ih => exact (ih _).trans (units_readField f s)

theorem units_taken (reads writes : List Nat) (s : State) : units (taken reads writes s).2 = units s := by
  unfold taken
  split
  · rfl
  · exact (units_readFields reads _).trans (units_readied reads writes s)

/-- A field of a unit that does not see the values that have come back. -/
theorem unitField_of_units {α : Type} (h : units t = units s) (f : Mx → α) (d : Nat)
    (hf : ∀ m : Mx, f m.unanswered = f m) : f (t.mx d) = f (s.mx d) :=
  (hf _).symm.trans ((congrArg (fun p : (Nat → Mx) × SMap (BitVec 512) => f (p.1 d)) h).trans (hf _))

theorem vr_of_units (h : units t = units s) (n : Nat) : t.me.vr n = s.me.vr n :=
  congrArg (fun p : (Nat → Mx) × SMap (BitVec 512) => SMap.get 0 p.2 n) h

theorem curCore_of_context (h : context t = context s) : t.curCore = s.curCore := congrArg Prod.fst h

/-! MXQ (R138, R139, R317). -/

/-- The entry that the current context queues, with the words of its vector register `a`. -/
def entryOf (a : Nat) (reach : Reg) (t : State) : Queued :=
  ⟨cmdOf (t.me.vr a), reach, nextSeq (t.mx t.curCore).seq, t.partyAt t.curCore t.curSlot, t.me.uid, t.me.tenant, t.me.domain, false⟩

/-- The context's command is the last of its unit's queue. -/
def enqueue (a : Nat) (reach : Reg) (t : State) : State :=
  complete 4 (t.modMx t.curCore fun m => { m with
    queue := m.queue ++ [entryOf a reach t], seq := nextSeq (t.mx t.curCore).seq })

theorem cmdOf_word (x : BitVec 512) : ∀ i, i < 8 → (cmdOf x).word i = (laneAt x 64 i).toNat := by
  intro i hi
  interval_cases i <;> rfl

theorem exec_mxq_full (hsmall : isKeystone s.curCore = false) (hready : Ready [b] [] s)
    (hfull : 2 ≤ (s.mx s.curCore).queue.length) : exec (.mxq a b) s =
      .next (waitFor 1 0x0A false [seqParty s.curCore] (unpop s (taken [b] [] s).2)) := by
  have hcore := curCore_of_context (context_taken [b] [] s)
  have hqueue := unitField_of_units (units_taken [b] [] s) Mx.queue s.curCore fun _ => rfl
  show execMxq a b s = _
  unfold execMxq
  rw [hsmall, issue_ready hready]
  simp only [hcore, hqueue, hfull, Bool.false_eq_true, if_true, if_false]

theorem exec_mxq_room (hsmall : isKeystone s.curCore = false) (hready : Ready [b] [] s)
    (hroom : (s.mx s.curCore).queue.length < 2) (hexpose : exposeMe (taken [b] [] s).2 = .ok () v) :
    exec (.mxq a b) s = .next (enqueue a (source [b] [] s 0) (drainMe v)) := by
  have hcore := curCore_of_context (context_taken [b] [] s)
  have hqueue := unitField_of_units (units_taken [b] [] s) Mx.queue s.curCore fun _ => rfl
  have hdrained : (drainMe v).curCore = s.curCore :=
    (steady_drainMe v).curCore.trans ((curCore_of_context (context_exposeMe hexpose)).trans hcore)
  show execMxq a b s = _
  unfold execMxq
  rw [hsmall, issue_ready hready]
  simp only [hcore, hqueue, Nat.not_le.2 hroom, Bool.false_eq_true, if_false, exposing_ok hexpose]
  rw [← hdrained]
  rfl

theorem mxq_queues (hsmall : isKeystone s.curCore = false) (hready : Ready [b] [] s)
    (hroom : (s.mx s.curCore).queue.length < 2) (hexpose : exposeMe (taken [b] [] s).2 = .ok () v) :
    ∃ (t : State) (q : Queued), exec (.mxq a b) s = .next t ∧ Moved s.me.pcc t.me.pcc (s.me.pc + 4) ∧
      (t.mx s.curCore).queue = (s.mx s.curCore).queue ++ [q] ∧ (t.mx s.curCore).seq = nextSeq (s.mx s.curCore).seq ∧
      q.seq = nextSeq (s.mx s.curCore).seq ∧ q.reach = source [b] [] s 0 ∧ q.tenant = s.me.tenant ∧ q.domain = s.me.domain ∧
      q.cancelled = false ∧ ∀ i, i < 8 → q.cmd.word i = (laneAt (s.me.vr a) 64 i).toNat := by
  have hcontext : context (drainMe v) = context s :=
    (steady_drainMe v).context.trans ((context_exposeMe hexpose).trans (context_taken _ _ s))
  have hunits : units (drainMe v) = units s :=
    (steady_drainMe v).units.trans ((units_exposeMe hexpose).trans (units_taken _ _ s))
  have hexec := exec_mxq_room (a := a) hsmall hready hroom hexpose
  generalize drainMe v = w at hexec hcontext hunits
  have hcore := curCore_of_context hcontext
  have hqueue := unitField_of_units hunits Mx.queue s.curCore fun _ => rfl
  have hseq : nextSeq (w.mx w.curCore).seq = nextSeq (s.mx s.curCore).seq := by
    rw [hcore, unitField_of_units hunits Mx.seq _ fun _ => rfl]
  have hunit : (enqueue a (source [b] [] s 0) w).mx s.curCore = { w.mx s.curCore with
      queue := (w.mx s.curCore).queue ++ [entryOf a (source [b] [] s 0) w], seq := nextSeq (w.mx w.curCore).seq } := by
    rw [← hcore]
    exact (State.mx_modSlot _ _ _ _ _).trans (State.mx_modMx_self w w.curCore _)
  have hmoved : Moved s.me.pcc (enqueue a (source [b] [] s 0) w).me.pcc (s.me.pc + 4) :=
    complete_moved_of_context 4 ((context_modCore _ _ w (by intro; rfl) (by intro; rfl)).trans hcontext)
  simp only [context, Prod.mk.injEq] at hcontext
  obtain ⟨-, -, -, hdomain, htenant, -, -⟩ := hcontext
  refine ⟨_, entryOf a (source [b] [] s 0) w, hexec, hmoved, ?_, ?_, hseq, rfl, htenant, hdomain, rfl, ?_⟩
  · rw [hunit, hqueue]
  · rw [hunit, hseq]
  · rw [← vr_of_units hunits a]
    exact cmdOf_word _

/-! MXWAIT and MXCURE (R156, R317). -/

theorem context_unpop (s t : State) : context (unpop s t) = context t := by
  unfold unpop
  dsimp only
  split
  · exact context_giveBack _ _ t
  · exact (context_modSlot _ _ _ _ (by intro; rfl)).trans (context_modCore s.curCore _ t (by intro; rfl) (by intro; rfl))

/-- A context waits at its instruction. -/
theorem waitFor_waits (reason target arg : Nat) (h : context t = context s) :
    let u := waitFor 1 reason false [target] (t.modMe fun y => { y with waitArg := some arg })
    u.me.wait.mode = 1 ∧ u.me.wait.reason = reason ∧ u.me.wait.targets = [target] ∧ u.me.pcc = s.me.pcc := by
  extract_lets u
  have hme : u.me = ({ t.me with waitArg := some arg } : Slot).enterWait t.clock 1 reason false [target] := by
    show (State.modMe _ _).me = _
    rw [State.me_modMe, State.me_modMe]
    rfl
  obtain ⟨hmode, hreason, htarget, hpcc⟩ := Slot.enterWait_wait { t.me with waitArg := some arg } t.clock 1 reason target
  rw [hme]
  exact ⟨hmode, hreason, htarget, hpcc.trans (congrArg (fun p => p.2.2.1) h)⟩

/-- The number of a command that a ready MXWAIT or MXCURE names. -/
def namedSeq (a : Nat) (s : State) : Nat := (source [a] [] s 0).nat % 2 ^ 32

/-- The wait of an MXWAIT or MXCURE: what it popped is back. -/
def seqWait (reason target arg : Nat) (s t : State) : State :=
  waitFor 1 reason false [target] ((unpop s t).modMe fun y => { y with waitArg := some arg })

theorem seqWait_waits (reason target arg : Nat) (reads writes : List Nat) (s : State) :
    let u := seqWait reason target arg s (taken reads writes s).2
    u.me.wait.mode = 1 ∧ u.me.wait.reason = reason ∧ u.me.wait.targets = [target] ∧ u.me.pcc = s.me.pcc :=
  waitFor_waits reason target arg ((context_unpop _ _).trans (context_taken reads writes s))

theorem seqBad_iff (x : Mx) (n : Nat) : seqBad x n = true ↔ n = 0 ∨ seqLe n x.seq = false := by
  simp [seqBad]

theorem exec_mxwait (hsmall : isKeystone s.curCore = false) (hready : Ready [a] [] s) : exec (.mxwait a) s =
    if seqBad (s.mx s.curCore) (namedSeq a s) then .next (trapMe 0x01 (namedSeq a s) s)
    else if seqLe (namedSeq a s) (s.mx s.curCore).done then .next (complete 4 (taken [a] [] s).2)
    else .next (seqWait 0x0A (seqParty s.curCore) (2 ^ 32 + namedSeq a s) s (taken [a] [] s).2) := by
  have hcore := curCore_of_context (context_taken [a] [] s)
  have hbad (n : Nat) := unitField_of_units (units_taken [a] [] s) (fun x => seqBad x n) s.curCore fun _ => rfl
  have hdone := unitField_of_units (units_taken [a] [] s) Mx.done s.curCore fun _ => rfl
  show execMxwait a s = _
  unfold execMxwait
  rw [hsmall, issue_ready hready]
  simp only [hcore, hbad, hdone, Bool.false_eq_true, if_false]
  rfl

theorem exec_mxcure (hsmall : isKeystone s.curCore = false) (hready : Ready [a] [] s) : exec (.mxcure a) s =
    if seqBad (s.mx s.curCore) (namedSeq a s) then .next (trapMe 0x01 (namedSeq a s) s)
    else match revokedBy (s.mx s.curCore) (namedSeq a s) with
      | some r => .next (trapMe 0x0D r.word s)
      | none =>
        if seqLe (namedSeq a s) (s.mx s.curCore).mark then .next (complete 4 (taken [a] [] s).2)
        else .next (seqWait 0x0E (serviceParty s.curCore) (namedSeq a s) s (taken [a] [] s).2) := by
  have hcore := curCore_of_context (context_taken [a] [] s)
  have hbad (n : Nat) := unitField_of_units (units_taken [a] [] s) (fun x => seqBad x n) s.curCore fun _ => rfl
  have hrevoked (n : Nat) := unitField_of_units (units_taken [a] [] s) (fun x => revokedBy x n) s.curCore fun _ => rfl
  have hmark := unitField_of_units (units_taken [a] [] s) Mx.mark s.curCore fun _ => rfl
  show execMxcure a s = _
  unfold execMxcure
  rw [hsmall, issue_ready hready]
  simp only [hcore, hbad, hrevoked, hmark, Bool.false_eq_true, if_false]
  rfl

/-- An MXWAIT for a command that has been queued. -/
theorem mxwait_results (hsmall : isKeystone s.curCore = false) (hready : Ready [a] [] s)
    (hgood : seqBad (s.mx s.curCore) (namedSeq a s) = false) :
    (seqLe (namedSeq a s) (s.mx s.curCore).done = true → exec (.mxwait a) s = .next (complete 4 (taken [a] [] s).2)) ∧
    (seqLe (namedSeq a s) (s.mx s.curCore).done = false → ∃ t, exec (.mxwait a) s = .next t ∧ t.me.wait.mode = 1 ∧
      t.me.wait.reason = 0x0A ∧ t.me.wait.targets = [seqParty s.curCore] ∧ t.me.pcc = s.me.pcc) := by
  rw [exec_mxwait hsmall hready, hgood, if_neg Bool.false_ne_true]
  refine ⟨fun hdone => if_pos hdone, fun hdone => ⟨_, if_neg (Bool.eq_false_iff.1 hdone), ?_⟩⟩
  exact seqWait_waits _ _ _ [a] [] s

/-- An MXCURE for a command that has been queued. -/
theorem mxcure_results (hsmall : isKeystone s.curCore = false) (hready : Ready [a] [] s)
    (hgood : seqBad (s.mx s.curCore) (namedSeq a s) = false) :
    (∀ r, revokedBy (s.mx s.curCore) (namedSeq a s) = some r →
      exec (.mxcure a) s = .next (trapMe 0x0D (r.last * 2 ^ 32 + r.first) s)) ∧
    (revokedBy (s.mx s.curCore) (namedSeq a s) = none → seqLe (namedSeq a s) (s.mx s.curCore).mark = true →
      exec (.mxcure a) s = .next (complete 4 (taken [a] [] s).2)) ∧
    (revokedBy (s.mx s.curCore) (namedSeq a s) = none → seqLe (namedSeq a s) (s.mx s.curCore).mark = false →
      ∃ t, exec (.mxcure a) s = .next t ∧ t.me.wait.mode = 1 ∧ t.me.wait.reason = 0x0E ∧
        t.me.wait.targets = [serviceParty s.curCore] ∧ t.me.pcc = s.me.pcc) := by
  rw [exec_mxcure hsmall hready, hgood, if_neg Bool.false_ne_true]
  refine ⟨fun r hr => ?_, fun hr hmark => ?_, fun hr hmark => ?_⟩
  · rw [hr]
    rfl
  · rw [hr]
    exact if_pos hmark
  · rw [hr]
    exact ⟨_, if_neg (Bool.eq_false_iff.1 hmark), seqWait_waits _ _ _ [a] [] s⟩

/-! GEOMETRY_TRAP (R151, R369). -/

theorem slot_forget_geometry {p : Pend} (h : p.cause = 0x0E) (s : State) : (forget c k p s).slot c k = s.slot c k := by
  unfold forget
  rw [h]
  exact slot_modCore_of_slots c c k _ s fun _ => rfl

/-- The first slot that may take a cause, which it keeps outside its own registers, traps with it at its program counter. -/
theorem deliverCause_traps {p : Pend} {cause : Nat} (hk : k < 7) (hable : (s.slot c k).able = true) (hdue : dueCause s c k = some p)
    (hcause : p.cause = cause)
    (hfirst : ∀ j, j < k → ¬ ((s.slot c j).able = true ∧ ∃ q, dueCause s c j = some q ∧ q.cause = cause))
    (hvector : (s.slot c k).tvec / 2 ≠ 0) (hreason : (s.slot c k).wait.reason ≠ 0x0D)
    (hforget : (forget c k p s).slot c k = s.slot c k) :
    let t := deliverCause c cause s
    (t.slot c k).tcause = cause ∧ (t.slot c k).tval = p.tval ∧ (t.slot c k).tpc = (s.slot c k).pc ∧
      (t.slot c k).inTrap = true ∧ (t.slot c k).c = (s.slot c k).c := by
  obtain ⟨htrap, hkept⟩ := dueCause_boundary hdue
  have htraps := trapAt_results (cause := p.cause) (tval := p.tval.toNat) (resume := (s.slot c k).pc) (s := forget c k p s)
    (by rwa [hforget]) (by rwa [hforget]) (by rwa [hforget]) (by rwa [hforget])
  rw [hforget, hcause, BitVec.ofNat_toNat, BitVec.setWidth_eq, show (s.slot c k).pc % 2 ^ 52 = (s.slot c k).pc from Nat.mod_mod _ _]
    at htraps
  rwa [deliverCause_eq hk hable hdue hcause hfirst, takePending, hcause]

end Sys2Proof.Machine

open Sys2Proof Sys2Proof.Machine in
/-- Settles O42, event by event, then instruction by instruction. -/
theorem matrixUnitEvents : Obligations.MatrixUnitEvents := by
  unfold Obligations.MatrixUnitEvents
  refine ⟨fun c w s htoken => ⟨tokenPush_room htoken, tokenPush_full htoken⟩,
    fun c x s hcur hrotating hover => rotationStep_over hcur hrotating hover,
    fun c l x tab s hmembers hcur hkeeper hall htab hnodup => scaleBroadcast_all hmembers hcur hkeeper hall htab hnodup,
    fun die c s hfree hnext => scanStart_takes hfree hnext,
    fun c cells s hscan hnone => ⟨scanPass_marks hscan hnone, scanFail_revokes cells hscan hnone⟩,
    fun cmd x s hcur hfault hsampled hramp hcold hlocal => mxNop_unramped hcur hfault hsampled hramp hcold hlocal,
    fun c s => ⟨ramp_begins, fun b => ramp_ends⟩,
    fun a b s hsmall hready => ⟨fun hroom v hexpose => mxq_queues hsmall hready hroom hexpose, exec_mxq_full hsmall hready⟩,
    fun a s hsmall hready => ?named, fun c k p s hk hable hdue hcause hfirst hvector hreason => ⟨_, rfl, deliverCause_traps hk hable
      hdue hcause hfirst hvector hreason (slot_forget_geometry hcause s)⟩⟩
  case named =>
    intro u x n
    refine ⟨fun hbad => ?_, fun hpos hissued => ?_⟩
    · have hbad := (seqBad_iff x n).2 hbad
      exact ⟨(exec_mxwait hsmall hready).trans (if_pos hbad), (exec_mxcure hsmall hready).trans (if_pos hbad)⟩
    · have hgood : seqBad x n = false := by simp [seqBad, hpos, hissued]
      obtain ⟨hdone, hwaits⟩ := mxwait_results hsmall hready hgood
      exact ⟨hdone, hwaits, mxcure_results hsmall hready hgood⟩
end
